-- ==== Sys2Proof/Word.lean ====
section
/-! DEFINITION. The words of the part (R3, R4, R6, R11-R14), its index types, and the one shape of sparse table. -/

namespace Sys2Proof

/-- A byte (R4). -/
abbrev Byte := BitVec 8
/-- A 32-bit word: a scalar register, an FP32 value, a 32-bit register. -/
abbrev Word := BitVec 32
/-- A 64-bit word. -/
abbrev DWord := BitVec 64
/-- A 64 B row of near store, pool or flit payload; byte b is bits [8b+7:8b] (R4, R214). -/
abbrev Row := BitVec 512
/-- A vector register, or a 256 B granule; lane i is bits [32i+31:32i] (R103). -/
abbrev Vec := BitVec 2048
/-- A 16-bit fault code, class.cause (R14). -/
abbrev Code := BitVec 16
/-- A 32-byte fault record (R457), byte 0 in bits [7:0]. -/
abbrev Rec := BitVec 256

/-- A core position i = 12x + y (R32). -/
abbrev Pos := Fin 192
/-- A cluster j = 12g + c (R456). -/
abbrev Clu := Fin 48
/-- A pigeonhole (R12). -/
abbrev Pgh := Fin 64
/-- A memory port, Pontoon port or berth (R12). -/
abbrev Port := Fin 16
/-- A Depot channel (R12). -/
abbrev Chan := Fin 32
/-- Array A0 or A1 of a core, and the Ferry stop of that array (R12, R131). -/
abbrev Arr := Fin 2

/-- A sparse table: keys strictly rising, a key that is not listed holds the table's own default. -/
abbrev Tab (α : Type) := List (Nat × α)

/-- Bytes of host memory that the host's completions of a command's RdCurr reads return (R378); an address
that is not listed returns 0. They are operands: host memory lies outside the part. -/
abbrev HostView := List (Nat × Byte)

/-- Physical column x of a position (R32). -/
def Pos.x (p : Pos) : Nat := p.val / 12
/-- Physical row y of a position (R32). -/
def Pos.y (p : Pos) : Nat := p.val % 12

/-- What the voltage search of R439 meets: the voltage of the first warning at the set target, or the target at
which the warnings stop at 0.850 V, or none. -/
inductive VoltageFinding where
  | warnAt (mv : Nat)
  | slower (mhz : Nat)
  | persists
  deriving DecidableEq, Repr

end Sys2Proof
end

