-- ==== Sys2Proof/Syntax.lean ====
section
/-! DEFINITION. The commands of the part: one constructor of `Instr` per row of spec/opcode_table.json, with the
operands its rule gives it; before it, the shapes of the operands. -/

namespace Sys2Proof

/-- The register fields and MOD of a vector-slot operation (R123). -/
structure VOp where
  vd : BitVec 5
  va : BitVec 5
  vb : BitVec 5
  vc : BitVec 5
  md : BitVec 12
  deriving DecidableEq, Repr

/-- A waybill context (R245): block 0 core, 1 memory port, 2 Depot channel, 3 Pontoon port; its unit; its number. -/
structure CtxId where
  blk  : Fin 4
  unit : Fin 192
  num  : Fin 128
  deriving DecidableEq, Repr

/-- A frame timetable header (R45, R112, R227); the masks and entry addresses are listed by physical position. -/
structure FrameHdr where
  endMark : Nat
  last    : Bool
  c       : Nat
  g       : Nat
  entry   : List (Nat × BitVec 13)
  nstOn   : List (Nat × BitVec 16)
  nstIdle : List (Nat × BitVec 16)
  deckOn  : List (Nat × BitVec 16)
  deckIdle : List (Nat × BitVec 16)
  deriving DecidableEq, Repr

/-- A stack descriptor (R158). -/
structure StackDesc where
  base : Nat
  size : Nat
  spillBase : Nat
  spillSize : Nat
  high : Nat
  low  : Nat
  ahead : Nat
  pushRate : Nat
  popRate  : Nat
  deriving DecidableEq, Repr

/-- A landing-buffer descriptor and the waybill program at its POFF (R247). -/
structure BufDesc where
  num     : Nat
  kind    : Nat
  far     : Nat
  trigger : Nat
  uses    : Nat
  base    : Nat
  size    : Nat
  rate    : Nat
  tix     : Nat
  prog    : List (BitVec 64)
  deriving DecidableEq, Repr

/-- A group descriptor (R280); FP32 and FP64 fields are bit patterns. -/
structure GroupDesc where
  warm    : Nat
  decay   : Nat
  flags   : BitVec 8
  preIter : Nat
  w       : Nat
  p       : Nat
  mult    : Nat
  preK    : Nat
  lrInit  : Word
  lrPeak  : Word
  lrMin   : Word
  gamma   : Word
  beta1   : DWord
  beta2   : DWord
  eps     : Word
  wd      : Word
  preEps  : Word
  preTol  : Word
  deriving DecidableEq, Repr

/-- A shard-table entry (R286). -/
structure ShardEntry where
  shard  : Nat
  group  : Nat
  frozen : Bool
  lx     : Nat
  ly     : Nat
  t      : Word
  deriving DecidableEq, Repr

/-- A peer window (R349). -/
structure PeerWindow where
  dev   : BitVec 18
  op    : Nat
  vc    : Nat
  space : Nat
  coll  : BitVec 16
  base  : Nat
  size  : Nat
  deriving DecidableEq, Repr

/-- A collective descriptor (R358). -/
structure CollDesc where
  coll     : BitVec 16
  group    : Nat
  gated    : Bool
  as8      : Bool
  members  : Nat
  leader   : BitVec 18
  deputy   : BitVec 18
  dlFrames : Nat
  dlOffset : Nat
  expectIn : Nat
  clip     : Nat
  initScale : Byte
  headroom : Nat
  dcoreX   : Nat
  dcoreY   : Nat
  ddesc    : Nat
  target   : Nat
  scale    : Nat
  segments : Nat
  deriving DecidableEq, Repr

/-- An entry of the retain table (R229). -/
structure RetainEntry where
  kind  : Nat
  lx    : Nat
  ly    : Nat
  base  : Nat
  count : Nat
  tag   : Word
  deriving DecidableEq, Repr

/-- What an image holds for one live core: its code pages of the start frame by bundle address, the code and table
bytes of its deck column, its Ferry and router tables, its ranges and descriptors. `trains` and `slots` give the
tables of every frame timetable, by index, for the checks of R46, R140 and R187; the start frame's are placed. `stack` is the 64-byte
descriptor of R158 and `bufs` the 32-byte ones of R247 by context number, byte 0 in bits [7:0]. -/
structure CoreImage where
  lx       : Nat
  ly       : Nat
  bundles  : List (Nat × BitVec 128)
  slotsIn  : List Nat
  deckData : List (Nat × Byte)
  codeBase : Nat
  codeSize : Nat
  trains0  : List (List (BitVec 128))
  trains1  : List (List (BitVec 128))
  slots    : List (List (BitVec 128))
  accum    : List (BitVec 64)
  stack    : Option (BitVec 512)
  bufs     : List (Nat × BitVec 256)
  stepRow  : Nat
  cntSel   : DWord
  deriving DecidableEq, Repr

/-- What an image holds for one fenced position: its router's tables and its pool column's bytes. -/
structure FencedImage where
  pos      : Nat
  slots    : List (List (BitVec 128))
  deckData : List (Nat × Byte)
  deriving DecidableEq, Repr

/-- An inference lane (R174, R176): its logical cores (x, y), its window of tcyc in each frame timetable, its capacity Q, and the core
and descriptors of its query and answer buffers. -/
structure LaneDecl where
  cores  : List (Nat × Nat)
  windows : List (Nat × Nat)
  q      : Nat
  corePos : Nat
  qdesc  : Nat
  adesc  : Nat
  deriving DecidableEq, Repr

/-- A port stream that an image declares (R246): a memory-port, Depot or Pontoon context, the first byte of its staging
range in LPDDR5X, and its descriptor in the form of R247. -/
structure PortStream where
  blk   : Nat
  unit  : Nat
  num   : Nat
  stage : Nat
  desc  : BitVec 256
  deriving DecidableEq, Repr

/-- A landing buffer in a declaration of R260: logical column and row of its core, and its context. -/
structure BufRef where
  lx  : Nat
  ly  : Nat
  num : Nat
  deriving DecidableEq, Repr

/-- A bound image, as its parts. The spec gives every part but not the container that joins them, so LOAD and
BIND_CHECK carry the parts (log entry 3). `deps` names for a buffer one whose progress it needs (R260), `words` the 64-bit words of
the image at the byte offsets that POFF counts (R247). `bodyDigest` is the digest the firmware computes over the body. -/
structure Image where
  digest     : BitVec 512
  bodyDigest : BitVec 512
  shapeHash  : BitVec 256
  period     : Nat
  frames     : List FrameHdr
  cores      : List CoreImage
  fenced     : List FencedImage
  retain     : List RetainEntry
  ports      : List PortStream
  lanes      : List LaneDecl
  windows    : List PeerWindow
  colls      : List CollDesc
  groups     : List (Nat × GroupDesc)
  shards     : List (Nat × ShardEntry)
  splice     : BitVec 3
  rootRecs   : List (Nat × Nat × Nat)
  marked     : List (Nat × Nat)
  deps       : List (BufRef × BufRef)
  words      : List (Nat × DWord)
  namespaces : List Nat
  deriving DecidableEq, Repr

/-- A cell of a near store or deck column that does not hold what is written to it but `stuck` (R240): its bank (0 to 15; in the
deck 2 · bank + die, 16 + die for the spare bank), its row (a deck bank's are those of half 0 and then of half 1) and bit column;
rows and columns beyond the bank's own are its spares (R25, R241). -/
structure BadCell where
  pos   : Pos
  deck  : Bool
  bank  : Nat
  row   : Nat
  col   : Nat
  stuck : Bool
  deriving DecidableEq, Repr

/-- What the start-up tests meet at a boot (R15, R25, R27, R240, R375): cores that fail a test, positions whose always-live units
fail, cells of the on-chip memories that fail, whether the first Postmaster pair fails, UCIe modules that train and that needed
lane repair. -/
structure BootFindings where
  badCores   : List Pos
  alwaysLive : List Pos
  cells      : List BadCell
  pairFails  : Bool
  modules    : BitVec 4
  repaired   : BitVec 4
  deriving DecidableEq, Repr

/-- A Pontoon packet (R339): header fields and its data bytes. -/
structure Packet where
  opc      : Byte
  poison   : Bool
  gated    : Bool
  job      : BitVec 16
  dst      : BitVec 18
  src      : BitVec 18
  coll     : BitVec 16
  sfn      : BitVec 16
  len      : BitVec 16
  addr     : BitVec 64
  deadline : BitVec 48
  zmap     : BitVec 16
  vc       : BitVec 4
  data     : List Byte
  deriving DecidableEq, Repr

/-- A counter named by its place in the counter page (R503): block 0 device, 1 region, 2 UCIe module, 3 memory port,
4 Depot channel, 5 Pontoon port, 6 cluster, 7 deck column, 8 core position. -/
structure CounterId where
  blk  : Fin 9
  unit : Fin 192
  idx  : Fin 32
  deriving DecidableEq, Repr

/-- A flash block (R315): channel, target, LUN, plane and block number. -/
structure BlockId where
  chan   : Chan
  target : Fin 8
  lun    : Fin 8
  plane  : Fin 4
  block  : Fin 524288
  deriving DecidableEq, Repr

/-- The commands: one constructor per row of spec/opcode_table.json, in the table's order. -/
inductive Instr where
  -- pigeonholes and the Postmaster's commands (R395-R419)
  | ring (n : Pgh)
  | cancel (n : Pgh)
  | commandTakeUp
  | commandTimeout (n : Pgh)
  | ownerChangeDiscard (n : Pgh)
  | identify (n : Pgh)
  | status (n : Pgh)
  | faultLog (n : Pgh)
  | berthState (n : Pgh)
  | kill (n : Pgh)
  | load (n : Pgh) (img : Image)
  | bindCheck (n : Pgh) (img : Image)
  | run (n : Pgh)
  | stop (n : Pgh)
  | stepCmd (n : Pgh)
  | resume (n : Pgh)
  | setPolicy (n : Pgh)
  | lrOverride (n : Pgh)
  | alloc (n : Pgh)
  | free (n : Pgh)
  | scrub (n : Pgh)
  | copy (n : Pgh) (host : HostView)
  | biasFlip (n : Pgh)
  | depotStatus (n : Pgh)
  | format (n : Pgh) (defects : List BlockId)
  | nsCreate (n : Pgh)
  | nsDelete (n : Pgh)
  | nsRelease (n : Pgh)
  | nsRead (n : Pgh)
  | nsWrite (n : Pgh) (host : HostView)
  | checkpoint (n : Pgh)
  | restore (n : Pgh)
  | versions (n : Pgh)
  | deadLetter (n : Pgh)
  | depotQuiesce (n : Pgh)
  | configure (n : Pgh) (linkUp : BitVec 16) (roundTripNs : List Nat) (peers : List (BitVec 18))
  | pontStatus (n : Pgh)
  | counters (n : Pgh)
  | contextCnt (n : Pgh)
  | trace (n : Pgh)
  | setFrame (n : Pgh)
  | setClock (n : Pgh)
  | powerLimit (n : Pgh)
  | thermal (n : Pgh)
  | march (n : Pgh) (nstCells deckCells : List BadCell)
  | bgt (n : Pgh)
  | inject (n : Pgh)
  | attest (n : Pgh)
  | gradeRecord (n : Pgh)
  -- writes of registers (R5-R9)
  | tickDoorbellStrike (viaAdmin : Bool) (host : HostView)
  | brtCommitGo (viaAdmin : Bool)
  | brtCommitRevert
  | deliverGo (host : HostView) (volt : VoltageFinding)
  | reenter
  | cntLatch
  | logAckFree (log : Fin 13) (n : BitVec 9)
  | clrSupp (log : Fin 13)
  | clrLost (log : Fin 13)
  | leafW1cClear (off : BitVec 20) (val : Word)
  | hostIdxWrite (b : Port) (which : Fin 3) (val : Word)
  -- `off` is the BAR0 offset; 0x10_0000 names `UCIE.CTO`, which R379 places nowhere (log entry 55)
  | registerWrite (off : BitVec 21) (val : DWord) (wide viaAdmin : Bool)
  -- pins and power (R476, R478, R526-R528)
  | resetNRelease (f : BootFindings)
  | resetNAssert (lowNs : Nat)
  | pwrFailNFall (lowNs : Nat)
  | depotFlushComplete
  | depotBringUp (uids : List Nat)
  -- ticks, frames, stops and the Courier network (R36-R75, R207-R213)
  | internalTick (host : HostView)
  | ftickInEdge (highNs : Nat) (host : HostView)
  | systemTickDelivery (host : HostView)
  | tickLoss (host : HostView)
  | endMarkReached (j : Clu)
  | frameDone (host : HostView)
  | bankWakeComplete (p : Pos) (deck : Bool) (bank : Fin 16)
  | stopDrainTimeout
  | immediateStop (j : Clu)
  | release (j : Clu)
  | stopReached (j : Clu)
  | commit (j : Clu) (frame : BitVec 16)
  | spoil (code : Code) (inClkOfDone : Bool)
  | gateDecision (dupAgrees : Bool)
  | gate (j : Clu) (frame : BitVec 16) (isOpen : Bool)
  | ack (src dst : Fin 64) (cls : BitVec 3) (pay : BitVec 14)
  | notify (src : Fin 64) (code : Code) (spoils : Bool)
  | courierCounterLatch (node : Fin 64)
  | closeInjectionGate (p : Pos)
  | bgtStepStart (p : Pos) (deck : Bool)
  | reservedClassPacket (pkt : Word)
  | courierCrcMismatch (hop : Fin 128)
  | courierResendTimer (src : Fin 64)
  | gateHoldTimeout (j : Clu)
  -- host accesses that can wait for a bank (R220, R380, R385)
  | deviceRequestCompletion (id : Nat) (data : List Byte) (poison : Bool)
  | bar2Access (write : Bool) (off : Nat) (data : List Byte) (len : Nat)
  -- the core's control slot (R107)
  | waitc (p : Pos) (target : BitVec 20)
  | waits (p : Pos) (sa : BitVec 4)
  | rpt (p : Pos) (n : BitVec 16)
  | loop (p : Pos) (level : BitVec 2) (count : BitVec 10) (len : BitVec 8)
  | loops (p : Pos) (level : BitVec 2) (sa : BitVec 4) (len : BitVec 8)
  | jmp (p : Pos) (addr : BitVec 13)
  | bnz (p : Pos) (sa : BitVec 4) (addr : BitVec 13)
  | page (p : Pos) (slot : BitVec 4) (code : BitVec 12)
  | setl (p : Pos) (sd : BitVec 4) (imm : BitVec 16)
  | seth (p : Pos) (sd : BitVec 4) (imm : BitVec 16)
  | salu (p : Pos) (sd sa sb func : BitVec 4)
  | movx (p : Pos) (sa : BitVec 4) (target : BitVec 5)
  | mark (p : Pos) (val : BitVec 16)
  | endOp (p : Pos)
  -- the memory slot (R115)
  | ld (p : Pos) (v : BitVec 5) (a : BitVec 4) (w : BitVec 2)
  | st (p : Pos) (v : BitVec 5) (a : BitVec 4) (w pm : BitVec 2)
  | sta (p : Pos) (v : BitVec 5) (a : BitVec 4) (fmt : BitVec 1)
  | psd (p : Pos) (a : BitVec 4) (arr : Arr) (entry : BitVec 7)
  | dkrd (p : Pos) (a : BitVec 4) (dp : BitVec 3)
  | dkwr (p : Pos) (a : BitVec 4) (dp : BitVec 3)
  | ldl (p : Pos) (a : BitVec 4) (dp : BitVec 3) (d : BitVec 6)
  | stl (p : Pos) (a : BitVec 4) (dp : BitVec 3) (d : BitVec 6)
  | dkrt (p : Pos) (a : BitVec 4) (dp : BitVec 3) (dest : BitVec 1)
  | push (p : Pos) (a : BitVec 4)
  | pop (p : Pos) (a : BitVec 4)
  -- the array slot (R120)
  | feed (p : Pos) (arr : Arr) (acc : Bool) (field : BitVec 4)
  | cfg (p : Pos) (arr : Arr) (field : BitVec 4)
  | swap (p : Pos) (arr : Arr)
  | latch (p : Pos) (arr : Arr)
  -- the vector slot (R122-R129)
  | vadd (p : Pos) (o : VOp)
  | vsub (p : Pos) (o : VOp)
  | vmul (p : Pos) (o : VOp)
  | vfma (p : Pos) (o : VOp)
  | vmax (p : Pos) (o : VOp)
  | vmin (p : Pos) (o : VOp)
  | vabs (p : Pos) (o : VOp)
  | vneg (p : Pos) (o : VOp)
  | vcmp (p : Pos) (o : VOp)
  | vsel (p : Pos) (o : VOp)
  | vmov (p : Pos) (o : VOp)
  | vbc (p : Pos) (o : VOp)
  | vrdp (p : Pos) (o : VOp)
  | vlane (p : Pos) (o : VOp)
  | vrcp (p : Pos) (o : VOp)
  | vsqrt (p : Pos) (o : VOp)
  | vrsqrt (p : Pos) (o : VOp)
  | vdiv (p : Pos) (o : VOp)
  | vexp2 (p : Pos) (o : VOp)
  | vlog2 (p : Pos) (o : VOp)
  | vtanh (p : Pos) (o : VOp)
  | vsigm (p : Pos) (o : VOp)
  | verf (p : Pos) (o : VOp)
  | vsin (p : Pos) (o : VOp)
  | vcos (p : Pos) (o : VOp)
  | vrsum (p : Pos) (o : VOp)
  | vrmax (p : Pos) (o : VOp)
  | vrmin (p : Pos) (o : VOp)
  | vrdot (p : Pos) (o : VOp)
  | viadd (p : Pos) (o : VOp)
  | visub (p : Pos) (o : VOp)
  | vand (p : Pos) (o : VOp)
  | vor (p : Pos) (o : VOp)
  | vxor (p : Pos) (o : VOp)
  | vshl (p : Pos) (o : VOp)
  | vshr (p : Pos) (o : VOp)
  | dadd (p : Pos) (o : VOp)
  | dmul (p : Pos) (o : VOp)
  | dfma (p : Pos) (o : VOp)
  | drsum (p : Pos) (o : VOp)
  | dcvt (p : Pos) (o : VOp)
  | vcvf (p : Pos) (o : VOp)
  | vcvm (p : Pos) (o : VOp)
  | vcvb (p : Pos) (o : VOp)
  | vcvi (p : Pos) (o : VOp)
  | update (p : Pos) (o : VOp)
  -- the network slot (R119)
  | send (p : Pos) (a sa : BitVec 4) (cond : Bool)
  | recv (p : Pos) (a : BitVec 4)
  | recva (p : Pos) (a : BitVec 4)
  | recvaB (p : Pos) (a : BitVec 4)
  | drop (p : Pos)
  -- the Ferry stops: a train-table entry, and the flit of it that this tcyc covers (R139, R140)
  | pass (p : Pos) (arr : Arr) (e : BitVec 128) (i : BitVec 8)
  | take (p : Pos) (arr : Arr) (e : BitVec 128) (i : BitVec 8)
  | sink (p : Pos) (arr : Arr) (e : BitVec 128) (i : BitVec 8)
  | ferrySend (p : Pos) (arr : Arr) (e : BitVec 128) (i : BitVec 8)
  | fetch (p : Pos) (arr : Arr) (e : BitVec 128)
  | accept (p : Pos) (arr : Arr) (e : BitVec 128)
  | trainTableLoad (p : Pos) (arr : Arr) (e : BitVec 128)
  -- the routers: a slot-table entry, and the tcyc of it (R184, R185)
  | fwd (p : Pos) (e : BitVec 128) (i : BitVec 8)
  | merge32 (p : Pos) (e1 e2 : BitVec 128)
  | merge16 (p : Pos) (e1 e2 : BitVec 128)
  | poolrd (p : Pos) (e : BitVec 128)
  | slotTableLoad (p : Pos) (e : BitVec 128)
  | zombieFlit (p : Pos)
  -- waybills, the activation stack and the memory ports (R158-R163, R245-R273)
  | waybillEnd (c : CtxId)
  | setb (c : CtxId) (reg : BitVec 3) (val : BitVec 56)
  | waybillLoop (c : CtxId) (level : BitVec 3) (count : BitVec 20) (fs : BitVec 24) (ns : BitVec 12)
  | endl (c : CtxId) (level : BitVec 3)
  | xfer (c : CtxId) (len : BitVec 7) (foff : BitVec 24) (noff : BitVec 16)
  | gather (c : CtxId) (len : BitVec 7) (scale noff : BitVec 16) (x : BitVec 6)
  | scatter (c : CtxId) (len : BitVec 7) (scale noff : BitVec 16) (x : BitVec 6)
  | pred (c : CtxId) (cond level : BitVec 3) (arg : BitVec 20)
  | waybillMark (c : CtxId)
  | fence (c : CtxId)
  | granulePublish (c : CtxId)
  | waybillWaitLimit (c : CtxId)
  | stackSpillStart (p : Pos)
  | stackFillStart (p : Pos)
  | stackChunkComplete (p : Pos)
  | memoryPortRequest (i : Port)
  | remoteAccumulate (space : Fin 2) (addr : Nat) (vals : Row) (zero poison adderAgrees : Bool)
  | lpddr5xRequestTimeout (i : Port) (id : Nat)
  | refresh (i : Port) (chan : Fin 4) (bank : Fin 16)
  | mr4Poll (i : Port) (mult : BitVec 2)
  | wckOscillatorRead (i : Port) (chan : Fin 4) (drifted : Bool)
  | portFullRetrain (i : Port)
  | lpddr5xPatrol (i : Port) (line : Nat)
  | bgtGroupStart (p : Pos) (deck : Bool) (cells : List BadCell)
  | killScrubComplete (b : Port)
  -- the Depot (R294-R327)
  | depotWriteRequest (ch : Chan)
  | unitCloseTimeout (ns : Fin 64) (unit : Nat)
  | depotReadRequest (ch : Chan) (recovery : Fin 6)
  | journalProgram
  | blockRetire (b : BlockId) (reason : Fin 5)
  | onfiTimeout (ch : Chan) (target lun : Fin 8)
  | lunFailed (ch : Chan) (target lun : Fin 8)
  | depotRequestTimeout (ch : Chan) (id : Nat)
  | depotPatrol (b : BlockId) (bitsCorrected : Nat)
  | depotRefresh (b : BlockId)
  | garbageCollection (ns : Fin 64) (unit : Nat)
  | wearLevelling (ch : Chan)
  | depotChannelRetrain (ch : Chan)
  -- Pontoon (R328-R373)
  | laneFailure (p : Port) (lane : Fin 4)
  | spareLaneTrained (p : Port)
  | pontFlitReceive (p : Port) (hdr : BitVec 64) (body : BitVec 1984) (rsFixed : BitVec 4) (rsBad : Bool)
  | nak (p : Port) (expected : BitVec 14)
  | ackTimer (p : Port)
  | linkDown (p : Port)
  | linkRetrainComplete (p : Port) (ok : Bool)
  | write (p : Port) (pkt : Packet)
  | read (p : Port) (pkt : Packet)
  | readResp (p : Port) (pkt : Packet)
  | raccF32 (p : Port) (pkt : Packet)
  | raccAs8 (p : Port) (pkt : Packet)
  | rmax8 (p : Port) (pkt : Packet)
  | completion (p : Port) (pkt : Packet)
  | done (p : Port) (pkt : Packet)
  | decide (p : Port) (pkt : Packet)
  | time (p : Port) (pkt : Packet) (sysTime : Nat) (fromNewMaster : Bool)
  | tick (p : Port) (s : BitVec 48) (inst : Nat) (period : Nat)
  | heartbeat (p : Port)
  | failed (p : Port) (dev : BitVec 18)
  | reservedOpcPacket (p : Port) (pkt : Packet)
  | unreachablePacket (p : Port) (pkt : Packet)
  | remoteOpTimeout (id : Nat)
  | collectiveDeadline (coll : BitVec 16)
  | decisionWaitExpiry (coll : BitVec 16)
  | heartbeatTimer
  | neighbourFailure (p : Port)
  | timeDistribution
  | linkDelayMeasurement (p : Port) (t1 t2 t3 t4 : Nat)
  | tickFlood
  | lockLoss
  -- the host link (R374-R394)
  | ucieLinkError
  | hostMemAccess (write : Bool) (da : Nat) (data : Row)
  | hostSnoop (hpa : Nat)
  | unsupportedRequest (hpa : Nat)
  | deviceRequestTimeout (id : Nat)
  -- clocks, time and power (R423-R449)
  | droopStretch (j : Clu)
  | slowLoopWindow (j : Clu)
  | clockLoss (j : Clu)
  | clockRestored (j : Clu)
  | clockRestoreTimeout (j : Clu)
  | replicaWarning (j : Clu)
  | timeSample
  | refclkLoss
  | pontRefclkLoss
  | avsTelemetry (mv : Nat) (milliAmp : Int) (tempC : Int)
  | avsResponseTimeout
  | voltageLowerTimer
  | powerLimitCheck (avgW msW : Nat)
  | emergencyTrigger (which : Fin 4)
  | emergencyFloorRaise
  | thermalSample (readings : List (BitVec 16)) (disagree : List (Fin 56))
  | thermtrip
  -- the tick tree, the Postmaster pairs and the checkers (R454, R467, R469)
  | tickRailMismatch (j : Clu) (rail : Fin 2)
  | postmasterMismatch
  | firmwareCheckerTest (failedTrips : Bool)
  -- observation (R498-R518)
  | counterParityError (c : CounterId)
  | counterPageWrite
  | bwWindowBoundary
  | traceControlUpdate (region : Fin 17)
  | traceRecordWrite
  -- the management and test ports (R476, R523, R524)
  | i3cRead (off : BitVec 16)
  | i3cBusHeld
  | i3cTransactionTimeout
  | bypass
  | idcode
  | samplePreload
  | extest
  | trstNAssert (lowNs : Nat)
  -- the last rows of the table
  | onfiStatusPoll (ch : Chan) (opFailed : Bool)
  | selfRefreshEntry (i : Port)
  | depotChannelStandby (ch : Chan)
  | ucieRetrainComplete (ok : Bool)
  | sparePairInService
  | idleCheckerExercise (j : Clu) (failing : List Pos)
  | vddAonPowerUp
  | portFlitBoundary (p : Port)
  deriving DecidableEq, Repr

end Sys2Proof
end

