-- ==== Sys2Proof/Config.lean ====
section
/-! DEFINITION. What the spec leaves open: free values. None has a body, so no proof can see one. -/

namespace Sys2Proof.Config

/-- A byte of memory that is undefined at the start of invocation `epoch` (R230): memory 0 near store, 1 deck,
2 LPDDR5X, 3 flash; its address. Free value, log entry 5. -/
opaque undefByte (memory epoch addr : Nat) : Byte

/-- A register that is undefined at the start of invocation `epoch` (R102): its kind, core position and number.
Free value, log entry 5. -/
opaque undefReg (kind epoch pos num : Nat) : Vec

/-- The FP32 result of a transcendental operation (R126) on operands to which the spec gives no bits: a fixed
function of the operation code and the input bits. Free value, log entry 6. -/
opaque transcendental (op : Nat) (x : Word) : Word

/-- cos64 of R281: a binary64 function of its operand's bits. Free value, log entry 7. -/
opaque cos64 (x : DWord) : DWord

/-- pow64 of R281: a binary64 function of its operands' bits. Free value, log entry 7. -/
opaque pow64 (x y : DWord) : DWord

/-- Whether a signature verifies over a digest (R480, R483). Free value, log entry 8. -/
opaque mlVerify (key : Nat) (digest : BitVec 512) (sig : List Byte) : Bool

/-- A signature made with the identity key (R488). Free value, log entry 8. -/
opaque mlSign (key : BitVec 256) (bytes : List Byte) : List Byte

/-- The identity key that the PUF reading and a helper record give (R482, R484). Free value, log entry 8. -/
opaque identityKey (boot : Nat) (helper : List Byte) : BitVec 256

/-- The identity public key of a private key (R482), 2,592 bytes. Free value, log entry 8. -/
opaque publicKey (key : BitVec 256) : List Byte

/-- A helper record enrolled at a boot without a matching one (R484). Free value, log entry 8. -/
opaque helperRecord (boot : Nat) : List Byte

/-- The value the n-th open choice of a run takes. Free value, log entry 9. -/
opaque choice (n : Nat) : BitVec 64

/-- The value of `ADM.ROM_VERSION` (R479), which the spec does not give. Free value, log entry 10. -/
opaque romVersion : Word

/-- The bank, 16 · channel + bank, in which a line of a port lies (R267 names none). Free value, log entry 14. -/
opaque lineBank (port line : Nat) : Nat

/-- The data of a block that is delivered poisoned, where the spec gives it none. Free value, log entry 15. -/
opaque poisonRow (n : Nat) : Row

/-- Where the UCIe link's request for a host address goes among the modules in service. Free value, log entry 16. -/
opaque hostModule (hpa : Nat) : Nat

/-- The host physical address of device address 0 (R382), set by the host in configuration space. Free value, log
entry 17. -/
opaque hdmBase : Nat

/-- The block number in its plane that holds the unit of a stripe on a channel (R300 fixes channel and LUN only). Free
value, log entry 18. -/
opaque flashBlock (chan stripe : Nat) : Nat

/-- What the parameter pages say (R294, R318): targets − 1 and the code of LUNs per target, bytes of page data of a LUN,
rated program and erase cycles. Free values, log entry 19. -/
opaque flashTargets : BitVec 3
opaque flashLuns : BitVec 2
opaque flashLunBytes : Nat
opaque flashRated : Nat

/-- The blocks of the media in service when new (R318), which the parameter page gives. Free value, log entry 19. -/
opaque flashBlocks : Nat

/-- Whether a group with so many mapped units and retired blocks has fewer free blocks than R317 asks for: block sizes
are the media's. Free value, log entry 21. -/
opaque groupFull (group mapped retired : Nat) : Bool

/-- Whether the packages of the memory ports are those of 36 GiB (R264). Free value, log entry 20. -/
opaque package36 : Bool

/-- Byte `k` of a rollout's input: its previous output combined with a forcing record, in a way that the spec does not state
(R177; log entry 26). -/
opaque forced (output forcing : List Byte) (k : Nat) : Byte

end Sys2Proof.Config
end

