-- ==== Sys2Proof/Machine/Units.lean ====
section
/-! DEFINITION. The units of the part as plain data: one structure per unit of the spec, with its value at reset. -/

namespace Sys2Proof.Machine

/-! ### Memories and registers in general -/

/-- The condition of a SEC-DED word or of an LPDDR5X block (R218, R267). -/
inductive Ecc where
  | good
  | corrected
  | uncorrectable
  | poison
  deriving DecidableEq, Repr

/-- A byte memory. `cells` lists the bytes that differ from what an unlisted address reads as, by rising address.
An unlisted address in a range (lo, hi, epoch) of `bases`, the first that holds it, or else in `epoch`, reads 0
when that epoch is 0 and a free value otherwise (R230). `marks` holds the word conditions of R218 by word number. -/
structure Mem where
  tag   : Nat
  cells : List Host.Cell
  bases : List (Nat × Nat × Nat)
  epoch : Nat
  marks : Tab Ecc
  deriving DecidableEq, Repr

/-- A memory with nothing listed, all of it zero. -/
def Mem.empty (tag : Nat) : Mem := { tag := tag, cells := [], bases := [], epoch := 0, marks := [] }

/-- Where an upset of the circuits can stand (R452): a bundle of an instruction store, a sequencer, a 32-bit lane of a vector
register or mask, the arithmetic datapath of a vector unit, a word of a stop's buffer or an entry of its tables, an entry of a
crossing FIFO or of a router's tables, a merge adder, an array's output stage, feeder or partial-sum entry, a waybill context, a
shard-table entry, a schedule engine, a tester's save buffer, a record of a fault log. No command makes one: it is the circuit
that fails (log entry 58). -/
inductive Place where
  | bundle | sequencer | vreg | mask | datapath | stopBuf | stopTable | crossing | rtrTable | adder | output | feeder | psum
  | context | shard | schedule | saveBuf | logRec | replay | rxBuf
  deriving DecidableEq, Repr

/-- An upset that stands: its place, its unit there, the word in the unit, and its condition. -/
structure Upset where
  place : Place
  unit  : Nat
  word  : Nat
  ecc   : Ecc
  deriving DecidableEq, Repr

/-! ### The frame machinery (R36-R75) -/

/-- The loaded program (R410, R411) with its berth; `loaded` until its invocation has ended. -/
structure Prog where
  image  : Image
  berth  : Nat
  loaded : Bool
  deriving DecidableEq, Repr

/-- What RUN waits for before PHASE becomes 0b01, or why the device stands stopped. -/
inductive StopKind where
  | none
  | atTick
  | immediate
  deriving DecidableEq, Repr

/-- An issued request recorded by a stop (R69). -/
structure ReqRec where
  block : Nat
  unit  : Nat
  id    : Nat
  done  : Bool
  deriving DecidableEq, Repr

/-- The tick root and the CLK.* registers of the frame machinery; `lastDone` is the last frame done, `stopAt` when a stop
was asked for, `divStop` whether a divergent outcome asked for it (R361), `stopEnd` whether it ends the invocation and with retained regions, `sysTick` the last system tick delivered, `holdNext` whether
firmware holds the next tick for a clock step (R65), `decided` the moment of an open gate decision with the armed override and its
mode before it (R61), `grantsChanged` whether a berth-table commit since the stop changed a grant of the stopped program (R71). -/
structure FrameSt where
  src        : BitVec 2
  fallback   : Bool
  ftickOutEn : Bool
  period     : Nat
  early      : Byte
  late       : Byte
  pendSrc    : Option (BitVec 4)
  pendPeriod : Option Nat
  policy     : Bool
  stopOnSpoil : Bool
  phase      : BitVec 2
  heldTick   : Option Nat
  spoiled    : Bool
  nextSpoiled : Bool
  stepSpoiled : Bool
  stopExact  : Bool
  index      : BitVec 16
  frameNum   : BitVec 48
  stepNum    : Word
  frameStep  : Word
  lateLast   : Word
  floorNow   : Nat
  floorNext  : Nat
  accepted   : Option Nat
  silence    : Nat
  lossDone   : Bool
  started    : Nat
  doneAt     : Option Nat
  timerNext  : Option Nat
  prog       : Option Prog
  firstFrame : Bool
  newStep    : Bool
  reports    : List Nat
  decision   : Option Bool
  stopReq    : Bool
  divStop    : Bool
  stopForced : Bool
  stopKind   : StopKind
  stepOne    : Bool
  exemptOverrun : Bool
  drainFrom  : Option Nat
  stopSlots  : List (Nat × Nat)
  stopReqs   : List ReqRec
  deferrals  : Nat
  halted     : Bool
  spoilEach  : Bool
  lastDone   : BitVec 48
  stopAt     : Nat
  sysTick    : Nat × Nat
  holdNext   : Bool
  stopEnd    : Option Bool
  decided    : Option (Nat × Bool × BitVec 1)
  grantsChanged : Bool
  deriving DecidableEq, Repr

/-- The frame machinery after RESET_N (R37, R40, R42, R55, R73, R74). -/
def FrameSt.reset : FrameSt :=
  { src := 0, fallback := false, ftickOutEn := true, period := 0x61A80, early := 0xE6, late := 0x20
    pendSrc := none, pendPeriod := none, policy := false, stopOnSpoil := false
    phase := 0, heldTick := none, spoiled := false, nextSpoiled := false, stepSpoiled := false
    stopExact := false, index := 0, frameNum := 0, stepNum := 0, frameStep := 0, lateLast := 0
    floorNow := 1850, floorNext := 1850, accepted := none, silence := 0, lossDone := false, started := 0
    doneAt := none, timerNext := none, prog := none, firstFrame := false, newStep := false
    reports := [], decision := none, stopReq := false, divStop := false, stopForced := false
    stopKind := .none, stepOne := false, exemptOverrun := false, drainFrom := none
    stopSlots := [], stopReqs := [], deferrals := 0, halted := false, spoilEach := false
    lastDone := 0, stopAt := 0, sysTick := (0, 0), holdNext := false, stopEnd := none, decided := none
    grantsChanged := false }

/-- The causes of a hold, in their priority order (R51). -/
inductive HoldCause where
  | mport | depot | pont | host | bank | gate | crossing
  deriving DecidableEq, Repr

/-- A cluster: its slot counter, its holds, its gate and its clock (R49-R51, R426-R436). `held` lists the commands that wait
for the tcyc in which the cluster holds, `cause` the highest cause that they name; `acc` the timetabled
accesses of the tcyc with their positions, `serve` the banks of those not yet served, `owed` the banks that an untimetabled access
that has lost 64 clk takes first (R220, R222), `nextGran` the granules that an STL produces or an LDL uses as the next clk begins
(R251); `stopping` whether an immediate stop has
arrived and the tcyc under way is its last (R68). `frameCnt` counts in this frame
the held clk of each cause (0 to 6) and the stretched periods (7) for the frame record (R516); `timeLag` is how far its time
counter lies behind device time (R436), `clockOut` whether its clock did not return in 10 µs (R432), `lag` the phase in
1/4,000 of a clk that stretching has cost in this frame, `boost` what the slow loop makes up of it in each qns (R427), `railFail` the
failing tick rail with its consecutive frames and the last of them (R467), `checker` the exercises of R454. -/
structure CluSt where
  slot     : Nat
  running  : Bool
  atEnd    : Bool
  phaseAcc : Nat
  clkCount : Nat
  stopped  : Bool
  stopping : Bool
  held     : List Instr
  cause    : Option HoldCause
  bankHold : Nat
  acc      : List (Nat × Nat)
  serve    : List Nat
  owed     : List Nat
  nextGran : List (Nat × Nat × Bool)
  gate     : Option Bool
  reported : Bool
  gateWait : Option Nat
  spoilSent : Bool
  clockLost : Option Nat
  clockOut : Bool
  frameCnt : Tab Nat
  timeLag  : Nat
  railFail : Option (Nat × Nat × Nat)
  railRetired : BitVec 2
  lag      : Nat
  boost    : Nat
  checker  : Nat
  deriving DecidableEq, Repr

/-- A cluster after RESET_N: its slot counter at 0, not in a frame. -/
def CluSt.reset : CluSt :=
  { slot := 0, running := false, atEnd := false, phaseAcc := 0, clkCount := 0, stopped := false, stopping := false
    held := [], cause := none, bankHold := 0, acc := [], serve := [], owed := [], nextGran := [], gate := none, reported := false, gateWait := none
    spoilSent := false, clockLost := none, clockOut := false, frameCnt := [], timeLag := 0
    railFail := none, railRetired := 0, lag := 0, boost := 0, checker := 0 }

/-- The banks between the tcyc (R219-R222, R228): the banks taken by an untimetabled access in this clk, the consecutive clk that one
has lost in a bank, the banks in which one has lost in this clk, and the commands that wait for a bank. -/
structure BankUse where
  taken   : List Nat
  lost    : Tab Nat
  lostNow : List Nat
  waiting : List Instr
  deriving DecidableEq, Repr

/-- No bank is taken and no access waits. -/
def BankUse.reset : BankUse := { taken := [], lost := [], lostNow := [], waiting := [] }

/-! ### Faults and the interrupt tree (R455-R477) -/

/-- A spoil that travels to the tick root (R462): its code, the cluster it comes from (none: the block reaches the
root directly), whether it spoils the step only, and the latest moment of its arrival. -/
structure SpoilDue where
  code  : Code
  clu   : Option Clu
  step  : Bool
  latest : Nat
  deriving DecidableEq, Repr

/-- One fault log (R460, R461): records oldest first. -/
structure LogSt where
  recs : List Rec
  supp : Byte
  lost : Byte
  lostFlag : Bool
  deriving DecidableEq, Repr

/-- The fault logs, the leaves and masks by BAR0 offset, and the suspect maps. `setNow` gives for a leaf the moment at which
the hardware last set bits of it, and those bits (R9). -/
structure FaultSt where
  logs    : Tab LogSt
  leaves  : Tab Word
  setNow  : Tab (Nat × Word)
  masks   : Tab Word
  notices : List (Nat × Nat × Nat)
  suspect : Tab (BitVec 48)
  history : List (Nat × Nat)
  dues    : List SpoilDue
  deriving DecidableEq, Repr

/-- A log with nothing in it. -/
def LogSt.reset : LogSt := { recs := [], supp := 0, lost := 0, lostFlag := false }

/-- The fault machinery after RESET_N: logs empty, no leaf set, masks at the default of R472. -/
def FaultSt.reset : FaultSt :=
  { logs := [], leaves := [], setNow := [], masks := [], notices := [], suspect := [], history := [], dues := [] }

/-! ### The core (R76-R130) -/

/-- A weight tile in an array (R77, R85, R93): its delivered mode and format, its stored bytes by flit, and its
checksum values c_j (units of 2⁻¹⁶ in MX modes, FP32 bits in BF16 modes). -/
structure Tile where
  mode   : BitVec 4
  wfmt   : BitVec 1
  empty  : Bool
  anyMode : Bool
  flits  : List Row
  sums   : List Int
  deriving DecidableEq, Repr

/-- The active tile at an invocation's start: all zero, pairing with every configuration (R102). -/
def Tile.zero : Tile := { mode := 0, wfmt := 0, empty := true, anyMode := true, flits := [], sums := [] }

/-- The shadow weights of an array: none, a latch in progress, or a whole tile (R77, R146). -/
inductive Shadow where
  | none
  | latching (from_ : Nat) (slot : Nat) (got : List (Row × Bool))
  | full (t : Tile)
  deriving DecidableEq, Repr

/-- One array of a core (R77-R80, R120, R121). -/
structure ArraySt where
  active  : Tile
  shadow  : Shadow
  cfg     : Option Word
  entp    : Option Nat
  sclp    : Option Word
  sclUsed : Nat
  sclRow  : Option Row
  psum    : Tab Vec
  deriving DecidableEq, Repr

/-- Where a result of a core lands (R105): a register, a mask, memory, or an event of its tcyc. -/
inductive Dst where
  | s (n : Nat)
  | a (n : Nat)
  | dp (n : Nat)
  | v (n : Nat)
  | m (n : Nat)
  | seed (n : Nat)
  | idx (n : Nat)
  | idxAdd (n : Nat)
  | cfg (arr : Arr)
  | psum (arr : Arr) (e : Nat) (add : Bool)
  | nst (row : Nat) (tier : Nat)
  | nstAdd (row : Nat) (fmt : BitVec 1) (tier : Nat)
  | gran (g : Nat)
  | produced (d : Nat) (g : Nat)
  | used (d : Nat) (g : Nat)
  | depth (d : Nat)
  | feeder (arr : Arr) (entp : Nat) (sclp : Word) (used : Nat) (row : Option Row)
  | inject (nil : Bool)
  | eject
  | swap (arr : Arr)
  | latch (arr : Arr) (slot : Nat)
  | toStop (g : Nat)
  | event (code : Code) (unit : Nat) (aux : BitVec 16) (detail : DWord)
  | page (slot k g : Nat)
  | pageValid (slot : Nat)
  | turn (k g : Nat)
  | turned (k row : Nat) (bf16 : Bool)
  | turnStop (arr : Arr) (slot len : Nat) (bf16 : Bool)
  | zeroStop (arr : Arr) (slot len : Nat)
  | trainLoad (arr : Arr) (k g : Nat)
  | trainDone (arr : Arr)
  | slotLoad (k g : Nat)
  | slotDone
  | fetched (arr : Arr) (slot k g len : Nat) (drop : Bool)
  | poolRead (row tag : Nat)
  deriving DecidableEq, Repr

/-- A result on its way (R105, R106): its destination, the tcyc at whose end it lands, the tcyc of its issue, its
slot's rank (V 2, M 1, C 0; others 3; 4 an operation of a stop or the router; 5
a LATCH, which follows a SWAP of its bundle), its value and its lane or byte mask. -/
structure Pend where
  dst   : Dst
  due   : Nat
  issue : Nat
  rank  : Nat
  val   : Vec
  mask  : BitVec 256
  deriving DecidableEq, Repr

/-- An active loop (R108): first and last bundle of its body, and iterations still to start. -/
structure LoopLvl where
  first : BitVec 13
  len   : Nat
  left  : Nat
  deriving DecidableEq, Repr

/-- A core: the state of R102 and what its operations have under way. `vBusy` and `mBusy` are the first tcyc in which a slot
is free, `vAt` and `mAt` the tcyc in which it last took an operation, `vWas` and `mWas` what the first two were before it. A register that is not listed is undefined
since the invocation's start (R102), or 0 since RESET_N. -/
structure CoreSt where
  s      : Tab Word
  a      : Tab Word
  dp     : Tab Word
  v      : Tab Vec
  m      : Tab DWord
  seed   : Tab DWord
  idx    : Tab DWord
  loops  : List LoopLvl
  loopNew : Option LoopLvl
  pc     : BitVec 13
  jump   : Option (BitVec 13)
  rpt    : Nat
  rptOn  : Bool
  waitTo : Nat
  waitNew : Option Nat
  ended  : Bool
  endNew : Bool
  noIssue : Bool
  nopAt  : Option Nat
  arr0   : ArraySt
  arr1   : ArraySt
  istore : Tab (BitVec 128)
  valid  : BitVec 16
  vBusy  : Nat
  vAt    : Option Nat
  vWas   : Nat
  mBusy  : Nat
  mAt    : Option Nat
  mWas   : Nat
  updAt  : Option Nat
  portBusy : Nat
  portAt : Option Nat
  advA   : List (Nat × Nat)
  advD   : List (Nat × Nat)
  pend   : List Pend
  turnBuf : Tab Vec
  accum  : List (BitVec 64)
  codeBase : Nat
  deriving DecidableEq, Repr

/-- An array at an invocation's start (R102), and after RESET_N. -/
def ArraySt.reset : ArraySt :=
  { active := .zero, shadow := .none, cfg := none, entp := none, sclp := none, sclUsed := 0, sclRow := none
    psum := [] }

/-- A core at an invocation's start (R102), and after RESET_N. -/
def CoreSt.reset : CoreSt :=
  { s := [], a := [], dp := [], v := [], m := [], seed := [], idx := [], loops := [], loopNew := none, pc := 0
    jump := none, rpt := 0, rptOn := false, waitTo := 0, waitNew := none, ended := false, endNew := false, noIssue := false, nopAt := none
    arr0 := .reset, arr1 := .reset, istore := [], valid := 0, vBusy := 0, vAt := none, vWas := 0, mBusy := 0, mAt := none, mWas := 0
    updAt := none, portBusy := 0, portAt := none, advA := [], advD := [], pend := [], turnBuf := []
    accum := [], codeBase := 0 }

/-! ### Memory power, testers and repair (R226-R243) -/

/-- The spare rows and columns of a bank in use: the rows and bit columns that they replace (R241). -/
structure RepairMap where
  rows : List Nat
  cols : List Nat
  deriving DecidableEq, Repr

/-- A group of a background tester under way (R236): its number, the accesses done of 64 saves, 640 of the march and 64 restores,
and the failing cells (row, column) that it finds. Row i of the group is held in the save buffer from access i until access
704 + i (R237); the memory tables hold the row's bytes wherever it stands. -/
structure GroupRun where
  group : Nat
  done  : Nat
  fails : List (Nat × Nat)
  deriving DecidableEq, Repr

/-- The near store or the deck of one position: bank states, wakes due and whether each is from off, the banks off since their
contents were last written by a wake (R226); the tester with its next group and when it is due, the group under way, and the
cells of the group that is owed since one was due (R238); the failing banks of the last boot (2 · bank + die), the repair maps and
the status (R241, R243). -/
structure BankSt where
  pwr     : Word
  wakeAt  : Tab (Nat × Bool)
  lost    : BitVec 16
  bgtEn   : Bool
  bgtPace : BitVec 16
  sweeps  : BitVec 16
  group   : Nat
  due     : Nat
  test    : Option GroupRun
  owed    : Option (List BadCell)
  failed  : BitVec 18
  repair  : Tab RepairMap
  status  : Word
  deriving DecidableEq, Repr

/-- The near store of a position after RESET_N (R226, R238, R243). -/
def BankSt.resetNst : BankSt :=
  { pwr := 0xAAAAAAAA, wakeAt := [], bgtEn := true, bgtPace := 0x01F4, sweeps := 0, group := 0
    lost := 0, due := 0, test := none, owed := none, failed := 0, repair := [], status := 0 }

/-- The deck column of a position after RESET_N (R226, R238, R243). -/
def BankSt.resetDeck : BankSt :=
  { pwr := 0xAAAAAAAA, wakeAt := [], bgtEn := true, bgtPace := 0x003C, sweeps := 0, group := 0
    lost := 0, due := 0, test := none, owed := none, failed := 0, repair := [], status := 0 }

/-! ### The Ferry ring (R131-R152) and the mesh (R179-R206) -/

/-- A flit of a Ferry lane or of the mesh: 64 B of payload and 8 B of sideband (R138, R182). -/
structure Flit where
  pay  : Row
  side : DWord
  deriving DecidableEq, Repr

/-- A flit on its way: the input it reaches (a Ferry stop 2i + array with its lane, or a router with its port), and
the tcyc of the receiver's cluster in which it is there. -/
structure LinkFlit where
  dst  : Nat
  port : Nat
  due  : Nat
  flit : Flit
  deriving DecidableEq, Repr

/-- One flit held in a stop's slot: its index, the first tcyc it is available, its payload, whether poisoned. -/
structure SlotFlit where
  idx   : Nat
  avail : Nat
  pay   : Row
  poison : Bool
  deriving DecidableEq, Repr

/-- A slot of a stop's tile buffer (R143): `entry` is the train-table entry that fills it, from tcyc `fillT` on, with its index
in the table; `sending` the SEND under way, its first tcyc and entry; `seen` when its MODE, WFMT and KIND are those of a flit
that came; `marker` an empty-tile marker in place of the tile, `markBad` that marker poisoned. -/
structure TileSlot where
  used    : Bool
  entry   : BitVec 128
  entryAt : Nat
  fillT   : Nat
  order   : Nat
  len     : Nat
  latchIt : Bool
  latched : Bool
  latching : Bool
  sending : Option (Nat × BitVec 128)
  sent    : Bool
  marker  : Bool
  markBad : Bool
  filling : Bool
  plainFetch : Bool
  seen    : Bool
  mode    : BitVec 4
  wfmt    : BitVec 1
  kind    : BitVec 2
  tag     : BitVec 16
  flits   : List SlotFlit
  deriving DecidableEq, Repr

/-- A free slot. -/
def TileSlot.free : TileSlot :=
  { used := false, entry := 0, entryAt := 0, fillT := 0, order := 0, len := 0, latchIt := false, latched := false
    latching := false, sending := none, sent := false, marker := false, markBad := false, filling := false, plainFetch := false, seen := false, mode := 0, wfmt := 0
    kind := 0, tag := 0, flits := [] }

/-- A Ferry stop (R139-R146): its slots, its two table banks, its LOAD, and this frame's use of its table. `mkUntil`
is the last tcyc of each lane that an arrived or sent marker reserves, `loadBusy` the LOAD under way with its entry,
`loadDone` whether the last LOAD of this frame completed, `tableEnd` the index of an entry that acted as END in this frame, `wantDkrt` an ACCEPT of this tcyc with its slot and entry. -/
structure StopSt where
  slot0  : TileSlot
  slot1  : TileSlot
  bank0  : Tab (BitVec 128)
  bank1  : Tab (BitVec 128)
  cur    : Bool
  loadDone : Bool
  loadBusy : Option (BitVec 128)
  tableEnd : Option Nat
  mkUntil0 : Nat
  mkUntil1 : Nat
  fills  : Nat
  wantDkrt : Option (Nat × BitVec 128)
  deriving DecidableEq, Repr

/-- A stop with empty slots and empty tables. -/
def StopSt.reset : StopSt :=
  { slot0 := .free, slot1 := .free, bank0 := [], bank1 := [], cur := false, loadDone := false, loadBusy := none
    tableEnd := none, mkUntil0 := 0, mkUntil1 := 0, fills := 0, wantDkrt := none }

/-- A flit that an entry of this tcyc sends on an output (R189): the output bit, the entry's IN code and index in its
table, the pool row of a POOL output, and the flit. -/
structure OutFlit where
  out  : Nat
  inp  : Nat
  idx  : Nat
  row  : Nat
  flit : Flit
  deriving DecidableEq, Repr

/-- A router (R179-R206): its queues with, for the injection, ejection and POOL queues, the first tcyc a flit may be
popped; its table banks and LOAD; its gate; and the outputs claimed in this tcyc. -/
structure RouterSt where
  qN   : List Flit
  qE   : List Flit
  qS   : List Flit
  qW   : List Flit
  pool : List (Nat × Flit)
  mbuf : List (Nat × Flit)
  trace : Option Flit
  inj  : List (Nat × Flit)
  ej   : List (Nat × Flit)
  bank0 : Tab (BitVec 128)
  bank1 : Tab (BitVec 128)
  cur  : Bool
  loadDone : Bool
  loadBusy : Option (BitVec 128)
  poolBusy : Nat
  tableEnd : Option Nat
  gateShut : Bool
  zombieNote : Bool
  outs : List OutFlit
  ident : Word
  deriving DecidableEq, Repr

/-- A router with empty queues and tables, its identity 0 (R199). -/
def RouterSt.reset : RouterSt :=
  { qN := [], qE := [], qS := [], qW := [], pool := [], mbuf := [], trace := none, inj := [], ej := []
    bank0 := [], bank1 := [], cur := false, loadDone := false, loadBusy := none, poolBusy := 0
    tableEnd := none, gateShut := false, zombieNote := false, outs := [], ident := 0 }

/-! ### The Courier network (R207-R213) -/

/-- A packet of an acknowledged class whose ACK is out (R210): its words, when it was last sent, its resends. -/
structure CourierOut where
  src  : Nat
  dst  : Nat
  cls  : BitVec 3
  pay  : BitVec 17
  sentAt : Nat
  resends : Nat
  deriving DecidableEq, Repr

/-- The Courier network: packets awaiting their ACK, per hop the failures of one packet, that packet and the link set in use, packets of CLASS
7 dropped, and the last notification of each node at the Postmaster. -/
structure CourierSt where
  open_   : List CourierOut
  hopFail : Tab Nat
  hopHead : Tab (Option (Nat × BitVec 3 × BitVec 17))
  hopSetB : Tab Bool
  dropped : Nat
  notified : Tab (BitVec 17)
  deriving DecidableEq, Repr

/-- The Courier network with nothing under way, every hop on link set A. -/
def CourierSt.reset : CourierSt := { open_ := [], hopFail := [], hopHead := [], hopSetB := [], dropped := 0, notified := [] }

/-! ### The update engines (R274-R293) -/

/-- The four schedule engines and the UPD.* registers; `restored` lists the LPDDR5X ranges that RESTORE has written since the
last LOAD. Tables of an engine are keyed 1024·region + entry (shards)
and 64·region + group (learning rates, constants). -/
structure UpdSt where
  groups    : Tab GroupDesc
  lr        : Tab Word
  consts    : Tab (List Word)
  arrived   : Bool
  ovrValue  : Word
  ovrMode   : BitVec 1
  ovrGroup  : BitVec 6
  ovrAll    : Bool
  ovrArmed  : Bool
  ovrPend   : Option (Word × BitVec 9)
  policy    : Bool
  policyPend : Option Bool
  damaged   : Bool
  adopted   : Bool
  skewShard : BitVec 10
  skewRegion : BitVec 2
  shards    : Tab ShardEntry
  restored  : Option (List (Nat × Nat))
  rootSeen  : Tab Word
  rootDue   : List Nat
  nfNote    : List Nat
  deriving DecidableEq, Repr

/-- The engines after RESET_N (R283, R284, R287, R289). -/
def UpdSt.reset : UpdSt :=
  { groups := [], lr := [], consts := [], arrived := false, ovrValue := 0, ovrMode := 0, ovrGroup := 0
    ovrAll := false, ovrArmed := false, ovrPend := none, policy := false, policyPend := none, damaged := false
    adopted := false, skewShard := 0, skewRegion := 0, shards := [], restored := none, rootSeen := []
    rootDue := [], nfNote := [] }

/-! ### What leaves the part -/

/-- A transaction or a pulse that leaves the part, in the order of leaving. -/
inductive OutMsg where
  | hostWrite (id hpa : Nat) (data : List Byte) (poison : Bool)
  | hostOwn (id hpa : Nat)
  | hostRead (id hpa len : Nat)
  | hostData (data : List Byte) (poison : Bool)
  | hostUR
  | snoopResp (hpa : Nat)
  | courier (beats : List Byte)
  | pontFlit (port : Nat) (hdr : DWord) (body : BitVec 1984)
  | ftickOut
  | i3c (data : DWord)
  | jtag (data : Word)
  | avs (setMv : Nat)
  | onfi (chan : Nat) (op : Nat) (arg : Nat)
  | fenceState (mask : Nat)
  deriving DecidableEq, Repr

/-! ### The shape (R22-R34) and the counters (R498-R502) -/

/-- What the grade step at boot fixed (R28, R31, R32): recorded grade code, logical rows, fence maps and deck loss. -/
structure ShapeSt where
  grade    : Byte
  valid    : Bool
  rows     : Nat
  fenced   : BitVec 192
  bad      : BitVec 192
  factory  : BitVec 192
  loss     : BitVec 384
  degraded : Bool
  restricted : Bool
  unusable : Bool
  built    : Bool
  deriving DecidableEq, Repr

/-- No grade step has run since RESET_N: no core is live. -/
def ShapeSt.reset : ShapeSt :=
  { grade := 0x0F, valid := false, rows := 0, fenced := 0, bad := 0, factory := 0, loss := 0, degraded := false
    restricted := false, unusable := false, built := false }

/-- The counters of R500 to R502, keyed 65,536·block + 64·unit + index in the blocks of `CounterId`, with their OVF
bits, and the event selections of the cores. -/
structure CntSt where
  val     : Tab (BitVec 48)
  ovf     : Tab Bool
  sel     : Tab DWord
  deriving DecidableEq, Repr

/-- The counters after RESET_N. -/
def CntSt.reset : CntSt := { val := [], ovf := [], sel := [] }

/-! ### The activation stack (R158-R163) and waybill contexts (R245-R262) -/

/-- The activation stack of a core: its descriptor, depth, resident bottom, the resident bottom that operations of the clk see
(`rbSeen`, R162), the chunk in flight (spill or fill, its
start, granules moved), and logical granules that a fill marked poisoned. -/
structure StackSt where
  desc  : Option StackDesc
  depth : Nat
  rb    : Nat
  rbSeen : Nat
  chunk : Option (Bool × Nat × Nat)
  spilling : Bool
  bad   : List Nat
  deriving DecidableEq, Repr

/-- An empty stack without a descriptor. -/
def StackSt.reset : StackSt := { desc := none, depth := 0, rb := 0, rbSeen := 0, chunk := none, spilling := false, bad := [] }

/-- A context's status (R255, R261). -/
inductive CtxStatus where
  | unused
  | done
  | running
  | aborted
  deriving DecidableEq, Repr

/-- A granule of a landing buffer (R249, R250): free; published with its uses left; produced with the 64 B units
already read by the waybill. -/
inductive GranSt where
  | free
  | published (left : Nat)
  | produced (read : BitVec 4)
  deriving DecidableEq, Repr

/-- An open loop level of a waybill (R253). -/
structure WbLoop where
  level : Nat
  count : Nat
  idx   : Nat
  fs    : Int
  ns    : Int
  body  : Nat
  deriving DecidableEq, Repr

/-- A waybill context: its descriptor with its program, and the state R262 lists. `written` holds the granules
written since the last MARK, `toPub` those a MARK publishes when its requests have completed. `base` is the near base of a context without a deck buffer (memory
port, Depot, Pontoon): a staging range of LPDDR5X. `idxSet` is the index position that the last SETB set; `unit`
and `index` are the units issued and the index read of the transfer under way, `full` the
memory port on whose full queue the wait is. -/
structure CtxSt where
  desc   : Option BufDesc
  berth  : Nat
  stage  : Nat
  ns     : Nat
  status : CtxStatus
  queued : Bool
  pc     : Nat
  skip   : Bool
  loops  : List WbLoop
  fbase  : BitVec 56
  nbase  : Word
  idxPos : Nat
  idxSet : Nat
  unit   : Nat
  index  : Option Word
  lastIdx : Word
  grans  : Tab GranSt
  written : List Nat
  toPub  : List Nat
  open_  : Nat
  waitFrom : Option Nat
  full   : Option Nat
  held   : Word
  waited : Word
  coll   : BitVec 16
  deriving DecidableEq, Repr

/-- An unused context. -/
def CtxSt.reset : CtxSt :=
  { desc := none, berth := 0, stage := 0, ns := 0, status := .unused, queued := false, pc := 0, skip := false
    loops := [], fbase := 0, nbase := 0, idxPos := 0, idxSet := 0
    unit := 0, index := none, lastIdx := 0, grans := [], written := [], toPub := []
    open_ := 0, waitFrom := none, full := none, held := 0, waited := 0, coll := 0 }

/-- What a request moves (R246, R256): one 64 B unit of a context between its near place and its far address; the
chunk of an activation stack; a line of a bias flip of a pigeonhole's command; the row of a remote accumulate that is
resolved through the host (R383). -/
inductive ReqKind where
  | unit (near : Nat) (full : Bool)
  | spill (p : Nat) (u : Nat)
  | fill (p : Nat) (u : Nat)
  | flip (pgh : Nat) (page : Nat)
  | acc (vals : Row) (poison : Bool)
  deriving DecidableEq, Repr

/-- A request in a serving block's queue (R257, R258): its number, its context (key), direction, far kind, far address
(the host address of a request that the host resolves; `da` its device address), deadline in qns (none without one),
issue time, the window of a Pontoon request and the
system frame number it was triggered in. -/
structure Req where
  id    : Nat
  ctx   : Nat
  kind  : ReqKind
  isWrite : Bool
  far   : Nat
  addr  : Nat
  da    : Option Nat
  deadline : Option Nat
  issued : Nat
  sent  : Bool
  win   : Nat
  sfn   : Nat
  deriving DecidableEq, Repr

/-- The queue of a memory port, Depot channel, Pontoon port or UCIe module: requests in arrival order, and how many
have been served since the last one without a deadline. -/
structure QueueSt where
  reqs  : List Req
  since : Nat
  deriving DecidableEq, Repr

/-- An empty queue. -/
def QueueSt.reset : QueueSt := { reqs := [], since := 0 }

/-! ### The memory ports (R264-R272) -/

/-- A memory port: `MPORT[i].STATUS` and ECC_CNT, what blocks a bank, channel or the port until when, self-refresh,
the time of its last access. -/
structure MportSt where
  step    : BitVec 3
  trained : Bool
  retrainTo : Nat
  refmult : BitVec 2
  pkg     : Bool
  corr    : BitVec 16
  uncorr  : BitVec 16
  blocked : List (Nat × Nat)
  selfRef : Bool
  lastUse : Nat
  deriving DecidableEq, Repr

/-- A memory port after RESET_N (R272). -/
def MportSt.reset : MportSt :=
  { step := 0, trained := false, retrainTo := 0, refmult := 0, pkg := false, corr := 0, uncorr := 0
    blocked := [], selfRef := false, lastUse := 0 }

/-! ### Observation (R498-R516) -/

/-- A log region (R512, R513): where it lies, its sampling exponent and record types, records written and lost, and
the loss that the next loss record reports with its reason. -/
structure TrcRegion where
  base   : Nat
  size   : Nat
  expo   : Nat
  enable : Byte
  written : Nat
  lost   : Nat
  unsaid : Nat
  reason : Nat
  deriving DecidableEq, Repr

/-- A disabled region. -/
def TrcRegion.reset : TrcRegion :=
  { base := 0, size := 0, expo := 0, enable := 0, written := 0, lost := 0, unsaid := 0, reason := 0 }

/-- A record at the trace writer: its region (berth 0 to 15, or 16 for the admin's) and its 64 bytes. -/
structure TrcRec where
  region : Nat
  body   : Row
  deriving DecidableEq, Repr

/-- A latched counter page (R504, R505) with the berth it is filtered for, and the slot of its region, if any. -/
structure PageJob where
  trigger : Nat
  pgh     : Nat
  opcode  : Nat
  tag     : Nat
  index   : Word
  time    : Nat
  frame   : BitVec 48
  stepNum : Word
  berth   : Option (Nat × Nat)
  val     : Tab (BitVec 48)
  ovf     : Tab Bool
  bw      : Tab DWord
  lr      : Tab Word
  window  : Nat
  deriving DecidableEq, Repr

/-- A tagged bundle whose last result has not landed (R511, R516): offsets of its landings from the issue tcyc; `sends`
while its SEND waits in the injection queue. -/
structure Sample where
  issue  : Nat
  bundle : BitVec 128
  pc     : Nat
  held   : Nat
  last   : Nat
  a0     : Nat
  a1     : Nat
  v      : Nat
  m      : Nat
  c      : Nat
  pop    : Nat
  sends  : Bool
  deriving DecidableEq, Repr

/-- The counter collector, the bandwidth windows, the samplers and the trace writer. `bwBytes` counts the bytes of
R508 at key 2k inward and 2k + 1 outward; sources of records are positions,
192 + cluster, and 1000 + others; key 2000 of `discFlag` is the device's own jump (R364). `endVal` and `endOvf` hold what
clusters latched at their end marks (R505). `bucket` is in 1/12,800 of a record (R514). -/
structure ObsSt where
  framePages : Bool
  cmdPages   : Bool
  pageBase   : BitVec 48
  pageCount  : Nat
  pageIdx    : Word
  bwUs       : Nat
  bwPend     : Option Nat
  bwFrom     : Nat
  bwBytes    : Tab Nat
  bwStart    : Tab Nat
  bwRead     : Tab DWord
  traceBase  : BitVec 48
  traceSize  : Nat
  exportReg  : DWord
  jobs       : List PageJob
  mirror     : Option PageJob
  regions    : Tab TrcRegion
  regPend    : Tab TrcRegion
  queue      : List TrcRec
  bucket     : Nat
  bucketAt   : Nat
  sinkIn     : List Row
  sreg       : Tab Word
  samples    : Tab (List Sample)
  seqs       : Tab (BitVec 16)
  lostFlag   : Tab Bool
  discFlag   : Tab Bool
  exported   : Nat
  endVal     : Tab (BitVec 48)
  endOvf     : Tab Bool
  deriving DecidableEq, Repr

/-- The collector and the trace unit after RESET_N (R510). -/
def ObsSt.reset : ObsSt :=
  { framePages := false, cmdPages := true, pageBase := 0, pageCount := 0, pageIdx := 0, bwUs := 1000
    bwPend := none, bwFrom := 0, bwBytes := [], bwStart := [], bwRead := [], traceBase := 0, traceSize := 0
    exportReg := 0, jobs := [], mirror := none, regions := [], regPend := [], queue := [], bucket := 52428800
    bucketAt := 0, sinkIn := [], sreg := [], samples := [], seqs := [], lostFlag := [], discFlag := []
    exported := 0, endVal := [], endOvf := [] }

/-! ### Pigeonholes (R395-R407) -/

/-- A pigeonhole: its command area (bytes 0x000 to 0x7FF), response area (0x800 to 0xFBF), state, and the running
command: the copy in Postmaster SRAM, whether its effect has begun, and what it waits for. `old` is the berth table that
a command of a former owner was issued under (R402), `dropAt` the moment of the last dropped ring (R9). -/
structure PghSt where
  cmd     : Tab Byte
  resp    : Tab Byte
  state   : BitVec 2
  dropped : Bool
  dropAt  : Option Nat
  tag     : BitVec 16
  ringAt  : Nat
  copy    : Tab Byte
  begun   : Bool
  wait    : List Nat
  old     : Option (Tab Byte)
  deriving DecidableEq, Repr

/-- A pigeonhole after RESET_N: IDLE, its page zero. -/
def PghSt.reset : PghSt :=
  { cmd := [], resp := [], state := 0, dropped := false, dropAt := none, tag := 0, ringAt := 0, copy := [], begun := false
    wait := [], old := none }

/-- A region that an ended invocation of a berth left, still intact (R230): the berth, its entry, its position and the
shape hash it was kept under. -/
structure Retained where
  berth : Nat
  entry : RetainEntry
  pos   : Nat
  shape : BitVec 256
  deriving DecidableEq, Repr

/-- The Postmaster (R399-R403, R468, R469): pigeonholes, the round-robin position, whether firmware runs, berths under
a kill, the spare pair, and the stops that last until RESET_N. `scrubs` lists what a kill or a commit still scrubs: the
berth (16 for a commit), the memory (0 near store, 1 deck, 2 LPDDR5X), and the range; `scrubNoted` the berths whose refused access raised its notice;
`lastBerth` and `lastUs` are `DECK.KILL_SCRUB`'s (R232). -/
structure PostSt where
  pgh      : Tab PghSt
  rr       : Nat
  firmware : Bool
  killing  : List Nat
  spareUsed : Bool
  switching : Bool
  noRun    : Bool
  scrubs   : List (Nat × Nat × Nat × Nat)
  killInfo : List (Nat × Nat × Nat)
  scrubNoted : List Nat
  lastBerth : BitVec 4
  lastUs   : BitVec 16
  retained : List Retained
  deriving DecidableEq, Repr

/-- The Postmaster after RESET_N: no firmware. -/
def PostSt.reset : PostSt :=
  { pgh := [], rr := 0, firmware := false, killing := [], spareUsed := false, switching := false, noRun := false
    scrubs := [], killInfo := [], scrubNoted := [], lastBerth := 0, lastUs := 0, retained := [] }

/-! ### Boot, identity and berths (R478-R496) -/

/-- The boot status, the delivery registers, the identity, the records in use and the firmware (R479-R485). -/
structure BootSt where
  phase     : BitVec 3
  failedPos : Byte
  ungraded  : Bool
  ephemeral : Bool
  trippedB  : Bool
  suspectB  : Bool
  fwResult  : BitVec 3
  grResult  : BitVec 3
  lEff      : BitVec 4
  failedDeck : Bool
  fwAddr    : DWord
  grAddr    : DWord
  hrAddr    : DWord
  fwLen     : Word
  grLen     : Word
  hrLen     : Word
  step5     : Bool
  number    : Nat
  key       : BitVec 256
  keyHash   : BitVec 512
  publicKey : List Byte
  helper    : List Byte
  gradeRec  : List Byte
  fwDigest  : BitVec 512
  fwVersion : Word
  searched  : Bool
  deriving DecidableEq, Repr

/-- The boot state after RESET_N (R479). -/
def BootSt.reset : BootSt :=
  { phase := 0, failedPos := 0xFF, ungraded := false, ephemeral := false, trippedB := false, suspectB := false
    fwResult := 0, grResult := 0, lEff := 0, failedDeck := false, fwAddr := 0, grAddr := 0, hrAddr := 0
    fwLen := 0, grLen := 0, hrLen := 0, step5 := false, number := 0, key := 0, keyHash := 0, publicKey := []
    helper := [], gradeRec := [], fwDigest := 0, fwVersion := 0, searched := false }

/-- The berth table: shadow and live copy by byte offset, and `BRT.STATUS` (R489, R490). -/
structure BerthSt where
  shadow : Tab Byte
  live   : Tab Byte
  err    : BitVec 3
  errBerth : BitVec 4
  errOffset : BitVec 14
  deriving DecidableEq, Repr

/-- The berth table after RESET_N: all zero. -/
def BerthSt.reset : BerthSt := { shadow := [], live := [], err := 0, errBerth := 0, errOffset := 0 }

/-! ### The host link (R374-R394) -/

/-- A ring descriptor (R413). -/
structure RingDesc where
  base   : Nat
  mirror : Nat
  entry  : Nat
  count  : Nat
  nIn    : Nat
  deriving DecidableEq, Repr

/-- A rollout (R177): 0 idle, 1 active, 2 paused; the forcing record for its
next step; its output of the current and of the previous step; and where in the deck its next input stands. -/
structure Rollout where
  status   : Nat
  forcing  : List Byte
  cur      : List Byte
  prev     : List Byte
  place    : Option Nat
  deriving DecidableEq, Repr

/-- An idle rollout. -/
def Rollout.reset : Rollout := { status := 0, forcing := [], cur := [], prev := [], place := none }

/-- The host link: `UCIE.STATUS`, failed retrains, `UCIE.CTO`, the pages in device bias as disjoint rising ranges, the
host's ring-page registers at 4b + 0 intake PI, + 1 query PI, + 2 answer CI, the device's indices at 4b + 0 intake CI,
+ 1 query CI, + 2 answer PI, the rings at 4b + 0 intake, + 1 query, + 2 answer, the rollouts, the queries admitted in
this frame as whole entries, the queries seen unserved with the frames since, and the first index of the frame's intake
window. -/
structure HostSt where
  status   : BitVec 2
  modules  : BitVec 4
  repaired : BitVec 4
  retrain  : Bool
  fails    : Nat
  cto      : BitVec 16
  devBias  : List (Nat × Nat)
  idx      : Tab Word
  dev      : Tab Word
  rings    : Tab RingDesc
  rollouts : Tab Rollout
  admitted : List (List Byte)
  stepTag  : Word
  aged     : List (Nat × Nat × Bool)
  late     : Bool
  window   : Nat
  deriving DecidableEq, Repr

/-- The host link after RESET_N (R377, R386, R392). -/
def HostSt.reset : HostSt :=
  { status := 0, modules := 0, repaired := 0, retrain := false, fails := 0, cto := 0x32, devBias := [], idx := []
    dev := [], rings := [], rollouts := [], admitted := [], stepTag := 0, aged := [], late := false
    window := 0 }

/-! ### Clocks, power and temperature (R423-R449) -/

/-- `CLK.ADAPT`, `PWR.*`, the requests that wait for a frame boundary, the steps of the fixed clocks with the two set
points of the packages, and the firmware's timers in qns. -/
structure PowerSt where
  setMhz   : Nat
  nowMhz   : Nat
  emerg    : Nat
  delta    : Int
  memStep  : Nat
  depotStep : Nat
  setPoint : Nat
  clkReq   : Option (Nat × Nat × Nat)
  setMv    : BitVec 10
  readMv   : BitVec 10
  avsFail  : Bool
  bootMv   : Nat
  lowerMv  : Nat
  toFloor  : Bool
  tries    : Nat
  discards : Nat
  limitW   : BitVec 12
  powerW   : BitVec 12
  tjC      : Byte
  trigger  : BitVec 3
  tripped  : Bool
  holdover : Bool
  warnedAt : Nat
  trigAt   : Option Nat
  underFrom : Option Nat
  coolFrom : Option Nat
  hotAt    : Nat
  hotHold  : Bool
  hot      : Bool
  sensors  : Tab (BitVec 16)
  out      : BitVec 56
  deriving DecidableEq, Repr

/-- Clocks and power after RESET_N (R429, R440, R442, R447). -/
def PowerSt.reset : PowerSt :=
  { setMhz := 2100, nowMhz := 2100, emerg := 0, delta := 0, memStep := 0, depotStep := 0, setPoint := 0
    clkReq := none, setMv := 0x352, readMv := 0, avsFail := false, bootMv := 850, lowerMv := 0, toFloor := false
    tries := 0, discards := 0, limitW := 0x640, powerW := 0, tjC := 0, trigger := 0, tripped := false
    holdover := false, warnedAt := 0, trigAt := none, underFrom := none
    coolFrom := none, hotAt := 0, hotHold := false, hot := false, sensors := [], out := 0 }

/-! ### Pins and test ports (R476, R520-R528) -/

/-- The instruction of the test port (R524). -/
inductive JtagIr where
  | bypass
  | idcode
  | sample
  | extest
  deriving DecidableEq, Repr

/-- The pins that carry state and the JTAG instruction (R524);
`shortPulse` whether a RESET_N pulse too short to act was seen, whose notice follows the next boot (R476). -/
structure PinSt where
  resetN   : Bool
  pwrFailN : Bool
  thermtripN : Bool
  shortPulse : Bool
  jtag     : JtagIr
  deriving DecidableEq, Repr

/-- The pins right after RESET_N rises: power good, no trip, the test port at IDCODE, as after its reset (PRESUMED, log
entry 27). -/
def PinSt.reset : PinSt :=
  { resetN := true, pwrFailN := true, thermtripN := true, shortPulse := false, jtag := .idcode }
/-! ### The Depot (R294-R327) -/

/-- A channel: `DEPOT[i].CHAN`, standby, the moment of its last request, and until when a retrain blocks it. -/
structure DepotChan where
  step    : BitVec 2
  trained : Bool
  failed  : Bool
  targets : BitVec 3
  luns    : BitVec 2
  retired : BitVec 16
  standby : Bool
  lastUse : Nat
  blocked : Nat
  deriving DecidableEq, Repr

/-- A channel after RESET_N (R326). -/
def DepotChan.reset : DepotChan :=
  { step := 0, trained := false, failed := false, targets := 0, luns := 0, retired := 0, standby := false
    lastUse := 0, blocked := 0 }

/-- A sealed checkpoint version (R322, R323): its number, the step number named, `CLK.STEP_NUM` at acceptance, its
source ranges (0 LPDDR5X or 1 deck, first byte, bytes), where its data lie in the namespace, the shard tables,
the image digest, the shape hash and the time of its seal. -/
structure DepotVersion where
  num     : Nat
  step    : Word
  stepNum : Word
  ranges  : List (Nat × Nat × Nat)
  offset  : Nat
  shards  : Tab ShardEntry
  digest  : BitVec 512
  shape   : BitVec 256
  sealed  : Nat
  deriving DecidableEq, Repr

/-- A namespace (R304-R308, R323): its kind, size in units, ring flag, KEEP, append point, owner context of this run,
lock after a kill, the berth it belonged to, sealed versions oldest first, and the next version's number. -/
structure DepotNs where
  kind   : Nat
  size   : Nat
  ring   : Bool
  keep   : Nat
  append : Nat
  owner  : Option Nat
  locked : Bool
  versions : List DepotVersion
  nextVer : Nat
  deriving DecidableEq, Repr

/-- A unit in a channel buffer (R307): its namespace and number, channel and stripe, last write, the context that
writes it, the 64 B blocks written, and whether it is closed. -/
structure DepotUnit where
  ns      : Nat
  unit    : Nat
  chan    : Nat
  stripe  : Nat
  lastWrite : Nat
  ctx     : Option Nat
  written : Nat
  closed  : Bool
  deriving DecidableEq, Repr

/-- A block (R314-R317): erases, reads since its last erase, retired, queued for refresh, recent reconstructions. -/
structure DepotBlk where
  erases  : Nat
  reads   : Nat
  retired : Bool
  refresh : Bool
  recon   : List Nat
  deriving DecidableEq, Repr

/-- A block that has never been erased. -/
def DepotBlk.reset : DepotBlk := { erases := 0, reads := 0, retired := false, refresh := false, recon := [] }

/-- A dead-letter entry (R315). -/
structure DeadLetter where
  loc    : Word
  reason : Byte
  pe     : BitVec 16
  time   : DWord
  deriving DecidableEq, Repr

/-- The Depot. `data` holds what a read returns, `mapped` the units whose mapping has moved, `durable` the units as of
the last journal record on flash; all by namespace · 2⁵⁰ + offset. `map` gives the
channel and stripe of a mapped unit, `stripes` the open stripe of each group with its units placed. -/
structure DepotSt where
  state    : BitVec 2
  rebuild  : Bool
  flushed  : Bool
  torn     : Bool
  width    : BitVec 2
  quiesced : Bool
  wear     : Byte
  formatted : Bool
  chans    : Tab DepotChan
  lunFails : Tab Nat
  lunDead  : Tab Bool
  ns       : Tab DepotNs
  data     : Mem
  mapped   : Mem
  durable  : Mem
  bufs     : List DepotUnit
  map      : Tab (Nat × Nat)
  stripes  : Tab (Nat × Nat)
  rot      : Nat
  blocks   : Tab DepotBlk
  dead     : List DeadLetter
  uids     : List Nat
  found    : List Nat
  accepted : Nat
  programmed : Nat
  crossed  : Nat
  patrolHours : Nat
  journal  : Nat
  journalAll : Nat
  quiescing : Bool
  flushing : Bool
  clean    : Bool
  deriving DecidableEq, Repr

/-- The Depot after RESET_N, with unformatted media: off, stripe width 32 (R326). -/
def DepotSt.reset : DepotSt :=
  { state := 0, rebuild := false, flushed := false, torn := false, width := 2, quiesced := false, wear := 0
    formatted := false, chans := [], lunFails := [], lunDead := [], ns := [], data := .empty 3, mapped := .empty 3
    durable := .empty 3, bufs := [], map := [], stripes := [], rot := 0, blocks := [], dead := [], uids := []
    found := [], accepted := 0, programmed := 0, crossed := 0, patrolHours := 72, journal := 0, journalAll := 0
    quiescing := false, flushing := false, clean := false }

/-! ### Pontoon (R328-R373) -/

/-- A packet waiting at a port's sender, or under way there (R345): its class, the flits of it sent so far, and its
arrival number at the port. -/
structure TxPkt where
  pkt  : Packet
  cls  : Nat
  sent : Nat
  no   : Nat
  deriving DecidableEq, Repr

/-- A flit in a replay buffer (R336): its SEQ, header fields, and its packet with the flit's number in it. -/
structure ReplayFlit where
  seq  : Nat
  cls  : Nat
  pkt  : Packet
  k    : Nat
  deriving DecidableEq, Repr

/-- A Pontoon port: `PONT[p].STATUS` and `ERR_CNT`, its sender (next SEQ, replay buffer, where a replay stands, packets
waiting, receiver buffer in use by VC and class at key 4 · VC + class), its receiver (next SEQ expected, a NAK out, flits
accepted and not acknowledged, the first of them, link control owed, credits owed, packets half received by VC, whole
packets not yet taken with their class), its failures, when CONFIGURE asked it to close, and its neighbour. -/
structure PontPort where
  state   : BitVec 2
  width   : BitVec 3
  spare   : Bool
  home    : Bool
  laneFail : BitVec 4
  peer    : BitVec 18
  fecUnc  : BitVec 16
  retry   : BitVec 16
  txSeq   : Nat
  replay  : List ReplayFlit
  resend  : Option Nat
  txq     : List TxPkt
  txNo    : Nat
  used    : Tab Nat
  rxSeq   : Nat
  nakOut  : Bool
  unacked : Nat
  ackFrom : Nat
  ctlDue  : Bool
  nakDue  : Bool
  owed    : Tab Nat
  partials : Tab (List Byte)
  rx      : List (Packet × Nat)
  progress : Nat
  naks    : Nat
  fails   : Nat
  downFrom : Option Nat
  closing : Option Nat
  heard   : Nat
  delays  : List Nat
  deriving DecidableEq, Repr

/-- A port after RESET_N: down (R333). -/
def PontPort.reset : PontPort :=
  { state := 0, width := 0, spare := false, home := false, laneFail := 0, peer := 0, fecUnc := 0, retry := 0
    txSeq := 0, replay := [], resend := none, txq := [], txNo := 0, used := [], rxSeq := 0, nakOut := false
    unacked := 0, ackFrom := 0, ctlDue := false, nakDue := false, owed := [], partials := [], rx := []
    progress := 0, naks := 0, fails := 0, downFrom := none, closing := none, heard := 0, delays := [] }

/-- An operation issued to another device and not complete (R343): its packet, its context and the near units it
moves, and whether it belongs to a collective instance of this device. -/
structure RemoteOp where
  id     : Nat
  opc    : Nat
  dst    : BitVec 18
  addr   : BitVec 64
  coll   : BitVec 16
  sfn    : BitVec 16
  issued : Nat
  reqs   : List Nat
  deriving DecidableEq, Repr

/-- A collective instance of this device (R357-R361): its descriptor's number in the image, the SFN and instant of its
trigger, operations received, whether all own ones are issued, saturations, DONE sent, and as leader or deputy the DONEs held,
the decision made and whom it awaits. `decided` is 0 clean, 1 miss, 2 timed out. -/
structure CollInst where
  desc     : CollDesc
  active   : Bool
  sfn      : BitVec 48
  deadline : Nat
  received : Nat
  issued   : Bool
  sats     : Nat
  doneSent : Bool
  dones    : List (BitVec 18 × Nat)
  decision : Option (Nat × Bool × Nat)
  told     : Bool
  decided  : Option Nat
  deriving DecidableEq, Repr

/-- Pontoon: its ports, `PONT.NODE`, `PONT.SHAPE`, `PONT.TIME_STATUS`, the parameters of CONFIGURE, system time less
device time, the lock, the ticks received (S, I_S, P) with those still to be delivered, the master's next tick, the
failed-device list, open remote operations, windows and collective instances. -/
structure PontSt where
  ports    : Tab PontPort
  devId    : BitVec 18
  joined   : Bool
  master   : Bool
  backup   : Bool
  skipA    : BitVec 3
  skipB    : BitVec 3
  lens     : BitVec 24
  ndim     : BitVec 3
  locked   : Bool
  jumped   : Bool
  offset   : BitVec 16
  masterId : BitVec 18
  backupId : BitVec 18
  wait     : Nat
  lead     : Nat
  diff     : Int
  good     : Nat
  lostFrom : Option Nat
  lastTick : Option (Nat × Nat × Nat)
  tickDue  : List (Nat × Nat × Nat)
  nextTick : Option (Nat × Nat × Nat)
  sentTime : Nat
  sentBeat : Nat
  newMaster : Bool
  slew     : Nat
  failed   : List (BitVec 18)
  noticed  : List (BitVec 18)
  ops      : List RemoteOp
  opNo     : Nat
  windows  : List PeerWindow
  colls    : List CollInst
  trigger  : Nat × Nat
  dropped  : Nat
  deriving DecidableEq, Repr

/-- Pontoon after RESET_N: not configured, ports down (R333, R351, R361, R365, R367). -/
def PontSt.reset : PontSt :=
  { ports := [], devId := 0, joined := false, master := false, backup := false, skipA := 7, skipB := 7, lens := 0
    ndim := 0, locked := false, jumped := false, offset := 0, masterId := 0, backupId := 0, wait := 800000
    lead := 80000, diff := 0, good := 0, lostFrom := none, lastTick := none, tickDue := [], nextTick := none
    sentTime := 0, sentBeat := 0, newMaster := false, slew := 0, failed := [], noticed := [], ops := [], opNo := 0, windows := [], colls := []
    trigger := (0, 0), dropped := 0 }


end Sys2Proof.Machine
end

