-- ==== Sys2Proof/Machine/State.lean ====
section
/-! DEFINITION. The state of the part, the reasons a command can stop, and the state after RESET_N. -/

namespace Sys2Proof.Machine

/-- A command stops with a fault: none does. The spec gives every command of the table an effect, and what it calls
a fault is a record, a leaf bit and a spoil in the state. -/
inductive Fault where
  deriving DecidableEq, Repr

/-- A command has no meaning. -/
inductive Refusal where
  /-- Raised by an arm of `exec` that has no meaning yet. Safe. -/
  | notModelled (mnemonic : String)
  /-- Raised by the meaning of a command whose operands no command of the part can carry (`WellFormed`): a list of
  the wrong length, a number beyond its field. Safe: the part never meets it. -/
  | illFormed (mnemonic : String)
  deriving DecidableEq, Repr

/-- The state of the part, and the queue of waiting commands. Tables of positions are keyed i = 12x + y, of
clusters j = 12g + c, of Ferry stops 2i + array; a key that is not listed holds its unit's reset value. -/
structure State where
  pending : List Instr
  time    : Nat
  epoch   : Nat
  fresh   : Nat
  frm     : FrameSt
  clu     : Tab CluSt
  flt     : FaultSt
  nst     : Mem
  deck    : Mem
  lp      : Mem
  nstBank : Tab BankSt
  deckBank : Tab BankSt
  bankUse : BankUse
  core    : Tab CoreSt
  stop    : Tab StopSt
  ferryFly : List LinkFlit
  splice  : BitVec 3
  rtr     : Tab RouterSt
  meshFly : List LinkFlit
  cour    : CourierSt
  upd     : UpdSt
  shape   : ShapeSt
  cnt     : CntSt
  stk     : Tab StackSt
  ctx     : Tab CtxSt
  queue   : Tab QueueSt
  reqNo   : Nat
  waitLimit : Byte
  mport   : Tab MportSt
  depot   : DepotSt
  pont    : PontSt
  obs     : ObsSt
  post    : PostSt
  boot    : BootSt
  brt     : BerthSt
  host    : HostSt
  pwr     : PowerSt
  pins    : PinSt
  out     : List OutMsg
  upsets  : List Upset
  deriving DecidableEq, Repr

/-- The part right after RESET_N rises on a fresh power-up: every register at its reset value, memories with nothing
listed, no command waiting. -/
def State.reset : State :=
  { pending := [], time := 0, epoch := 0, fresh := 0, frm := .reset, clu := [], flt := .reset
    nst := .empty 0, deck := .empty 1, lp := .empty 2, nstBank := [], deckBank := [], bankUse := .reset, core := [], stop := []
    ferryFly := [], splice := 0, rtr := [], meshFly := [], cour := .reset, upd := .reset, shape := .reset, cnt := .reset, stk := [], ctx := [], queue := []
    reqNo := 0, waitLimit := 0x04, mport := [], depot := .reset, pont := .reset, obs := .reset, post := .reset, boot := .reset
    brt := .reset, host := .reset, pwr := .reset, pins := .reset, out := [], upsets := [] }

end Sys2Proof.Machine
end

