-- ==== Sys2Proof/Machine/Ops.lean ====
section
/-! DEFINITION. The operations every meaning uses: tables, memories, geometry, counters, the one way a fault is raised
(record, log, leaf, NOTIFY, suspect, spoil) and how a spoil acts at the tick root. -/

namespace Sys2Proof.Machine

/-! ### Tables -/

/-- The entry of key `k`, or `d` where none is listed. -/
def tget (t : Tab α) (k : Nat) (d : α) : α :=
  match t with
  | [] => d
  | (k', v) :: r => if k = k' then v else tget r k d

/-- The entry of key `k`, if one is listed. -/
def tfind (t : Tab α) (k : Nat) : Option α :=
  match t with
  | [] => none
  | (k', v) :: r => if k = k' then some v else tfind r k

/-- `t` with `v` at key `k`, keys rising. -/
def tset (t : Tab α) (k : Nat) (v : α) : Tab α :=
  match t with
  | [] => [(k, v)]
  | (k', v') :: r =>
    if k < k' then (k, v) :: (k', v') :: r
    else if k = k' then (k, v) :: r
    else (k', v') :: tset r k v

/-- `t` without key `k`. -/
def tdel (t : Tab α) (k : Nat) : Tab α := t.filter (fun e => e.1 != k)

/-! ### Memories -/

/-- The epoch whose undefined contents an unlisted address reads. -/
def Mem.base (m : Mem) (a : Nat) : Nat :=
  match m.bases.find? (fun b => decide (b.1 ≤ a) && decide (a < b.2.1)) with
  | some b => b.2.2
  | none => m.epoch

/-- What an unlisted address reads as. -/
def Mem.dflt (m : Mem) (a : Nat) : Byte :=
  if m.base a = 0 then 0 else Config.undefByte m.tag (m.base a) a

/-- The byte at an address. -/
def Mem.get (m : Mem) (a : Nat) : Byte := tget m.cells a (m.dflt a)

/-- `m` with byte `b` at `a`, in canonical form. -/
def Mem.set (m : Mem) (a : Nat) (b : Byte) : Mem :=
  { m with cells := if b = m.dflt a then tdel m.cells a else tset m.cells a b }

/-- Keys rise strictly from a bound on. -/
def risingFrom (lo : Nat) : List (Nat × Byte) → Bool
  | [] => true
  | (k, _) :: r => decide (lo ≤ k) && risingFrom (k + 1) r

/-- The canonical form: addresses strictly rising, no entry equal to what its address reads as when unlisted. -/
def Mem.wf (m : Mem) : Bool := risingFrom 0 m.cells && m.cells.all (fun c => c.2 != m.dflt c.1)

/-- The `n` bytes from `a` on, the byte at the lowest address least significant (R4). -/
def Mem.read (m : Mem) (a : Nat) : Nat → Nat
  | 0 => 0
  | n + 1 => (m.get a).toNat + 256 * m.read (a + 1) n

/-- The `n` bytes from `a` on, in address order. -/
def Mem.bytes (m : Mem) (a n : Nat) : List Byte := (List.range n).map (fun k => m.get (a + k))

/-- `m` with the low `n` bytes of `v` stored from `a` on, byte k only where bit k of `mask` is set. -/
def Mem.write (m : Mem) (a : Nat) (v : Nat) (mask : Nat) : Nat → Mem
  | 0 => m
  | n + 1 =>
    let m' := if mask % 2 = 1 then m.set a (BitVec.ofNat 8 v) else m
    m'.write (a + 1) (v / 256) (mask / 2) n

/-- `m` with a list of bytes stored from `a` on. -/
def Mem.store (m : Mem) (a : Nat) : List Byte → Mem
  | [] => m
  | b :: r => (m.set a b).store (a + 1) r

/-- `m` with the addresses from `lo` up to `hi` zeroed, check bits valid (R227, R231). -/
def Mem.zero (m : Mem) (lo hi : Nat) : Mem :=
  { m with
    cells := m.cells.filter (fun c => decide (c.1 < lo) || decide (hi ≤ c.1))
    bases := (lo, hi, 0) :: m.bases
    marks := m.marks.filter (fun c => decide (8 * c.1 + 8 ≤ lo) || decide (hi ≤ 8 * c.1)) }

/-- A byte range whose contents are open: each byte a free value (log entry 5). -/
def Mem.open_ (m : Mem) (lo hi e : Nat) : Mem :=
  { m with
    cells := m.cells.filter (fun c => decide (c.1 < lo) || decide (hi ≤ c.1))
    bases := (lo, hi, 4294967296 + e) :: m.bases
    marks := m.marks.filter (fun c => decide (8 * c.1 + 8 ≤ lo) || decide (hi ≤ 8 * c.1)) }

/-- Whether an address lies in one of some ranges. -/
def inRanges (rs : List (Nat × Nat)) (a : Nat) : Bool := rs.any (fun r => decide (r.1 ≤ a) && decide (a < r.2))

/-- The parts of the ranges of `m.bases`, and of the rest of the memory, that lie in a range. -/
def Mem.clip (m : Mem) (r : Nat × Nat) : List (Nat × Nat × Nat) :=
  (m.bases.map (fun b => (max b.1 r.1, min b.2.1 r.2, b.2.2))).filter (fun b => decide (b.1 < b.2.1))
    ++ [(r.1, r.2, m.epoch)]

/-- `m` at the start of invocation `e`: everything outside the ranges kept is undefined (R230). -/
def Mem.forget (m : Mem) (e : Nat) (keep : List (Nat × Nat)) : Mem :=
  { m with
    cells := m.cells.filter (fun c => inRanges keep c.1)
    bases := keep.flatMap m.clip
    epoch := e
    marks := m.marks.filter (fun c => inRanges keep (8 * c.1)) }

/-- The condition of the 64-bit words from byte `a` over `n` bytes: a correctable one, an uncorrectable one (R218). -/
def Mem.ecc (m : Mem) (a n : Nat) : Bool × Bool :=
  let ws := m.marks.filter (fun c => decide (a / 8 ≤ c.1) && decide (8 * c.1 < a + n))
  (ws.any (fun c => c.2 == .corrected), ws.any (fun c => c.2 == .uncorrectable || c.2 == .poison))

/-- `m` with the conditions of the words from byte `a` over `n` bytes cleared by an unmasked write (R218). -/
def Mem.cleanWords (m : Mem) (a n : Nat) : Mem :=
  { m with marks := m.marks.filter (fun c => !(decide (a ≤ 8 * c.1) && decide (8 * c.1 + 8 ≤ a + n))) }

/-- `m` after a masked write over the words from byte `a` (R218): a correctable word is corrected, a word that was
uncorrectable holds the poison syndrome. -/
def Mem.mergeWords (m : Mem) (a n : Nat) : Mem :=
  { m with marks := m.marks.filterMap (fun c =>
      if decide (a / 8 ≤ c.1) && decide (8 * c.1 < a + n) then
        (if c.2 == .corrected || c.2 == .good then none else some (c.1, .poison))
      else some c) }

/-- The 64-bit words from byte `a` on that a byte mask of `n` bytes covers in part or whole (R218). -/
def maskWords (a mask n : Nat) : List Nat :=
  ((List.range (n / 8)).filter (fun k => mask / 256 ^ k % 256 != 0)).map (fun k => a / 8 + k)

/-- The condition of some words: a correctable one, an uncorrectable one (R218). -/
def Mem.eccAt (m : Mem) (ws : List Nat) : Bool × Bool :=
  let l := m.marks.filter (fun c => ws.contains c.1)
  (l.any (fun c => c.2 == .corrected), l.any (fun c => c.2 == .uncorrectable || c.2 == .poison))

/-- `m` after a masked write that covers some words: `mergeWords` of each. -/
def Mem.mergeAt (m : Mem) (ws : List Nat) : Mem :=
  { m with marks := m.marks.filterMap (fun c =>
      if ws.contains c.1 then (if c.2 == .corrected || c.2 == .good then none else some (c.1, .poison)) else some c) }

/-- The number of correctable words from byte `a` over `n` bytes (R502). -/
def Mem.eccCount (m : Mem) (a n : Nat) : Nat :=
  m.marks.countP (fun c => decide (a / 8 ≤ c.1) && decide (8 * c.1 < a + n) && c.2 == .corrected)

/-- Whether an address of a table of page ranges is listed. -/
def inPages (rs : List (Nat × Nat)) (page : Nat) : Bool := rs.any (fun r => decide (r.1 ≤ page) && decide (page < r.2))

/-! ### Geometry (R11, R32, R131) -/

/-- The region of a position. -/
def posRegion (i : Nat) : Nat := (i / 12) / 4
/-- The cluster 12g + c of a position. -/
def posClu (i : Nat) : Nat := 12 * posRegion i + 2 * ((i % 12) / 2) + ((i / 12) % 4) / 2
/-- The core number k of a position in its cluster. -/
def posCore (i : Nat) : Nat := 2 * (i % 12 % 2) + (i / 12) % 2
/-- The position's number n within its region (R466, R475). -/
def posInRegion (i : Nat) : Nat := 12 * ((i / 12) % 4) + i % 12
/-- The positions of a cluster, in the order of k. -/
def cluPos (j : Nat) : List Nat := (List.range 192).filter (fun i => posClu i == j)
/-- Column and row of a cluster in the grid of clusters, 8 columns by 6 rows. -/
def cluX (j : Nat) : Nat := 2 * (j / 12) + j % 12 % 2
def cluY (j : Nat) : Nat := j % 12 / 2
/-- Whether two clusters share a boundary, and so a crossing each way. -/
def cluAdj (a b : Nat) : Bool :=
  (cluX a == cluX b && (cluY a + 1 == cluY b || cluY b + 1 == cluY a)) ||
  (cluY a == cluY b && (cluX a + 1 == cluX b || cluX b + 1 == cluX a))

/-- Whether a position is fenced, bad or spare (R22). -/
def State.isFenced (s : State) (i : Nat) : Bool := s.shape.fenced.getLsbD i
/-- Whether a position's core is live: a shape is built, it is usable, and the position is not fenced (R28). -/
def State.isLive (s : State) (i : Nat) : Bool :=
  s.shape.built && !s.shape.unusable && decide (i < 192) && !s.isFenced i
/-- The physical position of logical core l(x, y) (R23). -/
def State.physOf (s : State) (x y : Nat) : Option Nat :=
  (((List.range 12).filter (fun r => !s.isFenced (12 * x + r))).map (fun r => 12 * x + r))[y]?
/-- The position of the n-th fenced position of a column (R199). -/
def State.fencedOf (s : State) (x n : Nat) : Option Nat :=
  (((List.range 12).filter (fun r => s.isFenced (12 * x + r))).map (fun r => 12 * x + r))[n]?
/-- The position that logical coordinates name, a pool column for a row of 0xC or more (R199, R229). -/
def State.colOf (s : State) (x y : Nat) : Option Nat := if y < 12 then s.physOf x y else s.fencedOf x (y - 12)

/-! ### Units by their keys -/

/-- The key of a waybill context (R245), and its block, unit and number. -/
def ctxKey (blk unit num : Nat) : Nat := 32768 * blk + 128 * unit + num
def idKey (c : CtxId) : Nat := ctxKey c.blk.val c.unit.val c.num.val
def ctxBlk (k : Nat) : Nat := k / 32768
def ctxUnit (k : Nat) : Nat := k % 32768 / 128
def ctxNum (k : Nat) : Nat := k % 128
/-- The key of a serving block's queue: memory port 0, Depot channel 1, Pontoon port 2, UCIe 3 (R258). -/
def queueKey (blk unit : Nat) : Nat := 64 * blk + unit


def State.cluAt (s : State) (j : Nat) : CluSt := tget s.clu j .reset
def State.setClu (s : State) (j : Nat) (c : CluSt) : State := { s with clu := tset s.clu j c }
def State.coreAt (s : State) (i : Nat) : CoreSt := tget s.core i .reset
def State.setCore (s : State) (i : Nat) (c : CoreSt) : State := { s with core := tset s.core i c }
def State.stopAt (s : State) (k : Nat) : StopSt := tget s.stop k .reset
def State.setStop (s : State) (k : Nat) (x : StopSt) : State := { s with stop := tset s.stop k x }
def State.rtrAt (s : State) (i : Nat) : RouterSt := tget s.rtr i .reset
def State.setRtr (s : State) (i : Nat) (x : RouterSt) : State := { s with rtr := tset s.rtr i x }
def State.nstB (s : State) (i : Nat) : BankSt := tget s.nstBank i .resetNst
def State.setNstB (s : State) (i : Nat) (x : BankSt) : State := { s with nstBank := tset s.nstBank i x }
def State.deckB (s : State) (i : Nat) : BankSt := tget s.deckBank i .resetDeck
def State.setDeckB (s : State) (i : Nat) (x : BankSt) : State := { s with deckBank := tset s.deckBank i x }
def State.stkAt (s : State) (i : Nat) : StackSt := tget s.stk i .reset
def State.setStk (s : State) (i : Nat) (x : StackSt) : State := { s with stk := tset s.stk i x }
def State.ctxAt (s : State) (k : Nat) : CtxSt := tget s.ctx k .reset
def State.setCtx (s : State) (k : Nat) (x : CtxSt) : State := { s with ctx := tset s.ctx k x }
def State.queueAt (s : State) (k : Nat) : QueueSt := tget s.queue k .reset
def State.setQueue (s : State) (k : Nat) (x : QueueSt) : State := { s with queue := tset s.queue k x }
def State.mportAt (s : State) (i : Nat) : MportSt := tget s.mport i .reset
def State.setMport (s : State) (i : Nat) (x : MportSt) : State := { s with mport := tset s.mport i x }
/-- System time now (R363): device time and what it lacks. -/
def State.sysTime (s : State) : Nat := ((s.time : Int) + s.pont.diff).toNat
/-- The tcyc that the cluster of position `i` is executing (R49). -/
def State.tcyc (s : State) (i : Nat) : Nat := (s.cluAt (posClu i)).slot
/-- The condition of a word that an upset can strike. -/
def State.upset (s : State) (place : Place) (unit word : Nat) : Ecc :=
  match s.upsets.find? (fun u => u.place == place && u.unit == unit && u.word == word) with
  | some u => u.ecc
  | none => .good
/-- Whether upsets stand among `n` words from `lo` on: one that the code corrects, one that it does not. -/
def State.upsetIn (s : State) (place : Place) (unit lo n : Nat) : Bool × Bool :=
  let us := s.upsets.filter (fun u => u.place == place && u.unit == unit && decide (lo ≤ u.word) && decide (u.word < lo + n))
  (us.any (fun u => u.ecc == .corrected), us.any (fun u => u.ecc == .uncorrectable || u.ecc == .poison))
/-- Words that are written anew are good again: `n` of them from `lo` on. -/
def State.heal (s : State) (place : Place) (unit lo n : Nat) : State :=
  { s with upsets := s.upsets.filter (fun u =>
      !(u.place == place && u.unit == unit && decide (lo ≤ u.word) && decide (u.word < lo + n))) }
/-- What the part sends out, added at the end. -/
def State.emit (s : State) (o : OutMsg) : State := { s with out := s.out ++ [o] }
/-- The model's next free number, for free values. -/
def State.tickFresh (s : State) : State := { s with fresh := s.fresh + 1 }

/-! ### Fault codes (R75, R101, R130, R152, R178, R206, R213, R244, R273, R293, R327, R373, R394, R449, R477, R497,
R518) -/

/-- The causes of a class: cause, kind (0 fault, 1 schedule fault, 2 notice), spoil (0 none, 1 frame, 2 step). -/
def codeTable (cls : Nat) : List (Nat × Nat × Nat) :=
  match cls with
  | 0x10 => [(1,0,1),(2,2,0),(3,0,1),(4,0,0),(5,0,0),(6,0,1)]
  | 0x12 => [(1,2,0),(2,0,0)]
  | 0x14 => [(1,0,1),(2,2,0),(3,2,0),(4,2,0),(5,2,0),(6,0,1),(7,2,0),(8,0,1),(9,0,0),(0xA,2,0)]
  | 0x15 => [(1,0,1),(2,0,1),(3,2,0),(5,0,1),(6,2,0),(7,0,0),(8,2,0),(0xA,2,0),(0xC,2,0),(0xD,0,0),(0xE,0,0)]
  | 0x16 => [(1,0,1),(2,2,0),(3,0,2)]
  | 0x17 => [(1,2,0),(2,2,0),(3,2,0),(4,2,0)]
  | 0x21 => [(1,0,1),(2,0,1),(3,0,1),(4,0,1),(5,0,1),(6,1,1),(7,1,1),(8,2,0),(9,0,1)]
  | 0x22 => [(1,1,1),(2,1,1),(3,1,1),(4,1,1),(5,1,1),(6,1,1),(7,1,1),(8,1,1),(9,1,1),(0xA,1,1),(0xB,1,1),
             (0xC,1,1),(0xD,1,1),(0xE,2,0),(0xF,0,1),(0x10,0,1),(0x11,1,1),(0x12,1,1)]
  | 0x23 => [(1,0,1),(2,2,0),(3,0,1)]
  | 0x25 => [(1,0,1),(2,1,1),(3,1,1),(4,1,1),(5,1,1),(6,1,1),(7,1,1),(8,1,1),(9,1,1),(0xA,1,1),(0xB,2,0),
             (0xC,0,1),(0xD,1,1),(0xE,1,1)]
  | 0x26 => [(1,1,1),(2,0,1),(3,2,0),(4,2,0)]
  | 0x27 => [(1,0,1),(2,1,1),(3,1,1),(4,1,1),(5,1,1),(6,1,1),(7,1,1),(8,1,1),(9,1,1),(0xC,0,1),(0xD,2,0),
             (0xE,0,1),(0xF,2,0),(0x10,1,1),(0x11,1,1),(0x12,1,1)]
  | 0x28 => [(1,2,0),(2,2,0),(3,0,1),(4,0,1),(5,0,0)]
  | 0x29 => [(1,2,0),(2,0,1),(3,1,1),(4,1,1),(5,1,1),(6,0,0),(7,0,0)]
  | 0x2A => [(1,2,0),(2,0,1),(3,1,1),(4,1,1),(5,0,1),(6,0,1),(7,1,1),(8,0,0),(9,0,0),(0xA,2,0)]
  | 0x2B => [(1,0,1),(2,0,1),(3,0,1),(4,0,1),(5,0,1),(6,2,0),(7,0,1)]
  | 0x2C => [(1,2,0),(2,0,0),(3,0,1),(4,0,1),(5,0,1),(6,2,0),(7,0,0),(8,0,1)]
  | 0x2D => [(1,0,1),(2,2,0),(3,2,0),(4,0,0),(5,2,0),(6,2,0),(7,0,1),(8,0,1)]
  | 0x2E => [(1,2,0),(2,2,0),(3,0,0),(4,2,0),(5,2,0),(6,0,0),(7,0,1),(8,0,1),(9,2,0),(0xA,0,1),(0xB,2,0),
             (0xC,0,0),(0xD,0,1),(0xE,2,0),(0xF,2,0)]
  | 0x2F => [(1,2,0),(2,2,0),(3,2,0),(4,2,0),(5,2,0),(6,0,0),(7,0,0),(8,2,0),(9,0,1),(0xA,0,0)]
  | 0x30 => [(1,0,1),(2,0,1),(3,0,2),(4,0,2),(5,2,0),(6,0,1),(7,0,0),(8,0,1),(9,2,0),(0xA,2,0),(0xB,0,1),
             (0xC,0,2),(0xD,0,0),(0xE,2,0),(0xF,0,0)]
  | 0x31 => [(1,2,0),(2,0,0),(3,2,0),(4,0,0),(5,0,1),(6,0,0),(7,0,0),(8,0,0),(9,2,0)]
  | 0x32 => [(1,2,0),(2,2,0),(3,2,0),(4,2,0),(5,0,1),(6,2,0),(7,2,0)]
  | 0x33 => [(1,2,0),(2,2,0),(3,0,0),(4,2,0),(5,0,0),(6,2,0)]
  | _ => []

/-- The kind of a code: 0 fault, 1 schedule fault, 2 notice (R455). -/
def codeKind (c : Code) : Nat := ((tfind (codeTable (c.toNat / 256)) (c.toNat % 256)).map (·.1)).getD 0
/-- What a code spoils: 0 nothing, 1 the frame, 2 the step only (R457). -/
def codeSpoil (c : Code) : Nat := ((tfind (codeTable (c.toNat / 256)) (c.toNat % 256)).map (·.2)).getD 0

/-- An event to record (R457, R458). `blk` names the owner block for class 0x2B (0 core, 1 memory port, 2 Depot
channel, 3 Pontoon port), 1 a channel for 0x2E, 1 the trace unit for 0x33. `port` names the unit whose leaf takes the event
where INST says something else (R458). `quiet` drops the spoil (R244). -/
structure Ev where
  code : Code
  pos  : Nat := 0xFF
  unit : Nat := 0
  tt   : Option Nat := none
  inst : Nat := 0
  aux  : Nat := 0
  detail : Nat := 0
  blk  : Nat := 0
  port : Option Nat := none
  quiet : Bool := false

/-- The BAR0 offset of the leaf that an event sets (R456, R474, R475). -/
def leafOff (e : Ev) : Nat :=
  let g := posRegion e.pos
  let rgn := 0x12000 + 0x2000 * g
  let core (b : Nat) := rgn + 0x400 + 0x80 * posInRegion e.pos + 8 + 8 * b
  match e.code.toNat / 256 with
  | 0x10 => 0x1E108
  | 0x12 => rgn + 0x8
  | 0x14 => 0x1F008
  | 0x15 =>
    if e.code.toNat % 256 = 1 || e.code.toNat % 256 = 2 || e.code.toNat % 256 = 3 || e.code.toNat % 256 = 0xC
    then 0x1F100 + 8 * e.inst else 0x1F018
  | 0x16 => 0x1F010
  | 0x17 => 0x1E120
  | 0x22 => core 0
  | 0x23 => core 3
  | 0x27 => core 6
  | 0x29 => core 7
  | 0x26 => if e.code.toNat % 256 ≤ 2 then core 8 else 0x1E010
  | 0x28 => 0x1E110
  | 0x2A => 0x1A100 + 8 * e.pos
  | 0x2B =>
    match e.blk with
    | 0 => core 9
    | 1 => 0x1B100 + 24 * e.port.getD e.inst + 16
    | 2 => 0x1C100 + 24 * e.port.getD e.inst + 16
    | _ => 0x1D100 + 24 * e.port.getD e.inst + 16
  | 0x2C => 0x1B100 + 24 * e.inst + 8
  | 0x2D => if e.code.toNat % 256 = 3 then core 10 else if e.code.toNat % 256 = 4 then 0x1E118
            else 0x12000 + 0x2000 * (e.inst % 4) + 0x10
  | 0x2E => if e.blk = 1 then 0x1C100 + 24 * e.inst + 8 else 0x1C008
  | 0x2F => 0x1D100 + 24 * e.inst + 8
  | 0x30 => 0x1D008
  | 0x31 => 0x1E008
  | 0x32 => 0x1E208
  | 0x33 => if e.blk = 1 then 0x1E310 else 0x1E308
  | _ => core (e.unit - 1)

/-- The subsystem, 0 to 12, whose log takes the record: the subtree of its leaf (R408, R474). -/
def leafSubsys (off : Nat) : Nat :=
  if off < 0x1A000 then (off - 0x12000) / 0x2000
  else if off < 0x1B000 then 4
  else if off < 0x1C000 then 5
  else if off < 0x1D000 then 6
  else if off < 0x1E000 then 7
  else if off < 0x1E100 then 8
  else if off < 0x1E200 then 9
  else if off < 0x1E300 then 11
  else if off < 0x1F000 then 12
  else 10

/-! ### Raising a fault (R455-R465) -/

/-- Whether an event arises in a cluster and travels on the Courier network (R462). -/
def Ev.inCluster (e : Ev) : Bool := (e.tt.isSome || e.code == 0x2B01) && decide (e.pos < 192)

/-- The time counter of a cluster (R435, R436): device time, less what its clock missed until a sample sets it forward. -/
def State.cluTime (s : State) (j : Nat) : Nat := s.time - (s.cluAt j).timeLag

/-- The 32 bytes of a record (R457). -/
def mkRec (s : State) (e : Ev) (sub : Nat) (suspect lost : Bool) : Rec :=
  let b (x : Bool) (n : Nat) : Nat := if x then 2 ^ n else 0
  let sp := if e.quiet then 0 else codeSpoil e.code
  let flags := codeKind e.code + b (sp == 1) 2 + b (sp == 2) 3 + b e.tt.isSome 4 + b (e.code == 0x2804) 5
                + b suspect 6 + b lost 7
  let subsys := match e.tt with | some t => t / 2 ^ 20 % 256 | none => sub
  let hi := match e.tt with | some t => t % 2 ^ 20 | none => e.inst % 2 ^ 20
  let now := if e.tt.isSome && decide (e.pos < 192) then s.cluTime (posClu e.pos) else s.time
  BitVec.ofNat 256 (e.code.toNat + 2 ^ 16 * flags + 2 ^ 24 * subsys
    + 2 ^ 32 * (e.pos % 256 + 256 * (e.unit % 16) + 4096 * hi)
    + 2 ^ 64 * s.frm.frameNum.toNat + 2 ^ 112 * (e.aux % 2 ^ 16) + 2 ^ 128 * (now % 2 ^ 64)
    + 2 ^ 192 * (e.detail % 2 ^ 64))

/-- The location of a notice (R460). -/
def Ev.loc (e : Ev) : Nat :=
  e.pos % 256 + 256 * (e.unit % 16) + (match e.tt with | some _ => 0 | none => 4096 * (e.inst % 2 ^ 20 + 1))

/-- Length of a notice window in qns (R460). -/
def noticeWindow : Nat := 4000000

/-- Whether a notice of this code at this location has been recorded in the window that holds this moment. -/
def State.noticed (s : State) (e : Ev) : Bool :=
  s.flt.notices.any (fun n => n.1 == e.code.toNat && n.2.1 == e.loc && n.2.2 == s.time / noticeWindow)

/-- Whether a position's RGN SUSPECT bit is set (R466). -/
def State.isSuspect (s : State) (p : Nat) : Bool := (tget s.flt.suspect (posRegion p) 0).getLsbD (posInRegion p)

/-- Ten seconds in qns. -/
def tenSeconds : Nat := 40000000000

/-- Whether a code counts toward a suspect position by three in 10 s (R465). -/
def suspectCode (c : Code) : Bool :=
  (codeKind c == 0) &&
  (((c.toNat / 256 == 0x21) && c != 0x2109) || ((c.toNat / 256 == 0x23) && c != 0x2303) || c == 0x2210)

/-- Whether this event makes its position suspect, or those of its cluster (R465). -/
def State.suspects (s : State) (e : Ev) : Bool :=
  (e.code == 0x1502 && (cluPos e.inst).any (fun p => !s.isSuspect p))
  || (decide (e.pos < 192) && !s.isSuspect e.pos &&
    (e.code == 0x1202 ||
     (suspectCode e.code &&
      decide (2 ≤ (s.flt.history.filter (fun h => h.1 == e.pos && decide (s.time ≤ h.2 + tenSeconds))).length))))

/-- The bits of a leaf that the hardware set at a moment, and that record with one bit more (R9). -/
def FaultSt.setAt (f : FaultSt) (t off : Nat) : Word :=
  match tfind f.setNow off with
  | some (u, w) => if u = t then w else 0
  | none => 0
def FaultSt.justSet (f : FaultSt) (t off bit : Nat) : Tab (Nat × Word) :=
  tset f.setNow off (t, f.setAt t off ||| (1#32 <<< bit))

/-- Write the record of an event into its log and set its leaf bit (R457-R460, R472). -/
def State.logEvent (s : State) (e : Ev) (suspect : Bool) : State :=
  let off := leafOff e
  let sub := leafSubsys off
  let lg := tget s.flt.logs sub .reset
  let note := codeKind e.code == 2
  let supp := note && s.noticed e
  let lg' : LogSt :=
    if supp then { lg with supp := if lg.supp = 0xFF then 0xFF else lg.supp + 1 }
    else if 256 ≤ lg.recs.length then
      { lg with lost := if lg.lost = 0xFF then 0xFF else lg.lost + 1, lostFlag := true }
    else { lg with recs := lg.recs ++ [mkRec s e sub suspect lg.lostFlag], lostFlag := false }
  { s with flt := { s.flt with
      logs := tset s.flt.logs sub lg'
      leaves := tset s.flt.leaves off (tget s.flt.leaves off 0 ||| (1#32 <<< (e.code.toNat % 256)))
      setNow := s.flt.justSet s.time off (e.code.toNat % 256)
      notices := if note && !supp then s.flt.notices ++ [(e.code.toNat, e.loc, s.time / noticeWindow)]
                 else s.flt.notices
      history := if suspectCode e.code && decide (e.pos < 192) then s.flt.history ++ [(e.pos, s.time)]
                 else s.flt.history } }

/-! ### Counters (R498-R502) -/

/-- The key of a counter. -/
def cntKey (blk unit idx : Nat) : Nat := 65536 * blk + 64 * unit + idx

/-- A counter advanced by `n`; a wrap sets OVF and raises notice 0x33.01 (R498). -/
def State.count (s : State) (blk unit idx n : Nat) : State :=
  let k := cntKey blk unit idx
  let v := (tget s.cnt.val k 0).toNat + n
  let s' := { s with cnt := { s.cnt with
      val := tset s.cnt.val k (BitVec.ofNat 48 v)
      ovf := if v < 2 ^ 48 then s.cnt.ovf else tset s.cnt.ovf k true } }
  if v < 2 ^ 48 then s'
  else s'.logEvent { code := 0x3301, pos := if blk = 8 then unit else 0xFF, inst := if blk = 8 then idx else k } false

/-- `n` bytes moved at port `k` of R508, inward or outward. -/
def State.bw (s : State) (k : Nat) (out : Bool) (n : Nat) : State :=
  let key := 2 * k + (if out then 1 else 0)
  { s with obs := { s.obs with bwBytes := tset s.obs.bwBytes key (tget s.obs.bwBytes key 0 + n) } }

/-- One event of R501 at a core position: every programmable counter that selects it advances. A fenced position
counts none (R500). -/
def State.event (s : State) (p ev n : Nat) : State :=
  if s.isLive p then
    (List.range 8).foldl (fun s k =>
      if ((tget s.cnt.sel p 0) >>> (8 * k)).toNat % 256 = ev then s.count 8 p k n else s) s
  else s

/-- Mark a position suspect and raise notice 0x12.01 for it (R465, R466). -/
def State.markSuspect (s : State) (p : Nat) : State :=
  let g := posRegion p
  let s' := { s with flt := { s.flt with
    suspect := tset s.flt.suspect g (tget s.flt.suspect g 0 ||| (1#48 <<< posInRegion p)) } }
  s'.logEvent { code := 0x1201, pos := p } false

/-- The counters that a record advances (R500 ERR and notices, R502 schedule faults). -/
def State.countEvent (s : State) (e : Ev) : State :=
  let kind := codeKind e.code
  if decide (e.pos < 192) then
    let s := if kind = 2 then s else if s.isLive e.pos then s.count 8 e.pos 11 1 else s
    let s := if kind = 2 && !s.noticed e then s.event e.pos 0x38 1 else s
    if kind = 1 then s.count 1 (posRegion e.pos) 1 1 else s
  else s

/-- The record of a damaged commit (R289): 0x2D.04, DAMAGED set, a stop at tick asked for. -/
def State.damage (s : State) : State :=
  if s.upd.damaged then s
  else
    let s := s.logEvent { code := 0x2D04, aux := s.frm.index.toNat, detail := s.frm.stepNum.toNat } false
    { s with upd := { s.upd with damaged := true }, frm := { s.frm with stopReq := true } }

/-- Whether a moment lies in a clk of the root's 1.2 GHz clock (R430). -/
def sameRootClk (a b : Nat) : Bool := a * 3 / 10 == b * 3 / 10

/-! ### Courier packets (R208) -/

/-- The 32 bits of a packet. -/
def courierWord (src dst : Nat) (cls : BitVec 3) (pay : BitVec 17) : Word :=
  pay ++ BitVec.ofNat 6 dst ++ BitVec.ofNat 6 src ++ cls

/-- CRC-8 with polynomial 0x07 over `n` bits of a word from bit 0 upward. -/
def crc8 (w : Word) (crc : Byte) : Nat → Byte
  | 0 => crc
  | n + 1 => crc8 (w >>> 1) (if crc.msb != w.getLsbD 0 then (crc <<< 1) ^^^ 0x07 else crc <<< 1) n

/-- The five beats of a packet on a hop: bits [7:0] first, the CRC last. -/
def courierBeats (w : Word) : List Byte := (List.range 4).map (fun k => w.extractLsb' (8 * k) 8) ++ [crc8 w 0 32]

/-- A packet that leaves its source. -/
def courierMsg (src dst : Nat) (cls : BitVec 3) (pay : BitVec 17) : OutMsg := .courier (courierBeats (courierWord src dst cls pay))

/-- A spoil reaches the root in the clk of an open gate decision: it counts, and the gate stays closed (R61). What the decision
had set is as before it, its broadcast has not left. -/
def State.closeAgain (s : State) (armed : Bool) (mode : BitVec 1) : State :=
  let f := s.frm
  let pay : BitVec 17 := 1#1 ++ f.frameNum.setWidth 16
  let no : BitVec 17 := 0#1 ++ f.frameNum.setWidth 16
  let k := cntKey 0 0 2
  let s : State := { s with
    frm := { f with decision := some false, decided := none, stepNum := f.frameStep }
    clu := s.clu.map (fun (e : Nat × CluSt) => (e.1, { e.2 with gate := none }))
    upd := { s.upd with
      ovrArmed := armed, ovrMode := mode
      shards := s.upd.shards.map (fun (x : Nat × ShardEntry) => if x.2.frozen then x else (x.1, { x.2 with t := f.frameStep })) }
    out := s.out.map (fun (o : OutMsg) => if o == courierMsg 52 63 1 pay then courierMsg 52 63 1 no else o)
    cour := { s.cour with open_ := s.cour.open_.map (fun (o : CourierOut) => if o.cls == 1 && o.pay == pay then { o with pay := no } else o) }
    cnt := { s.cnt with val := tset s.cnt.val k (tget s.cnt.val k 0 - 1) } }
  (s.count 0 0 3 1).logEvent { code := 0x1407, aux := f.index.toNat, detail := f.frameStep.toNat } false

/-- A spoil acts at the tick root (R58, R59, R61, R289, R463). -/
def State.rootSpoil (s : State) (step : Bool) : State :=
  let f := s.frm
  match f.phase.toNat with
  | 0 => s
  | 1 =>
    if f.decision = some true then
      match f.decided with
      | some (t, armed, mode) =>
        if sameRootClk t s.time then
          (let s := s.closeAgain armed mode
           { s with frm := { s.frm with spoiled := s.frm.spoiled || !step, stepSpoiled := true } })
        else s.damage
      | none => s.damage
    else { s with frm := { f with spoiled := f.spoiled || !step, stepSpoiled := true } }
  | 2 =>
    if f.decision = some true then s.damage
    else if step then { s with frm := { f with stepSpoiled := true } }
    else { s with frm := { f with nextSpoiled := true } }
  | _ =>
    if f.stopKind = .immediate then
      (if f.decision = some true then s.damage
       else { s with frm := { f with spoiled := f.spoiled || !step, stepSpoiled := true } })
    else if step then { s with frm := { f with stepSpoiled := true } }
    else { s with frm := { f with nextSpoiled := true } }

/-- 150 ns in qns: the Courier bound of R211. -/
def courierBound : Nat := 600

/-- Cluster `j` sends a SPOIL, if it has sent none in this frame (R209, R462). -/
def State.cluSpoil (s : State) (j : Nat) (code : Code) : State :=
  let c := s.cluAt j
  if c.spoilSent then s
  else
    { (s.setClu j { c with spoilSent := true }).emit (courierMsg j 52 2 (code.setWidth 17)) with
      cour := { s.cour with open_ := s.cour.open_ ++
        [{ src := j, dst := 52, cls := 2, pay := code.setWidth 17, sentAt := s.time, resends := 0 }] }
      flt := { s.flt with dues := s.flt.dues ++
        [{ code := code, clu := if h : j < 48 then some ⟨j, h⟩ else none, step := codeSpoil code == 2
           latest := s.time + courierBound }] } }

/-- Send a spoil to the root (R462): from a cluster over the Courier network, from any other block directly. -/
def State.sendSpoil (s : State) (e : Ev) : State :=
  if e.inCluster then s.cluSpoil (posClu e.pos) e.code else s.rootSpoil (codeSpoil e.code == 2)

/-- The node of the Courier network to which the leaf of an event belongs: that of a cluster, or of a region controller for the
schedule engines; the spec attaches the other leaves to no node (R207). -/
def Ev.node (e : Ev) : Option Nat :=
  if e.pos < 192 then some (posClu e.pos)
  else if e.code.toNat / 256 = 0x2D && e.code.toNat % 256 != 4 then some (48 + e.inst % 4)
  else none

/-- NOTIFY (R209): the node of a leaf that takes a record tells the Postmaster its code and whether it spoils. -/
def State.notify (s : State) (e : Ev) : State :=
  match e.node with
  | none => s
  | some n => s.emit (courierMsg n 53 5 ((if e.quiet || codeSpoil e.code == 0 then 0#1 else 1#1) ++ e.code))

/-- Raise an event: the record and its leaf, its counters, the suspect rule and the spoil (R457-R465). The one way any
meaning reports a fault, a schedule fault or a notice. -/
def State.raise (s : State) (e : Ev) : State :=
  let sus := s.suspects e
  let s1 := s.countEvent e
  let s2 := s1.logEvent e sus
  let s2 := if codeKind e.code == 2 && s1.noticed e then s2 else s2.notify e
  let s3 := if sus && decide (e.pos < 192) then s2.markSuspect e.pos else s2
  let s4 := if e.code == 0x2804 then { s3 with upd := { s3.upd with damaged := true } } else s3
  if e.quiet || codeSpoil e.code == 0 then s4 else s4.sendSpoil e

/-- Raise an event of a core position in the tcyc its cluster executes. -/
def State.raiseAt (s : State) (code : Code) (p unit : Nat) (aux detail : Nat := 0) : State :=
  s.raise { code := code, pos := p, unit := unit, tt := some (s.tcyc p), aux := aux, detail := detail }

/-- A non-nil entry pushed into a crossing in the last 8 tcyc before the end mark (R53, R458): DETAIL names the crossing,
in an encoding that the spec does not give (log entry 11). -/
def State.lateCrossing (s : State) (p : Nat) : State :=
  (s.raise { code := 0x1406, pos := p, tt := some (s.tcyc p), aux := s.frm.index.toNat
             detail := (Config.choice s.fresh).toNat }).tickFresh

/-- A program runs (R538). -/
def State.runs (s : State) : Bool := s.frm.phase != 0

end Sys2Proof.Machine
end

