-- ==== Sys2Proof/Machine/Berths.lean ====
section
/-! DEFINITION. The berth table (R489-R492): its fields, who owns what, and the grants a request is checked against. -/

namespace Sys2Proof.Machine

/-! ### Fields of a table (R489) -/

/-- The `n` bytes of a byte table from `off` on, little-endian. -/
def tabRead (t : Tab Byte) (off : Nat) : Nat → Nat
  | 0 => 0
  | n + 1 => (tget t off 0).toNat + 256 * tabRead t (off + 1) n

/-- A byte table with the low `n` bytes of `v` stored from `off` on; a zero byte is not listed. -/
def tabWrite (t : Tab Byte) (off v : Nat) : Nat → Tab Byte
  | 0 => t
  | n + 1 =>
    let b : Byte := BitVec.ofNat 8 v
    tabWrite (if b = 0 then tdel t off else tset t off b) (off + 1) (v / 256) n

/-- A byte table with a list of bytes stored from `off` on. -/
def tabStore (t : Tab Byte) (off : Nat) : List Byte → Tab Byte
  | [] => t
  | b :: r => tabStore (if b = 0 then tdel t off else tset t off b) (off + 1) r

/-- The `n` bytes from `off` on, in order. -/
def tabBytes (t : Tab Byte) (off n : Nat) : List Byte := (List.range n).map (fun k => tget t (off + k) 0)

/-- A field of `n` bytes of the entry of berth `b`. -/
def brtField (t : Tab Byte) (b off n : Nat) : Nat := tabRead t (0x3C0 * b + off) n
def brtFlag (t : Tab Byte) (b bit : Nat) : Bool := (brtField t b 0 1).testBit bit
def brtEnabled (t : Tab Byte) (b : Nat) : Bool := brtFlag t b 0
def brtJob (t : Tab Byte) (b : Nat) : Nat := brtField t b 2 2
def brtVc (t : Tab Byte) (b v : Nat) : Bool := (brtField t b 4 2).testBit v
def brtPgh (t : Tab Byte) (b n : Nat) : Bool := (brtField t b 8 8).testBit n
def brtNs (t : Tab Byte) (b n : Nat) : Bool := (brtField t b 0x10 8).testBit n
def brtCore (t : Tab Byte) (b i : Nat) : Bool := (brtField t b 0x18 24).testBit i
/-- A deck range of a berth: position, first granule, granules, HOST, and bits [63:46]. -/
def brtDeck (t : Tab Byte) (b k : Nat) : Nat × Nat × Nat × Bool × Nat :=
  let v := brtField t b (0x40 + 8 * k) 8
  (v % 256, v / 2 ^ 8 % 2 ^ 18, v / 2 ^ 26 % 2 ^ 19, v.testBit 45, v / 2 ^ 46)
/-- An LPDDR5X range of a berth: address, size, HOST. -/
def brtLp (t : Tab Byte) (b k : Nat) : Nat × Nat × Bool :=
  let v := brtField t b (0xC8 + 16 * k) 8
  (brtField t b (0xC0 + 16 * k) 8, v - v % 2, v.testBit 0)
/-- A host range of a berth: address, size. -/
def brtHpa (t : Tab Byte) (b k : Nat) : Nat × Nat := (brtField t b (0x1C0 + 16 * k) 8, brtField t b (0x1C8 + 16 * k) 8)

/-- Whether the bytes from `lo` up to `hi` lie in the union of some ranges (start, length). -/
def coveredBy (rs : List (Nat × Nat)) (lo hi : Nat) : Nat → Bool
  | 0 => decide (hi ≤ lo)
  | n + 1 =>
    if hi ≤ lo then true
    else match rs.find? (fun r => decide (r.1 ≤ lo) && decide (lo < r.1 + r.2)) with
      | some r => coveredBy rs (r.1 + r.2) hi n
      | none => false

/-- The enabled berth that satisfies a test, the lowest number first. -/
def brtFind (t : Tab Byte) (p : Nat → Bool) : Option Nat := (List.range 16).find? (fun b => brtEnabled t b && p b)

/-! ### The live table (R398, R492) -/

/-- OWNER of a pigeonhole (R396, R398): the admin owns 0 to 3. -/
def State.owner (s : State) (n : Nat) : Nat :=
  if n < 4 then 0x10 else (brtFind s.brt.live (fun b => brtPgh s.brt.live b n)).getD 0x1F

/-- The berth that a core, a deck granule or an LPDDR5X byte is granted to. -/
def State.coreBerth (s : State) (i : Nat) : Option Nat := brtFind s.brt.live (fun b => brtCore s.brt.live b i)
def deckHeld (t : Tab Byte) (b p g : Nat) : Bool :=
  (List.range 16).any (fun k =>
    let (q, f, n, _, _) := brtDeck t b k
    q == p && decide (f ≤ g) && decide (g < f + n))
def lpHeld (t : Tab Byte) (b a : Nat) : Bool :=
  (List.range 16).any (fun k => let (lo, n, _) := brtLp t b k; decide (lo ≤ a) && decide (a < lo + n))
def State.lpBerth (s : State) (a : Nat) : Option Nat := brtFind s.brt.live (fun b => lpHeld s.brt.live b a)

/-- Whether berth `b` is granted the deck granules from `g` up to `hi` of column `p`. -/
def State.grantsDeck (s : State) (b p g hi : Nat) : Bool :=
  brtEnabled s.brt.live b &&
  coveredBy (((List.range 16).map (brtDeck s.brt.live b)).filterMap (fun r => if r.1 = p then some (r.2.1, r.2.2.1) else none))
    g hi 17
/-- Whether berth `b` is granted the LPDDR5X bytes from `lo` up to `hi`. -/
def State.grantsLp (s : State) (b lo hi : Nat) : Bool :=
  brtEnabled s.brt.live b &&
  coveredBy ((List.range 16).map (fun k => let r := brtLp s.brt.live b k; (r.1, r.2.1))) lo hi 17
/-- Whether berth `b` is granted the host bytes from `lo` up to `hi`. -/
def State.grantsHpa (s : State) (b lo hi : Nat) : Bool :=
  brtEnabled s.brt.live b && coveredBy ((List.range 16).map (brtHpa s.brt.live b)) lo hi 17
def State.grantsNs (s : State) (b n : Nat) : Bool := brtEnabled s.brt.live b && brtNs s.brt.live b n
def State.grantsVc (s : State) (b v : Nat) : Bool := brtEnabled s.brt.live b && brtVc s.brt.live b v
def State.grantsCore (s : State) (b i : Nat) : Bool := brtEnabled s.brt.live b && brtCore s.brt.live b i

/-- Whether some berth holds a deck granule, near-store position or LPDDR5X byte with host access (R381). -/
def State.hostDeck (s : State) (p g : Nat) : Bool :=
  (brtFind s.brt.live (fun b => (List.range 16).any (fun k =>
    let (q, f, n, h, _) := brtDeck s.brt.live b k
    h && q == p && decide (f ≤ g) && decide (g < f + n)))).isSome
def State.hostNst (s : State) (p : Nat) : Bool :=
  (brtFind s.brt.live (fun b => brtFlag s.brt.live b 3 && brtCore s.brt.live b p)).isSome
def State.hostLp (s : State) (a : Nat) : Bool :=
  (brtFind s.brt.live (fun b => (List.range 16).any (fun k =>
    let (lo, n, h) := brtLp s.brt.live b k
    h && decide (lo ≤ a) && decide (a < lo + n)))).isSome

/-- Whether an address of a memory (0 near store, 1 deck, 2 LPDDR5X) is under a kill scrub (R232, R495). -/
def State.underScrub (s : State) (mem a : Nat) : Bool :=
  s.post.scrubs.any (fun x => x.2.1 == mem && decide (x.2.2.1 ≤ a) && decide (a < x.2.2.2))

/-- An access refused under a kill scrub (R232): notice 0x2A.0A once per berth. -/
def State.scrubRefuse (s : State) (mem a p : Nat) : State :=
  match s.post.scrubs.find? (fun x => x.2.1 == mem && decide (x.2.2.1 ≤ a) && decide (a < x.2.2.2)) with
  | none => s
  | some x =>
    if s.post.scrubNoted.contains x.1 then s
    else ({ s with post := { s.post with scrubNoted := x.1 :: s.post.scrubNoted } }).raise
      { code := 0x2A0A, pos := p, unit := 0xC, aux := x.1 }

end Sys2Proof.Machine
end

