-- ==== Sys2Proof/Machine/Float.lean ====
section
/-! DEFINITION. Number formats and their one rounding (R81, R86, R88, R90-R92, R122, R127): a finite value is a sign, a
natural mantissa and a power of two, computed exactly and rounded once. -/

namespace Sys2Proof.Machine

/-- A value: NaN, an infinity, or (−1)^neg · m · 2^e. -/
inductive FpVal where
  | nan
  | inf (neg : Bool)
  | fin (neg : Bool) (m : Nat) (e : Int)
  deriving DecidableEq, Repr

/-- How a rounding chooses (R91): nearest even, toward zero, or stochastic with 16 random bits. -/
inductive Rnd where
  | rne
  | rz
  | sr (bits : Nat)
  deriving DecidableEq, Repr

/-- An IEEE-style binary format: exponent and mantissa widths. -/
structure Fmt where
  eb : Nat
  mb : Nat
  deriving DecidableEq, Repr

def fp32 : Fmt := { eb := 8, mb := 23 }
def bf16 : Fmt := { eb := 8, mb := 7 }
def fp64 : Fmt := { eb := 11, mb := 52 }

def Fmt.bias (f : Fmt) : Nat := 2 ^ (f.eb - 1) - 1
def Fmt.expMax (f : Fmt) : Nat := 2 ^ f.eb - 1
/-- The canonical NaN: quiet bit alone, sign 0 (R122 for FP32 and BF16; the same form in FP64 is a DESIGN CHOICE, log entry
86). -/
def Fmt.qnan (f : Fmt) : Nat := f.expMax * 2 ^ f.mb + 2 ^ (f.mb - 1)

/-- The value that a code of an IEEE-style format has. -/
def Fmt.dec (f : Fmt) (w : Nat) : FpVal :=
  let m := w % 2 ^ f.mb
  let e := w / 2 ^ f.mb % 2 ^ f.eb
  let neg := decide (w / 2 ^ (f.mb + f.eb) % 2 = 1)
  if e = f.expMax then (if m = 0 then .inf neg else .nan)
  else if e = 0 then .fin neg m (1 - (f.bias : Int) - f.mb)
  else .fin neg (m + 2 ^ f.mb) ((e : Int) - f.bias - f.mb)

/-- Round m · 2^e to an integer. -/
def roundInt (m : Nat) (e : Int) (r : Rnd) : Nat :=
  if 0 ≤ e then m * 2 ^ e.toNat
  else
    let k := (-e).toNat
    let n := m / 2 ^ k
    let rem := m % 2 ^ k
    let up := match r with
      | .rne => decide (2 ^ k < 2 * rem) || (decide (2 * rem = 2 ^ k) && decide (n % 2 = 1))
      | .rz => false
      | .sr b => decide (b < rem * 65536 / 2 ^ k)
    if up then n + 1 else n

/-- Round m · 2^e (m not 0) to `mb` fraction bits with exponents from `emin` on: the integer significand and its
exponent (`to_elem` of R91, `round_fp32` of R86). -/
def roundMag (m : Nat) (e : Int) (mb : Nat) (emin : Int) (r : Rnd) : Nat × Int :=
  let lg : Int := (Nat.log2 m : Int) + e
  let ex := if lg < emin then emin else lg
  (roundInt m (e + mb - ex) r, ex)

/-- The code of a value in an IEEE-style format after one rounding; overflow as IEEE, NaN canonical (R122). -/
def Fmt.enc (f : Fmt) (r : Rnd) (x : FpVal) : Nat :=
  let sgn (neg : Bool) := if neg then 2 ^ (f.mb + f.eb) else 0
  match x with
  | .nan => f.qnan
  | .inf neg => sgn neg + f.expMax * 2 ^ f.mb
  | .fin neg m e =>
    if m = 0 then sgn neg
    else
      let (n, ex) := roundMag m e f.mb (1 - (f.bias : Int)) r
      let (n, ex) := if n = 2 ^ (f.mb + 1) then (2 ^ f.mb, ex + 1) else (n, ex)
      if ex > f.bias then
        (if r = .rz then sgn neg + f.expMax * 2 ^ f.mb - 1 else sgn neg + f.expMax * 2 ^ f.mb)
      else if n < 2 ^ f.mb then sgn neg + n
      else sgn neg + (ex + f.bias).toNat * 2 ^ f.mb + (n - 2 ^ f.mb)

/-- A signed integer times a power of two, as a value; an exact zero is +0. -/
def FpVal.ofInt (n : Int) (e : Int) : FpVal := .fin (decide (n < 0)) n.natAbs e

/-- The exact sum of two values (R122). x + y = 0 gives +0, but −0 + −0 gives −0. -/
def FpVal.add : FpVal → FpVal → FpVal
  | .nan, _ => .nan
  | _, .nan => .nan
  | .inf a, .inf b => if a = b then .inf a else .nan
  | .inf a, .fin _ _ _ => .inf a
  | .fin _ _ _, .inf b => .inf b
  | .fin a m e, .fin b n f =>
    if m = 0 && n = 0 then .fin (a && b) 0 0
    else
      let lo := if e ≤ f then e else f
      let x : Int := (if a then -1 else 1) * (m * 2 ^ (e - lo).toNat : Nat)
      let y : Int := (if b then -1 else 1) * (n * 2 ^ (f - lo).toNat : Nat)
      .ofInt (x + y) lo

def FpVal.neg : FpVal → FpVal
  | .nan => .nan
  | .inf a => .inf (!a)
  | .fin a m e => .fin (!a) m e

/-- The exact product of two values. -/
def FpVal.mul : FpVal → FpVal → FpVal
  | .nan, _ => .nan
  | _, .nan => .nan
  | .inf a, .inf b => .inf (a != b)
  | .inf a, .fin b n _ => if n = 0 then .nan else .inf (a != b)
  | .fin a m _, .inf b => if m = 0 then .nan else .inf (a != b)
  | .fin a m e, .fin b n f => .fin (a != b) (m * n) (e + f)

/-- The quotient to 80 bits below the divisor's scale, with a sticky last bit: enough for one correct rounding. -/
def FpVal.div : FpVal → FpVal → FpVal
  | .nan, _ => .nan
  | _, .nan => .nan
  | .inf _, .inf _ => .nan
  | .inf a, .fin b _ _ => .inf (a != b)
  | .fin a _ _, .inf b => .fin (a != b) 0 0
  | .fin a m e, .fin b n f =>
    if n = 0 then (if m = 0 then .nan else .inf (a != b))
    else
      let q := m * 2 ^ 80 / n
      let st := if m * 2 ^ 80 % n = 0 then 0 else 1
      .fin (a != b) (2 * q + st) (e - f - 81)

/-- The integer square root by bits from `k` down. -/
def isqrtAux (n : Nat) : Nat → Nat → Nat
  | 0, r => r
  | k + 1, r => let c := r + 2 ^ k; if c * c ≤ n then isqrtAux n k c else isqrtAux n k r

/-- The square root with a sticky last bit; √−0 = −0, √−x = NaN (R126). -/
def FpVal.sqrt : FpVal → FpVal
  | .nan => .nan
  | .inf neg => if neg then .nan else .inf false
  | .fin neg m e =>
    if m = 0 then .fin neg 0 0
    else if neg then .nan
    else
      let (m, e) := if e % 2 = 0 then (m, e) else (2 * m, e - 1)
      let n := m * 2 ^ 80
      let r := isqrtAux n (Nat.log2 n / 2 + 1) 0
      let st := if r * r = n then 0 else 1
      .fin false (2 * r + st) (e / 2 - 41)

/-- The order of two values: less, equal, greater; none when either is NaN. −0 equals +0. -/
def FpVal.cmp : FpVal → FpVal → Option Ordering
  | .nan, _ => none
  | _, .nan => none
  | .inf a, .inf b => some (if a = b then .eq else if a then .lt else .gt)
  | .inf a, .fin _ _ _ => some (if a then .lt else .gt)
  | .fin _ _ _, .inf b => some (if b then .gt else .lt)
  | .fin a m e, .fin b n f =>
    let lo := if e ≤ f then e else f
    let x : Int := (if a then -1 else 1) * (m * 2 ^ (e - lo).toNat : Nat)
    let y : Int := (if b then -1 else 1) * (n * 2 ^ (f - lo).toNat : Nat)
    some (compare x y)

/-- Whether a value is negative, −0 included. -/
def FpVal.isNeg : FpVal → Bool
  | .nan => false
  | .inf a => a
  | .fin a _ _ => a

/-- VMAX and VMIN (R122): NaN when either is, and −0 below +0. -/
def FpVal.max (x y : FpVal) : FpVal :=
  match FpVal.cmp x y with
  | none => .nan
  | some .lt => y
  | some .gt => x
  | some .eq => if x.isNeg then y else x
def FpVal.min (x y : FpVal) : FpVal :=
  match FpVal.cmp x y with
  | none => .nan
  | some .lt => x
  | some .gt => y
  | some .eq => if x.isNeg then x else y

/-! ### Element formats (R81) -/

/-- An element format: VCVM's number, width in bits, exponent and mantissa widths, bias, largest exponent code used as
a value, and its largest finite magnitude in units of 2⁻¹⁶. -/
structure Elem where
  num  : Nat
  bits : Nat
  eb   : Nat
  mb   : Nat
  bias : Nat
  maxFin : Nat
  emax : Int
  hasInf : Bool
  deriving DecidableEq, Repr

def e4m3 : Elem := { num := 0, bits := 8, eb := 4, mb := 3, bias := 7, maxFin := 448 * 65536, emax := 8, hasInf := false }
def e5m2 : Elem := { num := 1, bits := 8, eb := 5, mb := 2, bias := 15, maxFin := 57344 * 65536, emax := 15, hasInf := true }
def e3m2 : Elem := { num := 2, bits := 6, eb := 3, mb := 2, bias := 3, maxFin := 28 * 65536, emax := 4, hasInf := false }
def e2m3 : Elem := { num := 3, bits := 6, eb := 2, mb := 3, bias := 1, maxFin := 491520, emax := 2, hasInf := false }
def e2m1 : Elem := { num := 4, bits := 4, eb := 2, mb := 1, bias := 1, maxFin := 6 * 65536, emax := 2, hasInf := false }
/-- INT8: value i · 2⁻⁶; its largest magnitude after a conversion is 127/64 (R91). -/
def int8 : Elem := { num := 5, bits := 8, eb := 0, mb := 6, bias := 0, maxFin := 127 * 1024, emax := 0, hasInf := false }

/-- The element format of VCVM's and VCVF's IMM[3:0] (R128). -/
def elemOf : Nat → Option Elem
  | 0 => some e4m3
  | 1 => some e5m2
  | 2 => some e3m2
  | 3 => some e2m3
  | 4 => some e2m1
  | 5 => some int8
  | _ => none

/-- The value of an element code (R81). -/
def Elem.dec (f : Elem) (w : Nat) : FpVal :=
  if f.num = 5 then .ofInt (if w % 256 < 128 then (w % 256 : Nat) else (w % 256 : Int) - 256) (-6)
  else
    let m := w % 2 ^ f.mb
    let e := w / 2 ^ f.mb % 2 ^ f.eb
    let neg := decide (w / 2 ^ (f.mb + f.eb) % 2 = 1)
    if f.num = 0 && e = 15 && m = 7 then .nan
    else if f.num = 1 && e = 31 then (if m = 0 then .inf neg else .nan)
    else if e = 0 then .fin neg m (1 - (f.bias : Int) - f.mb)
    else .fin neg (m + 2 ^ f.mb) ((e : Int) - f.bias - f.mb)

/-- A finite element value in units of 2⁻¹⁶, NaN and infinities as 0 (R84, R86). -/
def FpVal.units (x : FpVal) : Int :=
  match x with
  | .fin neg m e => (if neg then -1 else 1) * (m * 2 ^ (e + 16).toNat : Nat)
  | _ => 0

/-- The element code a finite value takes, and whether it saturated (R91). A value is already divided by its scale. -/
def Elem.enc (f : Elem) (r : Rnd) (x : FpVal) : Nat × Bool :=
  let top := 2 ^ (f.bits - 1)
  match x with
  | .nan => (0, false)
  | .inf neg => if f.hasInf then ((if neg then top else 0) + 0x7C, false) else (0, false)
  | .fin neg m e =>
    if f.num = 5 then
      if m = 0 then (0, false)
      else
        let v := roundInt m (e + 6) r
        let v' := if 127 < v then 127 else v
        (if neg then (256 - v') % 256 else v', decide (127 < v))
    else if m = 0 then (if neg then top else 0, false)
    else
      let (n, ex) := roundMag m e f.mb (1 - (f.bias : Int)) r
      let mag : Nat := n * 2 ^ (ex - f.mb + 16).toNat
      let sat := decide (f.maxFin < mag)
      let mag := if sat then f.maxFin else mag
      let code :=
        if mag = 0 then 0
        else
          let lg := Nat.log2 mag
          let emin := 17 - f.bias
          if lg < emin then mag * 2 ^ f.mb / 2 ^ emin
          else (lg + f.bias - 16) * 2 ^ f.mb + (mag * 2 ^ f.mb / 2 ^ lg - 2 ^ f.mb)
      ((if neg then top else 0) + code, sat)

/-- floor(log2 |x|) of a non-zero finite value. -/
def FpVal.log2 : FpVal → Int
  | .fin _ m e => (Nat.log2 m : Int) + e
  | _ => 0

/-- The E8M0 scale of a block (R90). -/
def blockScale (f : Elem) (vs : List FpVal) : Nat :=
  if vs.any (· == .nan) then 0xFF
  else if vs.any (fun v => match v with | .inf _ => true | _ => false) && !f.hasInf then 0xFF
  else
    let nz := vs.filter (fun v => match v with | .fin _ m _ => m != 0 | _ => false)
    match nz with
    | [] => 0
    | v :: r =>
      let lg := r.foldl (fun a x => if a < x.log2 then x.log2 else a) v.log2
      let x := lg - f.emax
      let x := if x < -127 then -127 else if 127 < x then 127 else x
      (x + 127).toNat

/-- A value times a power of two. -/
def FpVal.scale (x : FpVal) (k : Int) : FpVal :=
  match x with
  | .fin neg m e => .fin neg m (e + k)
  | y => y

/-! ### Stochastic rounding (R92) -/

/-- The mixer of R92, modulo 2⁶⁴. -/
def mix64 (z : DWord) : DWord :=
  let z := z + 0x9E3779B97F4A7C15
  let z := (z ^^^ (z >>> 30)) * 0xBF58476D1CE4E5B9
  let z := (z ^^^ (z >>> 27)) * 0x94D049BB133111EB
  z ^^^ (z >>> 31)

/-- The 16 random bits of one element (R92). -/
def srBits (seed : DWord) (step : Word) (index : DWord) : Nat :=
  (mix64 (mix64 (seed ^^^ step.setWidth 64) ^^^ index)).toNat % 65536

end Sys2Proof.Machine
end

