-- ==== Sys2Proof/Machine/Operands.lean ====
section
/-! DEFINITION. What a core's operations read and write: registers, lanes, address registers and deck pointers, near
store rows and deck granules with their banks, the issue checks of R105, and results on their way (R105, R106). -/

namespace Sys2Proof.Machine

/-! ### Registers (R102) -/

/-- A register that holds nothing since the invocation's start: 0 before the first, else a free value (R102). -/
def State.undef (s : State) (kind p n : Nat) : Vec := if s.epoch = 0 then 0 else Config.undefReg kind s.epoch p n

/-- Scalar register sn. -/
def State.sReg (s : State) (p n : Nat) : Word :=
  match tfind (s.coreAt p).s (n % 16) with | some w => w | none => (s.undef 0 p (n % 16)).setWidth 32
/-- Address register an. -/
def State.aReg (s : State) (p n : Nat) : Word :=
  match tfind (s.coreAt p).a (n % 16) with | some w => w | none => (s.undef 1 p (n % 16)).setWidth 32
/-- Deck pointer dpn. -/
def State.dpReg (s : State) (p n : Nat) : Word :=
  match tfind (s.coreAt p).dp (n % 8) with | some w => w | none => (s.undef 2 p (n % 8)).setWidth 32
/-- Vector register vn. -/
def State.vReg (s : State) (p n : Nat) : Vec :=
  match tfind (s.coreAt p).v (n % 32) with | some w => w | none => s.undef 3 p (n % 32)
/-- Mask mn. -/
def State.mReg (s : State) (p n : Nat) : DWord :=
  match tfind (s.coreAt p).m (n % 4) with | some w => w | none => (s.undef 4 p (n % 4)).setWidth 64
/-- SEEDn. -/
def State.seedReg (s : State) (p n : Nat) : DWord :=
  match tfind (s.coreAt p).seed (n % 4) with | some w => w | none => (s.undef 5 p (n % 4)).setWidth 64
/-- IDXn. -/
def State.idxReg (s : State) (p n : Nat) : DWord :=
  match tfind (s.coreAt p).idx (n % 4) with | some w => w | none => (s.undef 6 p (n % 4)).setWidth 64
/-- An array of a core. -/
def CoreSt.arr (c : CoreSt) (a : Arr) : ArraySt := if a = 0 then c.arr0 else c.arr1
/-- Whether an array's shadow weights are taking a tile. -/
def ArraySt.isLatching (x : ArraySt) : Bool :=
  match x.shadow with
  | .latching _ _ _ => true
  | _ => false
/-- An array of a core set. -/
def CoreSt.setArr (c : CoreSt) (a : Arr) (x : ArraySt) : CoreSt :=
  if a = 0 then { c with arr0 := x } else { c with arr1 := x }
/-- The configuration word of an array (R121). -/
def State.cfgReg (s : State) (p : Nat) (a : Arr) : Word :=
  match ((s.coreAt p).arr a).cfg with | some w => w | none => (s.undef 7 p a.val).setWidth 32
/-- The entry pointer of an array. -/
def State.entReg (s : State) (p : Nat) (a : Arr) : Nat :=
  match ((s.coreAt p).arr a).entp with | some n => n | none => (s.undef 8 p a.val).toNat % 128
/-- The scale pointer of an array. -/
def State.sclReg (s : State) (p : Nat) (a : Arr) : Word :=
  match ((s.coreAt p).arr a).sclp with | some w => w | none => (s.undef 9 p a.val).setWidth 32
/-- Entry `e` of an array's partial-sum file (R80). -/
def State.psum (s : State) (p : Nat) (a : Arr) (e : Nat) : Vec :=
  match tfind ((s.coreAt p).arr a).psum (e % 128) with | some w => w | none => s.undef 10 p (128 * a.val + e % 128)

/-- Lane `i` of a vector register. -/
def lane (v : Vec) (i : Nat) : Word := (v >>> (32 * i)).setWidth 32
/-- A vector register from its lanes. -/
def ofLanes (ws : List Word) : Vec := ws.foldr (fun w a => (a <<< 32) ||| w.setWidth 2048) 0
/-- The 64 lanes of a vector register. -/
def lanesOf (v : Vec) : List Word := (List.range 64).map (lane v)
/-- The bytes of a value of n bytes, low byte first. -/
def bytesOf (v n : Nat) : List Byte := (List.range n).map (fun k => BitVec.ofNat 8 (v / 256 ^ k))
/-- A number from bytes, low byte first. -/
def ofBytes (bs : List Byte) : Nat := bs.foldr (fun b a => b.toNat + 256 * a) 0

/-- ROW of an address register (R103). -/
def rowOf (w : Word) : Nat := w.toNat % 32768
/-- GRAN of a deck pointer (R103). -/
def granOf (w : Word) : Nat := w.toNat % 262144
/-- An address register advanced by its STRIDE `n` times, ROW modulo 32,768 (R103). The reserved bits [15] and [31:30] take
no part and keep their values (DESIGN CHOICE, log entry 86). -/
def advRow (w : Word) (n : Nat) : Word :=
  let st : Int := (w.extractLsb' 16 14).toInt
  (w &&& 0xFFFF8000) ||| BitVec.ofNat 32 ((((rowOf w : Nat) : Int) + n * st) % 32768).toNat
/-- A deck pointer advanced by its STRIDE `n` times, GRAN modulo 262,144 (R103). -/
def advGran (w : Word) (n : Nat) : Word :=
  let st : Int := (w.extractLsb' 18 14).toInt
  (w &&& 0xFFFC0000) ||| BitVec.ofNat 32 ((((granOf w : Nat) : Int) + n * st) % 262144).toNat

/-! ### Issue (R105) -/

/-- The end mark of the frame timetable in force (R45). -/
def State.hdr (s : State) : Option FrameHdr :=
  match s.frm.prog with
  | some pr => pr.image.frames[s.frm.index.toNat]?
  | none => none
def State.endMark (s : State) : Nat := match s.hdr with | some h => h.endMark | none => 0
/-- Whether the current frame is a commit frame (R47). -/
def State.isCommitFrame (s : State) : Bool := match s.hdr with | some h => h.last | none => false

/-- Whether cluster `j` stands at the gate point of a commit frame without a gate decision (R60). -/
def State.gateHeld (s : State) (j : Nat) : Bool :=
  match s.hdr with
  | some h => h.last && decide (h.c + h.g ≤ (s.cluAt j).slot) && (s.cluAt j).gate.isNone
  | none => false

/-- Whether cluster `j` has a tcyc to execute: a frame runs, it has started, it is not at its end mark, not stopped, and its
clock is present (R48, R49, R68). -/
def State.inTcyc (s : State) (j : Nat) : Bool :=
  let c := s.cluAt j
  (s.frm.phase == 1) && c.running && !c.atEnd && !c.stopped && c.clockLost.isNone && decide (c.slot < s.endMark)

/-- Whether some adjacent cluster lags 8 tcyc behind `j`: the crossing from it is empty and the one to it is full (R54). -/
def State.crossed (s : State) (j : Nat) : Bool :=
  let t := (s.cluAt j).slot
  decide (8 ≤ t) && (List.range 48).any (fun k => cluAdj j k && decide ((s.cluAt k).slot + 8 ≤ t))

/-- The power state of a bank or window (R226): 0 on, 1 retention, 2 off, 3 waking. -/
def BankSt.stateOf (b : BankSt) (k : Nat) : Nat := (b.pwr >>> (2 * (k % 16))).toNat % 4
def State.nstState (s : State) (p row : Nat) : Nat := (s.nstB p).stateOf (row % 16)
def State.deckState (s : State) (p g : Nat) : Nat := (s.deckB p).stateOf (g % 262144 / 16384)

/-- The deck windows of a column that are present (R216): 16 less one for each die that offers 28 MiB. -/
def State.deckWindows (s : State) (p : Nat) : Nat :=
  16 - (if s.shape.loss.getLsbD (2 * p) then 1 else 0) - (if s.shape.loss.getLsbD (2 * p + 1) then 1 else 0)
def State.deckPresent (s : State) (p g : Nat) : Bool := decide (g % 262144 / 16384 < s.deckWindows p)

/-- Whether a near-store bank of some rows is waking (R228). -/
def State.rowsWake (s : State) (p row n : Nat) : Bool :=
  (List.range n).any (fun k => s.nstState p (row + k) == 3)
def State.granWake (s : State) (p g : Nat) : Bool := s.deckPresent p g && s.deckState p g == 3

/-- The bank that an item due in this tcyc accesses is waking (R228). -/
def State.dueWakes (s : State) (p : Nat) (x : Pend) : Bool :=
  match x.dst with
  | .nst row _ => s.rowsWake p row 1
  | .nstAdd row _ _ => s.rowsWake p row 1
  | .turned _ row _ => s.rowsWake p row 1
  | .gran g => s.granWake p g
  | .turn _ g => s.granWake p g
  | .page _ _ g => s.granWake p g
  | .fetched _ _ _ g _ _ => s.granWake p g
  | .trainLoad _ _ g => s.granWake p g
  | .slotLoad _ g => s.granWake p g
  | .poolRead row _ => s.granWake p (row / 4)
  | _ => false

/-- Whether a row that a router of the cluster has for the POOL output of its position is in a waking window (R228). -/
def State.poolWakes (s : State) (p : Nat) : Bool :=
  (s.rtrAt p).outs.any (fun o => o.out == 5 && o.flit.side.getLsbD 0 && s.granWake p (o.row / 4))

/-- Whether a timetabled access of this tcyc in cluster `j` that is already under way meets a waking bank (R228). -/
def State.wakesNow (s : State) (j : Nat) : Bool :=
  let t := (s.cluAt j).slot
  (cluPos j).any (fun p => (s.coreAt p).pend.any (fun x => x.due == t && s.dueWakes p x) || s.poolWakes p)

/-- Whether cluster `j` holds in this clk: an operation of its tcyc waits, a bank conflict is being served, the gate decision
is missing, a crossing is empty or full, or a bank that the tcyc accesses is waking (R50, R54, R220, R228). -/
def State.holds (s : State) (j : Nat) : Bool :=
  let c := s.cluAt j
  c.cause.isSome || decide (0 < c.bankHold) || s.gateHeld j || s.crossed j || s.wakesNow j

/-- Whether cluster `j` executes a tcyc now: it has one and does not hold (R49). -/
def State.executes (s : State) (j : Nat) : Bool := s.inTcyc j && !s.holds j

/-- Whether the core at `p` has a bundle to issue in this tcyc: no wait covers it, and the program has not ended (R105, R111). -/
def State.issuing (s : State) (p : Nat) : Bool :=
  let c := s.coreAt p
  s.isLive p && s.inTcyc (posClu p) && !c.ended && !c.noIssue && decide (c.waitTo ≤ s.tcyc p)
    && c.nopAt != some (s.tcyc p)

/-- Whether the core at `p` issues a bundle in this tcyc, its cluster not holding (R49, R105, R111). -/
def State.issues (s : State) (p : Nat) : Bool := s.issuing p && !s.holds (posClu p)

def State.onCore (s : State) (p : Nat) (f : CoreSt → CoreSt) : State := s.setCore p (f (s.coreAt p))

/-- A schedule fault of the core's sequencer, with the bundle address (R458). -/
def State.seqFault (s : State) (p : Nat) (code : Code) : State :=
  s.raiseAt code p 1 (s.coreAt p).pc.toNat

/-- The bundle of this tcyc acts as NOP (R105): nothing it did stands, and nothing of it follows. -/
def State.bundleNop (s : State) (p : Nat) (code : Code) : State :=
  let t := s.tcyc p
  let s := s.seqFault p code
  let s := s.onCore p (fun c => { c with
    nopAt := some t, pend := c.pend.filter (fun x => x.issue != t || x.rank == 4), advA := [], advD := []
    jump := none, waitNew := none, loopNew := none, endNew := false, rpt := if c.rptOn then c.rpt else 0
    vBusy := if c.vAt = some t then c.vWas else c.vBusy, mBusy := if c.mAt = some t then c.mWas else c.mBusy
    updAt := if c.updAt = some t then none else c.updAt
    portBusy := if c.portAt = some t then t else c.portBusy
    portAt := if c.portAt = some t then none else c.portAt })
  let j := posClu p
  let cl := s.cluAt j
  s.setClu j { cl with acc := cl.acc.filter (fun a => a.2 != p) }

/-- A reserved or illegal encoding: schedule fault 0x22.01, and the whole bundle acts as NOP (R105). -/
def State.illegal (s : State) (p : Nat) : State := s.bundleNop p 0x2201

/-- An array's fault. AUX is the bundle address, also for 0x21.03 and 0x21.05, to which R458 gives no AUX (DESIGN CHOICE,
log entry 86). -/
def State.arrFault (s : State) (p : Nat) (arr : Arr) (code : Code) : State :=
  s.raiseAt code p (2 + arr.val) (s.coreAt p).pc.toNat

/-- All bytes or lanes written. -/
def fullMask : BitVec 256 := BitVec.allOnes 256

/-- An entry of a partial-sum file is read (R80, R101): an upset that its code corrects is a notice, another one a fault. -/
def State.readPsum (s : State) (p : Nat) (arr : Arr) (e : Nat) : State :=
  let (co, un) := s.upsetIn .psum (2 * p + arr.val) (e % 128) 1
  let s := if co then s.arrFault p arr 0x2108 else s
  if un then s.arrFault p arr 0x2109 else s

/-- A result of latency `lat` issued now: it lands at the end of tcyc t + lat − 1 (R105). -/
def State.pendOp (s : State) (p : Nat) (dst : Dst) (lat rank : Nat) (val : Vec) (mask : BitVec 256 := fullMask) :
    State :=
  let t := s.tcyc p
  s.onCore p (fun c => { c with
    pend := c.pend ++ [{ dst := dst, due := t + lat - 1, issue := t, rank := rank, val := val, mask := mask }] })

/-- A slot named address register `n` (R103). -/
def State.useA (s : State) (p n tag : Nat) : State := s.onCore p (fun c => { c with advA := c.advA ++ [(n, tag)] })
/-- A slot named deck pointer `n` (R103). -/
def State.useD (s : State) (p n tag : Nat) : State := s.onCore p (fun c => { c with advD := c.advD ++ [(n, tag)] })

/-! ### Banks (R214-R228) -/

/-- The near-store row's byte address in the model's key space: 2 MiB per position. -/
def nstAddr (p row : Nat) : Nat := 2097152 * p + 64 * (row % 32768)
/-- The deck granule's byte address in the model's key space: 64 MiB per column. -/
def deckAddr (p g : Nat) : Nat := 67108864 * p + 256 * (g % 262144)

/-- Keys of a near-store bank and of a deck half-bank in a cluster's list of accesses of this tcyc (R220). -/
def nstBankKey (p row : Nat) : Nat := 16 * p + row % 16
def deckBankKey (p g : Nat) : Nat := 100000 + 32 * p + 2 * (g % 262144 / 16384) + g % 2

/-- A timetabled access of a bank in this tcyc (R220), and its counter events (R501, R502). -/
def State.access (s : State) (p key : Nat) : State :=
  let j := posClu p
  let c := s.cluAt j
  let s := s.setClu j { c with acc := c.acc ++ [(key, p)] }
  if key < 100000 then s.event p 0x20 1 else s.count 7 p 0 1

/-- Whether row `i` of the 64 of a group is held in the tester's save buffer (R237). -/
def GroupRun.saves (r : GroupRun) (i : Nat) : Bool := decide (i < r.done) && decide (r.done ≤ 704 + i)

/-- The order of a column's windows over its banks 2 · bank + die, 16 + die the spare (R216): a failing bank's place is taken by its
die's good spare, and a second one's is left out. -/
def deckOrder (failed : BitVec 18) : List Nat :=
  (List.range 16).filterMap (fun k =>
    if !failed.getLsbD k then some k
    else if !failed.getLsbD (16 + k % 2) && !(List.range k).any (fun q => q % 2 == k % 2 && failed.getLsbD q) then
      some (16 + k % 2)
    else none)

/-- The window that a bank of a column is, if any (R216). -/
def BankSt.windowOf (b : BankSt) (bank : Nat) : Option Nat := (deckOrder b.failed).findIdx? (· == bank)

/-- Whether a near-store row or a deck granule is held in its tester's save buffer (R236, R237). -/
def State.rowSaved (s : State) (p row : Nat) : Bool :=
  match (s.nstB p).test with
  | some r => row % 16 == r.group / 32 && row % 32768 / 1024 == r.group % 32 && r.saves (row / 16 % 64)
  | none => false
def State.granSaved (s : State) (p g : Nat) : Bool :=
  match (s.deckB p).test with
  | some r =>
    let d := g % 262144
    (s.deckB p).windowOf (r.group / 256) == some (d / 16384) && d % 2 == r.group / 128 % 2
      && d / 128 % 128 == r.group % 128 && r.saves (d / 2 % 64)
  | none => false

/-- A timetabled access of a row or granule; the save buffer serves one that it holds, with the same timing and no access of the
bank (R237). -/
def State.accessRow (s : State) (p row : Nat) : State :=
  if s.rowSaved p row then s else s.access p (nstBankKey p row)
def State.accessGran (s : State) (p g : Nat) : State :=
  if s.granSaved p g then s else s.access p (deckBankKey p g)

/-- What a timetabled near-store read delivers (R217, R218, R221, R228): the row as it stands, or zero with schedule
fault 0x29.05 from a bank in retention or off; a word's condition raises its record. -/
def State.readRow (s : State) (p row : Nat) : State × Row :=
  let s := s.accessRow p row
  let aux := (s.coreAt p).pc.toNat
  if s.underScrub 0 (nstAddr p row) then (s.scrubRefuse 0 (nstAddr p row) p, 0)
  else if s.nstState p row = 0 then
    let a := nstAddr p row
    let (co, un) := s.nst.ecc a 64
    let s := if co then s.raiseAt 0x2901 p 8 aux (row % 32768) else s
    let s := if un then s.raiseAt 0x2902 p 8 aux (row % 32768) else s
    (s, BitVec.ofNat 512 (s.nst.read a 64))
  else (s.raiseAt 0x2905 p 8 aux (row % 32768), 0)

/-- `n` rows from `row` on, modulo 32,768 (R214), the first lowest. -/
def State.readRows (s : State) (p row : Nat) : Nat → State × Nat
  | 0 => (s, 0)
  | n + 1 =>
    let (s, r) := s.readRow p row
    let (s, v) := s.readRows p (row + 1) n
    (s, r.toNat + 2 ^ 512 * v)

/-- What a timetabled deck read delivers: as `readRow`; an absent window gives 0x2A.05 and zero (R216). -/
def State.readGran (s : State) (p g : Nat) : State × Vec :=
  let s := s.accessGran p g
  let aux := (s.coreAt p).pc.toNat
  let d := g % 262144
  if s.underScrub 1 (deckAddr p g) then (s.scrubRefuse 1 (deckAddr p g) p, 0)
  else if !s.deckPresent p g then (s.raiseAt 0x2A05 p 0xC aux d, 0)
  else if s.deckState p g = 0 then
    let a := deckAddr p g
    let (co, un) := s.deck.ecc a 256
    let s := if co then (s.raiseAt 0x2A01 p 0xC aux d).count 7 p 5 (s.deck.eccCount a 256) else s
    let s := if un then s.raiseAt 0x2A02 p 0xC aux d else s
    (s.bw (68 + p) false 256, BitVec.ofNat 2048 (s.deck.read a 256))
  else (s.raiseAt 0x2A04 p 0xC aux d, 0)

/-- A timetabled near-store write landing in this tcyc: byte k where bit k of the mask is set (R217, R218, R228). -/
def State.writeRow (s : State) (p row : Nat) (v : Row) (mask : BitVec 64) : State :=
  let s := s.accessRow p row
  let aux := (s.coreAt p).pc.toNat
  if s.underScrub 0 (nstAddr p row) then s.scrubRefuse 0 (nstAddr p row) p
  else if s.nstState p row = 0 then
    let a := nstAddr p row
    if mask = BitVec.allOnes 64 then { s with nst := (s.nst.write a v.toNat mask.toNat 64).cleanWords a 64 }
    else
      let ws := maskWords a mask.toNat 64
      let (co, un) := s.nst.eccAt ws
      let s := if co then s.raiseAt 0x2901 p 8 aux (row % 32768) else s
      let s := if un then s.raiseAt 0x2902 p 8 aux (row % 32768) else s
      { s with nst := (s.nst.write a v.toNat mask.toNat 64).mergeAt ws }
  else s.raiseAt 0x2905 p 8 aux (row % 32768)

/-- A timetabled deck write landing in this tcyc (R217, R228). -/
def State.writeGran (s : State) (p g : Nat) (v : Vec) : State :=
  let s := s.accessGran p g
  let aux := (s.coreAt p).pc.toNat
  let d := g % 262144
  if s.underScrub 1 (deckAddr p g) then s.scrubRefuse 1 (deckAddr p g) p
  else if !s.deckPresent p g then s.raiseAt 0x2A05 p 0xC aux d
  else if s.deckState p g = 0 then
    let a := deckAddr p g
    ({ s with deck := (s.deck.write a v.toNat (2 ^ 256 - 1) 256).cleanWords a 256 }).bw (68 + p) true 256
  else s.raiseAt 0x2A04 p 0xC aux d

/-- The format of the accumulable range that holds a row (R223): 0 FP32, 1 BF16; none outside every range. -/
def State.accumFmt (s : State) (p row : Nat) : Option Nat :=
  ((s.coreAt p).accum.find? (fun r =>
    let base := r.toNat % 32768
    let cnt := (r.toNat / 65536) % 32768 + 1
    decide ((row + 32768 - base) % 32768 < cnt))).map (fun r => r.toNat / 2147483648 % 2)

/-- Lane-wise FP32 or BF16 sum of two rows, each sum rounded once to nearest even (R122, R224). -/
def addRows (fmt : Nat) (a b : Row) : Row :=
  if fmt = 0 then
    BitVec.ofNat 512 (((List.range 16).map (fun i =>
      fp32.enc .rne (FpVal.add (fp32.dec ((a >>> (32 * i)).toNat % 2 ^ 32)) (fp32.dec ((b >>> (32 * i)).toNat % 2 ^ 32)))
        * 2 ^ (32 * i))).foldl (· + ·) 0)
  else
    BitVec.ofNat 512 (((List.range 32).map (fun i =>
      bf16.enc .rne (FpVal.add (bf16.dec ((a >>> (16 * i)).toNat % 2 ^ 16)) (bf16.dec ((b >>> (16 * i)).toNat % 2 ^ 16)))
        * 2 ^ (16 * i))).foldl (· + ·) 0)

/-- Accumulate-on-write of one row (R224, R225). -/
def State.accRow (s : State) (p row : Nat) (v : Row) (fmt : Nat) : State :=
  if s.accumFmt p row = some fmt then
    if s.nstState p row = 0 && !s.underScrub 0 (nstAddr p row) then
      let old := BitVec.ofNat 512 (s.nst.read (nstAddr p row) 64)
      let (co, un) := s.nst.ecc (nstAddr p row) 64
      let s := s.accessRow p row
      let s := if co then s.raiseAt 0x2901 p 8 (s.coreAt p).pc.toNat (row % 32768) else s
      let s := if un then s.raiseAt 0x2902 p 8 (s.coreAt p).pc.toNat (row % 32768) else s
      let a := nstAddr p row
      { s with nst := (s.nst.write a (addRows fmt old v).toNat (2 ^ 64 - 1) 64).mergeWords a 64 }
    else s.writeRow p row 0 0
  else s.raiseAt 0x2904 p 8 (s.coreAt p).pc.toNat (row % 32768)

/-! ### Holds (R50, R51) -/

def HoldCause.rank : HoldCause → Nat
  | .mport => 0 | .depot => 1 | .pont => 2 | .host => 3 | .bank => 4 | .gate => 5 | .crossing => 6

/-- The higher-priority cause (R51). -/
def HoldCause.join (a : HoldCause) : Option HoldCause → HoldCause
  | none => a
  | some b => if a.rank ≤ b.rank then a else b

/-- Command `i` of this tcyc waits in the cluster of `p`, which holds (R49), adding its own cause where it has one. -/
def State.wait (s : State) (p : Nat) (i : Instr) (cause : Option HoldCause) : State :=
  let j := posClu p
  let c := s.cluAt j
  s.setClu j { c with held := c.held ++ [i], cause := match cause with | some x => some (x.join c.cause) | none => c.cause }

/-- An operation `i` of the bundle at `p` acts in this tcyc: `k`. With a cause of its own to hold the cluster it waits, and
likewise while the cluster holds for another reason (R49, R50). -/
def State.whenIssued (s : State) (p : Nat) (i : Instr) (cause : Option HoldCause) (k : State → State) : State :=
  if s.issues p then
    match cause with
    | none => k s
    | some c => s.wait p i (some c)
  else if s.issuing p then s.wait p i cause
  else s

/-- The bank cause, where a bank that an operation reads is waking (R228). -/
def wakeCause (wakes : Bool) : Option HoldCause := if wakes then some .bank else none

/-! ### The memory slot and the deck port (R115, R116) -/

/-- Whether the memory slot drops an operation in this tcyc, or makes its bundle a NOP (R105, R123, R129). -/
def State.mTaken (s : State) (p : Nat) : Bool :=
  let c := s.coreAt p
  c.updAt == some (s.tcyc p) || decide (s.tcyc p < c.mBusy)

/-- The memory slot takes operation `i` in this tcyc: the checks of R105, R123 and R129 before its own. -/
def State.mSlot (s : State) (p : Nat) (i : Instr) (cause : Option HoldCause) (k : State → State) : State :=
  s.whenIssued p i (if s.mTaken p then none else cause) (fun s =>
    let c := s.coreAt p
    let t := s.tcyc p
    if c.updAt = some t then s.illegal p
    else if t < c.mBusy then s.seqFault p 0x2209
    else k (s.onCore p (fun c => { c with mBusy := t + 1, mAt := some t, mWas := c.mBusy })))

/-- A deck-port operation of the memory slot, dropped with 0x22.06 while the port is occupied, whatever it would have to wait
for (R116). -/
def State.portSlot (s : State) (p : Nat) (i : Instr) (cause : Option HoldCause) (k : State → State) : State :=
  s.mSlot p i (if s.tcyc p < (s.coreAt p).portBusy then none else cause) (fun s =>
    if s.tcyc p < (s.coreAt p).portBusy then s.seqFault p 0x2206 else k s)

/-- A deck-port operation of `n` tcyc: dropped with 0x22.06 while the port is occupied (R116). -/
def State.port (s : State) (p n : Nat) (k : State → State) : State :=
  let c := s.coreAt p
  let t := s.tcyc p
  if t < c.portBusy then s.seqFault p 0x2206
  else k ((s.onCore p (fun c => { c with portBusy := t + n, portAt := some t })).event p 0x22 n)

/-- The vector slot of a core that issues takes an operation of occupancy `occ` (R123). -/
def State.vSlot (s : State) (p occ : Nat) (k : State → State) : State :=
  let c := s.coreAt p
  let t := s.tcyc p
  if t < c.vBusy then s.seqFault p 0x2209
  else k ((s.onCore p (fun c => { c with vBusy := t + occ, vAt := some t, vWas := c.vBusy })).event p 0x18 1)

end Sys2Proof.Machine
end

