-- ==== Sys2Proof/Machine/Tiles.lean ====
section
/-! DEFINITION. Weight tiles and passes: modes (R76, R78), stored layout (R85, R97, R98), the exact MX sum (R86), the
aligned BF16 sum (R88), special values (R84), checksum values and verdicts (R93-R95). -/

namespace Sys2Proof.Machine

/-- A mode's figures: MX or BF16, the element width in bits, logical depth K, columns N, sparse (R76, R85). -/
structure ModeInfo where
  mx     : Bool
  bits   : Nat
  depth  : Nat
  cols   : Nat
  sparse : Bool
  deriving DecidableEq, Repr

/-- The modes of R121; none for a reserved one. -/
def modeInfo (m : Nat) : Option ModeInfo :=
  match m with
  | 0 | 2 => some { mx := true, bits := 8, depth := 64, cols := 64, sparse := false }
  | 1 | 3 => some { mx := true, bits := 8, depth := 128, cols := 64, sparse := true }
  | 4 => some { mx := true, bits := 6, depth := 128, cols := 64, sparse := false }
  | 5 => some { mx := true, bits := 6, depth := 256, cols := 64, sparse := true }
  | 6 => some { mx := true, bits := 4, depth := 128, cols := 64, sparse := false }
  | 7 => some { mx := true, bits := 4, depth := 256, cols := 64, sparse := true }
  | 8 => some { mx := false, bits := 16, depth := 64, cols := 32, sparse := false }
  | 9 => some { mx := false, bits := 16, depth := 128, cols := 32, sparse := true }
  | _ => none

/-- Stored rows of a tile (R85). -/
def ModeInfo.rows (i : ModeInfo) : Nat := if i.sparse then i.depth / 2 else i.depth
/-- Bytes of a tile's values, of its scales, of its metadata (R85). -/
def ModeInfo.valBytes (i : ModeInfo) : Nat := i.rows * i.cols * i.bits / 8
def ModeInfo.sclBytes (i : ModeInfo) : Nat := if i.mx then i.depth / 32 * i.cols else 0
def ModeInfo.metaBytes (i : ModeInfo) : Nat := if i.sparse then i.depth / 4 * i.cols / 2 else 0
def ModeInfo.bytes (i : ModeInfo) : Nat := i.valBytes + i.sclBytes + i.metaBytes
/-- LEN of a tile's train (R137). -/
def ModeInfo.len (i : ModeInfo) : Nat := (i.bytes + 63) / 64
/-- Activation bytes of a row entering the array (R78). -/
def ModeInfo.actBytes (i : ModeInfo) : Nat := i.depth * i.bits / 8

/-- Whether a mode has a second element format (R121): the FP8 and FP6 modes. -/
def hasAlt (m : Nat) : Bool := m == 0 || m == 1 || m == 4 || m == 5

/-- The value of an element code in a mode with its format bit (R81, R121); BF16 codes as BF16. -/
def modeDec (m fmt w : Nat) : FpVal :=
  match m with
  | 0 | 1 => if fmt = 0 then e4m3.dec w else e5m2.dec w
  | 2 | 3 => int8.dec w
  | 4 | 5 => if fmt = 0 then e3m2.dec w else e2m3.dec w
  | 6 | 7 => e2m1.dec w
  | _ => bf16.dec w

/-- Byte `b` of a tile's stored bytes (R137); 0 in an empty tile (R147). -/
def Tile.byte (t : Tile) (b : Nat) : Nat :=
  if t.empty then 0 else match t.flits[b / 64]? with | some r => (r >>> (8 * (b % 64))).toNat % 256 | none => 0

/-- Element code at stored row j, column n (R85). -/
def Tile.code (t : Tile) (i : ModeInfo) (j n : Nat) : Nat :=
  match i.bits with
  | 8 => t.byte (64 * j + n)
  | 6 => ((t.byte (48 * j + 6 * n / 8) + 256 * t.byte (48 * j + 6 * n / 8 + 1)) / 2 ^ (6 * n % 8)) % 64
  | 4 => t.byte (32 * j + n / 2) / 16 ^ (n % 2) % 16
  | _ => t.byte (64 * j + 2 * n) + 256 * t.byte (64 * j + 2 * n + 1)

/-- The E8M0 scale of K-block b of column n (R85); 0x7F in an empty tile (R147). -/
def Tile.scale (t : Tile) (i : ModeInfo) (b n : Nat) : Nat :=
  if t.empty then 0x7F else t.byte (i.valBytes + 64 * b + n)

/-- The metadata nibble of group g of column n (R85); 0x4 in an empty tile (R147). -/
def Tile.nibble (t : Tile) (i : ModeInfo) (g n : Nat) : Nat :=
  if t.empty then 4 else t.byte (i.valBytes + i.sclBytes + g * (i.cols / 2) + n / 2) / 16 ^ (n % 2) % 16

/-- The six valid nibbles (R98). -/
def nibbleOk (x : Nat) : Bool := x == 4 || x == 8 || x == 0xC || x == 9 || x == 0xD || x == 0xE

/-- The weight of logical row k in column n: none where no product is formed (R97); an invalid nibble's group holds
zeros (R98). -/
def Tile.weight (t : Tile) (m : Nat) (i : ModeInfo) (k n : Nat) : Option FpVal :=
  let dec (j : Nat) : FpVal := modeDec m t.wfmt.toNat (t.code i j n)
  if i.sparse then
    let g := k / 4
    let x := t.nibble i g n
    let x' := if nibbleOk x then x else 4
    if x' % 4 = k % 4 then some (if nibbleOk x then dec (2 * g) else .fin false 0 0)
    else if x' / 4 = k % 4 then some (if nibbleOk x then dec (2 * g + 1) else .fin false 0 0)
    else none
  else some (dec k)

/-- The checksum value c_k of logical row k (R93): in units of 2⁻¹⁶ in MX modes, FP32 bits in BF16 modes; NaN and
infinities count 0, a reserved mode gives 0 (R84, R146). -/
def Tile.checksum (t : Tile) (m k : Nat) : Int :=
  match modeInfo m with
  | none => 0
  | some i =>
    if t.empty then 0
    else if i.mx then
      (List.range i.cols).foldl (fun a n => match t.weight m i k n with | some w => a + w.units | none => a) 0
    else
      let sum := (List.range i.cols).foldl (fun a n =>
        match t.weight m i k n with
        | some (.fin g x e) => FpVal.add a (.fin g x e)
        | _ => a) (.fin false 0 0)
      (fp32.enc .rne sum : Nat)

/-- The tile with its checksum values formed (R93). -/
def Tile.withSums (t : Tile) : Tile :=
  match modeInfo t.mode.toNat with
  | none => t
  | some i => { t with sums := (List.range i.depth).map (t.checksum t.mode.toNat) }

/-- Whether any metadata nibble of a tile is invalid (R98). -/
def Tile.badNibble (t : Tile) : Bool :=
  match modeInfo t.mode.toNat with
  | none => false
  | some i =>
    i.sparse && (List.range (i.depth / 4)).any (fun g => (List.range i.cols).any (fun n => !nibbleOk (t.nibble i g n)))

/-- Two formats' product flags (R84): NaN, +Inf, −Inf. -/
def specials (ps : List (FpVal × FpVal)) : Bool × Bool × Bool :=
  ps.foldl (fun (a : Bool × Bool × Bool) p =>
    match FpVal.mul p.1 p.2 with
    | .nan => (true, a.2)
    | .inf false => (a.1, true, a.2.2)
    | .inf true => (a.1, a.2.1, true)
    | _ => a) (false, false, false)

/-- A finite value, NaN and infinities as 0 (R84). -/
def FpVal.finite0 : FpVal → FpVal
  | .fin g m e => .fin g m e
  | _ => .fin false 0 0

/-- The aligned BF16 sum (R88): the largest product exponent and the accumulator, none when all products are 0. -/
def alignedSum (ps : List FpVal) : Option (Int × Int) :=
  let nz := ps.filter (fun p => match p with | .fin _ m _ => m != 0 | _ => false)
  match nz with
  | [] => none
  | p :: r =>
    let e := r.foldl (fun a x => if a < x.log2 then x.log2 else a) p.log2
    some (e, nz.foldl (fun a x =>
      match x with
      | .fin g m q =>
        let sh := q + 31 - e
        let v : Nat := if 0 ≤ sh then m * 2 ^ sh.toNat else m / 2 ^ (-sh).toNat
        if g then a - v else a + v
      | _ => a) 0)

/-- One column's FP32 result (R84, R86, R88): products by logical row with their activation and weight scales. -/
def columnResult (mx : Bool) (ps : List (Nat × FpVal × FpVal)) (sx sw : Nat → Nat) : Nat :=
  let (nan, pos, neg) := specials (ps.map (·.2))
  let nan := nan || (mx && ps.any (fun p => sx (p.1 / 32) == 0xFF || sw (p.1 / 32) == 0xFF))
  if nan || (pos && neg) then fp32.qnan
  else if pos then 0x7F800000
  else if neg then 0xFF800000
  else if mx then
    fp32.enc .rne (.ofInt (ps.foldl (fun a p =>
      a + p.2.1.units * p.2.2.units * (2 ^ (sx (p.1 / 32) + sw (p.1 / 32)) : Nat)) 0) (-286))
  else
    match alignedSum (ps.map (fun p => FpVal.mul p.2.1.finite0 p.2.2.finite0)) with
    | none => 0
    | some (e, acc) => fp32.enc .rne (.ofInt acc (e - 31))

/-- The verdict of a row (R94, R95): the code, AUX and DETAIL of a mismatch. Where several K-blocks fail, the record names the
lowest (DESIGN CHOICE, log entry 86). -/
def verdict (i : ModeInfo) (xs : Nat → FpVal) (cols : List (List (Nat × FpVal × FpVal))) (sums : List Int) :
    Option (Code × Nat × Nat) :=
  if i.mx then
    (List.range (i.depth / 32)).findSome? (fun b =>
      let u := cols.foldl (fun a ps =>
        ps.foldl (fun a p => if p.1 / 32 = b then a + p.2.1.units * p.2.2.units else a) a) (0 : Int)
      let c := (List.range 32).foldl (fun a k => a + (xs (32 * b + k)).units * sums.getD (32 * b + k) 0) (0 : Int)
      if u = c then none else some (0x2101, b, min (u - c).natAbs (2 ^ 64 - 1)))
  else
    let prods := cols.map (fun ps => ps.map (fun p => FpVal.mul p.2.1.finite0 p.2.2.finite0))
    let own := (List.range i.depth).map (fun k =>
      FpVal.mul (xs k).finite0 (fp32.dec (sums.getD k 0).toNat).finite0)
    let al := prods.filterMap alignedSum
    let ck := alignedSum own
    let d := (al.map (fun a => FpVal.ofInt a.2 (a.1 - 31))).foldl FpVal.add (.fin false 0 0)
    let d := match ck with | some a => FpVal.add d (FpVal.ofInt a.2 (a.1 - 31)).neg | none => d
    let e? : Option Int := match al with
      | a :: r => some (r.foldl (fun m x => if m < x.1 then x.1 else m) a.1)
      | [] => ck.map (·.1)
    match d, e? with
    | .fin _ 0 _, _ => none
    | .fin _ m x, some e =>
      if e - 11 ≤ (Nat.log2 m : Int) + x then
        some (0x2102, (BitVec.ofInt 16 e).toNat, min (roundInt m (x - (e - 31)) .rz) (2 ^ 64 - 1))
      else none
    | .fin _ m x, none => some (0x2102, 0x8000, min (roundInt m (x + 149) .rz) (2 ^ 64 - 1))
    | _, _ => none

end Sys2Proof.Machine
end

