-- ==== Sys2Proof/WellFormed.lean ====
section
/-! DEFINITION. Which commands the part can meet: operands whose types are wider than the fields that carry them are
within those fields. A meaning refuses any other command by name. -/

namespace Sys2Proof

/-- The peers and round-trip times of CONFIGURE: one per port. -/
def wfConfigure (rt : List Nat) (peers : List (BitVec 18)) : Bool := decide (rt.length = 16) && decide (peers.length = 16)
/-- A remote accumulate names a 64 B row (R270). -/
def wfAccumulate (a : Nat) : Bool := decide (a < 2 ^ 56) && decide (a % 64 = 0)
/-- A CXL.mem access names a 64 B line (R382). -/
def wfHostMem (da : Nat) : Bool := decide (da < 2 ^ 48) && decide (da % 64 = 0)
/-- A BAR2 access lies in one 64 B row of the 16 GiB window (R380). -/
def wfBar2 (write : Bool) (off : Nat) (data : List Byte) (len : Nat) : Bool :=
  decide (0 < len) && decide (len ≤ 64) && (!write || decide (data.length = len)) && decide (off % 64 + len ≤ 64)
    && decide (off < 2 ^ 34)
/-- A completion carries at most one line. -/
def wfCompletion (data : List Byte) : Bool := decide (data.length ≤ 64)
/-- At most 8 targets on each of 32 channels (R294). -/
def wfUids (uids : List Nat) : Bool := decide (uids.length ≤ 2048)
/-- One reading per sensor (R447). -/
def wfSensors (rs : List (BitVec 16)) : Bool := decide (rs.length = 56)
/-- A frame period fits `CLK.FRAME_PERIOD` (R42). -/
def wfPeriod (period : Nat) : Bool := decide (period < 2 ^ 32)

/-- A command that names a table entry is the operation of the entry's OP, bits [31:28] (R140, R185). -/
def wfEntry (op : Nat) (e : BitVec 128) : Bool := decide (e.toNat / 2 ^ 28 % 16 = op)

/-- Whether every operand lies within its field. -/
def wellFormed (i : Instr) : Bool :=
  match i with
  | .configure _ _ rt peers => wfConfigure rt peers
  | .remoteAccumulate _ a _ _ _ _ => wfAccumulate a
  | .hostMemAccess _ da _ => wfHostMem da
  | .bar2Access w off data len => wfBar2 w off data len
  | .deviceRequestCompletion _ data _ => wfCompletion data
  | .depotBringUp uids => wfUids uids
  | .thermalSample rs _ => wfSensors rs
  | .tick _ _ _ period => wfPeriod period
  | .pass _ _ e _ => wfEntry 1 e
  | .take _ _ e _ => wfEntry 2 e
  | .sink _ _ e _ => wfEntry 3 e
  | .ferrySend _ _ e _ => wfEntry 4 e
  | .fetch _ _ e => wfEntry 5 e
  | .accept _ _ e => wfEntry 6 e
  | .trainTableLoad _ _ e => wfEntry 7 e
  | .fwd _ e _ => wfEntry 1 e
  | .merge32 _ e1 e2 => wfEntry 2 e1 && wfEntry 2 e2
  | .merge16 _ e1 e2 => wfEntry 3 e1 && wfEntry 3 e2
  | .poolrd _ e => wfEntry 4 e
  | .slotTableLoad _ e => wfEntry 5 e
  | _ => true

end Sys2Proof
end

