-- ==== Sys2Proof/Machine/Ferry.lean ====
section
/-! DEFINITION. The Ferry ring (R131-R152): ring order, flits and parity, what a train-table entry does in a tcyc. A
command names an entry and, for a train, the flit of it that this tcyc covers; it takes effect in the tcyc T + i. -/

namespace Sys2Proof.Machine

/-- Bits [hi:lo] of a word, as a number. -/
def fld (e : BitVec n) (hi lo : Nat) : Nat := e.toNat / 2 ^ lo % 2 ^ (hi + 1 - lo)

/-- The parity bit of the low `n` bits of a number: 1 when their count is odd. -/
def parity (v n : Nat) : Nat := ((List.range n).filter (fun k => v / 2 ^ k % 2 = 1)).length % 2

/-- Sideband bits [54:0] with SPAR, and PPAR over a payload (R138, R182). -/
def withParity (low : Nat) (pay : Row) : DWord :=
  let pp := ((List.range 8).map (fun i => parity (pay.toNat / 2 ^ (64 * i) % 2 ^ 64) 64 * 2 ^ (56 + i))).foldl (· + ·) 0
  BitVec.ofNat 64 (low % 2 ^ 55 + 2 ^ 55 * parity low 55 + pp)

/-- Whether both parities of a flit hold. -/
def Flit.parityOk (f : Flit) : Bool := f.side == withParity (f.side.toNat % 2 ^ 55) f.pay

/-- The same for a flit of the ring, where the payload of an empty-tile marker takes no part in parity (R138, R147). -/
def Flit.ferryOk (f : Flit) : Bool :=
  if f.side.getLsbD 1 then fld f.side 55 55 == parity (f.side.toNat % 2 ^ 55) 55 else f.parityOk

/-- A flit with a bit of its sideband set and its parities formed anew. -/
def Flit.mark (f : Flit) (bit : Nat) : Flit :=
  { f with side := withParity (((f.side ||| (1#64 <<< bit))).toNat % 2 ^ 55) f.pay }

/-- A Ferry flit (R138). -/
def ferryFlit (empty poison : Bool) (mode wfmt kind idx tag : Nat) (pay : Row) : Flit :=
  { pay := pay
    side := withParity (1 + (if empty then 2 else 0) + (if poison then 4 else 0) + 16 * (mode % 16) + 256 * (wfmt % 2)
      + 512 * (kind % 4) + 2048 * (idx % 256) + 2 ^ 19 * (tag % 65536)) pay }

/-! ### Ring order (R131, R133, R135) -/

/-- The downstream order of the positions of region g (R131), without splices. -/
def ringOrder (g : Nat) : List Nat :=
  let at_ (xl y : Nat) := 12 * (4 * g + xl) + y
  [at_ 0 0, at_ 1 0, at_ 2 0, at_ 3 0]
    ++ ((List.range 11).flatMap (fun k =>
      let y := k + 1
      (if y % 2 = 1 then [3, 2, 1] else [1, 2, 3]).map (fun xl => at_ xl y)))
    ++ ((List.range 11).map (fun k => at_ 0 (11 - k)))

/-- The element after `x` in a ring. -/
def nextIn (xs : List Nat) (x : Nat) : Nat := ((xs.drop (xs.idxOf x + 1)).head?).getD (xs.headD 0)

/-- The position after `i` on the downstream lane under the closed splices (R133). -/
def ringNext (sp : BitVec 3) (i : Nat) : Nat :=
  let x := i / 12
  let y := i % 12
  if x % 4 = 3 && y == 0 && sp.getLsbD (x / 4) then 12 * (x + 1)
  else if x % 4 = 0 && y == 1 && decide (0 < x) && sp.getLsbD (x / 4 - 1) then 12 * (x - 1) + 1
  else nextIn (ringOrder (x / 4)) i

/-- The position after `i` on the upstream lane. -/
def ringPrev (sp : BitVec 3) (i : Nat) : Nat :=
  let x := i / 12
  let y := i % 12
  if x % 4 = 0 && y == 0 && decide (0 < x) && sp.getLsbD (x / 4 - 1) then 12 * (x - 1)
  else if x % 4 = 3 && y == 1 && sp.getLsbD (x / 4) then 12 * (x + 1) + 1
  else nextIn (ringOrder (x / 4)).reverse i

/-- Tcyc of a hop between two positions: 1 within a cluster, 8 through a crossing (R132, R180). -/
def hopCost (a b : Nat) : Nat := if posClu a = posClu b then 1 else 8

/-- A flit leaves a position on a lane in the tcyc of its cluster, for the first stop of the next position (R132, R180); a push
into a crossing in the last 8 tcyc before the end mark is reported where it is made (R53). -/
def State.ringHop (s : State) (p lane : Nat) (f : Flit) : State :=
  let q := if lane = 0 then ringNext s.splice p else ringPrev s.splice p
  let d := hopCost p q
  let t := s.tcyc p
  let s' := { s with ferryFly := s.ferryFly ++
    [{ dst := 2 * q + (if lane = 0 then 0 else 1), port := lane, due := t + d, flit := f }] }
  if d == 8 && decide (s.endMark ≤ t + 8) then s'.lateCrossing p else s'

/-! ### What a stop does with its lanes -/

/-- Fields of a train-table entry (R139). -/
def enT (e : BitVec 128) : Nat := fld e 19 0
def enLen (e : BitVec 128) : Nat := fld e 27 20 + 1
def enLane (e : BitVec 128) : Nat := fld e 32 32
def enBuf (e : BitVec 128) : Nat := fld e 33 33
def enTag (e : BitVec 128) : Nat := fld e 51 36
def enMode (e : BitVec 128) : Nat := fld e 55 52
def enWfmt (e : BitVec 128) : Nat := fld e 56 56
def enKind (e : BitVec 128) : Nat := fld e 58 57
def enGran (e : BitVec 128) : Nat := fld e 81 64

/-- The operation code of a table entry (R139, R184). -/
def enOp (e : BitVec 128) : Nat := fld e 31 28

/-- The entries of a table bank that work, from index `idx` on: index, entry, and first tcyc under the SEG entries before it
(R46, R140, R185). The table ends at END, at an index that is not listed (a bank holds 0 there, which is END), and behind the
first entry with a reserved encoding, which acts as END when its tcyc comes (R152, R206). `sg` is the table's SEG code. -/
def tableWalk (sg : Nat) (bad : BitVec 128 → Bool) (idx seg : Nat) : Tab (BitVec 128) → List (Nat × BitVec 128 × Nat)
  | [] => []
  | (k, e) :: r =>
    if k ≠ idx || enOp e = 0 then []
    else if bad e then [(idx, e, 1048576 * seg + fld e 19 0)]
    else if enOp e = sg then tableWalk sg bad (idx + 1) (fld e 4 0) r
    else (idx, e, 1048576 * seg + fld e 19 0) :: tableWalk sg bad (idx + 1) seg r

/-- The entries of a walk that still work when the entry of index `n` has acted as END (R152, R206). -/
def beforeEnd (tableEnd : Option Nat) (walk : List (Nat × BitVec 128 × Nat)) : List (Nat × BitVec 128 × Nat) :=
  match tableEnd with
  | some n => walk.filter (fun w => decide (w.1 < n))
  | none => walk

/-- Whether entry `e` works in its tcyc i when the slot counter is `t` (R139, R184): as the bank places it, or, for an entry
that the bank does not hold, in segment 0 until an entry has acted as END (log entry 28). -/
def entryActs (bank : Tab (BitVec 128)) (tableEnd : Option Nat) (walk : List (Nat × BitVec 128 × Nat)) (e : BitVec 128)
    (i t : Nat) : Bool :=
  if bank.any (fun b => b.2 == e) then walk.any (fun w => w.2.1 == e && w.2.2 + i == t)
  else tableEnd.isNone && enT e + i == t

/-- The index in the table of an entry that works in tcyc `t`, for the records (R458). -/
def entryIndex (bank : Tab (BitVec 128)) (walk : List (Nat × BitVec 128 × Nat)) (len : BitVec 128 → Nat) (e : BitVec 128)
    (t : Nat) : Nat :=
  match walk.find? (fun w => w.2.1 == e && decide (w.2.2 ≤ t) && decide (t < w.2.2 + len e)) with
  | some w => w.1
  | none => ((bank.find? (fun b => b.2 == e)).map (·.1)).getD 0

/-- A reserved encoding in a train-table entry (R139, R140): its reserved bits, its OP, or its LEN. -/
def badTrain (e : BitVec 128) : Bool :=
  fld e 63 59 != 0 || fld e 127 82 != 0 || decide (8 < enOp e) || (enOp e == 7 && decide (128 < enLen e))
    || (decide (1 ≤ enOp e) && decide (enOp e ≤ 6) && decide (136 < enLen e))

/-- The bank of a stop that works in this frame (R141), and its entries that work. -/
def StopSt.bank (x : StopSt) : Tab (BitVec 128) := if x.cur then x.bank1 else x.bank0
def StopSt.walk (x : StopSt) : List (Nat × BitVec 128 × Nat) := beforeEnd x.tableEnd (tableWalk 8 badTrain 0 0 x.bank)
def StopSt.entryIdx (x : StopSt) (e : BitVec 128) (t : Nat) : Nat := entryIndex x.bank x.walk enLen e t

/-- A stop's record: unit stop A0 or A1, AUX the entry index, DETAIL the lane and the TAG (R458). -/
def State.stopRec (s : State) (p : Nat) (arr : Arr) (code : Code) (idx : Nat) (e : BitVec 128) : State :=
  s.raiseAt code p (5 + arr.val) idx (enLane e + 2 * enTag e)

/-- The fault of a stop for an entry that works in this tcyc. -/
def State.stopFault (s : State) (p : Nat) (arr : Arr) (code : Code) (e : BitVec 128) : State :=
  s.stopRec p arr code ((s.stopAt (2 * p + arr.val)).entryIdx e (s.tcyc p)) e

/-- The words of a stop's buffer that hold flit `i` of slot `b`, and an entry's word in a table bank, for upsets. -/
def flitWord (b i : Nat) : Nat := 8 * (136 * b + i)
def bankWord (cur : Bool) (idx : Nat) : Nat := idx + (if cur then 4096 else 0)

/-- A slot of a stop. -/
def StopSt.slotAt (x : StopSt) (b : Nat) : TileSlot := if b = 0 then x.slot0 else x.slot1
def StopSt.setSlot (x : StopSt) (b : Nat) (t : TileSlot) : StopSt :=
  if b = 0 then { x with slot0 := t } else { x with slot1 := t }
def State.onSlot (s : State) (k b : Nat) (f : TileSlot → TileSlot) : State :=
  let x := s.stopAt k
  s.setStop k (x.setSlot b (f (x.slotAt b)))

/-- The last tcyc that a marker reserves on a lane (R147). -/
def StopSt.mkUntil (x : StopSt) (lane : Nat) : Nat := if lane = 0 then x.mkUntil0 else x.mkUntil1
def StopSt.setMk (x : StopSt) (lane t : Nat) : StopSt :=
  if lane = 0 then { x with mkUntil0 := t } else { x with mkUntil1 := t }

/-- Whether entry `e` of a stop's table is due in its tcyc i: the position is live, its cluster has that tcyc to execute, the
entry works. -/
def State.stopDue (s : State) (p : Nat) (arr : Arr) (e : BitVec 128) (i : Nat) : Bool :=
  let x := s.stopAt (2 * p + arr.val)
  s.isLive p && s.inTcyc (posClu p) && decide (i < enLen e) && entryActs x.bank x.tableEnd x.walk e i (s.tcyc p)

/-- Whether the stop applies it now: its cluster does not hold (R49, R151). -/
def State.stopRuns (s : State) (p : Nat) (arr : Arr) (e : BitVec 128) (i : Nat) : Bool :=
  s.stopDue p arr e i && !s.holds (posClu p)

/-- An entry of a stop that acts as END in this tcyc, with the code of its reason (R152). -/
def State.stopEnd (s : State) (p : Nat) (arr : Arr) (code : Code) (e : BitVec 128) : State :=
  let x := s.stopAt (2 * p + arr.val)
  let n := if x.bank.any (fun b => b.2 == e) then x.entryIdx e (s.tcyc p) else 4096
  let s := s.stopFault p arr code e
  s.setStop (2 * p + arr.val) { s.stopAt (2 * p + arr.val) with tableEnd := some n }

/-- A reserved entry of a stop raises 0x25.09 and acts as END (R152). -/
def State.badStop (s : State) (p : Nat) (arr : Arr) (e : BitVec 128) : State := s.stopEnd p arr 0x2509 e

/-- Apply an entry of a stop, command `c`; while the cluster holds it waits (R49, R151). -/
def State.stopOp (s : State) (p : Nat) (arr : Arr) (c : Instr) (e : BitVec 128) (i : Nat) (k : State → State) : State :=
  if s.stopRuns p arr e i then (if badTrain e then s.badStop p arr e else k s)
  else if s.stopDue p arr e i then s.wait p c none
  else s

/-- The meaning of a command that names a table entry: its OP is the command's (R140, R185). -/
def entryCmd (name : String) (ok : Bool) (t : State) : Host.Outcome State Fault Refusal :=
  if ok then .next t else .refused (.illFormed name)

/-- Take the flit that arrives at a stop on a lane in this tcyc, with the parity check of R138. -/
def State.arrival (s : State) (p : Nat) (arr : Arr) (lane : Nat) (e : BitVec 128) : State × Option Flit :=
  let k := 2 * p + arr.val
  let t := s.tcyc p
  let here (l : LinkFlit) : Bool := l.dst == k && l.port == lane && l.due == t
  match s.ferryFly.find? here with
  | none => (s, none)
  | some l =>
    let s := { s with ferryFly := s.ferryFly.filter (fun l => !here l) }
    if l.flit.ferryOk then (s, some l.flit)
    else (s.stopFault p arr 0x2501 e, some (l.flit.mark 2))

/-- Send a flit from a stop on a lane: to the position's other stop, or to the next position (R132). -/
def State.sendLane (s : State) (p : Nat) (arr : Arr) (lane : Nat) (f : Flit) : State :=
  let step (k : Nat) : State :=
    { s with ferryFly := s.ferryFly ++ [{ dst := k, port := lane, due := s.tcyc p + 1, flit := f }] }
  if lane = 0 && arr == 0 then step (2 * p + 1)
  else if lane = 1 && arr == 1 then step (2 * p)
  else s.ringHop p lane f

/-- A flit passes the stops of a fenced position in the tcyc in which it reaches them: they check its parity and forward it
(R135, R138). -/
def State.bypass (s : State) (l : LinkFlit) : State :=
  let p := l.dst / 2
  if l.flit.ferryOk then s.ringHop p l.port l.flit
  else (s.raiseAt 0x2501 p (5 + l.dst % 2) 0 (l.port + 2 * fld l.flit.side 34 19)).ringHop p l.port (l.flit.mark 2)

/-- The flits that are at a bypassed stop of cluster `j` in the tcyc that it now begins. -/
def State.ferryBypass (s : State) (j : Nat) : State :=
  let t := (s.cluAt j).slot
  let here (l : LinkFlit) : Bool := posClu (l.dst / 2) == j && l.due == t && s.isFenced (l.dst / 2)
  (s.ferryFly.filter here).foldl State.bypass { s with ferryFly := s.ferryFly.filter (fun l => !here l) }

/-- Check an arrival against the entry (R142, R147): the flit to forward, or nothing. -/
def State.checkArrival (s : State) (p : Nat) (arr : Arr) (e : BitVec 128) (i : Nat) : State × Option Flit :=
  let lane := enLane e
  let k := 2 * p + arr.val
  let t := s.tcyc p
  let (s, f) := s.arrival p arr lane e
  let reserved := decide (0 < i) && decide (t ≤ (s.stopAt k).mkUntil lane)
  match f with
  | none => if reserved then (s, none) else (s.stopFault p arr 0x2503 e, none)
  | some f =>
    if reserved then (s.stopFault p arr 0x2502 e, none)
    else if fld f.side 34 19 = enTag e ∧ fld f.side 18 11 = i then
      if f.side.getLsbD 1 then (s.setStop k ((s.stopAt k).setMk lane (t + enLen e - 1)), some f) else (s, some f)
    else (s.stopFault p arr 0x2502 e, none)

/-- Flit `i` of slot `b` is read: a word that the code corrects is a notice, one that it does not corrupts the flit, which
carries POISON (R143, R152). -/
def State.readSlotFlit (s : State) (p : Nat) (arr : Arr) (b i idx : Nat) (e : BitVec 128) : State × Bool :=
  let (co, un) := s.upsetIn .stopBuf (2 * p + arr.val) (flitWord b i) 8
  let s := if co then s.stopRec p arr 0x250B idx e else s
  (if un then s.stopRec p arr 0x250C idx e else s, un)

/-- Start a fill of a slot in its first tcyc, unless the slot is occupied (R143): 0x25.04 and nothing stored. -/
def State.startFill (s : State) (p : Nat) (arr : Arr) (e : BitVec 128) (mode wfmt kind tag : Nat) (plain : Bool) :
    State :=
  let k := 2 * p + arr.val
  let x := s.stopAt k
  let b := enBuf e
  if (x.slotAt b).used then s.stopFault p arr 0x2504 e
  else
    s.setStop k { x.setSlot b { TileSlot.free with
        used := true, entry := e, entryAt := x.entryIdx e (s.tcyc p), fillT := s.tcyc p, order := x.fills, len := enLen e, latchIt := e.getLsbD 34
        filling := true, plainFetch := plain, mode := BitVec.ofNat 4 mode, wfmt := BitVec.ofNat 1 wfmt
        kind := BitVec.ofNat 2 kind, tag := BitVec.ofNat 16 tag }
      with fills := x.fills + 1 }

/-- Copy flit `i` of a train into the slot (R140, R142): zero bytes for a flit that did not come; MODE, WFMT and KIND of the
first flit that came (R147). A tile whose fill was refused is not stored (R143). -/
def State.storeFlit (s : State) (p : Nat) (arr : Arr) (e : BitVec 128) (i : Nat) (f : Option Flit) : State :=
  let k := 2 * p + arr.val
  let t := s.tcyc p
  let b := enBuf e
  let s := if i = 0 then s.startFill p arr e (enMode e) (enWfmt e) (enKind e) (enTag e) false else s
  let s := s.heal .stopBuf k (flitWord b i) 8
  s.onSlot k b (fun x =>
    if !x.used || !x.filling || x.entry != e || x.fillT + i != t then x
    else
      let bad := (f.map (fun f => f.side.getLsbD 2)).getD false
      let x := match f with
        | some f => if x.seen then x else { x with
            seen := true, mode := BitVec.ofNat 4 (fld f.side 7 4), wfmt := BitVec.ofNat 1 (fld f.side 8 8)
            kind := BitVec.ofNat 2 (fld f.side 10 9) }
        | none => x
      let mk := match f with | some f => f.side.getLsbD 1 | none => false
      let x := if mk then { x with marker := true, markBad := bad } else x
      let x := if x.marker then x
        else { x with flits := x.flits ++ [{ idx := i, avail := t, pay := (f.map (·.pay)).getD 0, poison := bad }] }
      if i + 1 = enLen e then { x with filling := false } else x)

/-- PASS (R140, R142). -/
def execPass (p : Pos) (arr : Arr) (e : BitVec 128) (i : BitVec 8) (s : State) :
    Host.Outcome State Fault Refusal :=
  entryCmd "PASS" (wfEntry 1 e) (s.stopOp p.val arr (.pass p arr e i) e i.toNat (fun s =>
    let (s, f) := s.checkArrival p.val arr e i.toNat
    match f with | some f => s.sendLane p.val arr (enLane e) f | none => s))

/-- TAKE (R140, R142, R143). -/
def execTake (p : Pos) (arr : Arr) (e : BitVec 128) (i : BitVec 8) (s : State) :
    Host.Outcome State Fault Refusal :=
  entryCmd "TAKE" (wfEntry 2 e) (s.stopOp p.val arr (.take p arr e i) e i.toNat (fun s =>
    let (s, f) := s.checkArrival p.val arr e i.toNat
    let s := s.storeFlit p.val arr e i.toNat f
    match f with | some f => s.sendLane p.val arr (enLane e) f | none => s))

/-- SINK (R140, R142, R143). -/
def execSink (p : Pos) (arr : Arr) (e : BitVec 128) (i : BitVec 8) (s : State) :
    Host.Outcome State Fault Refusal :=
  entryCmd "SINK" (wfEntry 3 e) (s.stopOp p.val arr (.sink p arr e i) e i.toNat (fun s =>
    let (s, f) := s.checkArrival p.val arr e i.toNat
    s.storeFlit p.val arr e i.toNat f))

/-- Flit `i` of a slot, if it is there by tcyc t. -/
def TileSlot.flitAt (x : TileSlot) (i t : Nat) : Option SlotFlit :=
  x.flits.find? (fun f => f.idx == i && decide (f.avail ≤ t))

/-- Whether a SEND in tcyc t gives an empty-tile marker (R147). -/
def TileSlot.emptyTile (x : TileSlot) (t : Nat) : Bool :=
  x.marker ||
  (match modeInfo x.mode.toNat with
   | none => false
   | some m =>
     (List.range x.len).all (fun i => (x.flitAt i t).isSome) && !(x.plainFetch && x.filling) &&
     (let tile : Tile := { mode := x.mode, wfmt := x.wfmt, empty := false, anyMode := false
                           flits := (List.range x.len).map (fun i => ((x.flitAt i t).map (·.pay)).getD 0), sums := [] }
      (List.range m.valBytes).all (fun b => tile.byte b == 0) &&
      (!m.mx || (List.range m.sclBytes).all (fun b => tile.byte (m.valBytes + b) != 0xFF))))

/-- SEND of the train table (R140, R142, R143, R146, R147). A SEND of a slot that another one has sent or is sending finds none
of its flits. -/
def execFerrySend (p : Pos) (arr : Arr) (e : BitVec 128) (i : BitVec 8) (s : State) :
    Host.Outcome State Fault Refusal :=
  entryCmd "FERRY_SEND" (wfEntry 4 e) (s.stopOp p.val arr (.ferrySend p arr e i) e i.toNat (fun s =>
    let k := 2 * p.val + arr.val
    let t := s.tcyc p.val
    let lane := enLane e
    let b := enBuf e
    let me := some (t - i.toNat, e)
    let (s, f) := s.arrival p.val arr lane e
    let s := if f.isSome then s.stopFault p.val arr 0x2506 e else s
    let x := (s.stopAt k).slotAt b
    let starts := i == 0 && x.used && !x.sent && x.sending.isNone
    let mk := starts && x.emptyTile t
    let s := if starts then
        (let s := s.onSlot k b (fun x => { x with sending := me })
         if mk then s.setStop k ((s.stopAt k).setMk lane (t + enLen e - 1)) else s)
      else s
    let x := (s.stopAt k).slotAt b
    let mine := x.used && x.sending == me
    let inMk := mine && decide (0 < i.toNat) && decide (t ≤ (s.stopAt k).mkUntil lane)
    let s :=
      if mk then s.sendLane p.val arr lane
        (ferryFlit true x.markBad (enMode e) (enWfmt e) (enKind e) 0 (enTag e) 0)
      else if inMk then s
      else
        match (if mine then x.flitAt i.toNat t else none) with
        | some g =>
          let (s, un) := s.readSlotFlit p.val arr b i.toNat ((s.stopAt k).entryIdx e t) e
          s.sendLane p.val arr lane
            (ferryFlit false (g.poison || un) (enMode e) (enWfmt e) (enKind e) i.toNat (enTag e) g.pay)
        | none => s.stopFault p.val arr 0x2505 e
    if i.toNat + 1 = enLen e then
      s.onSlot k b (fun x => if x.sending == me then { x with sending := none, sent := true } else x)
    else s))

/-! ### Deck operations of a stop (R141, R144, R145, R148) -/

/-- Start a transposed read of the tile at granule `g` into a slot (R148, R233, R234): 16 tcyc of reads, all flits in
the slot from t + 17; an unsupported mode or a misaligned start fills the slot with zero bytes. With `store` false the
slot is occupied and takes nothing (R143). -/
def State.startTurn (s : State) (p : Nat) (arr : Arr) (slot : Nat) (e : BitVec 128) (g : Nat) (store : Bool) : State :=
  let m := enMode e
  let mx := m == 0 || m == 2
  let bf := m == 8
  let t := s.tcyc p
  let mk (d : Dst) (lat : Nat) : Pend := { dst := d, due := t + lat, issue := t, rank := 4, val := 0, mask := 0 }
  let adds (s : State) (l : List Pend) : State := s.onCore p (fun c => { c with pend := c.pend ++ l })
  let zero := if store then [mk (.zeroStop arr slot (enLen e)) 16] else []
  if !(mx || bf) then adds (s.stopFault p arr 0x2508 e) zero
  else if g % 16 != 0 || (mx && g % 16384 == 16368) then
    adds (s.raiseAt 0x2A07 p 0xC ((s.stopAt (2 * p + arr.val)).entryIdx e t) g) zero
  else
    adds s ((List.range 16).map (fun k => mk (.turn k (g + k)) (k / 2)) ++ (if mx then [mk (.turn 16 (g + 16)) 8] else [])
      ++ (if store then [mk (.turnStop arr slot (enLen e) bf) 16] else []))

/-- A deck-port operation of a stop, of `n` tcyc; 0x25.07 while the port is occupied (R144). -/
def State.stopPort (s : State) (p : Nat) (arr : Arr) (e : BitVec 128) (n : Nat) (k : State → State) : State :=
  let c := s.coreAt p
  let t := s.tcyc p
  if t < c.portBusy then s.stopFault p arr 0x2507 e
  else k ((s.onCore p (fun c => { c with portBusy := t + n, portAt := none })).event p 0x22 n)

/-- FETCH (R143, R144): plain over ceil(LEN / 4) tcyc, or transposed. -/
def execFetch (p : Pos) (arr : Arr) (e : BitVec 128) (s : State) : Host.Outcome State Fault Refusal :=
  entryCmd "FETCH" (wfEntry 5 e) (s.stopOp p.val arr (.fetch p arr e) e 0 (fun s =>
    let k := 2 * p.val + arr.val
    let len := enLen e
    let tr := e.getLsbD 35
    s.stopPort p.val arr e (if tr then 16 else (len + 3) / 4) (fun s =>
      let occ := ((s.stopAt k).slotAt (enBuf e)).used
      let s := s.startFill p.val arr e (enMode e) (enWfmt e) (enKind e) (enTag e) (!tr)
      if tr then s.startTurn p.val arr (enBuf e) e (enGran e) (!occ)
      else
        let t := s.tcyc p.val
        s.onCore p.val (fun c => { c with
          pend := c.pend ++ (List.range ((len + 3) / 4)).map (fun j =>
            { dst := .fetched arr (enBuf e) j (enGran e + j) len occ, due := t + j, issue := t, rank := 4
              val := 0, mask := 0 }) }))))

/-- ACCEPT (R145): the slot awaits the tile of a DKRT of this tcyc. -/
def execAccept (p : Pos) (arr : Arr) (e : BitVec 128) (s : State) : Host.Outcome State Fault Refusal :=
  entryCmd "ACCEPT" (wfEntry 6 e) (s.stopOp p.val arr (.accept p arr e) e 0 (fun s =>
    let k := 2 * p.val + arr.val
    s.setStop k { s.stopAt k with wantDkrt := some (enBuf e, e) }))

/-- The DKRT of R145 reaches the stop whose ACCEPT stands in this tcyc, A0 first; with none its data is discarded and
0x25.0A is raised. -/
def State.turnToStop (s : State) (p g : Nat) : State :=
  let give (arr : Arr) (e : BitVec 128) : State :=
    let k := 2 * p + arr.val
    let s := s.setStop k { s.stopAt k with wantDkrt := none }
    let occ := ((s.stopAt k).slotAt (enBuf e)).used
    let s := s.startFill p arr e (enMode e) (enWfmt e) (enKind e) (enTag e) false
    s.startTurn p arr (enBuf e) e g (!occ)
  match (s.stopAt (2 * p)).wantDkrt, (s.stopAt (2 * p + 1)).wantDkrt with
  | some (_, e), _ => give 0 e
  | none, some (_, e) => give 1 e
  | none, none => s.raiseAt 0x250A p 5

/-- LOAD of a train table (R141): LEN granules into the inactive bank, LEN + 1 tcyc of the deck port. -/
def execTrainTableLoad (p : Pos) (arr : Arr) (e : BitVec 128) (s : State) : Host.Outcome State Fault Refusal :=
  entryCmd "TRAIN_TABLE_LOAD" (wfEntry 7 e) (s.stopOp p.val arr (.trainTableLoad p arr e) e 0 (fun s =>
    let k := 2 * p.val + arr.val
    let len := enLen e
    s.stopPort p.val arr e (len + 1) (fun s =>
      let t := s.tcyc p.val
      let mk (d : Dst) (lat : Nat) : Pend := { dst := d, due := t + lat, issue := t, rank := 4, val := 0, mask := 0 }
      let s := s.setStop k { s.stopAt k with loadBusy := some e, loadDone := false }
      s.onCore p.val (fun c => { c with
        pend := c.pend ++ (List.range len).map (fun j => mk (.trainLoad arr j (enGran e + j)) j)
          ++ [mk (.trainDone arr) len] }))))

end Sys2Proof.Machine
end

