-- ==== Sys2Proof/Machine/ArraySlot.lean ====
section
/-! DEFINITION. The array slot (R120, R121): FEED, CFG, SWAP and LATCH. -/

namespace Sys2Proof.Machine

/-- The entry pointer after a FEED: the next of the EWRAP entries that follow EBASE modulo 128 (R121). -/
def nextEntry (cfg : Word) (e : Nat) : Nat :=
  let base := (cfg.toNat / 64) % 128
  let wrap := max (cfg.toNat / 8192 % 256) 1
  (base + ((e + 128 - base) % 128 + 1) % wrap) % 128

/-- The products of column n, over every logical row of the pass (R76, R86, R88): activation and weight, a weight that
2-of-4 does not store being zero (R93; log entry 84). -/
def columnProducts (t : Tile) (m : Nat) (i : ModeInfo) (x : Nat → FpVal) (n : Nat) : List (Nat × FpVal × FpVal) :=
  (List.range i.depth).map (fun k => (k, x k, (t.weight m i k n).getD (.fin false 0 0)))

/-- The products of column n that its cells gate: of the weights that they hold, those where weight or activation is
zero (R97, R99). -/
def gatedProducts (t : Tile) (m : Nat) (i : ModeInfo) (x : Nat → FpVal) (n : Nat) : Nat :=
  (List.range i.depth).countP (fun k =>
    match t.weight m i k n with
    | none => false
    | some w => decide (FpVal.cmp (x k) (.fin false 0 0) = some .eq) || decide (FpVal.cmp w (.fin false 0 0) = some .eq))

/-- The feeder's scales for one row (R78, R121): the next bytes of its scale row, which it reads when it has none; what
it holds afterwards. -/
def State.feedScales (s : State) (p : Nat) (arr : Arr) (nb : Nat) : State × List Nat × Word × Nat × Option Row :=
  let a := (s.coreAt p).arr arr
  let w := s.sclReg p arr
  let (s, r) := match a.sclRow with
    | some r => (s, r)
    | none => s.readRow p (w.toNat % 32768)
  let bs := (List.range nb).map (fun b => (r >>> (8 * (a.sclUsed + b))).toNat % 256)
  let u := a.sclUsed + nb
  if 64 ≤ u then (s, bs, (w &&& 0xFFFF8000) ||| BitVec.ofNat 32 ((w.toNat + 1) % 32768), 0, none)
  else (s, bs, w, u, some r)

/-- The lanes of a partial-sum entry that a mode of `n` columns writes (R80). -/
def colMask (n : Nat) : BitVec 256 := BitVec.ofNat 256 (2 ^ n - 1)

/-- Whether a FEED reads a row of a waking bank: an activation row, or the row of scales that its feeder has yet to read
(R78, R121, R228). -/
def State.feedWakes (s : State) (p : Nat) (arr : Arr) (field : Nat) : Bool :=
  match modeInfo ((s.cfgReg p arr).toNat % 16) with
  | none => false
  | some i =>
    s.rowsWake p (rowOf (s.aReg p field)) ((i.actBytes + 63) / 64)
      || (i.mx && ((s.coreAt p).arr arr).sclRow.isNone && s.rowsWake p ((s.sclReg p arr).toNat % 32768) 1)

/-- A row of NaN (R83). -/
def nanRow : Vec := ofLanes (List.replicate 64 0x7FC00000)

/-- FEED (R79, R80, R83, R120, R121): the row enters now; the verdict is formed at t + 12 and the results are written
or added at t + 14. Under a reserved MODE, which only an array without a CFG in its invocation can hold, no row is read, the
scale pointer stays and all 64 lanes are NaN (DESIGN CHOICE, log entry 86). Both arrays' FEEDs that name one address register
advance it twice (DEDUCED, log entry 86). -/
def execFeed (p : Pos) (arr : Arr) (acc : Bool) (field : BitVec 4) (s : State) :
    Host.Outcome State Fault Refusal :=
  .next (s.whenIssued p.val (.feed p arr acc field) (wakeCause (s.feedWakes p.val arr field.toNat)) (fun s =>
    let cfg := s.cfgReg p.val arr
    let m := cfg.toNat % 16
    let a := (s.coreAt p.val).arr arr
    let t := a.active
    let e := s.entReg p.val arr
    let row := rowOf (s.aReg p.val field.toNat)
    let s := if s.upset .feeder (2 * p.val + arr.val) 0 != .good then
        (s.arrFault p.val arr 0x2105).heal .feeder (2 * p.val + arr.val) 0 1 else s
    let s := if s.upset .output (2 * p.val + arr.val) 0 != .good then
        (s.pendOp p.val (.event 0x2104 (2 + arr.val) ((s.coreAt p.val).pc.setWidth 16) 0) 15 3 0).heal .output
          (2 * p.val + arr.val) 0 1 else s
    let begun (s : State) (sclp : Word) (used : Nat) (srow : Option Row) : State :=
      let s := (s.useA p.val field.toNat 3).pendOp p.val (.feeder arr (nextEntry cfg e) sclp used srow) 1 3 0
      (s.count 8 p.val (8 + arr.val) 1).event p.val (0x10 + arr.val) 1
    match modeInfo m with
    | none =>
      let s := (begun s (s.sclReg p.val arr) a.sclUsed a.sclRow).arrFault p.val arr 0x2107
      s.pendOp p.val (.psum arr e acc) 15 3 nanRow
    | some i =>
      let (s, bytes) := s.readRows p.val row ((i.actBytes + 63) / 64)
      let (s, sx, sclp, used, srow) :=
        if i.mx then s.feedScales p.val arr (i.depth / 32) else (s, [], s.sclReg p.val arr, a.sclUsed, a.sclRow)
      let s := begun s sclp used srow
      let pairs := t.anyMode || (t.mode.toNat == m && (t.wfmt == 0 || hasAlt m))
      if !pairs then
        let s := s.arrFault p.val arr 0x2107
        s.pendOp p.val (.psum arr e acc) 15 3 nanRow (colMask i.cols)
      else
        let afmt := cfg.toNat / 16 % 2
        let xs := (List.range i.depth).map (fun k => modeDec m afmt (bytes / 2 ^ (i.bits * k) % 2 ^ i.bits))
        let x (k : Nat) : FpVal := xs.getD k .nan
        let cols := (List.range i.cols).map (columnProducts t m i x)
        let res := (List.range i.cols).map (fun n =>
          BitVec.ofNat 32 (columnResult i.mx (cols.getD n []) (fun b => sx.getD b 0) (fun b => t.scale i b n)))
        let gated := ((List.range i.cols).map (gatedProducts t m i x)).sum
        let s := s.event p.val (0x12 + arr.val) (gated / 64)
        let s := s.pendOp p.val (.psum arr e acc) 15 3 (ofLanes res) (colMask i.cols)
        match verdict i x cols t.sums with
        | none => s
        | some (code, aux, detail) =>
          s.pendOp p.val (.event code (2 + arr.val) (BitVec.ofNat 16 aux) (BitVec.ofNat 64 detail)) 13 3 0))

/-- Whether a configuration word breaks a constraint of R121; an EWRAP of 129 to 255, which is no number of entries, does
(DEDUCED, log entry 86). -/
def badCfg (w sc : Word) : Bool :=
  let m := w.toNat % 16
  let wrap := w.toNat / 8192 % 256
  decide (10 ≤ m) || ((w.toNat / 16 % 4 != 0) && !hasAlt m) || wrap == 0 || decide (128 < wrap)
    || (w.toNat / 2 ^ 21 != 0) || (sc.toNat / 2 ^ 15 != 0)

/-- CFG (R120, R121). -/
def execCfg (p : Pos) (arr : Arr) (field : BitVec 4) (s : State) : Host.Outcome State Fault Refusal :=
  .next (s.whenIssued p.val (.cfg p arr field) none (fun s =>
    let w := s.sReg p.val field.toNat
    let sc := s.sReg p.val (field.toNat + 1)
    if field.toNat % 2 = 1 || badCfg w sc then s.illegal p.val
    else s.pendOp p.val (.cfg arr) 1 3 (w.setWidth 2048 ||| (sc.setWidth 2048 <<< 32))))

/-- SWAP (R77): the shadow tile becomes active at the end of this tcyc, if it is whole now. -/
def execSwap (p : Pos) (arr : Arr) (s : State) : Host.Outcome State Fault Refusal :=
  .next (s.whenIssued p.val (.swap p arr) none (fun s =>
    let s := s.event p.val 0x14 1
    match ((s.coreAt p.val).arr arr).shadow with
    | .full _ => s.pendOp p.val (.swap arr) 1 3 0
    | _ => s.arrFault p.val arr 0x2106))

/-- A latch ahead of its data (R146): the record names the entry that filled the slot; where no tile qualifies or the LATCH is
ignored there is none, and AUX and DETAIL are 0 (DESIGN CHOICE, log entry 87). -/
def State.latchFault (s : State) (p : Nat) (arr : Arr) (slot : Option Nat) : State :=
  match slot.map (s.stopAt (2 * p + arr.val)).slotAt with
  | some y => s.stopRec p arr 0x2505 y.entryAt y.entry
  | none => s.stopRec p arr 0x2505 0 0

/-- Whether a slot's tile qualifies for a LATCH in tcyc t (R146). -/
def TileSlot.ready (x : TileSlot) (t : Nat) : Bool :=
  x.used && x.latchIt && !x.latched && !x.latching && decide (x.fillT ≤ t)

/-- The slot of the oldest tile that qualifies for a LATCH in tcyc t (R146). -/
def StopSt.latchSlot (x : StopSt) (t : Nat) : Option Nat :=
  match x.slot0.ready t, x.slot1.ready t with
  | true, true => some (if x.slot0.order ≤ x.slot1.order then 0 else 1)
  | true, false => some 0
  | false, true => some 1
  | false, false => none

/-- LATCH (R146): the oldest tile that qualifies starts into the shadow weights; each later tcyc takes its next flit. An
ACCEPT of this tcyc with L = 1 fills its slot when the DKRT of the tcyc meets it (R145), so the tile is chosen at the end of
the tcyc (slot 2). -/
def execLatch (p : Pos) (arr : Arr) (s : State) : Host.Outcome State Fault Refusal :=
  .next (s.whenIssued p.val (.latch p arr) none (fun s =>
    let x := s.stopAt (2 * p.val + arr.val)
    let start (b : Nat) : State := s.pendOp p.val (.latch arr b) 1 5 0
    if ((s.coreAt p.val).arr arr).isLatching then s.latchFault p.val arr none
    else
      match x.latchSlot (s.tcyc p.val) with
      | some b => start b
      | none => if x.wantDkrt.any (fun w => w.2.getLsbD 34) then start 2 else s.latchFault p.val arr none))

end Sys2Proof.Machine
end

