-- ==== Sys2Proof/Machine/March.lean ====
section
/-! DEFINITION. The march engine: March C- over a bank, its failing pairs and the repair of the bank (R25, R240, R241, R243). -/

namespace Sys2Proof.Machine

/-! ### March C- (R240) -/

/-- The patterns of the four data backgrounds. -/
def marchBg (d : Nat) : DWord :=
  match d with
  | 0 => 0
  | 1 => 0x5555555555555555
  | 2 => 0x3333333333333333
  | _ => 0x0F0F0F0F0F0F0F0F

/-- The pattern of a background at a row; the checkerboard alternates rows. -/
def marchPat (d row : Nat) : DWord := if d = 1 && row % 2 = 1 then ~~~ marchBg d else marchBg d

/-- Rows of a bank and its data bit columns; the check-bit columns follow the data, and after them the spares (R25). -/
def bankRows (deck : Bool) : Nat := if deck then 16384 else 2048
def dataCols (deck : Bool) : Nat := if deck then 2048 else 512
def bankCols (deck : Bool) : Nat := if deck then 2304 else 576
/-- Spare rows and columns of a bank (R25). -/
def spareRowsOf (deck : Bool) : Nat := if deck then 32 else 8
def spareColsOf (deck : Bool) : Nat := if deck then 4 else 2

/-- The bit that a background has in a row and column: check bits take the low 8 bits of the pattern. -/
def marchBit (deck : Bool) (d row col : Nat) : Bool :=
  (marchPat d row).getLsbD (if col < dataCols deck then col % 64 else col % 8)

/-- An operation of the march on a row: the pattern or its inverse, written or checked. -/
inductive MarchOp where
  | write (inverse : Bool)
  | check (inverse : Bool)
  deriving DecidableEq, Repr

/-- The six elements of March C-, each with whether it goes up through the rows. -/
def marchElements : List (Bool × List MarchOp) :=
  [(true, [.write false]), (true, [.check false, .write true]), (true, [.check true, .write false]),
   (false, [.check false, .write true]), (false, [.check true, .write false]), (true, [.check false])]

/-- One operation at a cell: what the cell holds, and whether a check has failed so far. -/
def marchAt (c : BadCell) (bit : Bool) (st : Bool × Bool) (op : MarchOp) : Bool × Bool :=
  match op with
  | .write _ => (c.stuck, st.2)
  | .check inv => (st.1, st.2 || st.1 != (bit != inv))

/-- Whether the march with background `d` finds a cell: a bad cell disturbs no other one, so the march of its bank is, at the
cell, its elements in order. -/
def marchFinds (d : Nat) (c : BadCell) : Bool :=
  ((marchElements.flatMap (·.2)).foldl (marchAt c (marchBit c.deck d c.row c.col)) (c.stuck, false)).2

/-- The failing (row, bit column) pairs of a bank under some backgrounds. -/
def marchFails (ds : List Nat) (cells : List BadCell) : List (Nat × Nat) :=
  (cells.filter (fun c => ds.any (fun d => marchFinds d c))).map (fun c => (c.row, c.col))

/-- The cells of a bank of a position. -/
def cellsOf (cells : List BadCell) (p : Nat) (deck : Bool) (bank : Nat) : List BadCell :=
  cells.filter (fun c => c.pos.val == p && c.deck == deck && c.bank == bank)

/-! ### Repair (R25, R241) -/

/-- A number put into a rising list. -/
def insertNat (n : Nat) : List Nat → List Nat
  | [] => [n]
  | k :: r => if n < k then n :: k :: r else if n = k then k :: r else k :: insertNat n r

/-- The columns in ascending order, each with two or more fails, take spare columns; none when they are used up. -/
def repairCols (fails : List (Nat × Nat)) : List Nat → Nat → Option (List Nat)
  | [], _ => some []
  | c :: r, n =>
    if (fails.filter (fun f => f.2 == c)).length < 2 then repairCols fails r n
    else match n with
      | 0 => none
      | n + 1 => (repairCols fails r n).map (c :: ·)

/-- The spares of a bank that pass their own test and are not in use: those of rows, or of columns. -/
def sparesLeft (deck rows : Bool) (fails : List (Nat × Nat)) (used : Nat) : Nat :=
  let bad := if rows then ((fails.map (·.1)).filter (fun r => decide (bankRows deck ≤ r))).foldr insertNat []
    else ((fails.map (·.2)).filter (fun c => decide (bankCols deck ≤ c))).foldr insertNat []
  (if rows then spareRowsOf deck else spareColsOf deck) - bad.length - used

/-- Whether a pair lies in the bank proper and is not yet repaired. -/
def RepairMap.open_ (m : RepairMap) (deck : Bool) (f : Nat × Nat) : Bool :=
  decide (f.1 < bankRows deck) && decide (f.2 < bankCols deck) && !m.rows.contains f.1 && !m.cols.contains f.2

/-- The repair of R241, with spares that are still free: the map extended, or none when the bank is unrepairable. -/
def RepairMap.extend (m : RepairMap) (deck : Bool) (fails : List (Nat × Nat)) : Option RepairMap :=
  let todo := fails.filter (m.open_ deck)
  match repairCols todo ((todo.map (·.2)).foldr insertNat []) (sparesLeft deck false fails m.cols.length) with
  | none => none
  | some cols =>
    let rows := ((todo.filter (fun f => !cols.contains f.2)).map (·.1)).foldr insertNat []
    if rows.length ≤ sparesLeft deck true fails m.rows.length then
      some { rows := m.rows ++ rows, cols := m.cols ++ cols }
    else none

def BankSt.mapOf (b : BankSt) (bank : Nat) : RepairMap := tget b.repair bank { rows := [], cols := [] }

/-- The repair use in `NST[i].STATUS` or `DECK[i].STATUS` (R243). -/
def BankSt.summarise (b : BankSt) (deck : Bool) : BankSt :=
  let sum (f : RepairMap → List Nat) : Nat := (b.repair.map (fun e => (f e.2).length)).foldl (· + ·) 0
  let rows := sum (·.rows)
  let cols := sum (·.cols)
  let st := b.status.toNat
  { b with status := BitVec.ofNat 32 (
      if deck then st % 2 ^ 8 + 2 ^ 8 * (rows % 2 ^ 10) + 2 ^ 18 * (cols % 2 ^ 7)
      else rows % 2 ^ 8 + 2 ^ 8 * (cols % 2 ^ 6) + st / 2 ^ 14 % 2 * 2 ^ 14) }

/-- What a march finds in a bank: nothing new, a repair added, or a bank that cannot be repaired. -/
inductive Marched where
  | clean
  | repaired
  | unrepairable
  deriving DecidableEq, Repr

/-- A bank marched with all four backgrounds and repaired (R240, R241). One that cannot be repaired keeps its map (R242). -/
def BankSt.marchBank (b : BankSt) (deck : Bool) (bank : Nat) (cells : List BadCell) : BankSt × Marched :=
  let fails := marchFails [0, 1, 2, 3] cells
  if !fails.any ((b.mapOf bank).open_ deck) then (b, .clean)
  else match (b.mapOf bank).extend deck fails with
    | some m => (({ b with repair := tset b.repair bank m }).summarise deck, .repaired)
    | none => (b, .unrepairable)

/-- Every bank of a near store or deck column marched, and what was found in each. -/
def BankSt.marchAll (b : BankSt) (p : Nat) (deck : Bool) (cells : List BadCell) : BankSt × List (Nat × Marched) :=
  (List.range (if deck then 18 else 16)).foldl (fun (r : BankSt × List (Nat × Marched)) k =>
    let cs := cellsOf cells p deck k
    if cs.isEmpty then r
    else
      let (b, m) := r.1.marchBank deck k cs
      (b, r.2 ++ [(k, m)])) (b, [])

end Sys2Proof.Machine
end

