-- ==== Sys2Proof/Machine/Banks.lean ====
section
/-! DEFINITION. Bank power (R226-R228), the untimetabled accesses of a bank (R219-R222), the background testers (R236-R239), the march (R242) and what is retained
between invocations (R229, R230). -/

namespace Sys2Proof.Machine

/-! ### Power states (R226-R228) -/

/-- A bank or window set to a power state. -/
def BankSt.setState (b : BankSt) (k v : Nat) : BankSt :=
  { b with pwr := (b.pwr &&& ~~~(3#32 <<< (2 * (k % 16)))) ||| (BitVec.ofNat 32 (v % 4) <<< (2 * (k % 16))) }

/-- 200 ns, and the fill of a bank from off: 2 µs in the near store, 8 µs in the deck, in all, in qns (R227). -/
def wakeTime (deck fromOff : Bool) : Nat := if fromOff then (if deck then 32000 else 8000) else 800

/-- A bank that is not on starts to wake (R227); one that wakes already goes on. -/
def BankSt.wake (b : BankSt) (deck : Bool) (k now : Nat) : BankSt :=
  let st := b.stateOf k
  if st = 1 || st = 2 then
    { b.setState k 3 with wakeAt := tset b.wakeAt k (now + wakeTime deck (st == 2), st == 2) }
  else b

/-- Whether the contents of a bank are lost: it is off, wakes from off, or has been off since (R226). -/
def BankSt.isLost (b : BankSt) (k : Nat) : Bool :=
  b.stateOf k == 2 || (b.stateOf k == 3 && (tfind b.wakeAt k).any (·.2)) || b.lost.getLsbD (k % 16)

/-- The test of a group in a bank that leaves the on state ends untested (DESIGN CHOICE, log entry 94). -/
def BankSt.dropTest (b : BankSt) (deck : Bool) (k : Nat) : BankSt :=
  match b.test with
  | some r => if (if deck then b.windowOf (r.group / 256) == some k else r.group / 32 == k) then { b with test := none } else b
  | none => b

/-- A bank enters its idle state (R227). -/
def BankSt.toIdle (b : BankSt) (deck : Bool) (k : Nat) (retain : Bool) : BankSt :=
  let mark : BitVec 16 := 1#16 <<< (k % 16)
  { (b.dropTest deck k).setState k (if retain then 1 else 2) with
    wakeAt := tdel b.wakeAt k, lost := if retain && b.isLost k then b.lost ||| mark else b.lost &&& ~~~mark }

/-- The near store or the deck column of a position. -/
def State.bankAt (s : State) (p : Nat) (deck : Bool) : BankSt := if deck then s.deckB p else s.nstB p
def State.setBank (s : State) (p : Nat) (deck : Bool) (b : BankSt) : State :=
  if deck then s.setDeckB p b else s.setNstB p b

/-- An operation on every byte range of one bank or window. A near-store bank is every 16th row (R214, R215). -/
def State.onBank (s : State) (p : Nat) (deck : Bool) (k : Nat) (f : Mem → Nat → Nat → Mem) : State :=
  if deck then
    let lo := 67108864 * p + 4194304 * k
    { s with deck := f s.deck lo (lo + 4194304) }
  else
    { s with nst := (List.range 2048).foldl (fun m r =>
        let lo := 2097152 * p + 64 * (16 * r + k)
        f m lo (lo + 64)) s.nst }

/-- Zero one bank or window, check bits valid (R227). -/
def State.zeroBank (s : State) (p : Nat) (deck : Bool) (k : Nat) : State := s.onBank p deck k Mem.zero

/-- The contents of a bank that was off and is on again without the fill of a wake from off are open (R226; DEDUCED, log entry
93). -/
def State.openBank (s : State) (p : Nat) (deck : Bool) (k : Nat) : State :=
  (s.onBank p deck k (fun m lo hi => m.open_ lo hi s.fresh)).tickFresh

/-- A bank or window is on: zero from off, open where its contents were lost otherwise, else as retained (R226, R227). -/
def State.bankUp (s : State) (p : Nat) (deck : Bool) (k : Nat) (fromOff : Bool) : State :=
  let b := s.bankAt p deck
  let lost := b.lost.getLsbD (k % 16)
  let s := s.setBank p deck { b.setState k 0 with wakeAt := tdel b.wakeAt k, lost := b.lost &&& ~~~(1#16 <<< (k % 16)) }
  if fromOff then s.zeroBank p deck k else if lost then s.openBank p deck k else s

/-- BANK_WAKE_COMPLETE (R227): a wake whose time has passed ends; a bank that was off is zero. -/
def execBankWakeComplete (p : Pos) (deck : Bool) (bank : Fin 16) (s : State) : Host.Outcome State Fault Refusal :=
  .next (
    let b := s.bankAt p.val deck
    match tfind b.wakeAt bank.val with
    | some (due, fromOff) =>
      if due ≤ s.time then s.bankUp p.val deck bank.val fromOff else s
    | none => s)

/-- The masks of a frame timetable header for a position (R227): on and idle. -/
def hdrOn (h : FrameHdr) (p : Nat) (deck : Bool) : BitVec 16 :=
  tget (if deck then h.deckOn else h.nstOn) p 0
def hdrIdle (h : FrameHdr) (p : Nat) (deck : Bool) : BitVec 16 :=
  tget (if deck then h.deckIdle else h.nstIdle) p 0

/-- The windows that a plan may switch: present ones; all 16 banks of a near store. -/
def State.planned (s : State) (p : Nat) (deck : Bool) : List Nat :=
  List.range (if deck then s.deckWindows p else 16)

/-- At an end mark or the start of a run, banks that are on in the coming frame start to wake (R227). -/
def State.planWake (s : State) (p : Nat) (deck : Bool) (h : FrameHdr) : State :=
  if deck || s.isLive p then
    s.setBank p deck ((s.planned p deck).foldl (fun b k =>
      if (hdrOn h p deck).getLsbD k then b.wake deck k s.time else b) (s.bankAt p deck))
  else s

/-- At a frame start, banks that are not on in the new frame enter their idle state (R227). -/
def State.planIdle (s : State) (p : Nat) (deck : Bool) (h : FrameHdr) : State :=
  if deck || s.isLive p then
    s.setBank p deck ((s.planned p deck).foldl (fun b k =>
      if (hdrOn h p deck).getLsbD k then b else b.toIdle deck k ((hdrIdle h p deck).getLsbD k)) (s.bankAt p deck))
  else s

/-- The positions of a cluster under a plan operation. -/
def State.planClu (s : State) (j : Nat) (op : State → Nat → Bool → State) : State :=
  (cluPos j).foldl (fun s p => op (op s p false) p true) s

/-! ### Untimetabled accesses of tier 3 and 4 (R216, R218, R228, R232) -/

/-- What an untimetabled access of a row or granule meets. -/
inductive Access where
  | ok
  | wait
  | refused
  deriving DecidableEq, Repr

/-- A tier 3 access of a deck granule (R228): it waits for a waking window; from a window in retention or off, or an
absent one, it faults. `n` counts it. -/
def State.deckTier3 (s : State) (p g n : Nat) : State × Access :=
  let a := deckAddr p g
  if s.underScrub 1 a then (s.scrubRefuse 1 a p, .refused)
  else if !s.deckPresent p g then (s.raise { code := 0x2A05, pos := p, unit := 0xC, detail := g }, .refused)
  else match s.deckState p g with
    | 0 => (if n = 0 then s else s.count 7 p 1 n, .ok)
    | 3 => (s, .wait)
    | _ => (s.raise { code := 0x2A06, pos := p, unit := 0xC, detail := g }, .refused)

/-- An untimetabled access asks for the bank `key` of position `p` in this clk (R219, R220, R222): it loses to a timetabled access
that the bank has yet to serve, unless the bank is owed to it, and to an untimetabled one that was served before. -/
def State.takeBank (s : State) (p key : Nat) : State × Access :=
  let c := s.cluAt (posClu p)
  let u := s.bankUse
  if (c.serve.contains key && !c.owed.contains key) || u.taken.contains key then
    ({ s with bankUse := { u with lostNow := if u.lostNow.contains key then u.lostNow else u.lostNow ++ [key] } }, .wait)
  else ({ s with bankUse := { u with taken := u.taken ++ [key], lost := tdel u.lost key } }, .ok)

/-- A tier 3 access of its own of a deck granule: `deckTier3`, and the half-bank. -/
def State.deckTake (s : State) (p g n : Nat) : State × Access :=
  match s.deckTier3 p g n with
  | (t, .ok) =>
    if n = 0 || s.granSaved p g then (t, .ok)
    else match t.takeBank p (deckBankKey p g) with
      | (t, .ok) => (t, .ok)
      | (t, _) => ({ s with bankUse := t.bankUse }, .wait)
  | r => r

/-- Command `i` waits for a bank that another access has in this clk; `t` says which (R220). -/
def State.waitBank (s t : State) (i : Instr) : State :=
  let u := t.bankUse
  { s with bankUse := { u with waiting := if u.waiting.contains i then u.waiting else u.waiting ++ [i] } }

/-- A host access of the bank or window `k` of `key`, which the save buffer may hold (R220, R228, R237): a bank that is not on wakes,
and the access waits. -/
def State.hostAccess (s : State) (p : Nat) (deck : Bool) (k key : Nat) (saved : Bool) : State × Access :=
  let b := s.bankAt p deck
  match b.stateOf k with
  | 0 =>
    match (if saved then (s, Access.ok) else s.takeBank p key) with
    | (s, .ok) => (if deck then s.count 7 p 2 1 else s, .ok)
    | r => r
  | 3 => (s, .wait)
  | _ => (s.setBank p deck (b.wake deck k s.time), .wait)

/-- A bank or window that a command's access needs is on before it: the bank wakes, as for a host access, and the command
waits for it (R228). A bank that was off is zero. -/
def State.bankOn (s : State) (p : Nat) (deck : Bool) (k : Nat) : State :=
  let b := s.bankAt p deck
  if b.stateOf k = 0 then s
  else
    s.bankUp p deck k (b.stateOf k == 2 || (b.stateOf k == 3 && (tfind b.wakeAt k).any (·.2)))

/-- Every bank or present window that holds bytes from `a` over `n` of a memory, on. -/
def State.rangeOn (s : State) (deck : Bool) (a n : Nat) : State :=
  let size := if deck then 67108864 else 2097152
  (List.range 192).foldl (fun (s : State) (p : Nat) =>
    let lo := max a (size * p)
    let hi := min (a + n) (size * (p + 1))
    if hi ≤ lo then s
    else
      let x := lo - size * p
      let y := hi - 1 - size * p
      (List.range 16).foldl (fun (s : State) (k : Nat) =>
        let meets := if deck then decide (x / 4194304 ≤ k) && decide (k ≤ y / 4194304) && decide (k < s.deckWindows p)
          else decide ((k + 16 - x / 64 % 16) % 16 ≤ y / 64 - x / 64)
        if meets then s.bankOn p deck k else s) s) s

/-- The record of an untimetabled read of `n` bytes of a deck column (R218). -/
def State.deckEcc (s : State) (p a n : Nat) (quiet : Bool) : State :=
  let (co, un) := s.deck.ecc a n
  let g := a % 67108864 / 256
  let s := if co then (s.raise { code := 0x2A01, pos := p, unit := 0xC, detail := g }).count 7 p 5 (s.deck.eccCount a n)
    else s
  if un then s.raise { code := 0x2A02, pos := p, unit := 0xC, detail := g, quiet := quiet } else s

/-- The same for the near store. -/
def State.nstEcc (s : State) (p a n : Nat) (quiet : Bool) : State :=
  let (co, un) := s.nst.ecc a n
  let r := a % 2097152 / 64
  let s := if co then s.raise { code := 0x2901, pos := p, unit := 8, detail := r } else s
  if un then s.raise { code := 0x2902, pos := p, unit := 8, detail := r, quiet := quiet } else s

/-! ### Retention (R229, R230) -/

/-- The byte ranges of a retained region. -/
def Retained.range (r : Retained) : Nat × Nat :=
  if r.entry.kind = 0 then
    (2097152 * r.pos + 64 * r.entry.base, 2097152 * r.pos + 64 * (r.entry.base + r.entry.count))
  else (67108864 * r.pos + 256 * r.entry.base, 67108864 * r.pos + 256 * (r.entry.base + r.entry.count))

/-- Drop every retained region that a range of near store (kind 0) or deck (kind 1) touches (R230). -/
def State.voidRetained (s : State) (kind lo hi : Nat) : State :=
  { s with post := { s.post with
      retained := s.post.retained.filter (fun r =>
        !(r.entry.kind == kind && decide (r.range.1 < hi) && decide (lo < r.range.2))) } }

/-! ### The background testers (R236-R239) -/

/-- The byte range of row `i` of a test group in ascending order of banks and rows (log entry 13); none for a deck bank that is no
window. -/
def BankSt.groupRow (b : BankSt) (p : Nat) (deck : Bool) (g i : Nat) : Option (Nat × Nat) :=
  if deck then
    (b.windowOf (g / 256)).map (fun w =>
      (67108864 * p + 256 * (16384 * w + 2 * (64 * (g % 128) + i) + g / 128 % 2), 256))
  else some (2097152 * p + 64 * (16 * (64 * (g % 32) + i) + g / 32), 64)

/-- The save of one row (R236): corrected words are rewritten, an uncorrectable one keeps the poison syndrome and is
reported without a spoil; a retained region it lies in is lost (R230). -/
def State.saveRow (s : State) (p : Nat) (deck : Bool) (a n : Nat) : State :=
  let un := if deck then (s.deck.ecc a n).2 else (s.nst.ecc a n).2
  let s := if deck then s.deckEcc p a n true else s.nstEcc p a n true
  let s := if deck then { s with deck := s.deck.mergeWords a n } else { s with nst := s.nst.mergeWords a n }
  if un then s.voidRetained (if deck then 1 else 0) a (a + n) else s

/-- The restore of one row (R236, R237): fresh check bits; a word of the save buffer that cannot be corrected is restored with the
poison syndrome and raises 0x29.07 or 0x2A.09. -/
def State.restoreRow (s : State) (p : Nat) (deck : Bool) (i a n : Nat) : State :=
  let m := (if deck then s.deck else s.nst).mergeWords a n
  let unit := 2 * p + (if deck then 1 else 0)
  let lo := i * (n / 8)
  let (_, un) := s.upsetIn .saveBuf unit lo (n / 8)
  let bad := (List.range (n / 8)).filter (fun k => (s.upsetIn .saveBuf unit (lo + k) 1).2)
  let m := { m with marks := bad.foldl (fun t k => tset t (a / 8 + k) .poison) m.marks }
  let s := (if deck then { s with deck := m } else { s with nst := m }).heal .saveBuf unit lo (n / 8)
  if !un then s
  else if deck then s.raise { code := 0x2A09, pos := p, unit := 0xC, detail := a % 67108864 / 256 }
  else s.raise { code := 0x2907, pos := p, unit := 8, detail := a % 2097152 / 64 }

/-- Whether the bank of a group is on; a deck bank that is no window is tested whatever the windows do. -/
def BankSt.groupOn (b : BankSt) (deck : Bool) (g : Nat) : Bool :=
  if deck then (match b.windowOf (g / 256) with | some w => b.stateOf w == 0 | none => true) else b.stateOf (g / 32) == 0

/-- The group after the one that has ended or been skipped; after the last a sweep is complete (R238). -/
def BankSt.nextGroup (b : BankSt) (deck : Bool) : BankSt :=
  let groups := if deck then 4608 else 512
  { b with group := (b.group + 1) % groups, sweeps := if b.group + 1 = groups then b.sweeps + 1 else b.sweeps }

/-- The cells of a group that its march finds, with the data background of the sweep (R236, R240): row in the bank, column. -/
def BankSt.groupFails (b : BankSt) (p : Nat) (deck : Bool) (cells : List BadCell) : List (Nat × Nat) :=
  let g := b.group
  let bank := if deck then g / 256 else g / 32
  let lo := if deck then 8192 * (g / 128 % 2) + 64 * (g % 128) else 64 * (g % 32)
  (marchFails [b.sweeps.toNat % 4] (cellsOf cells p deck bank)).filter (fun f =>
    decide (lo ≤ f.1) && decide (f.1 < lo + 64) && (b.mapOf bank).open_ deck f)

/-- A tester starts its next group: skipped and counted as untested in a bank that is not on (R236, R238). -/
def State.startGroup (s : State) (p : Nat) (deck : Bool) (cells : List BadCell) : State :=
  let b := { s.bankAt p deck with owed := none }
  if b.groupOn deck b.group then
    s.setBank p deck { b with test := some { group := b.group, done := 0, fails := b.groupFails p deck cells } }
  else
    let s := s.setBank p deck (b.nextGroup deck)
    if deck then s.count 7 p 7 1 else s.count 8 p 15 1

/-- A mismatch that a group found: the bank or half-bank, the row and the bit column (R239). -/
def State.groupFault (s : State) (p : Nat) (deck : Bool) (g : Nat) (f : Nat × Nat) : State :=
  if deck then
    let w := ((s.deckB p).windowOf (g / 256)).getD 0
    s.raise { code := 0x2A08, pos := p, unit := 0xC, inst := g / 128, aux := f.2, detail := 16384 * w + 2 * (f.1 % 8192) + g / 128 % 2 }
  else s.raise { code := 0x2906, pos := p, unit := 8, inst := g / 32, aux := f.2, detail := 16 * f.1 + g / 32 }

/-- The end of a group: its mismatches, and the next group where one is owed (R238, R239). -/
def State.endGroup (s : State) (p : Nat) (deck : Bool) (r : GroupRun) : State :=
  let b := s.bankAt p deck
  let s := s.setBank p deck ({ b with test := none }.nextGroup deck)
  let s := r.fails.foldl (fun (s : State) (f : Nat × Nat) => s.groupFault p deck r.group f) s
  match b.owed with
  | some cells => s.startGroup p deck cells
  | none => s

/-- One access of a tester (R236): 64 saves, the 640 operations of the march, 64 restores. -/
def State.testAccess (s : State) (p : Nat) (deck : Bool) (r : GroupRun) : State :=
  let b := s.bankAt p deck
  let row (i : Nat) := b.groupRow p deck r.group i
  let s :=
    if r.done < 64 then (match row r.done with | some (a, n) => s.saveRow p deck a n | none => s)
    else if 704 ≤ r.done then
      (match row (r.done - 704) with | some (a, n) => s.restoreRow p deck (r.done - 704) a n | none => s)
    else s
  let r := { r with done := r.done + 1 }
  let s := s.setBank p deck { s.bankAt p deck with test := some r }
  if r.done = 768 then s.endGroup p deck r else s

/-- The bank key of a group; none for a deck bank that no other access reaches. -/
def BankSt.groupKey (b : BankSt) (p : Nat) (deck : Bool) (g : Nat) : Option Nat :=
  if deck then (b.windowOf (g / 256)).map (fun w => deckBankKey p (16384 * w + g / 128 % 2))
  else some (nstBankKey p (g / 32))

/-- A tester works in a clk in which its bank serves nothing else (R219, R236). -/
def State.testClk (s : State) (p : Nat) (deck : Bool) : State :=
  let b := s.bankAt p deck
  match b.test with
  | none => s
  | some r =>
    let busy := match b.groupKey p deck r.group with
      | some key => (s.cluAt (posClu p)).serve.contains key || s.bankUse.taken.contains key
      | none => false
    if busy then s else s.testAccess p deck r

/-- Whether a tester works: enabled, and not of a fenced core's near store (R238). -/
def State.tests (s : State) (p : Nat) (deck : Bool) : Bool :=
  (s.bankAt p deck).bgtEn && s.shape.built && (deck || s.isLive p)

/-- BGT_GROUP_START (R236, R238): a group is due every PACE; one that is due while another runs counts a starvation and starts when
that one ends. -/
def execBgtGroupStart (p : Pos) (deck : Bool) (cells : List BadCell) (s : State) :
    Host.Outcome State Fault Refusal :=
  .next (
    let b := s.bankAt p.val deck
    if !s.tests p.val deck || decide (s.time < b.due) then s
    else
      let s := s.setBank p.val deck { b with due := s.time + 400000 * b.bgtPace.toNat }
      if b.test.isSome then
        let s := s.setBank p.val deck { s.bankAt p.val deck with owed := some cells }
        if deck then s.count 7 p.val 6 1 else s.count 8 p.val 14 1
      else s.startGroup p.val deck cells)

/-- BGT_STEP_START (R209): a CONTROL packet starts a step of a background test: the next group, where none runs (DESIGN CHOICE,
log entry 94). -/
def execBgtStepStart (p : Pos) (deck : Bool) (s : State) : Host.Outcome State Fault Refusal :=
  .next (if s.tests p.val deck && (s.bankAt p.val deck).test.isNone then s.startGroup p.val deck [] else s)

/-! ### The march on request (R242) -/

/-- A requested march of a near store or deck column (R242): destructive, every bank ends on and zero and retained
regions are lost; preserving, every group is saved and restored. -/
def State.marchUnit (s : State) (p : Nat) (deck preserve : Bool) : State :=
  if preserve then
    let b := s.bankAt p deck
    (List.range (if deck then 4608 else 512)).foldl (fun s g =>
      (List.range 64).foldl (fun s i =>
        match b.groupRow p deck g i with | some (a, n) => s.saveRow p deck a n | none => s) s) s
  else
    let b := s.bankAt p deck
    let s := (s.planned p deck).foldl (fun s k => s.setBank p deck ((s.bankAt p deck).setState k 0))
      (s.setBank p deck { b with wakeAt := [], lost := 0, test := none })
    if deck then { s with deck := s.deck.zero (67108864 * p) (67108864 * (p + 1)) }.voidRetained 1 (67108864 * p) (67108864 * (p + 1))
    else { s with nst := s.nst.zero (2097152 * p) (2097152 * (p + 1)) }.voidRetained 0 (2097152 * p) (2097152 * (p + 1))

end Sys2Proof.Machine
end

