-- ==== Sys2Proof/Machine/Mesh.lean ====
section
/-! DEFINITION. The mesh (R179-R206): what a slot-table entry does in a tcyc. The flits that entries send are gathered
in the router and leave it at the end of the tcyc, when collisions, berths and queue depths are known. -/

namespace Sys2Proof.Machine

/-! ### Flits and entries (R182, R184) -/

/-- A mesh flit, or a nil where `valid` is false. -/
def meshFlit (valid : Bool) (kind : Nat) (poison : Bool) (sx sy tag : Nat) (sample : Bool) (pay : Row) : Flit :=
  { pay := pay
    side := withParity ((if valid then 1 else 0) + 2 * (kind % 4) + (if poison then 8 else 0) + 16 * (sx % 16)
      + 256 * (sy % 16) + 4096 * (tag % 65536) + (if sample then 2 ^ 28 else 0)) pay }

def Flit.valid (f : Flit) : Bool := f.side.getLsbD 0
def Flit.kind (f : Flit) : Nat := fld f.side 2 1
def Flit.poison (f : Flit) : Bool := f.side.getLsbD 3
def Flit.sx (f : Flit) : Nat := fld f.side 7 4
def Flit.sy (f : Flit) : Nat := fld f.side 11 8
def Flit.tag (f : Flit) : Nat := fld f.side 27 12
def Flit.sample (f : Flit) : Bool := f.side.getLsbD 28

/-- What an entry expects, or stamps, at an input (R184): the entry's own fields, or its standby's. -/
structure Expect where
  inp  : Nat
  sx   : Nat
  sy   : Nat
  tag  : Nat

def seLen (e : BitVec 128) : Nat := fld e 27 20 + 1
def seOut (e : BitVec 128) : Nat := fld e 42 36
def seKind (e : BitVec 128) : Nat := fld e 44 43
def seCond (e : BitVec 128) : Bool := e.getLsbD 35
def seMain (e : BitVec 128) : Expect := { inp := fld e 34 32, sx := fld e 49 46, sy := fld e 53 50, tag := fld e 69 54 }
def seAlt (e : BitVec 128) : Expect := { inp := fld e 72 70, sx := fld e 84 81, sy := fld e 88 85, tag := fld e 104 89 }
def seAltOut (e : BitVec 128) : Nat := fld e 80 74
def seRow (e : BitVec 128) : Nat := fld e 124 105
/-- Whether an entry has a standby (R197). -/
def seStandby (e : BitVec 128) : Bool := seCond e && e.getLsbD 73

/-- The nil that carries an entry's fields (R188, R197). -/
def nilFor (e : BitVec 128) (x : Expect) (poison : Bool) : Flit :=
  meshFlit false (seKind e) poison x.sx x.sy x.tag false 0

/-- A reserved encoding of an entry (R184, R185, R197): its reserved bits, its OP, or a standby of another operation than
FWD. -/
def badSlot (e : BitVec 128) : Bool := fld e 127 125 != 0 || decide (6 < enOp e) || (seStandby e && enOp e != 1)

/-- The bank of a router that works in this frame (R186), and its entries that work. -/
def RouterSt.bank (x : RouterSt) : Tab (BitVec 128) := if x.cur then x.bank1 else x.bank0
def RouterSt.walk (x : RouterSt) : List (Nat × BitVec 128 × Nat) := beforeEnd x.tableEnd (tableWalk 6 badSlot 0 0 x.bank)
def RouterSt.entryIdx (x : RouterSt) (e : BitVec 128) (t : Nat) : Nat := entryIndex x.bank x.walk seLen e t

/-- The tcyc of an entry, counted from its first, in tcyc `t`. -/
def RouterSt.entryStep (x : RouterSt) (e : BitVec 128) (t : Nat) : Nat :=
  match x.walk.find? (fun w => w.2.1 == e && decide (w.2.2 ≤ t) && decide (t < w.2.2 + seLen e)) with
  | some w => t - w.2.2
  | none => t - enT e

/-- A router's fault: AUX the entry index, DETAIL the port and the TAG (R458). -/
def State.meshFault (s : State) (p : Nat) (code : Code) (idx port tag : Nat) : State :=
  s.raiseAt code p 7 idx (port % 8 + 8 * (tag % 65536))

def State.onRtr (s : State) (p : Nat) (f : RouterSt → RouterSt) : State := s.setRtr p (f (s.rtrAt p))

/-- The fault of a router for an entry that works in this tcyc. -/
def State.entryFault (s : State) (p : Nat) (code : Code) (e : BitVec 128) (port tag : Nat) : State :=
  s.meshFault p code ((s.rtrAt p).entryIdx e (s.tcyc p)) port tag

/-- Whether entry `e` of a router's table is due in its tcyc i (R188): its cluster has that tcyc to execute, the entry works.
A fenced position's router runs its table (R200). -/
def State.rtrDue (s : State) (p : Nat) (e : BitVec 128) (i : Nat) : Bool :=
  let x := s.rtrAt p
  s.shape.built && s.inTcyc (posClu p) && decide (i < seLen e) && entryActs x.bank x.tableEnd x.walk e i (s.tcyc p)

/-- Whether the router applies it now: its cluster does not hold (R49, R205). -/
def State.rtrRuns (s : State) (p : Nat) (e : BitVec 128) (i : Nat) : Bool := s.rtrDue p e i && !s.holds (posClu p)

/-- An entry of a router that acts as END in this tcyc, with the code of its reason (R206). -/
def State.entryEnd (s : State) (p : Nat) (code : Code) (e : BitVec 128) : State :=
  let x := s.rtrAt p
  let n := if x.bank.any (fun b => b.2 == e) then x.entryIdx e (s.tcyc p) else 4096
  (s.entryFault p code e (seMain e).inp (seMain e).tag).onRtr p (fun r => { r with tableEnd := some n })

/-- A reserved entry of a router raises 0x27.11 and acts as END (R206). -/
def State.badEntry (s : State) (p : Nat) (e : BitVec 128) : State := s.entryEnd p 0x2711 e

/-- Apply an entry of a router, command `c`; while the cluster holds it waits (R49, R205). -/
def State.rtrOp (s : State) (p : Nat) (c : Instr) (e : BitVec 128) (i : Nat) (k : State → State) : State :=
  if s.rtrRuns p e i then (if badSlot e then s.badEntry p e else k s)
  else if s.rtrDue p e i then s.wait p c none
  else s

/-! ### Popping an input (R188) -/

/-- The queue of a link input. -/
def RouterSt.link (r : RouterSt) (port : Nat) : List Flit :=
  match port with | 0 => r.qN | 1 => r.qE | 2 => r.qS | _ => r.qW
def RouterSt.setLink (r : RouterSt) (port : Nat) (q : List Flit) : RouterSt :=
  match port with
  | 0 => { r with qN := q } | 1 => { r with qE := q } | 2 => { r with qS := q } | _ => { r with qW := q }

/-- Pop the first flit of a queue with availability, if it is there by tcyc t. -/
def popAvail (t : Nat) : List (Nat × Flit) → Option (Flit × List (Nat × Flit))
  | (av, f) :: q => if av ≤ t then some (f, q) else none
  | [] => none

/-- The router pops the SEND of a tagged bundle (R516). -/
def State.samplePop (s : State) (p : Nat) : State :=
  let t := s.tcyc p
  let mark : List Sample → List Sample := fun l =>
    match l.span (fun x => !x.sends) with
    | (a, x :: b) => a ++ { x with sends := false, pop := t - x.issue } :: b
    | (a, []) => a
  { s with obs := { s.obs with samples := tset s.obs.samples p (mark (tget s.obs.samples p [])) } }

/-- Pop an input of a router: the head as it stands, stamped at LOCAL, at TRACE with the entry's KIND alone, or none where the
input has no flit that may be popped (R184, R185, R188, R203, R204). -/
def State.popRaw (s : State) (p : Nat) (e : BitVec 128) (x : Expect) : State × Option Flit :=
  let r := s.rtrAt p
  let t := s.tcyc p
  let stamp (f : Flit) : Flit := meshFlit f.valid (seKind e) f.poison x.sx x.sy x.tag f.sample f.pay
  let kindOnly (f : Flit) : Flit := meshFlit f.valid (seKind e) f.poison f.sx f.sy f.tag f.sample f.pay
  match x.inp with
  | 4 =>
    if s.isFenced p then (s, none)
    else match popAvail t r.inj with
      | some (f, q) =>
        let s := s.setRtr p { r with inj := q }
        (if f.sample then s.samplePop p else s, some (stamp f))
      | none => (s, none)
  | 5 => match popAvail t r.pool with
      | some (f, q) => (s.setRtr p { r with pool := q }, some f)
      | none => (s, none)
  | 6 => match r.trace with
      | some f => (s.setRtr p { r with trace := none }, some (kindOnly f))
      | none => (s, some (nilFor e x false))
  | 7 => match popAvail t r.mbuf with
      | some (f, q) => (s.setRtr p { r with mbuf := q }, some f)
      | none => (s, none)
  | n => match r.link n with
      | f :: q => (s.setRtr p (r.setLink n q), some f)
      | [] => (s, none)

/-- Whether an entry that pops input `inp` is a trace slot: a FWD of KIND 3 from TRACE or a link (R203). -/
def traceSlot (e : BitVec 128) (inp : Nat) : Bool := enOp e == 1 && seKind e == 3 && (decide (inp < 4) || inp == 6)

/-- Whether the slots of a router carry nil entries in this tcyc: the update phase of a commit frame whose gate is closed (R62).
The trace slots are no part of the update (DEDUCED, log entry 90). -/
def State.gateNil (s : State) (p : Nat) (e : BitVec 128) (inp : Nat) : Bool :=
  match s.hdr with
  | some h => h.last && (s.cluAt (posClu p)).gate == some false && decide (h.c + h.g ≤ s.tcyc p) && !traceSlot e inp
  | none => false

/-- Pop an input of an entry with the checks of R188 in their order. `ident` is off where a steer compares the fields
itself (R197); `need` is the KIND of a merge (R193). -/
def State.popIn (s : State) (p : Nat) (e : BitVec 128) (x : Expect) (ident : Bool) (need : Option Nat) : State × Flit :=
  let (s, h) := s.popRaw p e x
  match h with
  | none => (s.entryFault p (if x.inp = 4 then 0x2704 else 0x2707) e x.inp x.tag, nilFor e x true)
  | some f =>
    if s.gateNil p e x.inp then (s, nilFor e x false)
    else
    let free := seCond e || traceSlot e x.inp || x.inp == 6
    if !f.valid && !free && !f.poison then (s.entryFault p 0x2708 e x.inp f.tag, f)
    else
      let same := f.kind == seKind e && (!e.getLsbD 45 || (f.sx == x.sx && f.sy == x.sy && f.tag == x.tag))
      let stray := (ident && x.inp != 4 && x.inp != 6 && !same) || need.any (fun k => k != f.kind)
      if stray then (s.entryFault p 0x2703 e x.inp f.tag, nilFor e x true) else (s, f)

/-! ### Sending -/

/-- Send a flit on every output of a mask (R185, R196), to leave at the end of the tcyc. -/
def State.sendOuts (s : State) (p inp idx mask row : Nat) (f : Flit) : State :=
  s.onRtr p (fun r => { r with
    outs := r.outs ++ (((List.range 7).filter (fun b => mask / 2 ^ b % 2 = 1)).map (fun b =>
      { out := b, inp := inp, idx := idx, row := row, flit := f })) })

/-- Bits of a mask that another one does not hold. -/
def maskLess (a b : Nat) : Nat := a - (a &&& b)

/-- A standby entry (R197): a join pops both inputs, a steer one; an output without a flit carries a nil. A nil that a steer
pops is checked for KIND, and with CHK for either set of fields (R188; DEDUCED, log entry 88). -/
def State.standby (s : State) (p : Nat) (e : BitVec 128) (idx row : Nat) : State :=
  let x := seMain e
  let y := seAlt e
  let send (s : State) (a b : Flit) : State :=
    let share := seOut e &&& seAltOut e
    let (m, n) := if b.valid && !a.valid then (maskLess (seOut e) share, seAltOut e)
                  else (seOut e, maskLess (seAltOut e) share)
    (s.sendOuts p x.inp idx m row a).sendOuts p x.inp idx n row b
  if x.inp = y.inp then
    let (s, f) := s.popIn p e x false none
    let main := f.kind == seKind e && f.sx == x.sx && f.sy == x.sy && f.tag == x.tag
    let alt := f.kind == seKind e && f.sx == y.sx && f.sy == y.sy && f.tag == y.tag
    let nilOk := f.kind == seKind e && (!e.getLsbD 45 || main || alt)
    if main || (!f.valid && nilOk) then send s f (nilFor e y false)
    else if alt then send s (nilFor e x false) f
    else send (s.meshFault p 0x2703 idx x.inp f.tag) (nilFor e x true) (nilFor e y false)
  else
    let (s, a) := s.popIn p e x true none
    let (s, b) := s.popIn p e y true none
    if a.valid then
      let s := if b.valid then (s.count 1 (posRegion p) 4 1).event p 0x33 1 else s
      send s a (nilFor e y false)
    else send s a b

/-- FWD (R185, R188, R196-R198, R203). -/
def execFwd (p : Pos) (e : BitVec 128) (i : BitVec 8) (s : State) : Host.Outcome State Fault Refusal :=
  entryCmd "FWD" (wfEntry 1 e) (s.rtrOp p.val (.fwd p e i) e i.toNat (fun s =>
    let idx := (s.rtrAt p.val).entryIdx e (s.tcyc p.val)
    let row := (seRow e + i.toNat) % 2 ^ 20
    if seStandby e then s.standby p.val e idx row
    else
      let (s, f) := s.popIn p.val e (seMain e) true none
      s.sendOuts p.val (seMain e).inp idx (seOut e) row f))

/-- The result of a merge pair (R193), `a` the head of the lower IN code: its SAMPLE bit is open where the heads'
differ (log entry 12). -/
def mergeFlits (fmt : Nat) (a b : Flit) (open_ : Bool) : Flit :=
  let poison := a.poison || b.poison
  let keep (f : Flit) : Flit := meshFlit f.valid f.kind poison f.sx f.sy f.tag f.sample f.pay
  if a.valid && b.valid then
    meshFlit true a.kind poison a.sx a.sy a.tag (if a.sample == b.sample then a.sample else open_)
      (addRows fmt a.pay b.pay)
  else if b.valid then keep b
  else keep a

/-- A merge entry that has no partner in this tcyc is no pair: it sends its own flit, of the KIND of a merge (R193). -/
def State.mergeAlone (s : State) (p : Nat) (e : BitVec 128) (fmt : Nat) : State :=
  let r := s.rtrAt p
  let (s', f) := s.popIn p e (seMain e) true (some (fmt + 1))
  s'.sendOuts p (seMain e).inp (r.entryIdx e (s.tcyc p)) (seOut e) ((seRow e + r.entryStep e (s.tcyc p)) % 2 ^ 20) f

/-- A merge pair (R193): both heads are popped, that of the lower IN code first, and one result leaves on the common outputs.
A disagreement of the two adders raises 0x27.0C and poisons the result (R194). Two entries with different OUT masks are no
pair. -/
def State.merge (s : State) (p : Nat) (c : Instr) (e1 e2 : BitVec 128) (fmt : Nat) : State :=
  let r := s.rtrAt p
  let t := s.tcyc p
  s.rtrOp p c e1 (r.entryStep e1 t) (fun s => s.rtrOp p c e2 (r.entryStep e2 t) (fun s =>
    let (lo, hi) := if fld e2 34 32 < fld e1 34 32 then (e2, e1) else (e1, e2)
    if seOut lo = seOut hi then
      let (s, a) := s.popIn p lo (seMain lo) true (some (fmt + 1))
      let (s, b) := s.popIn p hi (seMain hi) true (some (fmt + 1))
      let f := mergeFlits fmt a b ((Config.choice s.fresh).getLsbD 0)
      let bad := a.valid && b.valid && s.upset .adder p 0 != .good
      let s := if bad then s.entryFault p 0x270C lo (seMain lo).inp (seMain lo).tag else s
      (s.sendOuts p (seMain lo).inp (r.entryIdx lo t) (seOut lo) ((seRow lo + r.entryStep lo t) % 2 ^ 20)
        (if bad then f.mark 3 else f)).tickFresh
    else (s.mergeAlone p lo fmt).mergeAlone p hi fmt))

/-- MERGE32 (R193). -/
def execMerge32 (p : Pos) (e1 e2 : BitVec 128) (s : State) : Host.Outcome State Fault Refusal :=
  entryCmd "MERGE32" (wfEntry 2 e1 && wfEntry 2 e2) (s.merge p.val (.merge32 p e1 e2) e1 e2 0)

/-- MERGE16 (R193). -/
def execMerge16 (p : Pos) (e1 e2 : BitVec 128) (s : State) : Host.Outcome State Fault Refusal :=
  entryCmd "MERGE16" (wfEntry 3 e1 && wfEntry 3 e2) (s.merge p.val (.merge16 p e1 e2) e1 e2 1)

/-! ### The pool column (R200, R201) and the table LOAD (R186) -/

/-- POOLRD (R201): row ROW + i is read in tcyc T + i and reaches the POOL queue in T + 4 + i. A live position has no
POOL port (R187). -/
def execPoolrd (p : Pos) (e : BitVec 128) (s : State) : Host.Outcome State Fault Refusal :=
  entryCmd "POOLRD" (wfEntry 4 e) (s.rtrOp p.val (.poolrd p e) e 0 (fun s =>
    if s.isFenced p.val then
      let t := s.tcyc p.val
      s.onCore p.val (fun c => { c with
        pend := c.pend ++ (List.range (seLen e)).map (fun i =>
          { dst := .poolRead ((seRow e + i) % 2 ^ 20) (seMain e).tag, due := t + i, issue := t, rank := 4
            val := BitVec.ofNat 2048 ((s.rtrAt p.val).entryIdx e t), mask := 0 }) })
    else s))

/-- LOAD of a slot table (R186): LEN granules into the inactive bank, LEN + 1 tcyc of the deck port or of the pool
column; 0x27.10 while it is occupied. -/
def execSlotTableLoad (p : Pos) (e : BitVec 128) (s : State) : Host.Outcome State Fault Refusal :=
  entryCmd "SLOT_TABLE_LOAD" (wfEntry 5 e) (s.rtrOp p.val (.slotTableLoad p e) e 0 (fun s =>
    let t := s.tcyc p.val
    let len := seLen e
    let g := fld e 122 105
    let idx := (s.rtrAt p.val).entryIdx e t
    let c := s.coreAt p.val
    let busy := if s.isFenced p.val then
        decide (t < (s.rtrAt p.val).poolBusy) || c.pend.any (fun x => x.due == t && (match x.dst with | .poolRead _ _ => true | _ => false))
      else decide (t < c.portBusy)
    if busy then s.meshFault p.val 0x2710 idx (seMain e).inp (seMain e).tag
    else
      let s := if s.isFenced p.val then s.onRtr p.val (fun r => { r with poolBusy := t + len + 1, loadBusy := some e, loadDone := false })
        else ((s.onRtr p.val (fun r => { r with loadBusy := some e, loadDone := false })).onCore p.val
          (fun c => { c with portBusy := t + len + 1, portAt := none })).event p.val 0x22 (len + 1)
      let mk (d : Dst) (lat : Nat) : Pend := { dst := d, due := t + lat, issue := t, rank := 4, val := 0, mask := 0 }
      s.onCore p.val (fun c => { c with
        pend := c.pend ++ (List.range len).map (fun j => mk (.slotLoad j (g + j)) j) ++ [mk .slotDone len] })))

/-- ZOMBIE_FLIT (R202): a flit at a closed injection gate is dropped and counted; one notice a frame and position. -/
def State.zombie (s : State) (p : Nat) : State :=
  let s := s.count 1 (posRegion p) 0 1
  if (s.rtrAt p).zombieNote then s
  else (s.onRtr p (fun r => { r with zombieNote := true })).meshFault p 0x270F 0 4 0

/-- ZOMBIE_FLIT (R202). -/
def execZombieFlit (p : Pos) (s : State) : Host.Outcome State Fault Refusal :=
  .next (if s.isFenced p.val || (s.rtrAt p.val).gateShut then s.zombie p.val else s)

/-! ### The end of a tcyc (R180, R183, R189, R190, R201) -/

/-- The neighbour that a link output leads to, and the input it reaches there (R179). -/
def linkTo (p out : Nat) : Option (Nat × Nat) :=
  let x := p / 12
  let y := p % 12
  match out with
  | 0 => if y < 11 then some (p + 1, 2) else none
  | 1 => if x < 15 then some (p + 12, 3) else none
  | 2 => if 0 < y then some (p - 1, 0) else none
  | _ => if 0 < x then some (p - 12, 1) else none

/-- A 64 B row of a pool column as its router reads it (R200, R201): deck bank states and conditions apply (R228). -/
def State.readPool (s : State) (p row aux : Nat) : State × Row :=
  let g := row / 4
  let s := (s.count 7 p 4 1).count 7 p 0 1
  if s.underScrub 1 (deckAddr p g) then (s.scrubRefuse 1 (deckAddr p g) p, 0)
  else if !s.deckPresent p g then (s.raiseAt 0x2A05 p 0xC aux g, 0)
  else if s.deckState p g = 0 then
    let a := 67108864 * p + 64 * row
    let (co, un) := s.deck.ecc (deckAddr p g) 256
    let s := if co then (s.raiseAt 0x2A01 p 0xC aux g).count 7 p 5 (s.deck.eccCount (deckAddr p g) 256) else s
    let s := if un then s.raiseAt 0x2A02 p 0xC aux g else s
    (s, BitVec.ofNat 512 (s.deck.read a 64))
  else (s.raiseAt 0x2A04 p 0xC aux g, 0)

/-- A 64 B row written into a pool column (R201): a masked write of its granule (R217, R218). -/
def State.writePool (s : State) (p row aux : Nat) (v : Row) : State :=
  let g := row / 4
  let s := s.count 7 p 4 1
  if s.underScrub 1 (deckAddr p g) then s.scrubRefuse 1 (deckAddr p g) p
  else if !s.deckPresent p g then s.raiseAt 0x2A05 p 0xC aux g
  else if s.deckState p g = 0 then
    let a := 67108864 * p + 64 * row
    let (co, un) := s.deck.ecc a 64
    let s := if co then (s.raiseAt 0x2A01 p 0xC aux g).count 7 p 5 (s.deck.eccCount a 64) else s
    let s := if un then s.raiseAt 0x2A02 p 0xC aux g else s
    { s with deck := (s.deck.write a v.toNat (2 ^ 64 - 1) 64).mergeWords a 64 }
  else s.raiseAt 0x2A04 p 0xC aux g

/-- One flit leaves a router on one output (R180, R190, R194, R201). -/
def State.deliver (s : State) (p : Nat) (o : OutFlit) : State :=
  let t := s.tcyc p
  let r := s.rtrAt p
  match o.out with
  | 4 =>
    if s.isFenced p then s
    else if 8 ≤ r.ej.length then s.meshFault p 0x2705 o.idx 4 o.flit.tag
    else s.setRtr p { r with ej := r.ej ++ [(t + 1, o.flit)] }
  | 5 =>
    if !s.isFenced p || !o.flit.valid then s
    else if t < r.poolBusy then s.meshFault p 0x2710 o.idx 5 o.flit.tag
    else (s.setRtr p { r with poolBusy := t + 1 }).writePool p o.row o.idx o.flit.pay
  | 6 =>
    if 2 ≤ r.mbuf.length then s.meshFault p 0x2706 o.idx 7 o.flit.tag
    else s.setRtr p { r with mbuf := r.mbuf ++ [(t + 1, o.flit)] }
  | out =>
    match linkTo p out with
    | none =>
      if (out = 0 || out = 2) && o.flit.valid && o.flit.kind == 3 then
        { s with obs := { s.obs with sinkIn := s.obs.sinkIn ++ [o.flit.pay] } }
      else s
    | some (q, port) =>
      let d := hopCost p q
      let s' := { s with meshFly := s.meshFly ++ [{ dst := q, port := port, due := t + d, flit := o.flit }] }
      if d == 8 && o.flit.valid && decide (s.endMark ≤ t + 8) then s'.lateCrossing p else s'

/-- The claim of the lowest IN code among some (R189), the first entry index breaking a tie. -/
def lowestClaim : List OutFlit → Option OutFlit
  | [] => none
  | o :: r =>
    match lowestClaim r with
    | none => some o
    | some q => if q.inp < o.inp || (q.inp == o.inp && decide (q.idx < o.idx)) then some q else some o

/-- The outputs of a router at the end of a tcyc: one flit each, 0x27.02 for a collision (R189). -/
def State.flushRouter (s : State) (p : Nat) : State :=
  let outs := (s.rtrAt p).outs
  let s := s.onRtr p (fun r => { r with outs := [] })
  (List.range 7).foldl (fun s b =>
    let cs := outs.filter (fun o => o.out == b)
    match lowestClaim cs with
    | none => s
    | some o =>
      let s := match cs.find? (fun q => q != o) with
        | some q => s.meshFault p 0x2702 q.idx (if b = 6 then 7 else b) q.flit.tag
        | none => if 1 < cs.length then s.meshFault p 0x2702 o.idx (if b = 6 then 7 else b) o.flit.tag else s
      s.deliver p o) s

/-- Whether both parities of a mesh flit hold; the payload of a nil takes no part (R182). -/
def Flit.meshOk (f : Flit) : Bool := if f.valid then f.parityOk else fld f.side 55 55 == parity (f.side.toNat % 2 ^ 55) 55

/-- Append a flit to an input of a router (R180, R183, R190). An entry of a crossing that its code cannot correct is delivered
poisoned (R181). -/
def State.appendIn (s : State) (l : LinkFlit) : State :=
  let p := l.dst
  let r := s.rtrAt p
  let full := if l.port = 5 then decide (4 ≤ r.pool.length) else decide (4 ≤ (r.link l.port).length)
  let (co, un) := s.upsetIn .crossing (8 * p + l.port) l.due 1
  let s := s.heal .crossing (8 * p + l.port) l.due 1
  let s := if co then s.meshFault p 0x270D 0 l.port l.flit.tag else s
  let s := if un then s.meshFault p 0x270E 0 l.port l.flit.tag else s
  if full then s.meshFault p 0x2706 0 l.port l.flit.tag
  else
    let bad := !l.flit.meshOk
    let f := if bad || un then l.flit.mark 3 else l.flit
    let s := s.setRtr p (if l.port = 5 then { r with pool := r.pool ++ [(s.tcyc p, f)] }
                         else r.setLink l.port (r.link l.port ++ [f]))
    if bad then s.meshFault p 0x2701 0 l.port f.tag else s

/-- The appends of the tcyc that cluster `j` now begins (R180, R201). -/
def State.meshArrive (s : State) (j : Nat) : State :=
  let t := (s.cluAt j).slot
  let here (l : LinkFlit) : Bool := posClu l.dst == j && l.due == t
  (s.meshFly.filter here).foldl State.appendIn { s with meshFly := s.meshFly.filter (fun l => !here l) }

end Sys2Proof.Machine
end

