-- ==== Sys2Proof/Machine/Flags.lean ====
section
/-! DEFINITION. The flags of the part's computations: comparison conditions and masks (R123), predicate bits, the legality
of a vector operation's MOD field (R123, R126-R128), and the stochastic bits an operation draws (R128). -/

namespace Sys2Proof

/-- MOD's fields (R123). -/
def VOp.fmt (o : VOp) : Nat := o.md.toNat / 1024
def VOp.rnd (o : VOp) : Nat := o.md.toNat / 256 % 4
def VOp.pm (o : VOp) : Nat := o.md.toNat / 64 % 4
def VOp.imm (o : VOp) : Nat := o.md.toNat % 64

end Sys2Proof

namespace Sys2Proof.Machine

/-- A lane's value in FMT 0 or 1: a BF16 operand is bits [31:16] (R122). -/
def laneNum (fmt : Nat) (w : Word) : FpVal := if fmt = 1 then bf16.dec (w.toNat / 65536) else fp32.dec w.toNat

/-- VCMP's conditions on one lane (R123): NaN compares false except under ne and unordered. -/
def cmpCond (fmt cond : Nat) (a b : Word) : Bool :=
  if fmt = 2 then
    match cond with
    | 0 => a == b
    | 1 => a != b
    | 2 => a.slt b
    | 3 => a.sle b
    | 4 => b.slt a
    | 5 => b.sle a
    | _ => false
  else
    match FpVal.cmp (laneNum fmt a) (laneNum fmt b) with
    | none => cond == 1 || cond == 6
    | some o =>
      match cond with
      | 0 => o == .eq
      | 1 => o != .eq
      | 2 => o == .lt
      | 3 => o != .gt
      | 4 => o == .gt
      | 5 => o != .lt
      | _ => false

/-- What an operation takes its rounding for (R123): nothing; FP32 or INT32 (SR illegal); BF16 or an element (SR valid). -/
inductive RndUse where
  | none
  | noSr
  | sr
  deriving DecidableEq, Repr

/-- The legality of MOD for every operation but UPDATE (R123): FMT 3 and RND 3 reserved, and SR only where valid.
They are reserved too in an operation that reads no FMT or no RND (DESIGN CHOICE, log entry 86). -/
def modOk (o : VOp) (u : RndUse) : Bool :=
  o.fmt != 3 && o.rnd != 3 && !(o.rnd == 1 && u == .noSr)

/-- The rounding RND selects, lane `i`'s bits under stochastic rounding (R128). -/
def laneRnd (rnd : Nat) (seed : DWord) (step : Word) (idx : DWord) (i : Nat) : Rnd :=
  match rnd with
  | 1 => .sr (srBits seed step (idx + BitVec.ofNat 64 i))
  | 2 => .rz
  | _ => .rne

/-- A mask value from bits, bit i first. -/
def ofBits (bs : List Bool) : Nat := (bs.zipIdx.map (fun b => if b.1 then 2 ^ b.2 else 0)).foldl (· + ·) 0

end Sys2Proof.Machine
end

