-- ==== Sys2Proof/Machine/MemSlot.lean ====
section
/-! DEFINITION. The memory slot (R115-R118): loads, stores, accumulates, deck port, landing buffers, activation stack.
Results land on their latencies (R105). -/

namespace Sys2Proof.Machine

/-- A record of the vector unit, with the bundle address (R124, R458). -/
def State.vFault (s : State) (p : Nat) (code : Code) : State := s.raiseAt code p 4 (s.coreAt p).pc.toNat

/-- An operation reads vector registers (R124): a lane that its code corrects is a notice, another one a fault. -/
def State.readV (s : State) (p : Nat) (rs : List Nat) : State :=
  let us := rs.map (fun n => s.upsetIn .vreg p (64 * (n % 32)) 64)
  let s := if us.any (·.1) then s.vFault p 0x2302 else s
  if us.any (·.2) then s.vFault p 0x2303 else s

/-- An operation reads masks (R124). -/
def State.readM (s : State) (p : Nat) (ms : List Nat) : State :=
  let us := ms.map (fun n => s.upsetIn .mask p (n % 4) 1)
  let s := if us.any (·.1) then s.vFault p 0x2302 else s
  if us.any (·.2) then s.vFault p 0x2303 else s

/-- The predicate bits of PM (R123): all ones for 0, else mask m1 to m3. -/
def State.predicate (s : State) (p pm : Nat) : DWord := if pm = 0 then BitVec.allOnes 64 else s.mReg p pm

/-- A byte mask in which lane i's `n` bytes are set where bit i of the predicate is. -/
def laneBytes (pred : DWord) (n lanes : Nat) : Nat :=
  ((List.range lanes).map (fun i => if pred.getLsbD i then (2 ^ n - 1) * 2 ^ (n * i) else 0)).foldl (· + ·) 0

/-- Pend the write of `n` rows from `row` on: row k holds bits [512k + 511 : 512k] of `v` under byte mask bits. -/
def State.pendRows (s : State) (p row : Nat) (v mask lat tier n : Nat) : State :=
  (List.range n).foldl (fun s k =>
    s.pendOp p (.nst ((row + k) % 32768) tier) lat 1 (BitVec.ofNat 2048 (v / 2 ^ (512 * k) % 2 ^ 512))
      (BitVec.ofNat 256 (mask / 2 ^ (64 * k) % 2 ^ 64))) s

/-- The register value of a load of width W from its bytes (R115). -/
def loadValue (w v : Nat) : Vec :=
  match w with
  | 0 => BitVec.ofNat 2048 v
  | 1 => ofLanes ((List.range 64).map (fun i => BitVec.ofNat 32 (v / 2 ^ (16 * i) % 65536 * 65536)))
  | 2 => ofLanes ((List.range 64).map (fun i => BitVec.ofNat 32 (v / 2 ^ (8 * i) % 256)))
  | _ => BitVec.ofNat 2048 (v % 2 ^ 512)

/-- The bytes a store of width W writes, and its byte mask under a predicate (R115). -/
def storeValue (w : Nat) (v : Vec) (pred : DWord) : Nat × Nat :=
  match w with
  | 0 => (v.toNat, laneBytes pred 4 64)
  | 1 => (((List.range 64).map (fun i => (lane v i).toNat / 65536 * 2 ^ (16 * i))).foldl (· + ·) 0, laneBytes pred 2 64)
  | 2 => (((List.range 64).map (fun i => (lane v i).toNat % 256 * 2 ^ (8 * i))).foldl (· + ·) 0, laneBytes pred 1 64)
  | _ => (v.toNat % 2 ^ 512, 2 ^ 64 - 1)

/-- Rows that a load or store of width W covers (R115, R214). -/
def widthRows (w : Nat) : Nat := match w with | 0 => 4 | 1 => 2 | _ => 1

/-- LD (R115): latency 3. -/
def execLd (p : Pos) (v : BitVec 5) (a : BitVec 4) (w : BitVec 2) (s : State) : Host.Outcome State Fault Refusal :=
  let row := rowOf (s.aReg p.val a.toNat)
  let n := widthRows w.toNat
  .next (s.mSlot p.val (.ld p v a w) (wakeCause (s.rowsWake p.val row n)) (fun s =>
    let (s, x) := s.readRows p.val row n
    (s.pendOp p.val (.v v.toNat) 3 1 (loadValue w.toNat x)).useA p.val a.toNat 1))

/-- ST (R115): latency 1, a masked row write under the predicate. -/
def execSt (p : Pos) (v : BitVec 5) (a : BitVec 4) (w pm : BitVec 2) (s : State) :
    Host.Outcome State Fault Refusal :=
  .next (s.mSlot p.val (.st p v a w pm) none (fun s =>
    let row := rowOf (s.aReg p.val a.toNat)
    let s := s.readV p.val [v.toNat]
    let (x, mask) := storeValue w.toNat (s.vReg p.val v.toNat) (s.predicate p.val pm.toNat)
    (s.pendRows p.val row x mask 1 2 (widthRows w.toNat)).useA p.val a.toNat 1))

/-- STA (R115, R224): accumulate-on-write in the issue tcyc. -/
def execSta (p : Pos) (v : BitVec 5) (a : BitVec 4) (fmt : BitVec 1) (s : State) :
    Host.Outcome State Fault Refusal :=
  .next (s.mSlot p.val (.sta p v a fmt) none (fun s =>
    let row := rowOf (s.aReg p.val a.toNat)
    let s := s.readV p.val [v.toNat]
    let x := s.vReg p.val v.toNat
    let (x, n) := if fmt = 0 then (x.toNat, 4) else ((storeValue 1 x (BitVec.allOnes 64)).1, 2)
    let s := (List.range n).foldl (fun s k =>
      s.pendOp p.val (.nstAdd ((row + k) % 32768) fmt 1) 1 1 (BitVec.ofNat 2048 (x / 2 ^ (512 * k) % 2 ^ 512))) s
    s.useA p.val a.toNat 1))

/-- Whether an array's configured MODE is a BF16 mode (R121). -/
def State.isBf16 (s : State) (p : Nat) (arr : Arr) : Bool :=
  (s.cfgReg p arr).toNat % 16 == 8 || (s.cfgReg p arr).toNat % 16 == 9

/-- PSD (R115): latency 2; in a BF16 mode lanes 32 to 63 are written as 0. -/
def execPsd (p : Pos) (a : BitVec 4) (arr : Arr) (entry : BitVec 7) (s : State) :
    Host.Outcome State Fault Refusal :=
  .next (s.mSlot p.val (.psd p a arr entry) none (fun s =>
    let row := rowOf (s.aReg p.val a.toNat)
    let v := s.psum p.val arr entry.toNat
    let s := s.readPsum p.val arr entry.toNat
    let x := if s.isBf16 p.val arr then v.toNat % 2 ^ 1024 else v.toNat
    (s.pendRows p.val row x (2 ^ 256 - 1) 2 2 4).useA p.val a.toNat 1))

/-- DKRD (R115): 256 B of deck into the near store, latency 3. -/
def execDkrd (p : Pos) (a : BitVec 4) (dp : BitVec 3) (s : State) : Host.Outcome State Fault Refusal :=
  let g := granOf (s.dpReg p.val dp.toNat)
  .next (s.portSlot p.val (.dkrd p a dp) (wakeCause (s.granWake p.val g)) (fun s =>
    s.port p.val 1 (fun s =>
      let (s, v) := s.readGran p.val g
      ((s.pendRows p.val (rowOf (s.aReg p.val a.toNat)) v.toNat (2 ^ 256 - 1) 3 2 4).useA p.val a.toNat 1).useD
        p.val dp.toNat 1)))

/-- DKWR (R115): 256 B of near store into the deck, written at the end of tcyc t + 2. -/
def execDkwr (p : Pos) (a : BitVec 4) (dp : BitVec 3) (s : State) : Host.Outcome State Fault Refusal :=
  let row := rowOf (s.aReg p.val a.toNat)
  .next (s.portSlot p.val (.dkwr p a dp) (wakeCause (s.rowsWake p.val row 4)) (fun s =>
    s.port p.val 1 (fun s =>
      let (s, x) := s.readRows p.val row 4
      ((s.pendOp p.val (.gran (granOf (s.dpReg p.val dp.toNat))) 3 1 (BitVec.ofNat 2048 x)).useA p.val a.toNat 1).useD
        p.val dp.toNat 1)))

/-- The hold cause of a landing buffer's far space (R51, R117). -/
def farCause (far : Nat) : HoldCause :=
  match far with
  | 0 => .mport
  | 1 => .host
  | 2 => .depot
  | _ => .pont

/-- LDL or STL on a descriptor it cannot use (R117, R261): fault 0x2B.04. -/
def State.badBuffer (s : State) (p d : Nat) : State := s.raiseAt 0x2B04 p 0xA d

/-- The landing buffer that LDL (`fill`) or STL names with its granule at offset dp, where the core may use it so
(R117, R261). -/
def State.landing (s : State) (p d dp : Nat) (fill : Bool) : Option (BufDesc × Nat × GranSt) :=
  let x := s.ctxAt (ctxKey 0 p d)
  match x.desc with
  | none => none
  | some b =>
    if x.status = .unused ∨ x.status = .aborted ∨ (if fill then b.kind ≠ 1 else b.kind ≠ 2 ∧ b.kind ≠ 3) then none
    else
      let o := granOf (s.dpReg p dp) % max b.size 1
      some (b, o, tget x.grans o .free)

/-- Why LDL holds: its granule is not published (R117, R249), or lies in a waking window (R228). -/
def State.ldlCause (s : State) (p d dp : Nat) : Option HoldCause :=
  match s.landing p d dp true with
  | none => none
  | some (b, o, .published _) => wakeCause (s.granWake p (b.base + o))
  | some (b, _, _) => some (farCause b.far)

/-- LDL (R117, R249, R251): a published granule, one use of it; a free granule holds the cluster. -/
def execLdl (p : Pos) (a : BitVec 4) (dp : BitVec 3) (d : BitVec 6) (s : State) :
    Host.Outcome State Fault Refusal :=
  .next (s.portSlot p.val (.ldl p a dp d) (s.ldlCause p.val d.toNat dp.toNat) (fun s => s.port p.val 1 (fun s =>
    let row := rowOf (s.aReg p.val a.toNat)
    let fin (s : State) (v : Nat) : State :=
      (((s.pendRows p.val row v (2 ^ 256 - 1) 3 2 4).useA p.val a.toNat 1).useD p.val dp.toNat 1).event p.val 0x24 1
    match s.landing p.val d.toNat dp.toNat true with
    | none => fin (s.badBuffer p.val d.toNat) 0
    | some (b, o, _) =>
      let (s, v) := s.readGran p.val (b.base + o)
      fin (s.pendOp p.val (.used d.toNat o) 1 1 0) v.toNat)))

/-- Why STL holds: its granule is not free (R117, R250), or its rows lie in a waking bank (R228). -/
def State.stlCause (s : State) (p d dp row : Nat) : Option HoldCause :=
  match s.landing p d dp false with
  | none => none
  | some (_, _, .free) => wakeCause (s.rowsWake p row 4)
  | some (b, _, _) => some (farCause b.far)

/-- STL (R117, R250, R251): a free granule, produced at the end of tcyc t + 2; a produced one holds the cluster. -/
def execStl (p : Pos) (a : BitVec 4) (dp : BitVec 3) (d : BitVec 6) (s : State) :
    Host.Outcome State Fault Refusal :=
  let row := rowOf (s.aReg p.val a.toNat)
  .next (s.portSlot p.val (.stl p a dp d) (s.stlCause p.val d.toNat dp.toNat row) (fun s => s.port p.val 1 (fun s =>
    let fin (s : State) : State := ((s.useA p.val a.toNat 1).useD p.val dp.toNat 1).event p.val 0x25 1
    match s.landing p.val d.toNat dp.toNat false with
    | none => fin (s.badBuffer p.val d.toNat)
    | some (b, o, _) =>
      let (s, v) := s.readRows p.val row 4
      let s := s.pendOp p.val (.gran (b.base + o)) 3 1 (BitVec.ofNat 2048 v)
      fin (s.pendOp p.val (.produced d.toNat o) 3 1 0))))

/-- DKRT (R115, R233-R235): the transposed read of a tile through the corner-turn buffer. -/
def execDkrt (p : Pos) (a : BitVec 4) (dp : BitVec 3) (dest : BitVec 1) (s : State) :
    Host.Outcome State Fault Refusal :=
  let g := granOf (s.dpReg p.val dp.toNat)
  .next (s.portSlot p.val (.dkrt p a dp dest) (wakeCause (s.granWake p.val g)) (fun s =>
    let row := rowOf (s.aReg p.val a.toNat)
    let adv (s : State) : State :=
      if dest = 0 then (s.useA p.val a.toNat 1).useD p.val dp.toNat 1 else s.useD p.val dp.toNat 1
    s.port p.val 16 (fun s =>
      if dest = 0 then
        let mode := (s.cfgReg p.val 0).toNat % 16
        let mx := mode = 0 || mode = 2
        let bf := mode = 8 || mode = 9
        let bad := g % 16 != 0 || !(mx || bf) || (mx && g % 16384 == 16368)
        if bad then adv (s.raiseAt 0x2A07 p.val 0xC (s.coreAt p.val).pc.toNat g)
        else
          let s := (List.range 16).foldl (fun s k => s.pendOp p.val (.turn k (g + k)) (k / 2 + 1) 3 0) s
          let s := if mx then s.pendOp p.val (.turn 16 (g + 16)) 9 3 0 else s
          let s := (List.range 64).foldl (fun s k => s.pendOp p.val (.turned k ((row + k) % 32768) bf) (9 + k / 8) 3 0) s
          adv s
      else
        adv (s.pendOp p.val (.toStop g) 1 3 0))))

/-- Whether a PUSH, or a POP, finds no room or no granule in the stack, or no stack (R118, R160). -/
def StackSt.stopsPush (k : StackSt) : Bool := match k.desc with | none => true | some d => decide (d.size + d.spillSize ≤ k.depth)
def StackSt.stopsPop (k : StackSt) : Bool := k.desc.isNone || k.depth == 0

/-- Why PUSH holds: the deck buffer is full (R162), or its rows lie in a waking bank (R228). -/
def State.pushCause (s : State) (p row : Nat) : Option HoldCause :=
  let k := s.stkAt p
  if k.stopsPush then none
  else if k.desc.any (fun d => decide (d.size ≤ k.depth - k.rbSeen)) then some .mport
  else wakeCause (s.rowsWake p row 4)

/-- PUSH (R118, R160-R162). -/
def execPush (p : Pos) (a : BitVec 4) (s : State) : Host.Outcome State Fault Refusal :=
  let row := rowOf (s.aReg p.val a.toNat)
  .next (s.portSlot p.val (.push p a) (s.pushCause p.val row) (fun s => s.port p.val 1 (fun s =>
    let k := s.stkAt p.val
    let fin (s : State) : State := (s.useA p.val a.toNat 1).event p.val 0x26 1
    match k.desc with
    | none => fin (s.seqFault p.val 0x220C)
    | some d =>
      if k.stopsPush then fin (s.seqFault p.val 0x220C)
      else
        let (s, v) := s.readRows p.val row 4
        let s := s.pendOp p.val (.gran (d.base + k.depth % max d.size 1)) 3 1 (BitVec.ofNat 2048 v)
        fin (s.pendOp p.val (.depth (k.depth + 1)) 1 1 0))))

/-- The deck granule of the top of a stack (R160). -/
def StackSt.top (k : StackSt) : Nat := match k.desc with | some d => d.base + (k.depth - 1) % max d.size 1 | none => 0

/-- Why POP holds: its granule is not resident (R162), or lies in a waking window (R228). -/
def State.popCause (s : State) (p : Nat) : Option HoldCause :=
  let k := s.stkAt p
  if k.stopsPop then none
  else if k.depth ≤ k.rbSeen then some .mport
  else wakeCause (s.granWake p k.top)

/-- POP (R118, R160-R163). -/
def execPop (p : Pos) (a : BitVec 4) (s : State) : Host.Outcome State Fault Refusal :=
  .next (s.portSlot p.val (.pop p a) (s.popCause p.val) (fun s => s.port p.val 1 (fun s =>
    let k := s.stkAt p.val
    let row := rowOf (s.aReg p.val a.toNat)
    let fin (s : State) : State := (s.useA p.val a.toNat 1).event p.val 0x27 1
    if k.stopsPop then fin (s.seqFault p.val 0x220B)
    else
      let (s, v) := s.readGran p.val k.top
      let s := if k.bad.contains (k.depth - 1) then s.raiseAt 0x2602 p.val 9 (s.coreAt p.val).pc.toNat else s
      let s := s.pendRows p.val row v.toNat (2 ^ 256 - 1) 3 2 4
      fin (s.pendOp p.val (.depth (k.depth - 1)) 1 1 0))))

end Sys2Proof.Machine
end

