-- ==== Sys2Proof/Machine/Trans.lean ====
section
/-! DEFINITION. The error bounds of the transcendental functions (R126, R281): the exact value to more than 100 bits, and
a free result kept within its bound. -/

namespace Sys2Proof.Machine

/-- Fixed-point numbers here are integers in units of 2⁻²⁵⁶. -/
def fixOne : Int := 2 ^ 256
/-- ln 2. -/
def fixLn2 : Int := 0xb17217f7d1cf79abc9e3b39803f2f6af40f343267298b62d8a0d175b8baafa2b
/-- 2/√π. -/
def fixErf : Int := 0x120dd750429b6d11ae3a914fed7fd8688281341d7587cea2e7342b06199cc4161
/-- π/2 in units of 2⁻⁴⁰⁰. -/
def halfPi : Nat :=
  0x1921fb54442d18469898cc51701b839a252049c1114cf98e804177d4c76273644a29410f31c6809bbdf2a33679a7486366056

/-- A finite value in fixed point, toward zero. -/
def FpVal.fix : FpVal → Int
  | .fin neg m e => (if neg then -1 else 1) * (roundInt m (e + 256) .rz : Nat)
  | _ => 0

/-- A fixed-point number times 2^k, as a value. -/
def fixVal (x : Int) (k : Int) : FpVal := .ofInt x (k - 256)

/-- Terms of a power series whose k-th term is the one before times r and divided by `d k`, `d` in units of one. -/
def series (r : Int) (d : Nat → Nat) : Nat → Nat → Int → Int → Int
  | 0, _, _, acc => acc
  | fuel + 1, k, t, acc =>
    let t := t * r / (fixOne * (d k : Int))
    series r d fuel (k + 1) t (acc + t)

/-- exp of a fixed-point number, as a value; below 2⁻¹²⁰⁰ it stands at that. -/
def expFix (a : Int) : FpVal :=
  let n := a / fixLn2
  if n < -1200 then .fin false 1 (-1200)
  else fixVal (series (a % fixLn2) (fun k => k) 70 1 fixOne fixOne) n

/-- Σ z^(2k+1)/(2k+1), from term `k` on: t is z^(2k+1). -/
def atanhSum (z2 : Int) : Nat → Nat → Int → Int → Int
  | 0, _, _, acc => acc
  | fuel + 1, k, t, acc => atanhSum z2 fuel (k + 1) (t * z2 / fixOne) (acc + t / ((2 * k + 1 : Nat) : Int))

/-- ln of m · 2^e, m not 0, in fixed point. -/
def lnFix (m : Nat) (e : Int) : Int :=
  let lg := Nat.log2 m
  let x : Int := (m : Int) * fixOne / ((2 ^ lg : Nat) : Int)
  let z := (x - fixOne) * fixOne / (x + fixOne)
  2 * atanhSum (z * z / fixOne) 90 0 z 0 + (e + lg) * fixLn2

/-- sin and cos of r, 0 ≤ r < π/2, in fixed point. -/
def sinFix (r : Int) : Int := series (-(r * r / fixOne)) (fun k => 2 * k * (2 * k + 1)) 50 1 r r
def cosFix (r : Int) : Int := series (-(r * r / fixOne)) (fun k => (2 * k - 1) * (2 * k)) 50 1 fixOne fixOne

/-- sin of m · 2^e + quarter · π/2, with exact argument reduction: the quadrant and the rest come from π/2 to 400 bits
below the point. -/
def sinOf (m : Nat) (e : Int) (quarter : Nat) : FpVal :=
  let x := roundInt m (e + 400) .rz
  let q := (x / halfPi + quarter) % 4
  let r : Int := ((x % halfPi / 2 ^ 144 : Nat) : Int)
  let v := if q % 2 = 0 then sinFix r else cosFix r
  fixVal (if 2 ≤ q then -v else v) 0

/-- tanh of x ≥ 0 in fixed point. -/
def tanhOf (x : Int) : FpVal :=
  if 100 * fixOne < x then .fin false 1 0
  else
    let a := (expFix (2 * x)).fix
    fixVal ((a - fixOne) * fixOne / (a + fixOne)) 0

/-- 1/(1 + exp(−x)). -/
def sigmOf (x : Int) : FpVal :=
  if 200 * fixOne < x then .fin false 1 0
  else if x < -(200 * fixOne) then .fin false 1 (-280)
  else fixVal (fixOne * fixOne / (fixOne + (expFix (-x)).fix)) 0

/-- Σ (−1)^k x^(2k+1)/(k!·(2k+1)), from term `k` on: t is (−1)^k x^(2k+1)/k!. -/
def erfSum (x2 : Int) : Nat → Nat → Int → Int → Int
  | 0, _, _, acc => acc
  | fuel + 1, k, t, acc =>
    erfSum x2 fuel (k + 1) (-(t * x2 / (fixOne * ((k + 1 : Nat) : Int)))) (acc + t / ((2 * k + 1 : Nat) : Int))
/-- erf of x ≥ 0. -/
def erfOf (x : Int) : FpVal :=
  if 6 * fixOne < x then .fin false 1 0
  else fixVal (erfSum (x * x / fixOne) 200 0 x 0 * fixErf / fixOne) 0

/-- A value with the sign `neg` put before it. -/
def FpVal.signed (neg : Bool) (x : FpVal) : FpVal := if neg then x.neg else x

/-- The exact result of a transcendental operation on a finite operand (R126). -/
def transVal (op : Nat) (neg : Bool) (m : Nat) (e : Int) : FpVal :=
  let x := FpVal.fin neg m e
  let a := (FpVal.fin false m e).fix
  match op with
  | 0x12 => FpVal.div (.fin false 1 0) (FpVal.sqrt x)
  | 0x14 => if x.fix < -(300 * fixOne) then .fin false 1 (-300) else expFix (x.fix * fixLn2 / fixOne)
  | 0x15 => if m = 0 then .inf true else fixVal (lnFix m e * fixOne / fixLn2) 0
  | 0x16 => (tanhOf a).signed neg
  | 0x17 => sigmOf x.fix
  | 0x18 => (erfOf a).signed neg
  | 0x19 => (sinOf m e 0).signed neg
  | _ => sinOf m e 1

/-- The unit in the last place of a format at a value. -/
def Fmt.ulp (f : Fmt) : FpVal → Int
  | .fin _ m e =>
    let lg : Int := (Nat.log2 (m + m / 2 ^ 40 + 1) : Int) + e
    let emin : Int := 1 - (f.bias : Int)
    (if m = 0 || lg < emin then emin else lg) - f.mb
  | _ => 0

/-- Whether `y` lies within `bound` of `x`; what the fixed-point arithmetic leaves out of `x` counts in favour. -/
def FpVal.within (x y bound : FpVal) : Bool :=
  match x.add y.neg, bound with
  | .fin _ m e, .fin _ n g => FpVal.cmp (.fin false m e) (.fin false (n * 2 ^ 30 + 1) (g - 30)) != some .gt
  | _, _ => false

/-- A free result `w` of a format where it lies within `k` ulp of the exact value `x`, or within 2^`least` of it; the
nearest code where it does not. -/
def Fmt.bounded (f : Fmt) (k : Nat) (least : Option Int) (x : FpVal) (w : Nat) : Nat :=
  let y := f.dec w
  if x.within y (.fin false k (f.ulp x)) || (match least with | some g => x.within y (.fin false 1 g) | none => false) then w
  else f.enc .rne x

/-- A transcendental result of R126: NaN for a NaN, and else a free function of the input bits (log entry 6) kept within
the operation's bound. -/
def freeTrans (op : Nat) (w : Word) : Word :=
  match fp32.dec w.toNat with
  | .fin neg m e =>
    let (k, least) : Nat × Option Int := match op with
      | 0x12 | 0x14 => (1, none)
      | 0x15 => (1, some (-24))
      | 0x19 | 0x1A => (2, some (-24))
      | _ => (2, none)
    BitVec.ofNat 32 (fp32.bounded k least (transVal op neg m e) (Config.transcendental op w).toNat)
  | .inf neg => if op = 0x15 && !neg then 0x7F800000 else Config.transcendental op w
  | .nan => 0x7FC00000

/-- cos of R281: a free function of its input (log entry 7) within 1 ulp of binary64. -/
def cos64 (x : DWord) : DWord :=
  match fp64.dec x.toNat with
  | .fin _ m e => BitVec.ofNat 64 (fp64.bounded 1 none (sinOf m e 1) (Config.cos64 x).toNat)
  | _ => BitVec.ofNat 64 fp64.qnan

/-- pow of R281 with a base that is not negative: a free function of its inputs (log entry 7) within 1 ulp of binary64. -/
def pow64 (x y : DWord) : DWord :=
  let free := (Config.pow64 x y).toNat
  match fp64.dec x.toNat, fp64.dec y.toNat with
  | .fin false m e, .fin neg n g =>
    let v :=
      if n = 0 then .fin false 1 0
      else if m = 0 then (if neg then .inf false else .fin false 0 0)
      else
        let a := (FpVal.fin neg n g).fix * lnFix m e / fixOne
        if 1100 * fixOne < a then .inf false else expFix a
    BitVec.ofNat 64 (match v with | .inf _ => fp64.enc .rne v | _ => fp64.bounded 1 none v free)
  | _, _ => BitVec.ofNat 64 free

end Sys2Proof.Machine
end

