-- ==== Sys2Proof/Machine/Vector.lean ====
section
/-! DEFINITION. The vector slot (R122-R128), one meaning per operation. UPDATE is in Update.lean. -/

namespace Sys2Proof.Machine

/-- The vector registers that an operation reads, and whether it passes the arithmetic datapath (R123, R124). -/
def vReads (i : Instr) : List Nat × Bool :=
  let pair (r : BitVec 5) : List Nat := [r.toNat, r.toNat + 1]
  match i with
  | .vadd _ o | .vsub _ o | .vmul _ o | .vmax _ o | .vmin _ o | .vcmp _ o | .vdiv _ o | .vrdot _ o | .viadd _ o | .visub _ o =>
    ([o.va.toNat, o.vb.toNat], true)
  | .vfma _ o => ([o.va.toNat, o.vb.toNat, o.vc.toNat], true)
  | .vrcp _ o | .vsqrt _ o | .vrsqrt _ o | .vexp2 _ o | .vlog2 _ o | .vtanh _ o | .vsigm _ o | .verf _ o | .vsin _ o | .vcos _ o
  | .vrsum _ o | .vrmax _ o | .vrmin _ o | .vcvm _ o | .vcvb _ o | .vcvi _ o => ([o.va.toNat], true)
  | .vcvf _ o => ([o.va.toNat, o.vb.toNat], true)
  | .dadd _ o | .dmul _ o => (pair o.va ++ pair o.vb, true)
  | .dfma _ o => (pair o.va ++ pair o.vb ++ pair o.vc, true)
  | .drsum _ o => (pair o.va, true)
  | .dcvt _ o => (if o.md.toNat % 2 = 0 then [o.va.toNat] else pair o.va, true)
  | .vabs _ o | .vneg _ o | .vmov _ o => ([o.va.toNat], false)
  | .vsel _ o | .vand _ o | .vor _ o | .vxor _ o | .vshl _ o | .vshr _ o => ([o.va.toNat, o.vb.toNat], false)
  | _ => ([], false)

/-- The masks that an operation reads: its predicate, and the selector of VSEL (R123). -/
def vMasks (i : Instr) (o : VOp) : List Nat :=
  (if o.pm = 0 then [] else [o.pm]) ++ (match i with | .vsel _ o => [o.imm % 4] | _ => [])

/-- The checks of R124 on what an operation reads and on its datapath. -/
def State.vCheck (s : State) (p : Nat) (i : Instr) (o : VOp) : State :=
  let s := (s.readV p (vReads i).1).readM p (vMasks i o)
  if (vReads i).2 && s.upset .datapath p 0 != .good then (s.vFault p 0x2301).heal .datapath p 0 1 else s

/-- Issue a vector operation `i` (R105, R123, R124): its MOD is legal, its registers keep their constraint, the slot is free. -/
def State.vOp (s : State) (p : Nat) (i : Instr) (o : VOp) (ok : Bool) (occ : Nat) (k : State → State) : State :=
  s.whenIssued p i none (fun s => if ok then s.vSlot p occ (fun s => k (s.vCheck p i o)) else s.illegal p)

/-- The predicate of an operation as a lane mask (R123). -/
def State.vMask (s : State) (p : Nat) (o : VOp) : BitVec 256 := (s.predicate p o.pm).setWidth 256

/-- Write a vector result of latency `lat` under the predicate (R123). -/
def State.vWrite (s : State) (p : Nat) (o : VOp) (lat : Nat) (ws : List Word) : State :=
  s.pendOp p (.v o.vd.toNat) lat 2 (ofLanes ws) (s.vMask p o)

/-- The rounding of lane `i` of an operation (R123, R128), the step being CLK.STEP_NUM at the frame's start. -/
def State.rndOf (s : State) (p : Nat) (o : VOp) (i : Nat) : Rnd :=
  laneRnd o.rnd (s.seedReg p (o.imm / 16)) s.frm.frameStep (s.idxReg p (o.imm / 16)) i

/-- Under stochastic rounding IDXn advances by 64 at the end of the tcyc (R128). -/
def State.drawIdx (s : State) (p : Nat) (o : VOp) : State :=
  if o.rnd = 1 then
    s.pendOp p (.idx (o.imm / 16)) 1 2 ((s.idxReg p (o.imm / 16) + 64).setWidth 2048)
  else s

/-- A lane's code for a value in FMT 0 or 1 (R122): BF16 in bits [31:16]. -/
def laneCode (fmt : Nat) (r : Rnd) (x : FpVal) : Word :=
  if fmt = 1 then BitVec.ofNat 32 (bf16.enc r x * 65536) else BitVec.ofNat 32 (fp32.enc r x)

/-- One lane of an arithmetic operation (R122): FP32 or BF16 exactly and rounded once, or INT32 modulo 2³². -/
def arithLane (fmt : Nat) (r : Rnd) (f : FpVal → FpVal → FpVal → FpVal) (g : Word → Word → Word → Word) (a b c : Word) :
    Word :=
  if fmt = 2 then g a b c else laneCode fmt r (f (laneNum fmt a) (laneNum fmt b) (laneNum fmt c))

/-- A lane-wise operation whose rounding RND selects (R122, R123). -/
def State.arith (s : State) (p : Nat) (i : Instr) (o : VOp) (f : FpVal → FpVal → FpVal → FpVal) (g : Word → Word → Word → Word) : State :=
  s.vOp p i o (modOk o (if o.fmt = 1 then .sr else if o.fmt = 0 then .noSr else .none)) 1 (fun s =>
    let a := s.vReg p o.va.toNat
    let b := s.vReg p o.vb.toNat
    let c := s.vReg p o.vc.toNat
    let s' := s.vWrite p o 4 ((List.range 64).map (fun i =>
      arithLane o.fmt (s.rndOf p o i) f g (lane a i) (lane b i) (lane c i)))
    if o.fmt = 1 then s'.drawIdx p o else s')

/-- VADD (R122, R123). -/
def execVadd (p : Pos) (o : VOp) (s : State) : Host.Outcome State Fault Refusal :=
  .next (s.arith p.val (.vadd p o) o (fun a b _ => FpVal.add a b) (fun a b _ => a + b))

/-- VSUB (R122, R123). -/
def execVsub (p : Pos) (o : VOp) (s : State) : Host.Outcome State Fault Refusal :=
  .next (s.arith p.val (.vsub p o) o (fun a b _ => FpVal.add a b.neg) (fun a b _ => a - b))

/-- VMUL (R122, R123). -/
def execVmul (p : Pos) (o : VOp) (s : State) : Host.Outcome State Fault Refusal :=
  .next (s.arith p.val (.vmul p o) o (fun a b _ => FpVal.mul a b) (fun a b _ => a * b))

/-- VFMA (R122, R123): rounded once. -/
def execVfma (p : Pos) (o : VOp) (s : State) : Host.Outcome State Fault Refusal :=
  .next (s.arith p.val (.vfma p o) o (fun a b c => FpVal.add (FpVal.mul a b) c) (fun a b c => a * b + c))

/-- A lane-wise operation without rounding, of latency `lat`. -/
def State.lanewise (s : State) (p : Nat) (i : Instr) (o : VOp) (lat : Nat) (f : Nat → Word → Word → Word) : State :=
  s.vOp p i o (modOk o .none) 1 (fun s =>
    let a := s.vReg p o.va.toNat
    let b := s.vReg p o.vb.toNat
    s.vWrite p o lat ((List.range 64).map (fun i => f i (lane a i) (lane b i))))

/-- VMAX (R122): INT32 as signed numbers. -/
def execVmax (p : Pos) (o : VOp) (s : State) : Host.Outcome State Fault Refusal :=
  .next (s.lanewise p.val (.vmax p o) o 1 (fun _ a b =>
    arithLane o.fmt .rne (fun a b _ => FpVal.max a b) (fun a b _ => if a.slt b then b else a) a b 0))

/-- VMIN (R122). -/
def execVmin (p : Pos) (o : VOp) (s : State) : Host.Outcome State Fault Refusal :=
  .next (s.lanewise p.val (.vmin p o) o 1 (fun _ a b =>
    arithLane o.fmt .rne (fun a b _ => FpVal.min a b) (fun a b _ => if a.slt b then a else b) a b 0))

/-- VABS (R123): the sign bit cleared, NaN kept; INT32 two's-complement. -/
def execVabs (p : Pos) (o : VOp) (s : State) : Host.Outcome State Fault Refusal :=
  .next (s.lanewise p.val (.vabs p o) o 1 (fun _ a _ =>
    match o.fmt with
    | 0 => a &&& 0x7FFFFFFF
    | 1 => a &&& 0x7FFF0000
    | _ => if a.slt 0 then 0 - a else a))

/-- VNEG (R123): the sign bit flipped, NaN kept; INT32 two's-complement. -/
def execVneg (p : Pos) (o : VOp) (s : State) : Host.Outcome State Fault Refusal :=
  .next (s.lanewise p.val (.vneg p o) o 1 (fun _ a _ =>
    match o.fmt with
    | 0 => a ^^^ 0x80000000
    | 1 => (a ^^^ 0x80000000) &&& 0xFFFF0000
    | _ => 0 - a))

/-- VCMP (R123): bits of mask m(IMM[1:0]); cond IMM[4:2] of 7 is reserved. -/
def execVcmp (p : Pos) (o : VOp) (s : State) : Host.Outcome State Fault Refusal :=
  .next (s.vOp p.val (.vcmp p o) o (modOk o .none && o.imm / 4 % 8 != 7) 1 (fun s =>
    let a := s.vReg p.val o.va.toNat
    let b := s.vReg p.val o.vb.toNat
    let bits := (List.range 64).map (fun i => cmpCond o.fmt (o.imm / 4 % 8) (lane a i) (lane b i))
    s.pendOp p.val (.m (o.imm % 4)) 2 2 (BitVec.ofNat 2048 (ofBits bits)) (s.vMask p.val o)))

/-- VSEL (R123). -/
def execVsel (p : Pos) (o : VOp) (s : State) : Host.Outcome State Fault Refusal :=
  .next (s.lanewise p.val (.vsel p o) o 1 (fun i a b => if (s.mReg p.val (o.imm % 4)).getLsbD i then a else b))

/-- VMOV (R123). -/
def execVmov (p : Pos) (o : VOp) (s : State) : Host.Outcome State Fault Refusal :=
  .next (s.lanewise p.val (.vmov p o) o 1 (fun _ a _ => a))

/-- VBC (R123): every lane takes s(va[3:0]). -/
def execVbc (p : Pos) (o : VOp) (s : State) : Host.Outcome State Fault Refusal :=
  .next (s.lanewise p.val (.vbc p o) o 1 (fun _ _ _ => s.sReg p.val (o.va.toNat % 16)))

/-- VRDP (R80, R123): a partial-sum entry. -/
def execVrdp (p : Pos) (o : VOp) (s : State) : Host.Outcome State Fault Refusal :=
  .next (s.vOp p.val (.vrdp p o) o (modOk o .none) 1 (fun s =>
    let arr : Arr := if o.imm % 2 = 0 then 0 else 1
    let v := s.psum p.val arr ((s.sReg p.val (o.va.toNat % 16)).toNat % 128)
    let s := s.readPsum p.val arr ((s.sReg p.val (o.va.toNat % 16)).toNat % 128)
    s.vWrite p.val o 2 (lanesOf v)))

/-- VLANE (R123). -/
def execVlane (p : Pos) (o : VOp) (s : State) : Host.Outcome State Fault Refusal :=
  .next (s.lanewise p.val (.vlane p o) o 1 (fun i _ _ => BitVec.ofNat 32 i))

/-! ### Transcendental operations (R126) -/

/-- A transcendental operation of code `op` and latency `lat`: the FP32 result by `f`, and with FMT BF16 that result
rounded by RND (R126). FMT 2 is illegal. -/
def State.trans (s : State) (p : Nat) (i : Instr) (o : VOp) (lat : Nat) (f : Word → Word → Word) : State :=
  s.vOp p i o (modOk o (if o.fmt = 1 then .sr else .none) && o.fmt != 2) 1 (fun s =>
    let a := s.vReg p o.va.toNat
    let b := s.vReg p o.vb.toNat
    let cut (w : Word) : Word := if o.fmt = 1 then w &&& 0xFFFF0000 else w
    let s' := s.vWrite p o lat ((List.range 64).map (fun i =>
      let w := f (cut (lane a i)) (cut (lane b i))
      if o.fmt = 1 then laneCode 1 (s.rndOf p o i) (fp32.dec w.toNat) else w))
    let s' := s'.event p 0x19 1
    if o.fmt = 1 then s'.drawIdx p o else s')

/-- The FP32 code of a value, rounded to nearest even. -/
def f32 (x : FpVal) : Word := BitVec.ofNat 32 (fp32.enc .rne x)

/-- VRCP (R126): correctly rounded. -/
def execVrcp (p : Pos) (o : VOp) (s : State) : Host.Outcome State Fault Refusal :=
  .next (s.trans p.val (.vrcp p o) o 8 (fun a _ => f32 (FpVal.div (.fin false 1 0) (fp32.dec a.toNat))))

/-- VSQRT (R126): correctly rounded. -/
def execVsqrt (p : Pos) (o : VOp) (s : State) : Host.Outcome State Fault Refusal :=
  .next (s.trans p.val (.vsqrt p o) o 8 (fun a _ => f32 (FpVal.sqrt (fp32.dec a.toNat))))

/-- VRSQRT (R126): ±0 to ±Inf, negative to NaN, +Inf to +0. -/
def rsqrtOf (a : Word) : Word :=
  match fp32.dec a.toNat with
  | .fin neg 0 _ => if neg then 0xFF800000 else 0x7F800000
  | .fin true _ _ => 0x7FC00000
  | .inf neg => if neg then 0x7FC00000 else 0
  | _ => freeTrans 0x12 a
def execVrsqrt (p : Pos) (o : VOp) (s : State) : Host.Outcome State Fault Refusal :=
  .next (s.trans p.val (.vrsqrt p o) o 8 (fun a _ => rsqrtOf a))

/-- VDIV (R126): correctly rounded. -/
def execVdiv (p : Pos) (o : VOp) (s : State) : Host.Outcome State Fault Refusal :=
  .next (s.trans p.val (.vdiv p o) o 12 (fun a b => f32 (FpVal.div (fp32.dec a.toNat) (fp32.dec b.toNat))))

/-- VEXP2 (R126): x ≥ 128 to +Inf, −Inf to +0. -/
def exp2Of (a : Word) : Word :=
  match fp32.dec a.toNat with
  | .inf neg => if neg then 0 else 0x7F800000
  | .fin neg m e =>
    if FpVal.cmp (.fin neg m e) (.fin false 128 0) = some .lt then freeTrans 0x14 a else 0x7F800000
  | .nan => 0x7FC00000
def execVexp2 (p : Pos) (o : VOp) (s : State) : Host.Outcome State Fault Refusal :=
  .next (s.trans p.val (.vexp2 p o) o 10 (fun a _ => exp2Of a))

/-- VLOG2 (R126): ±0 to −Inf, negative to NaN. -/
def log2Of (a : Word) : Word :=
  match fp32.dec a.toNat with
  | .fin _ 0 _ => 0xFF800000
  | .fin true _ _ => 0x7FC00000
  | .inf true => 0x7FC00000
  | _ => freeTrans 0x15 a
def execVlog2 (p : Pos) (o : VOp) (s : State) : Host.Outcome State Fault Refusal :=
  .next (s.trans p.val (.vlog2 p o) o 10 (fun a _ => log2Of a))

/-- A function with fixed values at the infinities (R126). -/
def withInf (op : Nat) (neg pos : Word) (a : Word) : Word :=
  match fp32.dec a.toNat with
  | .inf true => neg
  | .inf false => pos
  | _ => freeTrans op a

/-- VTANH (R126). -/
def execVtanh (p : Pos) (o : VOp) (s : State) : Host.Outcome State Fault Refusal :=
  .next (s.trans p.val (.vtanh p o) o 14 (fun a _ => withInf 0x16 0xBF800000 0x3F800000 a))

/-- VSIGM (R126). -/
def execVsigm (p : Pos) (o : VOp) (s : State) : Host.Outcome State Fault Refusal :=
  .next (s.trans p.val (.vsigm p o) o 14 (fun a _ => withInf 0x17 0 0x3F800000 a))

/-- VERF (R126). -/
def execVerf (p : Pos) (o : VOp) (s : State) : Host.Outcome State Fault Refusal :=
  .next (s.trans p.val (.verf p o) o 14 (fun a _ => withInf 0x18 0xBF800000 0x3F800000 a))

/-- VSIN (R126): ±Inf to NaN. -/
def execVsin (p : Pos) (o : VOp) (s : State) : Host.Outcome State Fault Refusal :=
  .next (s.trans p.val (.vsin p o) o 14 (fun a _ => withInf 0x19 0x7FC00000 0x7FC00000 a))

/-- VCOS (R126): ±Inf to NaN. -/
def execVcos (p : Pos) (o : VOp) (s : State) : Host.Outcome State Fault Refusal :=
  .next (s.trans p.val (.vcos p o) o 14 (fun a _ => withInf 0x1A 0x7FC00000 0x7FC00000 a))

/-! ### Row reductions (R125) -/

/-- Fold the upper half of the lanes into the lower, `n` times (R125). -/
def halve (f : α → α → α) : Nat → List α → List α
  | 0, xs => xs
  | n + 1, xs =>
    let w := xs.length / 2
    halve f n (List.zipWith f (xs.take w) (xs.drop w))

/-- The fixed binary tree of R125 over 64 lanes. -/
def rowReduce (f : α → α → α) (xs : List α) (d : α) : α := (halve f 6 xs).headD d

/-- A reduction of latency `lat` over lanes `xs`, written to every lane and, with IMM[4], to s(IMM[3:0]) (R123, R125). -/
def State.reduce (s : State) (p : Nat) (i : Instr) (o : VOp) (lat : Nat) (xs : State → List Word)
    (f : FpVal → FpVal → FpVal) (g : Word → Word → Word) : State :=
  s.vOp p i o (modOk o .none) 1 (fun s =>
    let w := rowReduce (fun a b => arithLane o.fmt .rne (fun a b _ => f a b) (fun a b _ => g a b) a b 0) (xs s) 0
    let s := s.pendOp p (.v o.vd.toNat) lat 2 (ofLanes (List.replicate 64 w))
    if o.imm / 16 % 2 = 1 then s.pendOp p (.s (o.imm % 16)) lat 2 (w.setWidth 2048) else s)

/-- The lanes of va after predication: a masked-off lane enters as `d` (R125). -/
def State.predLanes (s : State) (p : Nat) (o : VOp) (d : Word) : List Word :=
  let a := s.vReg p o.va.toNat
  let m := s.predicate p o.pm
  (List.range 64).map (fun i => if m.getLsbD i then lane a i else d)

/-- VRSUM (R125). -/
def execVrsum (p : Pos) (o : VOp) (s : State) : Host.Outcome State Fault Refusal :=
  .next (s.reduce p.val (.vrsum p o) o 8 (fun s => s.predLanes p.val o 0) FpVal.add (fun a b => a + b))

/-- VRMAX (R125). -/
def execVrmax (p : Pos) (o : VOp) (s : State) : Host.Outcome State Fault Refusal :=
  .next (s.reduce p.val (.vrmax p o) o 8 (fun s => s.predLanes p.val o (if o.fmt = 2 then 0x80000000 else 0xFF800000)) FpVal.max
    (fun a b => if a.slt b then b else a))

/-- VRMIN (R125). -/
def execVrmin (p : Pos) (o : VOp) (s : State) : Host.Outcome State Fault Refusal :=
  .next (s.reduce p.val (.vrmin p o) o 8 (fun s => s.predLanes p.val o (if o.fmt = 2 then 0x7FFFFFFF else 0x7F800000)) FpVal.min
    (fun a b => if a.slt b then a else b))

/-- VRDOT (R125): products rounded to nearest even, then the tree. -/
def execVrdot (p : Pos) (o : VOp) (s : State) : Host.Outcome State Fault Refusal :=
  .next (s.reduce p.val (.vrdot p o) o 10 (fun s =>
    let a := s.vReg p.val o.va.toNat
    let b := s.vReg p.val o.vb.toNat
    let m := s.predicate p.val o.pm
    (List.range 64).map (fun i =>
      if m.getLsbD i then
        arithLane o.fmt .rne (fun a b _ => FpVal.mul a b) (fun a b _ => a * b) (lane a i) (lane b i) 0
      else 0)) FpVal.add (fun a b => a + b))

/-! ### INT32 (R123) -/

/-- VIADD. -/
def execViadd (p : Pos) (o : VOp) (s : State) : Host.Outcome State Fault Refusal :=
  .next (s.lanewise p.val (.viadd p o) o 1 (fun _ a b => a + b))
/-- VISUB. -/
def execVisub (p : Pos) (o : VOp) (s : State) : Host.Outcome State Fault Refusal :=
  .next (s.lanewise p.val (.visub p o) o 1 (fun _ a b => a - b))
/-- VAND. -/
def execVand (p : Pos) (o : VOp) (s : State) : Host.Outcome State Fault Refusal :=
  .next (s.lanewise p.val (.vand p o) o 1 (fun _ a b => a &&& b))
/-- VOR. -/
def execVor (p : Pos) (o : VOp) (s : State) : Host.Outcome State Fault Refusal :=
  .next (s.lanewise p.val (.vor p o) o 1 (fun _ a b => a ||| b))
/-- VXOR. -/
def execVxor (p : Pos) (o : VOp) (s : State) : Host.Outcome State Fault Refusal :=
  .next (s.lanewise p.val (.vxor p o) o 1 (fun _ a b => a ^^^ b))
/-- VSHL: shifts use bits [4:0] of each lane of vb. -/
def execVshl (p : Pos) (o : VOp) (s : State) : Host.Outcome State Fault Refusal :=
  .next (s.lanewise p.val (.vshl p o) o 1 (fun _ a b => a <<< (b.toNat % 32)))
/-- VSHR: logical. -/
def execVshr (p : Pos) (o : VOp) (s : State) : Host.Outcome State Fault Refusal :=
  .next (s.lanewise p.val (.vshr p o) o 1 (fun _ a b => a >>> (b.toNat % 32)))

/-! ### FP64 on register pairs (R127) -/

/-- Element `j` of a register pair. -/
def State.pairAt (s : State) (p n j : Nat) : Nat :=
  (lane (s.vReg p n) j).toNat + 2 ^ 32 * (lane (s.vReg p (n + 1)) j).toNat

/-- Write a pair of registers under the predicate. -/
def State.writePair (s : State) (p : Nat) (o : VOp) (lat : Nat) (xs : List Nat) (mask : BitVec 256) : State :=
  let s := s.pendOp p (.v o.vd.toNat) lat 2 (ofLanes (xs.map (BitVec.ofNat 32))) mask
  s.pendOp p (.v (o.vd.toNat + 1)) lat 2 (ofLanes (xs.map (fun x => BitVec.ofNat 32 (x / 2 ^ 32)))) mask

/-- Whether a register field names a pair: even (R127). -/
def evenReg (r : BitVec 5) : Bool := r.toNat % 2 == 0

/-- A lane-wise FP64 operation (R127). -/
def State.fp64Op (s : State) (p : Nat) (i : Instr) (o : VOp) (useC : Bool) (f : FpVal → FpVal → FpVal → FpVal) : State :=
  s.vOp p i o (modOk o .none && evenReg o.vd && evenReg o.va && evenReg o.vb && (!useC || evenReg o.vc)) 4 (fun s =>
    s.writePair p o 8 ((List.range 64).map (fun j =>
      fp64.enc .rne (f (fp64.dec (s.pairAt p o.va.toNat j)) (fp64.dec (s.pairAt p o.vb.toNat j))
        (fp64.dec (s.pairAt p o.vc.toNat j))))) (s.vMask p o))

/-- DADD (R127). -/
def execDadd (p : Pos) (o : VOp) (s : State) : Host.Outcome State Fault Refusal :=
  .next (s.fp64Op p.val (.dadd p o) o false (fun a b _ => FpVal.add a b))
/-- DMUL (R127). -/
def execDmul (p : Pos) (o : VOp) (s : State) : Host.Outcome State Fault Refusal :=
  .next (s.fp64Op p.val (.dmul p o) o false (fun a b _ => FpVal.mul a b))
/-- DFMA (R127). -/
def execDfma (p : Pos) (o : VOp) (s : State) : Host.Outcome State Fault Refusal :=
  .next (s.fp64Op p.val (.dfma p o) o true (fun a b c => FpVal.add (FpVal.mul a b) c))

/-- DRSUM (R125, R127): the tree of R125 in FP64, written to every element. -/
def execDrsum (p : Pos) (o : VOp) (s : State) : Host.Outcome State Fault Refusal :=
  .next (s.vOp p.val (.drsum p o) o (modOk o .none && evenReg o.vd && evenReg o.va) 4 (fun s =>
    let m := s.predicate p.val o.pm
    let xs := (List.range 64).map (fun j => if m.getLsbD j then s.pairAt p.val o.va.toNat j else 0)
    let r := rowReduce (fun a b => fp64.enc .rne (FpVal.add (fp64.dec a) (fp64.dec b))) xs 0
    s.writePair p.val o 12 (List.replicate 64 r) fullMask))

/-- DCVT (R123): FP64 from FP32 exactly, or FP32 from FP64 rounded to nearest even. -/
def execDcvt (p : Pos) (o : VOp) (s : State) : Host.Outcome State Fault Refusal :=
  .next (
    if o.imm % 2 = 0 then
      s.vOp p.val (.dcvt p o) o (modOk o .none && evenReg o.vd) 4 (fun s =>
        s.writePair p.val o 8 ((lanesOf (s.vReg p.val o.va.toNat)).map (fun w =>
          fp64.enc .rne (fp32.dec w.toNat))) (s.vMask p.val o))
    else
      s.vOp p.val (.dcvt p o) o (modOk o .none && evenReg o.va) 4 (fun s =>
        s.vWrite p.val o 8 ((List.range 64).map (fun j => f32 (fp64.dec (s.pairAt p.val o.va.toNat j))))))

/-! ### Conversions (R123, R128) -/

/-- The packed code of element j in a register image (R85, R128). -/
def packedCode (f : Elem) (v : Vec) (j : Nat) : Nat := (v >>> (f.bits * j)).toNat % 2 ^ f.bits

/-- VCVF (R128): each element's exact value, rounded once to FP32. -/
def execVcvf (p : Pos) (o : VOp) (s : State) : Host.Outcome State Fault Refusal :=
  .next (s.vOp p.val (.vcvf p o) o (modOk o .none && (elemOf (o.imm % 16)).isSome) 1 (fun s =>
    let f := (elemOf (o.imm % 16)).getD e4m3
    let a := s.vReg p.val o.va.toNat
    let b := s.vReg p.val o.vb.toNat
    s.vWrite p.val o 4 ((List.range 64).map (fun j =>
      let sc := (lane b (j / 32)).toNat % 256
      if sc = 0xFF then 0x7FC00000
      else f32 ((f.dec (packedCode f a j)).scale ((sc : Int) - 127))))))

/-- The codes of a block of values, their scale and the number of saturations (R90, R91). -/
def convBlock (f : Elem) (rnd : Nat → Rnd) (vs : List FpVal) : List Nat × Nat × Nat :=
  let sc := blockScale f vs
  if sc = 0xFF then (vs.map (fun _ => 0), sc, 0)
  else
    let cs := vs.zipIdx.map (fun x => f.enc (rnd x.2) (x.1.scale (127 - (sc : Int))))
    (cs.map (·.1), sc, (cs.filter (·.2)).length)

/-- VCVM (R128): two blocks of 32 lanes into packed codes in vd and scales in lanes 0 and 1 of vc. -/
def execVcvm (p : Pos) (o : VOp) (s : State) : Host.Outcome State Fault Refusal :=
  .next (s.vOp p.val (.vcvm p o) o (modOk o .sr && (elemOf (o.imm % 16)).isSome) 1 (fun s =>
    let f := (elemOf (o.imm % 16)).getD e4m3
    let vs := (lanesOf (s.vReg p.val o.va.toNat)).map (fun w => fp32.dec w.toNat)
    let (c0, s0, n0) := convBlock f (fun i => s.rndOf p.val o i) (vs.take 32)
    let (c1, s1, n1) := convBlock f (fun i => s.rndOf p.val o (32 + i)) (vs.drop 32)
    let img := ((c0 ++ c1).zipIdx.map (fun c => c.1 * 2 ^ (f.bits * c.2))).foldl (· + ·) 0
    let s' := s.pendOp p.val (.v o.vd.toNat) 4 2 (BitVec.ofNat 2048 img) (s.vMask p.val o)
    let s' := s'.pendOp p.val (.v o.vc.toNat) 4 2 (BitVec.ofNat 2048 (s0 + 2 ^ 32 * s1)) 3
    ((s'.count 8 p.val 12 (n0 + n1))).drawIdx p.val o))

/-- VCVB (R91, R123): FP32 to BF16, rounded by RND. -/
def execVcvb (p : Pos) (o : VOp) (s : State) : Host.Outcome State Fault Refusal :=
  .next (s.vOp p.val (.vcvb p o) o (modOk o .sr) 1 (fun s =>
    let a := s.vReg p.val o.va.toNat
    (s.vWrite p.val o 4 ((List.range 64).map (fun i =>
      laneCode 1 (s.rndOf p.val o i) (fp32.dec (lane a i).toNat)))).drawIdx p.val o))

/-- FP32 to INT32 (R123): rounded, saturating, NaN to 0. -/
def toInt32 (r : Rnd) (x : FpVal) : Word :=
  match x with
  | .nan => 0
  | .inf neg => if neg then 0x80000000 else 0x7FFFFFFF
  | .fin neg m e =>
    let n := roundInt m e r
    if neg then (if 2 ^ 31 ≤ n then 0x80000000 else BitVec.ofInt 32 (-(n : Int)))
    else (if 2 ^ 31 ≤ n then 0x7FFFFFFF else BitVec.ofNat 32 n)

/-- VCVI (R123). -/
def execVcvi (p : Pos) (o : VOp) (s : State) : Host.Outcome State Fault Refusal :=
  .next (
    if o.imm % 2 = 0 then
      s.vOp p.val (.vcvi p o) o (modOk o .noSr) 1 (fun s =>
        s.vWrite p.val o 4 ((lanesOf (s.vReg p.val o.va.toNat)).map (fun w =>
          toInt32 (if o.rnd = 2 then .rz else .rne) (fp32.dec w.toNat))))
    else
      s.vOp p.val (.vcvi p o) o (modOk o .none) 1 (fun s =>
        s.vWrite p.val o 4 ((lanesOf (s.vReg p.val o.va.toNat)).map (fun w => f32 (.ofInt w.toInt 0)))))

end Sys2Proof.Machine
end

