-- ==== Sys2Proof/Machine/Streams.lean ====
section
/-! DEFINITION. Stream contexts and their requests (R245-R262), the activation stack's chunks (R161), the LPDDR5X memory
ports with inline ECC (R264-R272) and the remote-accumulate lanes (R270). -/

namespace Sys2Proof.Machine

/-! ### LPDDR5X (R264-R269) -/

/-- Usable capacity in bytes (R264). -/
def State.lpCap (s : State) : Nat := if (s.mportAt 0).pkg then 579820584960 else 1159641169920
/-- The port of a device address (R268). -/
def portOf (da : Nat) : Nat := Nat.xor (da / 4096 % 16) (da / 65536 % 16)
/-- The line of a device address within its port (R268). -/
def lineOf (da : Nat) : Nat := (da / 65536 * 4096 + da % 4096) / 960
/-- The raw byte of a device address within its port, and its check bytes, four from that byte on; bits of the last four bytes of a
line, two copies, flag its poisoned blocks (R267, R268). -/
def physByte (da : Nat) : Nat := lineOf da * 1024 + (da / 65536 * 4096 + da % 4096) % 960
def checkByte (da : Nat) : Nat := lineOf da * 1024 + 960 + 4 * ((da / 65536 * 4096 + da % 4096) % 960 / 64)
/-- The device address of block `b` of a line of a port: R268 read backward. -/
def lineDa (port line b : Nat) : Nat :=
  let pa := 960 * line + 64 * b
  let hi := pa / 4096
  65536 * hi + 4096 * (Nat.xor port (hi % 16)) + pa % 4096

/-- A 16-bit count that saturates. -/
def sat16 (c : BitVec 16) : BitVec 16 := if c = 0xFFFF then c else c + 1

/-- A port takes an access: it leaves self-refresh (R448). -/
def State.portUse (s : State) (i : Nat) : State :=
  s.setMport i { s.mportAt i with selfRef := false, lastUse := s.time }

/-- A data block with a poison mark, or without one. -/
def Mem.setPoison (m : Mem) (a : Nat) (on : Bool) : Mem :=
  { m with marks := if on then tset m.marks (a / 8) .poison else tdel m.marks (a / 8) }

/-- A row that is delivered poisoned without data of its own (log entry 15). -/
def State.noRow (s : State) : State × Row := (s.tickFresh, Config.poisonRow s.fresh)

/-- What reading the block of an address meets, and the events of it (R269): whether the block is uncorrectable or poisoned, which
raises `code`. A corrected block is written back. -/
def State.lpMeet (s : State) (i da : Nat) (code : Code) : State × Bool :=
  let (co, un) := s.lp.ecc (da / 64 * 64) 64
  let m := s.mportAt i
  if un then
    let s := (s.setMport i { m with uncorr := sat16 m.uncorr }).count 3 i 9 1
    ({ s with lp := s.lp.setPoison (da / 64 * 64) true }.raise { code := code, inst := i, detail := da }, true)
  else if co then
    let s := (s.setMport i { m with corr := sat16 m.corr }).count 3 i 8 1
    ({ s with lp := s.lp.cleanWords (da / 64 * 64) 64 }.raise { code := 0x2C01, inst := i, detail := da }, false)
  else (s, false)

/-- The bits [14:0] and [29:15] of a line's check bytes 60 to 63 (R267): its poisoned blocks, twice. -/
def State.poisonBits (s : State) (port line : Nat) : Word :=
  let bits := (List.range 15).foldl (fun (w : Nat) b =>
    if (tget s.lp.marks (lineDa port line b / 8) .good) == .poison then w + 2 ^ b else w) 0
  BitVec.ofNat 32 (bits + 2 ^ 15 * bits)

/-- The read of a 64 B block: its data and whether it is poisoned (R268, R269, R232). -/
def State.lpRead (s : State) (da : Nat) : State × Row × Bool :=
  let i := portOf da
  if s.lpCap ≤ da then
    let (s, v) := (s.raise { code := 0x2C03, inst := i, detail := da }).noRow
    (s, v, true)
  else if s.underScrub 2 da then (s.scrubRefuse 2 da 0xFF, 0, false)
  else
    let s := ((s.portUse i).count 3 i 0 64).bw i false 64
    let v := BitVec.ofNat 512 (s.lp.read da 64)
    let (s, un) := s.lpMeet i da 0x2C02
    (s, v, un)

/-- The write of a 64 B block under a byte mask (R268, R269). -/
def State.lpWrite (s : State) (da : Nat) (v : Row) (mask : BitVec 64) (poison : Bool) : State :=
  let i := portOf da
  if s.lpCap ≤ da then s.raise { code := 0x2C03, inst := i, detail := da }
  else if s.underScrub 2 da then s.scrubRefuse 2 da 0xFF
  else
    let s := ((s.portUse i).count 3 i 1 64).bw i true 64
    let (s, un) := if mask = BitVec.allOnes 64 then (s, false) else s.lpMeet i da 0x2C02
    let m := (s.lp.write da v.toNat mask.toNat 64).cleanWords da 64
    { s with lp := m.setPoison da (poison || un) }

/-- A byte range read or written block by block, as the firmware and remote operations move it. -/
def State.lpReadBytes (s : State) (da n : Nat) : State × List Byte × Bool :=
  (List.range ((da % 64 + n + 63) / 64)).foldl (fun acc k =>
    let (s, bs, po) := acc
    let (s, v, p) := s.lpRead (da / 64 * 64 + 64 * k)
    let row := bytesOf v.toNat 64
    let lo := if k = 0 then da % 64 else 0
    (s, (bs ++ row.drop lo).take n, po || p)) (s, [], false)
def State.lpWriteBytes (s : State) (da : Nat) (bs : List Byte) (poison : Bool) : State :=
  (List.range ((da % 64 + bs.length + 63) / 64)).foldl (fun s k =>
    let a := da / 64 * 64 + 64 * k
    let at_ (j : Nat) : Option Byte := if a + j < da then none else bs[a + j - da]?
    let js := List.range 64
    let v := BitVec.ofNat 512 (ofBytes (js.map (fun j => (at_ j).getD 0)))
    let mask := BitVec.ofNat 64 ((js.map (fun j => if (at_ j).isSome then 2 ^ j else 0)).foldl (· + ·) 0)
    s.lpWrite a v mask poison) s

/-- A request of 64 B at any byte: block by block over the ports it touches (R252, R268). -/
def State.lpReadAny (s : State) (da : Nat) : State × Row × Bool :=
  if da % 64 = 0 then s.lpRead da
  else
    let (s, bs, po) := s.lpReadBytes da 64
    (s, BitVec.ofNat 512 (ofBytes bs), po)
def State.lpWriteAny (s : State) (da : Nat) (v : Row) (poison : Bool) : State :=
  if da % 64 = 0 then s.lpWrite da v (BitVec.allOnes 64) poison else s.lpWriteBytes da (bytesOf v.toNat 64) poison

/-! ### Deck accesses of a 64 B unit (R217, R218) -/

/-- A tier 3 access of a granule: its own one, which asks for the half-bank, or a further unit of one that has it (R219, R220). -/
def State.deckAccess (s : State) (p g n : Nat) (own : Bool) : State × Access :=
  if own then s.deckTake p g n else s.deckTier3 p g n

/-- The read of unit `w` of a granule. -/
def State.deckUnit (s : State) (p g w : Nat) (own : Bool) : State × Row × Bool × Access :=
  let (s, acc) := s.deckAccess p g 1 own
  match acc with
  | .ok =>
    let a := deckAddr p g + 64 * w
    let bad := (s.deck.ecc a 64).2
    ((s.deckEcc p a 64 false).bw (68 + p) false 64, BitVec.ofNat 512 (s.deck.read a 64), bad, .ok)
  | x => (s, 0, false, x)

/-- The write of unit `w` of a granule; `full` when the access writes the whole granule, unmasked. -/
def State.putDeckUnit (s : State) (p g w : Nat) (v : Row) (poison full own : Bool) : State × Access :=
  let (s, acc) := s.deckAccess p g (if full && w != 3 then 0 else 1) own
  match acc with
  | .ok =>
    let a := deckAddr p g + 64 * w
    let s := if full then s else s.deckEcc p a 64 false
    let m := s.deck.write a v.toNat (2 ^ 64 - 1) 64
    let m := if full then m.cleanWords a 64 else m.mergeWords a 64
    let m := if poison then { m with marks := (List.range 8).foldl (fun t k => tset t (a / 8 + k) .poison) m.marks } else m
    (({ s with deck := m }).bw (68 + p) true 64, .ok)
  | x => (s, x)

/-! ### Contexts (R245-R251) -/

def CtxSt.size (x : CtxSt) : Nat := match x.desc with | some b => b.size | none => 0
def CtxSt.isFill (x : CtxSt) : Bool := match x.desc with | some b => b.kind == 1 | none => false

/-- A granule's state set; a free one is not listed. -/
def CtxSt.setGran (x : CtxSt) (g : Nat) (st : GranSt) : CtxSt :=
  { x with grans := if st = .free then tdel x.grans g else tset x.grans g st }

/-- A of R257: published granules of a fill, free granules of a drain. -/
def CtxSt.slack (x : CtxSt) : Nat := if x.isFill then x.grans.length else x.size - x.grans.length

/-- The deadline of a request issued now (R257). -/
def CtxSt.deadline (x : CtxSt) (now : Nat) : Option Nat :=
  match x.desc with
  | some b => if b.rate = 0 then none else some (now + x.slack * 327680 / (b.rate * 37))
  | none => none

/-- An event of a context (R273, R458): a core's in its leaf, another's in its block's. -/
def State.ctxEvent (s : State) (k : Nat) (code : Code) (far : Nat) : State :=
  if ctxBlk k = 0 then s.raiseAt code (ctxUnit k) 0xA (ctxNum k) far
  else s.raise { code := code, inst := ctxUnit k, blk := ctxBlk k, detail := far }

/-- The near unit of a context: in its buffer's deck granules, or in its staging range. -/
def State.nearRead (s : State) (k near : Nat) (own : Bool) : State × Row × Bool × Access :=
  let x := s.ctxAt k
  if ctxBlk k = 0 then
    s.deckUnit (ctxUnit k) (((x.desc.map (·.base)).getD 0) + near / 4) (near % 4) own
  else
    let (s, v, po) := s.lpRead (x.stage + 64 * near)
    (s, v, po, .ok)
def State.nearWrite (s : State) (k near : Nat) (v : Row) (poison full own : Bool) : State × Access :=
  let x := s.ctxAt k
  if ctxBlk k = 0 then
    s.putDeckUnit (ctxUnit k) (((x.desc.map (·.base)).getD 0) + near / 4) (near % 4) v poison full own
  else (s.lpWrite (x.stage + 64 * near) v (BitVec.allOnes 64) poison, .ok)

/-! ### Requests (R256-R258) -/

/-- Whether a request moves a unit of granule `g` of context `k`. -/
def Req.touches (r : Req) (k g : Nat) : Bool :=
  r.ctx == k && (match r.kind with | .unit n _ => n / 4 == g | _ => false)
/-- Whether any open request of context `k` touches granule `g`. -/
def State.openTouch (s : State) (k g : Nat) : Bool := s.queue.any (fun q => q.2.reqs.any (fun r => r.touches k g))

/-- Room for `n` more requests in a queue of 512 (R258). -/
def State.room (s : State) (qk n : Nat) : Bool := decide ((s.queueAt qk).reqs.length + n ≤ 512)

/-- Put a request at the end of a queue with the next number. -/
def State.enqueue (s : State) (qk : Nat) (r : Req) : State :=
  let q := s.queueAt qk
  { s.setQueue qk { q with reqs := q.reqs ++ [{ r with id := s.reqNo }] } with reqNo := s.reqNo + 1 }

/-- Take a request out of a queue. -/
def State.dequeue (s : State) (qk id : Nat) : State :=
  let q := s.queueAt qk
  s.setQueue qk { q with reqs := q.reqs.filter (fun r => r.id != id) }

/-- The earlier deadline of two requests; arrival order decides between equals. -/
def earlier (a b : Req) : Req :=
  match a.deadline, b.deadline with
  | some x, some y => if y < x then b else a
  | none, some _ => b
  | _, none => a

/-- The request that a block serves next among those that are ready (R258): the earliest deadline; without one only when
none with a deadline is ready, or as one in 64. -/
def QueueSt.pick (q : QueueSt) (ready : Req → Bool) : Option Req :=
  let rs := q.reqs.filter ready
  let bg := rs.find? (fun r => r.deadline.isNone)
  if 63 ≤ q.since && bg.isSome then bg
  else match rs with
    | [] => none
    | r :: t => some (t.foldl earlier r)

/-- The queue after a request has been served (R258). -/
def State.served (s : State) (qk : Nat) (r : Req) : State :=
  let q := s.queueAt qk
  let bg := q.reqs.any (fun x => x.deadline.isNone)
  s.setQueue qk { q with since := if r.deadline.isNone || !bg then 0 else q.since + 1 }

/-- Whether a request completes after its deadline. -/
def State.isLate (s : State) (r : Req) : Bool := match r.deadline with | some d => decide (d < s.time) | none => false

/-- The near side of a write request is read (R250). -/
def State.sourceRow (s : State) (r : Req) (own : Bool) : State × Row × Bool × Access :=
  match r.kind with
  | .unit near _ => s.nearRead r.ctx near own
  | .spill p u =>
    match (s.stkAt p).desc with
    | some d => s.deckUnit p (d.base + u / 4 % max d.size 1) (u % 4) own
    | none => (s, 0, false, .ok)
  | .acc v po => (s, v, po, .ok)
  | _ => (s, 0, false, .ok)

/-- The near side of a read request is written (R249, R161). -/
def State.sinkRow (s : State) (r : Req) (v : Row) (poison own : Bool) : State × Access :=
  match r.kind with
  | .unit near full => s.nearWrite r.ctx near v poison full own
  | .fill p u =>
    match (s.stkAt p).desc with
    | some d =>
      let (s, acc) := s.putDeckUnit p (d.base + u / 4 % max d.size 1) (u % 4) v poison true own
      let k := s.stkAt p
      (if poison && acc != .wait && !k.bad.contains (u / 4) then s.setStk p { k with bad := k.bad ++ [u / 4] } else s, acc)
    | none => (s, .ok)
  | _ => (s, .ok)

/-- Whether two requests touch a 64 B row in common. -/
def sameRow (a b : Nat) : Bool := a / 64 ≤ (b + 63) / 64 && b / 64 ≤ (a + 63) / 64

/-- Whether a request of a memory port is the first in the queue that touches its row: those of one row are applied in the order in
which they arrived (R271). -/
def QueueSt.firstOfRow (q : QueueSt) (r : Req) : Bool :=
  match q.reqs.find? (fun x => sameRow x.addr r.addr) with
  | some x => x.id == r.id
  | none => true

/-- A request has completed: its context has one less open, a drain's granule has one unit more read and is free after
its fourth (R250), a stack's chunk has moved one unit more (R161). -/
def State.unitDone (s : State) (r : Req) : State :=
  match r.kind with
  | .unit near _ =>
    let x := s.ctxAt r.ctx
    let x := { x with open_ := x.open_ - 1 }
    if r.isWrite then
      match tget x.grans (near / 4) .free with
      | .produced rd =>
        let rd := rd ||| (1#4 <<< (near % 4))
        s.setCtx r.ctx (x.setGran (near / 4) (if rd = 15 then .free else .produced rd))
      | _ => s.setCtx r.ctx x
    else s.setCtx r.ctx x
  | .spill p _ | .fill p _ =>
    let k := s.stkAt p
    s.setStk p { k with chunk := k.chunk.map (fun c => (c.1, c.2.1, c.2.2 + 1)) }
  | _ => s

/-- A request ends without its far side (R327, R343, R392): a read delivers `v` poisoned, a write is dropped. -/
def State.failReq (s : State) (qk : Nat) (r : Req) (v : Row) : State :=
  let s := s.dequeue qk r.id
  let s := if r.isWrite then s else (s.sinkRow r v true false).1
  s.unitDone r

/-! ### A memory port serves (R258, R266) -/

/-- The far side of an accumulate (R270, R271): the port resolves (R270, R271). -/
def State.accLp (s : State) (da : Nat) (v : Row) (poison agrees : Bool) : State :=
  let i := portOf da
  if s.lpCap ≤ da then s.raise { code := 0x2C03, inst := i, detail := da }
  else if s.underScrub 2 da then s.scrubRefuse 2 da 0xFF
  else
    let old := BitVec.ofNat 512 (s.lp.read da 64)
    let s := (((s.portUse i).count 3 i 0 64).count 3 i 1 64).count 3 i 2 1
    let s := (s.bw i false 64).bw i true 64
    let (s, un) := s.lpMeet i da 0x2C04
    let m := (s.lp.write da (addRows 0 old v).toNat (2 ^ 64 - 1) 64).cleanWords da 64
    let s := { s with lp := m.setPoison da (un || poison || !agrees) }
    if agrees then s else s.raise { code := 0x2C08, inst := i, detail := da }

/-- Whether something of R265 or R266 blocks a line of a port now. -/
def MportSt.blockedAt (m : MportSt) (now bank : Nat) : Bool :=
  m.blocked.any (fun b => decide (now < b.2) && (b.1 == 100 || b.1 == 64 + bank / 16 || b.1 == bank))

/-- The bank of a device address in its port: 16 · channel + bank (log entry 14). -/
def bankOf (da : Nat) : Nat := Config.lineBank (portOf da) (lineOf da) % 64

/-- MEMORY_PORT_REQUEST (R258, R271): the port serves the earliest deadline among the requests whose bank, channel and port
are not blocked and that are the first of their row. A request over two blocks waits at the port of its first one (DESIGN CHOICE, log
entry 97). -/
def execMemoryPortRequest (i : Port) (s : State) : Host.Outcome State Fault Refusal :=
  .next (
    let qk := queueKey 0 i.val
    let q := s.queueAt qk
    let m := s.mportAt i.val
    match q.pick (fun r => m.trained && !m.blockedAt s.time (bankOf r.addr) && q.firstOfRow r) with
    | none => s
    | some r =>
      let fin (t : State) : State :=
        let t := (t.dequeue qk r.id).served qk r
        let t := (t.unitDone r).count 3 i.val 3 1
        if s.isLate r then t.count 3 i.val 4 1 else t
      match r.kind with
      | .acc v po => fin (s.accLp r.addr v po true)
      | _ =>
        if r.isWrite then
          let (t, v, po, acc) := s.sourceRow r true
          if acc = .wait then s.waitBank t (.memoryPortRequest i)
          else if acc = .refused then fin t
          else fin (t.lpWriteAny r.addr v po)
        else
          let (t, v, po) := s.lpReadAny r.addr
          let (t, acc) := t.sinkRow r v po true
          if acc = .wait then s.waitBank t (.memoryPortRequest i) else fin t)

/-- LPDDR5X_REQUEST_TIMEOUT (R269): a request 1 ms after its issue raises 0x2C.05 and completes poisoned. -/
def execLpddr5xRequestTimeout (i : Port) (id : Nat) (s : State) : Host.Outcome State Fault Refusal :=
  .next (
    let qk := queueKey 0 i.val
    match (s.queueAt qk).reqs.find? (fun r => r.id == id && decide (r.issued + 4000000 ≤ s.time)) with
    | none => s
    | some r =>
      let (s, v) := (s.raise { code := 0x2C05, inst := i.val, detail := r.addr }).noRow
      s.failReq qk r v)

/-- A block of some bank, channel or port until a moment (R265, R266); blocks that have passed are dropped. -/
def State.blockPort (s : State) (i key until_ : Nat) : State :=
  let m := s.mportAt i
  s.setMport i { m with blocked := m.blocked.filter (fun b => decide (s.time < b.2)) ++ [(key, until_)] }

/-- REFRESH (R266): one bank of one channel, 280 ns. -/
def execRefresh (i : Port) (chan : Fin 4) (bank : Fin 16) (s : State) : Host.Outcome State Fault Refusal :=
  .next ((s.blockPort i.val (16 * chan.val + bank.val) (s.time + 1120)).count 3 i.val 6 1)

/-- MR4_POLL (R266): the refresh multiplier. -/
def execMr4Poll (i : Port) (mult : BitVec 2) (s : State) : Host.Outcome State Fault Refusal :=
  .next (if mult = 3 then s else s.setMport i.val { s.mportAt i.val with refmult := mult })

/-- A retrain (R265): the port, or one channel of it, until a moment; notice 0x2C.06. -/
def State.retrainPort (s : State) (i key until_ : Nat) : State :=
  let s := (s.blockPort i key until_).count 3 i 7 1
  (s.setMport i { s.mportAt i with retrainTo := max (s.mportAt i).retrainTo until_ }).raise { code := 0x2C06, inst := i }

/-- WCK_OSCILLATOR_READ (R265): the read blocks the channel for 1 µs, a retrain of a drifted one for 4 µs more. -/
def execWckOscillatorRead (i : Port) (chan : Fin 4) (drifted : Bool) (s : State) : Host.Outcome State Fault Refusal :=
  .next (
    let s := s.blockPort i.val (64 + chan.val) (s.time + 4000)
    if drifted then s.retrainPort i.val (64 + chan.val) (s.time + 20000) else s)

/-- PORT_FULL_RETRAIN (R265): the whole port, 20 µs. -/
def execPortFullRetrain (i : Port) (s : State) : Host.Outcome State Fault Refusal :=
  .next (s.retrainPort i.val 100 (s.time + 80000))

/-- One block of a patrolled line (R269). -/
def State.patrolBlock (s : State) (i da : Nat) : State :=
  if s.lpCap ≤ da then s
  else match s.lp.marks.find? (fun c => c.1 == da / 8) with
    | some (_, .uncorrectable) =>
      let m := s.mportAt i
      let s := (s.setMport i { m with uncorr := sat16 m.uncorr }).count 3 i 9 1
      ({ s with lp := s.lp.setPoison da true }).raise { code := 0x2C07, inst := i, detail := da }
    | some (_, .corrected) =>
      let m := s.mportAt i
      let s := (s.setMport i { m with corr := sat16 m.corr }).count 3 i 8 1
      ({ s with lp := s.lp.cleanWords da 64 }).raise { code := 0x2C01, inst := i, detail := da }
    | _ => s

/-- LPDDR5X_PATROL (R269): one line of one port. -/
def execLpddr5xPatrol (i : Port) (line : Nat) (s : State) : Host.Outcome State Fault Refusal :=
  .next ((List.range 15).foldl (fun s b => s.patrolBlock i.val (lineDa i.val line b)) (s.count 3 i.val 10 1))

/-- SELF_REFRESH_ENTRY (R448): no program runs or stands stopped, and no access for 10 ms. -/
def execSelfRefreshEntry (i : Port) (s : State) : Host.Outcome State Fault Refusal :=
  .next (
    let m := s.mportAt i.val
    if s.frm.phase = 0 && m.trained && decide (m.lastUse + 40000000 ≤ s.time) then
      s.setMport i.val { m with selfRef := true }
    else s)

/-! ### Remote-accumulate lanes (R270, R271) -/

/-- A remote accumulate of a row of a deck column (R270, R218). -/
def State.accDeck (s : State) (addr : Nat) (v : Row) (poison agrees : Bool) : State :=
  let p := addr / 67108864
  let g := addr % 67108864 / 256
  let (s, acc) := s.deckTier3 p g 1
  match acc with
  | .ok =>
    let a := addr / 64 * 64
    let s := s.deckEcc p a 64 false
    let old := BitVec.ofNat 512 (s.deck.read a 64)
    let m := (s.deck.write a (addRows 0 old v).toNat (2 ^ 64 - 1) 64).mergeWords a 64
    let m := if poison || !agrees then { m with marks := (List.range 8).foldl (fun t k => tset t (a / 8 + k) .poison) m.marks }
             else m
    let s := ({ s with deck := m }).count 7 p 3 1
    let s := (s.bw (68 + p) false 64).bw (68 + p) true 64
    if agrees then s else s.raise { code := 0x2C08, pos := p, detail := addr }
  | _ => s

/-- The module in service that carries a host request (log entry 16). -/
def State.moduleFor (s : State) (hpa : Nat) : Nat :=
  let ms := (List.range 4).filter (fun m => s.host.modules.getLsbD m)
  (ms[Config.hostModule hpa % max ms.length 1]?).getD 0

/-- Where a device access to LPDDR5X goes (R383): the memory port of a page in device bias; for a page in host bias the
host link, at its host address. -/
def State.lpRoute (s : State) (da : Nat) : Nat × Nat × Option Nat :=
  if inPages s.host.devBias (da / 4096) then (queueKey 0 (portOf da), da, none)
  else (queueKey 3 (s.moduleFor (Config.hdmBase + da)), Config.hdmBase + da, some da)

/-- A remote accumulate of one row (R270, R271, R383). A zero marker touches nothing; behind requests for its row it waits in the port's
queue. -/
def State.accumulate (s : State) (deck : Bool) (addr : Nat) (v : Row) (zero poison agrees : Bool) : State :=
  if zero then s
  else if deck then s.accDeck addr v poison agrees
  else
    let (qk, a, da) := s.lpRoute addr
    if da.isNone && !(s.queueAt qk).reqs.any (fun r => sameRow r.addr addr) then s.accLp addr v poison agrees
    else
      let s := s.enqueue qk { id := 0, ctx := 0, kind := .acc v (poison || !agrees), isWrite := false, far := 0, addr := a
                              da := da, deadline := none, issued := s.time, sent := false, win := 0, sfn := 0 }
      if agrees then s else s.raise { code := 0x2C08, inst := portOf addr, detail := addr }

/-- Whether an accumulate of a row of LPDDR5X can be taken (R258, R271): nothing waits for its row, or the queue and the port's
table of 64 rows have room for it. -/
def State.accRoom (s : State) (addr : Nat) : Bool :=
  let (qk, a, da) := s.lpRoute addr
  let q := s.queueAt qk
  let rows := (q.reqs.filterMap (fun r => match r.kind with | .acc _ _ => some (r.addr / 64) | _ => none)).eraseDups
  (da.isNone && !q.reqs.any (fun r => sameRow r.addr a)) ||
    (s.room qk 1 && (da.isSome || rows.contains (a / 64) || decide (rows.length < 64)))

/-- REMOTE_ACCUMULATE (R270). -/
def execRemoteAccumulate (space : Fin 2) (addr : Nat) (vals : Row) (zero poison adderAgrees : Bool) (s : State) :
    Host.Outcome State Fault Refusal :=
  if wfAccumulate addr then
    .next (
      let i : Instr := .remoteAccumulate space addr vals zero poison adderAgrees
      let p := addr / 67108864
      let g := addr % 67108864 / 256
      if !zero && space = 0 && !s.accRoom addr then s.waitBank s i
      else if zero || space = 0 || s.granSaved p g then s.accumulate (space == 1) addr vals zero poison adderAgrees
      else if s.granWake p g then s.waitBank s i
      else if s.deckState p g ≠ 0 then s.accumulate true addr vals zero poison adderAgrees
      else match s.takeBank p (deckBankKey p g) with
        | (t, .ok) => t.accumulate true addr vals zero poison adderAgrees
        | (t, _) => s.waitBank t i)
  else .refused (.illFormed "REMOTE_ACCUMULATE")

/-! ### The activation stack's chunks (R161, R162) -/

/-- Whether contexts may issue new requests (R262): a program runs and is not stopping or stopped. -/
def State.streamsRun (s : State) : Bool := (s.frm.phase == 1 || s.frm.phase == 2) && s.frm.stopKind != .immediate

/-- The requests of a chunk: 256 units from unit `u0` on, at the spill address of each (R160). -/
def State.chunkReqs (s : State) (p u0 base : Nat) (spill : Bool) (deadline : Option Nat) : State :=
  (List.range 256).foldl (fun s k =>
    let (qk, a, da) := s.lpRoute (base + 64 * (u0 + k))
    s.enqueue qk { id := 0, ctx := ctxKey 0 p (if spill then 62 else 63), kind := if spill then .spill p (u0 + k) else .fill p (u0 + k)
                   isWrite := spill, far := 0, addr := a, da := da, deadline := deadline, issued := s.time, sent := false
                   win := 0, sfn := 0 }) s

/-- Room for the 64 requests that each 4 KiB page of a chunk adds to its queue. -/
def State.chunkRoom (s : State) (base u0 : Nat) : Bool :=
  let qs := (List.range 4).map (fun k => (s.lpRoute (base + 64 * u0 + 4096 * k)).1)
  qs.all (fun q => s.room q (64 * (qs.filter (· == q)).length))

/-- STACK_SPILL_START (R161, R501): Rc over HIGH, or over LOW while spilling goes on; no chunk in flight. -/
def execStackSpillStart (p : Pos) (s : State) : Host.Outcome State Fault Refusal :=
  .next (
    let k := s.stkAt p.val
    match k.desc with
    | none => s
    | some d =>
      let rc := k.depth - k.rb
      let go := decide (d.high < rc) || (k.spilling && decide (d.low < rc))
      if d.spillSize ≠ 0 && k.chunk.isNone && s.streamsRun && go && s.chunkRoom d.spillBase (4 * k.rb) then
        let s := s.setStk p.val { k with chunk := some (true, k.rb, 0), spilling := true }
        (s.event p.val 0x28 1).chunkReqs p.val (4 * k.rb) d.spillBase true
          (some (s.time + (d.size - rc) * 327680 / (max d.pushRate 1 * 37)))
      else s)

/-- STACK_FILL_START (R161, R501): Rc under AHEAD, something spilled, no chunk in flight. -/
def execStackFillStart (p : Pos) (s : State) : Host.Outcome State Fault Refusal :=
  .next (
    let k := s.stkAt p.val
    match k.desc with
    | none => s
    | some d =>
      let rc := k.depth - k.rb
      if d.spillSize ≠ 0 && k.chunk.isNone && s.streamsRun && decide (rc < d.ahead) && decide (0 < k.rb)
          && s.chunkRoom d.spillBase (4 * (k.rb - 64)) then
        let s := s.setStk p.val { k with chunk := some (false, k.rb - 64, 0), spilling := false }
        (s.event p.val 0x29 1).chunkReqs p.val (4 * (k.rb - 64)) d.spillBase false
          (some (s.time + rc * 327680 / (max d.popRate 1 * 37)))
      else s)

/-- STACK_CHUNK_COMPLETE (R161): all 256 units have moved; Rb moves by 64, and spilling ends at LOW. -/
def execStackChunkComplete (p : Pos) (s : State) : Host.Outcome State Fault Refusal :=
  .next (
    let k := s.stkAt p.val
    match k.chunk, k.desc with
    | some (spill, _, 256), some d =>
      let rb := if spill then k.rb + 64 else k.rb - 64
      s.setStk p.val { k with chunk := none, rb := rb, spilling := k.spilling && decide (d.low < k.depth - rb)
                              bad := if spill then k.bad.filter (fun g => decide (rb ≤ g)) else k.bad }
    | _, _ => s)

end Sys2Proof.Machine
end

