-- ==== Sys2Proof/Machine/Depot.lean ====
section
/-! DEFINITION. The Depot flash tier (R294-R327): placement, channel buffers, programs and mapping, reads with recovery,
blocks and LUNs, the journal, and the Depot's own moves. -/

namespace Sys2Proof.Machine

/-! ### Geometry (R294, R299-R303) -/

/-- Stripe width w (R300, R326). -/
def DepotSt.w (d : DepotSt) : Nat := match d.width.toNat with | 0 => 8 | 1 => 16 | _ => 32
def DepotSt.chanAt (d : DepotSt) (c : Nat) : DepotChan := tget d.chans c .reset
def DepotSt.setChan (d : DepotSt) (c : Nat) (x : DepotChan) : DepotSt := { d with chans := tset d.chans c x }
/-- LUNs per target, and LUNs of a channel. -/
def DepotSt.lunsPer (d : DepotSt) : Nat := 2 ^ (d.chanAt 0).luns.toNat
def DepotSt.lunsOf (d : DepotSt) : Nat := ((d.chanAt 0).targets.toNat + 1) * d.lunsPer
/-- Usable capacity in units (R302). -/
def DepotSt.usable (d : DepotSt) : Nat :=
  32 * d.lunsOf * Config.flashLunBytes * (d.w - 1) * 93 / (d.w * 100 * 65536)
/-- Bytes of LPDDR5X that the mapping table takes (R303). -/
def DepotSt.tableBytes (d : DepotSt) : Nat := (8 * d.usable + 1073741823) / 1073741824 * 1073741824
/-- The key of a unit of a namespace. -/
def unitKey (ns unit : Nat) : Nat := 17179869184 * ns + unit
/-- The address of a byte of a namespace in the model's flash memories. -/
def flashAddr (ns off : Nat) : Nat := 1125899906842624 * ns + off

def State.onDepot (s : State) (f : DepotSt → DepotSt) : State := { s with depot := f s.depot }

/-- The working channels of a group. -/
def DepotSt.live (d : DepotSt) (g : Nat) : List Nat :=
  ((List.range d.w).map (fun k => d.w * g + k)).filter (fun c => !(d.chanAt c).failed)

/-- Where the next unit goes (R300, R301): its channel and stripe; a full stripe's parity unit is programmed with it. -/
def DepotSt.place (d : DepotSt) : DepotSt × Nat × Nat :=
  let groups := 32 / d.w
  let g := d.rot % groups
  let (n, used) := tget d.stripes g (0, 0)
  let live := d.live g
  let par := n % max live.length 1
  let c := (live[if used < par then used else used + 1]?).getD (d.w * g)
  let d := if used + 2 < live.length then { d with stripes := tset d.stripes g (n, used + 1) }
    else { d with stripes := tset d.stripes g (n + 1, 0), rot := (g + 1) % groups, programmed := d.programmed + 65536 }
  (d, c, n)

/-- Retired blocks and mapped units of a group, and R317's read-only rule. -/
def DepotSt.wearOut (d : DepotSt) : DepotSt :=
  let full := (List.range (32 / d.w)).any (fun g =>
    Config.groupFull g ((d.map.filter (fun e => e.2.1 / d.w == g)).length)
      ((d.blocks.filter (fun b => b.2.retired && b.1 / 134217728 / d.w == g)).length))
  if d.state = 1 && full then { d with state := 2 } else d

/-- A range of bytes of one memory as another holds it; both read 0 where nothing is listed. -/
def Mem.copyRange (dst src : Mem) (lo hi : Nat) : Mem :=
  let inR (k : Nat) : Bool := decide (lo ≤ k) && decide (k < hi)
  { dst with
    cells := dst.cells.filter (fun c => decide (c.1 < lo)) ++ src.cells.filter (fun c => inR c.1)
             ++ dst.cells.filter (fun c => decide (hi ≤ c.1))
    marks := dst.marks.filter (fun c => decide (8 * c.1 < lo)) ++ src.marks.filter (fun c => inR (8 * c.1))
             ++ dst.marks.filter (fun c => decide (hi ≤ 8 * c.1)) }

/-! ### Namespaces (R304-R308) -/

/-- A channel event of R327. -/
def State.chanEvent (s : State) (code : Code) (ch ns off : Nat) : State :=
  s.raise { code := code, inst := ch, blk := 1, aux := ns, detail := off }
/-- An event of the Depot as a whole. -/
def State.depotEvent (s : State) (code : Code) (ns off : Nat) : State := s.raise { code := code, aux := ns, detail := off }

/-- Whether a namespace kind allows a waybill's read, and its write (R304). -/
def kindReads (k : Nat) : Bool := k != 1
def kindWrites (k : Nat) : Bool := k == 2

/-- The unit of a namespace that is open in a channel buffer. -/
def DepotSt.openUnit (d : DepotSt) (ns unit : Nat) : Option DepotUnit :=
  d.bufs.find? (fun u => u.ns == ns && u.unit == unit && !u.closed)

/-- The channel that a read of a unit goes to: that of its newest copy (R309); for a unit never written, which occupies no
flash (R306), channel unit mod 32 (log entry 22). -/
def DepotSt.readChan (d : DepotSt) (ns unit : Nat) : Nat :=
  match (d.bufs.filter (fun u => u.ns == ns && u.unit == unit)).getLast? with
  | some u => u.chan
  | none => match tfind d.map (unitKey ns unit) with | some (c, _) => c | none => unit % 32

/-- Units in the channel buffer of a channel, of 1 MiB (R307). -/
def DepotSt.buffered (d : DepotSt) (c : Nat) : Nat := (d.bufs.filter (fun u => u.chan == c)).length

/-- The channel that a write of a unit goes to: that of its open unit, or of a new one opened for it; none while the
channel buffer is full. -/
def DepotSt.writeChan (d : DepotSt) (ns unit now : Nat) (ctx : Option Nat) : Option (DepotSt × Nat) :=
  match d.openUnit ns unit with
  | some u => some (d, u.chan)
  | none =>
    let (d', c, n) := d.place
    if d.buffered c < 16 then
      some ({ d' with bufs := d'.bufs ++ [{ ns := ns, unit := unit, chan := c, stripe := n, lastWrite := now, ctx := ctx
                                            written := 0, closed := false }] }, c)
    else none

/-- Close the open units that satisfy a test (R307); one that nothing was written to is dropped. -/
def DepotSt.closeUnits (d : DepotSt) (p : DepotUnit → Bool) : DepotSt :=
  { d with bufs := (d.bufs.filter (fun u => u.closed || u.written != 0 || !p u)).map (fun u =>
      if p u then { u with closed := true } else u) }

/-- Data of one 64 B block accepted into a channel buffer (R307, R309, R310, R321). -/
def DepotSt.accept (d : DepotSt) (ns off now : Nat) (v : Row) (poison : Bool) : DepotSt :=
  let a := flashAddr ns off
  let m := (d.data.write a v.toNat (2 ^ 64 - 1) 64).setPoison a poison
  let bit := 2 ^ (off % 65536 / 64)
  { d with
    data := m, accepted := d.accepted + 64, quiesced := false, clean := false
    bufs := d.bufs.map (fun u =>
      if u.ns == ns && u.unit == off / 65536 && !u.closed then
        let w := Nat.lor u.written bit
        { u with written := w, lastWrite := now, closed := w == 2 ^ 1024 - 1 }
      else u) }

/-- The counters of a channel write, and the Depot's use (R448). -/
def State.chanUse (s : State) (c : Nat) : State :=
  s.onDepot (fun d => d.setChan c { d.chanAt c with standby := false, lastUse := s.time })

/-- Whether the Depot accepts writes now: ready, no quiesce or flush under way (R319, R321). -/
def DepotSt.takes (d : DepotSt) : Bool := (d.state == 1 || d.state == 2) && !d.quiescing && !d.flushing
def DepotSt.readable (d : DepotSt) : Bool := (d.state == 1 || d.state == 2) && !d.flushing

/-- Whether a channel can serve now. -/
def State.chanReady (s : State) (c : Nat) : Bool :=
  let x := s.depot.chanAt c
  x.trained && decide (x.blocked ≤ s.time)

/-- The request that a channel serves next (R258): reads and writes together. -/
def State.chanPick (s : State) (ch : Nat) : Option Req :=
  (s.queueAt (queueKey 1 ch)).pick (fun r => s.chanReady ch && (if r.isWrite then s.depot.takes else s.depot.readable))

/-- DEPOT_WRITE_REQUEST (R258, R307-R310, R317): the channel accepts the write that it serves next. -/
def execDepotWriteRequest (ch : Chan) (s : State) : Host.Outcome State Fault Refusal :=
  .next (
    let qk := queueKey 1 ch.val
    match (s.chanPick ch.val).filter (fun r => r.isWrite) with
    | none => s
    | some r =>
      let ns := r.addr / 1125899906842624
      let off := r.addr % 1125899906842624
      let fin (t : State) : State :=
        let t := ((t.dequeue qk r.id).served qk r).unitDone r
        if s.isLate r then t.count 4 ch.val 5 1 else t
      if s.depot.state = 2 then fin (s.depotEvent 0x2E0A ns off)
      else
        let (t, v, po, acc) := s.sourceRow r true
        if acc = .wait then s.waitBank t (.depotWriteRequest ch)
        else if acc = .refused then fin t
        else
          let t := (t.chanUse ch.val).onDepot (fun d => d.accept ns off s.time v po)
          fin ((t.count 4 ch.val 1 64).bw (16 + ch.val) true 64))

/-- UNIT_CLOSE_TIMEOUT (R307): 1 ms after its last write a unit is closed. -/
def execUnitCloseTimeout (ns : Fin 64) (unit : Nat) (s : State) : Host.Outcome State Fault Refusal :=
  .next (s.onDepot (fun d => d.closeUnits (fun u =>
    u.ns == ns.val && u.unit == unit && decide (u.lastWrite + 4000000 ≤ s.time))))

/-! ### Blocks and LUNs (R298, R314-R317) -/

/-- The key of a block: its channel, target, LUN, plane and number. -/
def blockKey (b : BlockId) : Nat :=
  524288 * (4 * (8 * (8 * b.chan.val + b.target.val) + b.lun.val) + b.plane.val) + b.block.val
def lunKey (ch target lun : Nat) : Nat := 64 * ch + 8 * target + lun
/-- The key of the LUN that holds a block. -/
def lunOfBlock (k : Nat) : Nat := k / 2097152

/-- LUN number within its channel of a stripe (R300), and whether a mapped unit lies in a block. -/
def DepotSt.lunOf (d : DepotSt) (stripe : Nat) : Nat := stripe % max d.lunsOf 1
def DepotSt.inBlock (d : DepotSt) (b : BlockId) (loc : Nat × Nat) : Bool :=
  loc.1 == b.chan.val && d.lunOf loc.2 == b.target.val * d.lunsPer + b.lun.val &&
  Config.flashBlock loc.1 loc.2 % 524288 == b.block.val
def DepotSt.onDeadLun (d : DepotSt) (loc : Nat × Nat) : Bool :=
  let l := d.lunOf loc.2
  tget d.lunDead (lunKey loc.1 (l / d.lunsPer) (l % d.lunsPer)) false

/-- The units that satisfy a test move to new stripes (R311): a unit's content stays, its place changes, compare-and-set
leaves a unit alone whose newer copy is still in a channel buffer. -/
def DepotSt.moveUnits (d : DepotSt) (p : Nat → Nat × Nat → Bool) : DepotSt :=
  let d := d.map.foldl (fun d e =>
    if p e.1 e.2 && !d.bufs.any (fun u => unitKey u.ns u.unit == e.1) then
      let (d', c, n) := d.place
      { d' with map := tset d'.map e.1 (c, n), programmed := d'.programmed + 65536, journal := d'.journal + 1 }
    else d) d
  { d with rebuild := d.rebuild && d.map.any (fun e => d.onDeadLun e.2) }

/-- A dead-letter entry (R315), up to 65,536. -/
def DepotSt.addDead (d : DepotSt) (x : DeadLetter) : DepotSt :=
  if d.dead.length < 65536 then { d with dead := d.dead ++ [x] } else d

/-- Retire a block (R314): its valid units move, an entry joins the dead-letter table, notice 0x2E.04. -/
def State.retireBlock (s : State) (b : BlockId) (reason : Nat) : State :=
  let k := blockKey b
  let x := tget s.depot.blocks k .reset
  if x.retired then s
  else
    let s := s.onDepot (fun d =>
      let d := { d with blocks := tset d.blocks k { x with retired := true, refresh := false } }
      let d := (d.moveUnits (fun _ loc => d.inBlock b loc)).addDead
        { loc := BitVec.ofNat 32 (b.chan.val + 32 * b.target.val + 256 * b.lun.val + 2048 * b.plane.val
            + 8192 * b.block.val)
          reason := BitVec.ofNat 8 reason, pe := BitVec.ofNat 16 (min x.erases 0xFFFF)
          time := BitVec.ofNat 64 s.sysTime }
      (d.setChan b.chan.val { d.chanAt b.chan.val with retired := sat16 (d.chanAt b.chan.val).retired }).wearOut)
    s.chanEvent 0x2E04 b.chan.val 0 k

/-- BLOCK_RETIRE (R314). -/
def execBlockRetire (b : BlockId) (reason : Fin 5) (s : State) : Host.Outcome State Fault Refusal :=
  .next (if s.depot.readable then s.retireBlock b reason.val else s)

/-- Blocks of one LUN, and how many of a LUN's are retired one by one. -/
def DepotSt.perLun (d : DepotSt) : Nat := Config.flashBlocks / max (32 * d.lunsOf) 1
def DepotSt.retiredOn (d : DepotSt) (lun : Nat) : Nat := (d.blocks.filter (fun b => b.2.retired && lunOfBlock b.1 == lun)).length

/-- A LUN is declared failed (R314, R326): it is retired whole, its stripes are to be reconstructed, fault 0x2E.06. A second
failed channel of one group leaves the Depot read-only. -/
def State.failLun (s : State) (ch target lun : Nat) : State :=
  let k := lunKey ch target lun
  if tget s.depot.lunDead k false then s
  else
    let s := s.onDepot (fun d =>
      let d := { d with lunDead := tset d.lunDead k true }
      let d := { d with rebuild := d.map.any (fun e => d.onDeadLun e.2) }
      let d := d.setChan ch { d.chanAt ch with
        retired := BitVec.ofNat 16 (min 0xFFFF ((d.chanAt ch).retired.toNat + (d.perLun - d.retiredOn k))) }
      let all := (List.range d.lunsOf).all (fun l =>
        tget d.lunDead (lunKey ch (l / d.lunsPer) (l % d.lunsPer)) false)
      let d := if all then d.setChan ch { d.chanAt ch with failed := true } else d
      let d := d.addDead { loc := BitVec.ofNat 32 (ch + 32 * target + 256 * lun + 0xFFFFF800), reason := 4, pe := 0
                           time := BitVec.ofNat 64 s.sysTime }
      let g := ch / d.w
      if d.state == 1 && (d.live g).length + 1 < d.w then { d with state := 2 } else d)
    (s.chanEvent 0x2E04 ch 0 k).chanEvent 0x2E06 ch 0 k

/-- LUN_FAILED (R314). -/
def execLunFailed (ch : Chan) (target lun : Fin 8) (s : State) : Host.Outcome State Fault Refusal :=
  .next (s.failLun ch.val target.val lun.val)

/-- ONFI_TIMEOUT (R298): the LUN is reset and the operation reissued, notice 0x2E.05; a second one in a row fails it. -/
def execOnfiTimeout (ch : Chan) (target lun : Fin 8) (s : State) : Host.Outcome State Fault Refusal :=
  .next (
    let k := lunKey ch.val target.val lun.val
    let n := tget s.depot.lunFails k 0 + 1
    let s := (s.onDepot (fun d => { d with lunFails := tset d.lunFails k n })).chanEvent 0x2E05 ch.val 0 k
    let s := s.emit (.onfi ch.val 0xFF k)
    if 2 ≤ n then s.failLun ch.val target.val lun.val else s)

/-! ### Programs, the journal and reads (R307, R309-R313) -/

/-- The oldest closed unit of a channel buffer. -/
def DepotSt.oldestClosed (d : DepotSt) (c : Nat) : Option DepotUnit := d.bufs.find? (fun u => u.closed && u.chan == c)

/-- A unit leaves the channel buffer for its place (R307, R311). -/
def DepotSt.mapUnit (d : DepotSt) (u : DepotUnit) : DepotSt :=
  let a := flashAddr u.ns (65536 * u.unit)
  { d with
    bufs := d.bufs.erase u, map := tset d.map (unitKey u.ns u.unit) (u.chan, u.stripe)
    mapped := d.mapped.copyRange d.data a (a + 65536), programmed := d.programmed + 65536, journal := d.journal + 1 }

/-- The block a stripe uses on a channel. -/
def DepotSt.blockOf (d : DepotSt) (c stripe : Nat) : BlockId :=
  let l := d.lunOf stripe
  { chan := ⟨c % 32, Nat.mod_lt _ (by decide)⟩, target := ⟨l / d.lunsPer % 8, Nat.mod_lt _ (by decide)⟩
    lun := ⟨l % d.lunsPer % 8, Nat.mod_lt _ (by decide)⟩, plane := 0
    block := ⟨Config.flashBlock c stripe % 524288, Nat.mod_lt _ (by decide)⟩ }

/-- ONFI_STATUS_POLL (R296, R307, R314): the program of the oldest closed unit has ended: it is mapped, or its block is
retired and the units of the channel buffer that were to lie in it are placed anew. -/
def execOnfiStatusPoll (ch : Chan) (opFailed : Bool) (s : State) : Host.Outcome State Fault Refusal :=
  .next (
    match s.depot.oldestClosed ch.val with
    | none => s
    | some u =>
      if s.depot.state == 0 || s.depot.state == 3 || s.depot.flushing then s
      else
        let b := s.depot.blockOf u.chan u.stripe
        if opFailed then
          let s := s.retireBlock b 1
          (s.depot.bufs.filter (fun x => x.chan == u.chan && s.depot.blockOf x.chan x.stripe == b)).foldl
            (fun (s : State) (y : DepotUnit) => s.onDepot (fun d =>
              let (d, c, n) := d.place
              { d with bufs := d.bufs.map (fun x => if x = y then { x with chan := c, stripe := n } else x) })) s
        else
          let s := s.onDepot (fun d => { d with
            lunFails := tdel d.lunFails (lunKey b.chan.val b.target.val b.lun.val) })
          (s.onDepot (fun d => (d.mapUnit u).wearOut)).count 4 ch.val 2 65536)

/-- JOURNAL_PROGRAM (R311): the records in the journal buffer reach flash; past 4 GiB a snapshot starts a new journal. -/
def execJournalProgram (s : State) : Host.Outcome State Fault Refusal :=
  .next (
    if s.depot.journal = 0 || !s.depot.readable then s
    else s.onDepot (fun d =>
      let all := d.journalAll + 65536
      let snapshot := (8 * d.usable + 65535) / 65536
      let striped := snapshot + (snapshot + d.w - 2) / (d.w - 1)
      { d with durable := d.mapped, journal := 0, journalAll := if all ≤ 4294967296 then all else 0
               programmed := d.programmed + 65536 + (if all ≤ 4294967296 then 0 else 65536 * striped) }))

/-- Whether a 64 B block is in a channel buffer. -/
def DepotSt.holds (d : DepotSt) (ns off : Nat) : Bool :=
  d.bufs.any (fun u => u.ns == ns && u.unit == off / 65536 && u.written.testBit (off % 65536 / 64))

/-- What reading a unit's codeword met (R312, R313), and its use of the block (R316). -/
def State.recover (s : State) (ch ns off step : Nat) : State × Bool :=
  match tfind s.depot.map (unitKey ns (off / 65536)) with
  | none => (s, false)
  | some (c, stripe) =>
    let b := s.depot.blockOf c stripe
    let k := blockKey b
    let x := tget s.depot.blocks k .reset
    let x := { x with reads := x.reads + 1, refresh := x.refresh || decide (100000 ≤ x.reads + 1) }
    let put (s : State) (x : DepotBlk) : State := s.onDepot (fun d => { d with
      blocks := tset d.blocks k x, lunFails := tdel d.lunFails (lunOfBlock k) })
    if step ≤ 1 then (put s x, false)
    else if step ≤ 3 then ((put s { x with refresh := true }).chanEvent 0x2E01 ch ns off |>.count 4 ch 3 1, false)
    else if step = 4 then
      let day := 345600000000000
      let recon := x.recon.filter (fun t => decide (s.time ≤ t + day)) ++ [s.time]
      let s := (put s { x with refresh := true, recon := recon }).onDepot (fun d =>
        d.moveUnits (fun key _ => key == unitKey ns (off / 65536)))
      let s := (s.chanEvent 0x2E02 ch ns off).count 4 ch 4 1
      (if 2 ≤ recon.length then s.retireBlock b 3 else s, false)
    else ((put s { x with refresh := true }).chanEvent 0x2E03 ch ns off, true)

/-- The read of one 64 B block of a namespace (R309, R313). -/
def State.depotRead (s : State) (ch ns off step : Nat) : State × Row × Bool :=
  let a := flashAddr ns off
  let (s', bad) := if s.depot.holds ns off then (s, false) else s.recover ch ns off step
  (((s'.chanUse ch).count 4 ch 0 64).bw (16 + ch) false 64, BitVec.ofNat 512 (s.depot.data.read a 64),
   bad || (s.depot.data.ecc a 64).2)

/-- DEPOT_READ_REQUEST (R258, R309, R312, R313): the channel performs the read that it serves next. -/
def execDepotReadRequest (ch : Chan) (recovery : Fin 6) (s : State) : Host.Outcome State Fault Refusal :=
  .next (
    let qk := queueKey 1 ch.val
    match (s.chanPick ch.val).filter (fun r => !r.isWrite) with
    | none => s
    | some r =>
      let ns := r.addr / 1125899906842624
      let off := r.addr % 1125899906842624
      let (t, v, po) := s.depotRead ch.val ns off recovery.val
      let (t, acc) := t.sinkRow r v po true
      if acc = .wait then s.waitBank t (.depotReadRequest ch recovery)
      else
        let t := ((t.dequeue qk r.id).served qk r).unitDone r
        if s.isLate r then t.count 4 ch.val 5 1 else t)

/-- DEPOT_REQUEST_TIMEOUT (R327): 10 ms after a request's arrival. -/
def execDepotRequestTimeout (ch : Chan) (id : Nat) (s : State) : Host.Outcome State Fault Refusal :=
  .next (
    let qk := queueKey 1 ch.val
    match (s.queueAt qk).reqs.find? (fun r => r.id == id && decide (r.issued + 40000000 ≤ s.time)) with
    | none => s
    | some r =>
      let (s, v) := (s.chanEvent 0x2E0D ch.val (r.addr / 1125899906842624) (r.addr % 1125899906842624)).noRow
      s.failReq qk r v)

/-! ### Patrol, refresh and moves (R311, R316, R317) -/

/-- Whether the Depot makes mapping changes of its own now (R321). -/
def DepotSt.mayMove (d : DepotSt) : Bool := d.state == 1 && !d.quiescing && !d.quiesced && !d.flushing

/-- The endurance of R318: the blocks in service, the sum of their erases, its mean, and the percentage used; its notices at
80, 90 and 100. -/
def DepotSt.serves (d : DepotSt) (b : Nat × DepotBlk) : Bool := !b.2.retired && !tget d.lunDead (lunOfBlock b.1) false
def DepotSt.erases (d : DepotSt) : Nat := ((d.blocks.filter d.serves).map (fun b => b.2.erases)).foldl (· + ·) 0
def DepotSt.inService (d : DepotSt) : Nat :=
  let dead := (d.lunDead.filter (fun e => e.2)).length
  let retired := (d.blocks.filter (fun b => b.2.retired && !tget d.lunDead (lunOfBlock b.1) false)).length
  Config.flashBlocks - dead * d.perLun - retired
def DepotSt.mean (d : DepotSt) : Nat := d.erases / max d.inService 1
def DepotSt.used (d : DepotSt) : Nat := d.mean * 100 / max Config.flashRated 1
def State.wearCheck (s : State) : State :=
  let pct := s.depot.used
  let s := s.onDepot (fun d => { d with wear := BitVec.ofNat 8 (min pct 0xFF) })
  [80, 90, 100].foldl (fun s t =>
    if t ≤ pct && s.depot.crossed < t then
      (s.onDepot (fun d => { d with crossed := t })).depotEvent 0x2E09 0 pct
    else s) s

/-- Erase a block: its count rises, its reads start again. -/
def State.eraseBlock (s : State) (k c : Nat) : State :=
  let x := tget s.depot.blocks k .reset
  ((s.onDepot (fun d => { d with
    blocks := tset d.blocks k { x with erases := x.erases + 1, reads := 0, refresh := false }
    lunFails := tdel d.lunFails (lunOfBlock k) })).count 4 c 6 1).wearCheck

/-- DEPOT_PATROL (R316): a patrol read that corrects more than 180 bits queues the block for refresh. -/
def execDepotPatrol (b : BlockId) (bitsCorrected : Nat) (s : State) : Host.Outcome State Fault Refusal :=
  .next (
    let k := blockKey b
    let x := tget s.depot.blocks k .reset
    if s.depot.readable && !x.retired && s.depot.map.any (fun e => s.depot.inBlock b e.2) then
      s.onDepot (fun d => { d with blocks := tset d.blocks k { x with
        reads := x.reads + 1, refresh := x.refresh || decide (180 < bitsCorrected) || decide (100000 ≤ x.reads + 1) } })
    else s)

/-- DEPOT_REFRESH (R316): the valid units of a queued block move to new stripes, and the block is freed. -/
def execDepotRefresh (b : BlockId) (s : State) : Host.Outcome State Fault Refusal :=
  .next (
    let k := blockKey b
    let x := tget s.depot.blocks k .reset
    if s.depot.mayMove && x.refresh && !x.retired then
      (s.onDepot (fun d => d.moveUnits (fun _ loc => d.inBlock b loc))).eraseBlock k b.chan.val
    else s)

/-- GARBAGE_COLLECTION (R311): one unit moves by compare-and-set; so do the units of a failed LUN (R314). -/
def execGarbageCollection (ns : Fin 64) (unit : Nat) (s : State) : Host.Outcome State Fault Refusal :=
  .next (
    if s.depot.mayMove then s.onDepot (fun d => d.moveUnits (fun key _ => key == unitKey ns.val unit)) else s)

/-- WEAR_LEVELLING (R317): with erase counts of a channel more than 200 apart, the units of blocks that far below the
highest move. -/
def execWearLevelling (ch : Chan) (s : State) : Host.Outcome State Fault Refusal :=
  .next (
    let hi := ((s.depot.blocks.filter (fun b => b.1 / 134217728 == ch.val)).map (fun b => b.2.erases)).foldl max 0
    if s.depot.mayMove then
      s.onDepot (fun d => d.moveUnits (fun _ loc =>
        loc.1 == ch.val && decide ((tget d.blocks (blockKey (d.blockOf loc.1 loc.2)) .reset).erases + 200 < hi)))
    else s)

/-- DEPOT_CHANNEL_RETRAIN (R297): blocks the channel for 100 µs, notice 0x2E.0F. -/
def execDepotChannelRetrain (ch : Chan) (s : State) : Host.Outcome State Fault Refusal :=
  .next ((s.onDepot (fun d => d.setChan ch.val { d.chanAt ch.val with blocked := s.time + 400000 })).chanEvent 0x2E0F
    ch.val 0 0)

/-- DEPOT_CHANNEL_STANDBY (R448): no request in flight for 1 ms. -/
def execDepotChannelStandby (ch : Chan) (s : State) : Host.Outcome State Fault Refusal :=
  .next (
    let x := s.depot.chanAt ch.val
    if (s.queueAt (queueKey 1 ch.val)).reqs.isEmpty && decide (x.lastUse + 4000000 ≤ s.time) then
      s.onDepot (fun d => d.setChan ch.val { x with standby := true })
    else s)

/-! ### Flush and bring-up (R319-R321) -/

/-- Every channel buffer and the journal buffer reach flash. -/
def DepotSt.flush (d : DepotSt) : DepotSt :=
  let d := d.bufs.foldl (fun d u => if u.written = 0 then { d with bufs := d.bufs.erase u } else d.mapUnit u) d
  { d with durable := d.mapped, journal := 0, clean := true }

/-- DEPOT_BRING_UP (R297, R315, R320): targets with other unique IDs than recorded leave the Depot off; else it becomes
ready, TORN with fault 0x2E.0C when no flush-complete record is found. -/
def execDepotBringUp (uids : List Nat) (s : State) : Host.Outcome State Fault Refusal :=
  if wfUids uids then
    .next (
      if s.depot.state ≠ 0 || s.depot.found ≠ [] || !s.post.firmware then s
      else
        let s := s.onDepot (fun d =>
          let d := (List.range 32).foldl (fun d c =>
            d.setChan c { d.chanAt c with trained := true, targets := Config.flashTargets, luns := Config.flashLuns
                                          step := BitVec.ofNat 2 s.pwr.depotStep }) d
          { d with found := 0 :: uids })
        if s.depot.uids ≠ [] && s.depot.uids ≠ uids then s
        else
          let torn := s.depot.formatted && !s.depot.clean
          let s := s.onDepot (fun d =>
            { d with state := 1, torn := torn, uids := if d.uids = [] then uids else d.uids }.wearOut)
          let s := if s.depot.formatted then s.wearCheck else s
          if torn then s.depotEvent 0x2E0C 0 0 else s)
  else .refused (.illFormed "DEPOT_BRING_UP")

end Sys2Proof.Machine
end

