-- ==== Sys2Proof/Machine/Pontoon.lean ====
section
/-! DEFINITION. Pontoon's links: lanes, flits and link retry, packets, routes, and the choice at a flit boundary
(R328-R348, R369-R371). -/

namespace Sys2Proof.Machine

def PontSt.port (d : PontSt) (p : Nat) : PontPort := tget d.ports p .reset
def State.pport (s : State) (p : Nat) : PontPort := tget s.pont.ports p .reset
def State.onPont (s : State) (f : PontSt → PontSt) : State := { s with pont := f s.pont }
def State.setPport (s : State) (p : Nat) (x : PontPort) : State :=
  s.onPont (fun d => { d with ports := tset d.ports p x })

/-- A link event of R373: its port, the lane or SEQ in DETAIL. -/
def State.linkEvent (s : State) (code : Code) (p detail : Nat) : State :=
  s.raise { code := code, inst := p, detail := detail }

/-- A packet event (R458): AUX SFN, DETAIL the header's SRC, DST, COLL, OPC and VC. -/
def State.pktEvent (s : State) (code : Code) (k : Packet) : State :=
  s.raise { code := code, aux := k.sfn.toNat
            detail := k.src.toNat + 2 ^ 18 * k.dst.toNat + 2 ^ 36 * k.coll.toNat + 2 ^ 52 * k.opc.toNat
              + 2 ^ 60 * k.vc.toNat }

/-! ### Devices and routes (R346-R348, R371) -/

/-- Length n_d and coordinate c_d (R346, R351). -/
def PontSt.len (d : PontSt) (k : Nat) : Nat :=
  if k < d.ndim.toNat then (d.lens >>> (4 * k)).toNat % 16 + 1 else 1
def PontSt.coord (d : PontSt) (id k : Nat) : Nat :=
  (List.range k).foldl (fun v j => v / d.len j) id % d.len k
/-- The weight of coordinate k in a device ID. -/
def PontSt.wt (d : PontSt) (k : Nat) : Nat := (List.range k).foldl (fun v j => v * d.len j) 1
/-- The device `n` steps along dimension k. -/
def PontSt.along (d : PontSt) (id k : Nat) (n : Int) : Nat :=
  let c := d.coord id k
  let c' := (((c : Int) + n) % (d.len k : Int)).toNat
  id - c * d.wt k + c' * d.wt k
def PontSt.dead (d : PontSt) (id : Nat) : Bool := d.failed.any (fun f => f.toNat == id)

/-- One hop: the port it leaves by, where it leads, and its class. -/
structure Hop where
  port : Nat
  dev  : Nat
  cls  : Nat

/-- The ports of a hop of one or two steps (R347): single ports 2d and 2d + 1, skip pair A or B. -/
def PontSt.skipPort (d : PontSt) (k : Nat) : Option Nat :=
  if d.skipA.toNat = k then some 12 else if d.skipB.toNat = k then some 14 else none
def PontSt.hop (d : PontSt) (id k : Nat) (plus skip : Bool) (cls : Nat) : Hop :=
  let c := d.coord id k
  let n := d.len k
  let steps := if skip then 2 else 1
  let wraps := if plus then decide (n ≤ c + steps) else decide (c < steps)
  let base := if skip then (d.skipPort k).getD 12 else 2 * k
  { port := base + (if plus then 0 else 1), dev := d.along id k (if plus then steps else -steps)
    cls := if wraps && cls = 0 then 1 else cls }

/-- Shorter way around a ring and steps left; + when both ways are equal (R348). -/
def PontSt.way (d : PontSt) (id dst k : Nat) : Bool × Nat :=
  let n := d.len k
  let up := (d.coord dst k + n - d.coord id k) % n
  if 2 * up ≤ n then (true, up) else (false, n - up)

/-- The first dimension in which two devices differ. -/
def PontSt.firstDim (d : PontSt) (id dst : Nat) (skip : Nat → Bool) : Option Nat :=
  (List.range d.ndim.toNat).find? (fun k => !skip k && d.coord id k != d.coord dst k)
/-- The lowest other dimension of length 3 or more (R371). -/
def PontSt.sideDim (d : PontSt) (k : Nat) : Option Nat :=
  (List.range d.ndim.toNat).find? (fun e => e != k && decide (3 ≤ d.len e))

/-- The dimension of a port, and whether a packet that arrives on it travels toward + (R347). -/
def PontSt.portDim (d : PontSt) (p : Nat) : Nat :=
  if p < 12 then p / 2 else if p < 14 then d.skipA.toNat else d.skipB.toNat

/-- The hop of R348 in dimension k, or that of R371 around a failed device. -/
def PontSt.step (d : PontSt) (id dst k cls : Nat) : Option Hop :=
  let (plus, steps) := d.way id dst k
  let skip := (d.skipPort k).isSome && decide (2 ≤ steps)
  let h := d.hop id k plus skip cls
  if !d.dead h.dev then some h
  else if h.dev == dst then none
  else
    let one := d.hop id k plus false cls
    if skip && !d.dead one.dev then some one
    else match d.sideDim k with
      | some e => some (d.hop id e true false 2)
      | none => none

/-- The next hop of a packet at device `id` (R348, R371); `from_` is the port it arrived on with its class. -/
def PontSt.next (d : PontSt) (id dst : Nat) (from_ : Option (Nat × Nat)) : Option Hop :=
  if d.dead dst then none
  else match from_ with
    | some (p, 2) =>
      let a := d.portDim p
      let plus := p % 2 == 1
      match d.sideDim a with
      | some e =>
        if d.dead (d.along id e (-1)) then some (d.hop id a plus false 2)
        else if d.dead (d.along (d.along id a (if plus then -1 else 1)) e (-1)) then some (d.hop id e false false 2)
        else match d.firstDim id dst (fun k => k == a && plus) with
          | some k => if plus && d.sideDim k == some a && d.dead (d.along (d.along id a (-1)) k (if (d.way id dst k).1 then 1 else -1))
                      then some (d.hop id k (d.way id dst k).1 false 2) else d.step id dst k 0
          | none => (d.firstDim id dst (fun _ => false)).bind (fun k => d.step id dst k 0)
      | none => (d.firstDim id dst (fun _ => false)).bind (fun k => d.step id dst k 0)
    | some (p, c) => (d.firstDim id dst (fun _ => false)).bind (fun k => d.step id dst k (if d.portDim p == k then c else 0))
    | none => (d.firstDim id dst (fun _ => false)).bind (fun k => d.step id dst k 0)

/-- The device before `dst` on the route from `src`, with at most `fuel` hops. -/
def PontSt.parent (d : PontSt) (src dst : Nat) : Nat → Option Nat
  | 0 => none
  | fuel + 1 =>
    match d.next src dst none with
    | none => none
    | some h => if h.dev = dst then some src else d.parent h.dev dst fuel

/-! ### Packets and flits (R334, R335, R339) -/

def crcStep (c : BitVec 32) : Nat → BitVec 32
  | 0 => c
  | n + 1 => crcStep (if c.getLsbD 0 then (c >>> 1) ^^^ 0xEDB88320 else c >>> 1) n
/-- CRC-32 over bytes in address order (R335). -/
def crc32 (bs : List Byte) : BitVec 32 :=
  ~~~(bs.foldl (fun c b => crcStep (c ^^^ b.setWidth 32) 8) 0xFFFFFFFF)

/-- The 32-byte packet header (R339). -/
def pktHeader (k : Packet) : List Byte :=
  bytesOf (k.opc.toNat + 2 ^ 8 * (if k.poison then 1 else 0) + 2 ^ 9 * (if k.gated then 1 else 0) + 2 ^ 16 * k.job.toNat
    + 2 ^ 32 * k.dst.toNat + 2 ^ 56 * k.src.toNat + 2 ^ 80 * k.coll.toNat + 2 ^ 96 * k.sfn.toNat + 2 ^ 112 * k.len.toNat
    + 2 ^ 128 * k.addr.toNat + 2 ^ 192 * k.deadline.toNat + 2 ^ 240 * k.zmap.toNat) 32
/-- Flits of a packet (R339). -/
def pktFlits (k : Packet) : Nat := 1 + (k.data.length - 216 + 247) / 248
/-- The body of its k-th flit, padded with zero bytes. -/
def pktBody (k : Packet) (n : Nat) : List Byte :=
  let bs := if n = 0 then pktHeader k ++ k.data.take 216 else (k.data.drop (216 + 248 * (n - 1))).take 248
  bs ++ List.replicate (248 - bs.length) 0

/-- The bytes that LEN and ZMAP give a packet of this operation on the wire (R339, R341). -/
def wireLen (opc len zmap : Nat) : Nat :=
  if opc = 5 then (List.range (len % 32)).foldl (fun n b => n + if zmap.testBit b then 8 else 256) 0
  else if opc = 2 then 0 else len

/-- A packet read back from its bytes. -/
def pktOfBytes (bs : List Byte) (vc : Nat) : Packet :=
  let f (off n : Nat) : Nat := ofBytes ((bs.drop off).take n)
  { opc := BitVec.ofNat 8 (f 0 1), poison := (f 1 1).testBit 0, gated := (f 1 1).testBit 1, job := BitVec.ofNat 16 (f 2 2)
    dst := BitVec.ofNat 18 (f 4 3), src := BitVec.ofNat 18 (f 7 3), coll := BitVec.ofNat 16 (f 10 2)
    sfn := BitVec.ofNat 16 (f 12 2), len := BitVec.ofNat 16 (f 14 2), addr := BitVec.ofNat 64 (f 16 8)
    deadline := BitVec.ofNat 48 (f 24 6), zmap := BitVec.ofNat 16 (f 30 2), vc := BitVec.ofNat 4 vc
    data := (bs.drop 32).take (wireLen (f 0 1) (f 14 2) (f 30 2)) }

/-- A flit header with its CRC (R334, R335). -/
def flitHdr (seq vc ftype : Nat) (last : Bool) (cls : Nat) (body : List Byte) : DWord :=
  let lo := seq % 16384 + 2 ^ 14 * vc + 2 ^ 18 * ftype + (if last then 2 ^ 20 else 0) + 2 ^ 21 * cls
  BitVec.ofNat 64 (lo + 2 ^ 32 * (crc32 (bytesOf lo 4 ++ body)).toNat)

/-- A flit leaves a port: its bytes are counted (R502, R508). -/
def State.sendFlit (s : State) (p : Nat) (hdr : DWord) (body : List Byte) : State :=
  ((s.emit (.pontFlit p hdr (BitVec.ofNat 1984 (ofBytes body)))).count 5 p 0 1).bw (48 + p) true 256

/-! ### The sender (R336, R337, R345) -/

/-- Whether a sender holds credits for `n` flits of a VC and class (R337): 32 of the class's own and 160 shared. -/
def PontPort.credit (x : PontPort) (vc cls n : Nat) : Bool :=
  let u (c : Nat) : Nat := tget x.used (4 * vc + c) 0
  let shared := ((List.range 3).map (fun c => u c - 32)).foldl (· + ·) 0
  decide (n ≤ (32 - u cls) + (160 - shared))

/-- A packet joins a port's sender. -/
def State.queuePkt (s : State) (p : Nat) (k : Packet) (cls : Nat) : State :=
  let x := s.pport p
  s.setPport p { x with txq := x.txq ++ [{ pkt := k, cls := cls, sent := 0, no := x.txNo }], txNo := x.txNo + 1 }

/-- The earlier of two packets by DEADLINE; all ones is none (R339). -/
def TxPkt.earlier (a b : TxPkt) : TxPkt := if b.pkt.deadline.toNat < a.pkt.deadline.toNat then b else a
def TxPkt.none (a : TxPkt) : Bool := a.pkt.deadline == BitVec.allOnes 48

/-- The packet whose flit goes next (R345); a port that closes starts none (R470): VC 0, VC 1, the packet in progress, or a new one by deadline. -/
def PontPort.choose (x : PontPort) (since : Nat) : Option TxPkt :=
  let ready (t : TxPkt) : Bool := t.sent != 0 || x.closing.isNone && x.credit t.pkt.vc.toNat t.cls (pktFlits t.pkt)
  let vc (n : Nat) : Option TxPkt :=
    match x.txq.find? (fun t => t.pkt.vc.toNat == n && t.sent != 0) with
    | some t => some t
    | .none => x.txq.find? (fun t => t.pkt.vc.toNat == n && ready t)
  match vc 0 with
  | some t => some t
  | .none => match vc 1 with
    | some t => some t
    | .none =>
      let rest := x.txq.filter (fun t => decide (2 ≤ t.pkt.vc.toNat))
      match rest.find? (fun t => t.sent != 0) with
      | some t => some t
      | .none =>
        let rs := rest.filter ready
        let bg := rs.find? (·.none)
        if 63 ≤ since && bg.isSome then bg
        else match rs with
          | [] => .none
          | t :: r => some (r.foldl TxPkt.earlier t)

/-- The body of a link-control flit, in a layout that the spec does not give (log entry 23): the cumulative
acknowledgement, the NAK flag, and the credits owed by VC and class. -/
def PontPort.control (x : PontPort) : List Byte :=
  bytesOf (x.rxSeq + 2 ^ 14 * (if x.nakDue then 1 else 0)
    + ((List.range 64).map (fun i => 2 ^ (16 + 16 * i) * (tget x.owed i 0 % 65536))).foldl (· + ·) 0) 248

/-- The replayed or new flit of a port. -/
def State.sendReplay (s : State) (p : Nat) (f : ReplayFlit) : State :=
  let body := pktBody f.pkt f.k
  s.sendFlit p (flitHdr f.seq f.pkt.vc.toNat (if f.k = 0 then 1 else 2) (f.k + 1 == pktFlits f.pkt) f.cls body) body

/-- A flit's copy in the replay buffer as its check bits deliver it: a corrected one is notice 0x2F.08, an uncorrectable one goes out with
its packet poisoned, fault 0x2F.09 (R336). -/
def State.replayCopy (s : State) (p : Nat) (f : ReplayFlit) : State × ReplayFlit :=
  match s.upset .replay p f.seq with
  | .good => (s, f)
  | .corrected => ((s.linkEvent 0x2F08 p f.seq).heal .replay p f.seq 1, f)
  | _ => ((s.linkEvent 0x2F09 p f.seq).heal .replay p f.seq 1, { f with pkt := { f.pkt with poison := true } })

/-- One flit boundary of an up port, once a local packet has been formed (R345). -/
def State.flitBoundary (s : State) (p : Nat) : State :=
  let x := s.pport p
  if x.state ≠ 2 then s
  else if x.ctlDue || x.nakDue then
    let body := x.control
    (s.setPport p { x with ctlDue := false, nakDue := false, unacked := 0, owed := [] }).sendFlit p
      (flitHdr 0 0 3 false 0 body) body
  else match x.resend.bind (fun n => x.replay[n]?) with
    | some f =>
      let n := x.resend.getD 0 + 1
      let (s, f) := s.replayCopy p f
      ((s.setPport p { x with resend := if n < x.replay.length then some n else .none }).sendReplay p f).count 5 p 3 1
    | .none =>
      if 8191 ≤ x.replay.length then s
      else
        let q := s.queueAt (queueKey 2 p)
        match x.choose q.since with
        | .none =>
          if x.txq.any (fun t => t.sent == 0) then s.count 5 p 6 1 else s
        | some t =>
          let f : ReplayFlit := { seq := x.txSeq, cls := t.cls, pkt := t.pkt, k := t.sent }
          let key := 4 * t.pkt.vc.toNat + t.cls
          let late := t.sent = 0 && !t.none && decide (t.pkt.deadline.toNat < s.sysTime % 2 ^ 48)
          let fresh := t.sent = 0 && decide (2 ≤ t.pkt.vc.toNat)
          let s := if fresh then
              s.setQueue (queueKey 2 p) { q with since := if t.none then 0 else if x.txq.any (fun y => y.none) then q.since + 1 else 0 }
            else s
          let s := if late then s.count 5 p 7 1 else s
          let s := s.setPport p { x with
            txSeq := (x.txSeq + 1) % 16384, replay := x.replay ++ [f]
            progress := if x.replay.isEmpty then s.time else x.progress
            used := tset x.used key (tget x.used key 0 + 1)
            txq := if t.sent + 1 < pktFlits t.pkt then x.txq.map (fun y => if y.no == t.no then { y with sent := y.sent + 1 } else y)
                   else x.txq.filter (fun y => y.no != t.no) }
          s.sendReplay p f

/-- Everything before SEQ `n` is acknowledged (R336). -/
def PontPort.acked (x : PontPort) (n now : Nat) : PontPort :=
  let keep := x.replay.dropWhile (fun f => f.seq != n)
  if x.replay.any (fun f => f.seq == n) then
    { x with replay := keep, naks := if keep.length < x.replay.length then 0 else x.naks
             resend := x.resend.map (fun k => k - (x.replay.length - keep.length))
             progress := if keep.length < x.replay.length then now else x.progress }
  else if n = x.txSeq then { x with replay := [], naks := 0, resend := .none, progress := now }
  else x

/-- A NAK with the expected SEQ (R336): go-back-N, notice 0x2F.02. -/
def State.takeNak (s : State) (p n : Nat) : State :=
  let x := (s.pport p).acked n s.time
  if x.replay.isEmpty then s.setPport p x
  else (s.setPport p { x with resend := some 0, naks := x.naks + 1, retry := sat16 x.retry }).linkEvent 0x2F02 p n

/-- NAK (R336). -/
def execNak (p : Port) (expected : BitVec 14) (s : State) : Host.Outcome State Fault Refusal :=
  .next (if (s.pport p.val).state = 2 then s.takeNak p.val expected.toNat else s)

/-- ACK_TIMER (R336): 1 µs with an unacknowledged flit. -/
def execAckTimer (p : Port) (s : State) : Host.Outcome State Fault Refusal :=
  .next (
    let x := s.pport p.val
    if 0 < x.unacked ∧ x.ackFrom + 4000 ≤ s.time then s.setPport p.val { x with ctlDue := true } else s)

/-! ### Sending a packet -/

/-- A REFUSED completion for a packet that has no route (R371); its payload is log entry 24's. -/
def refusedFor (me : BitVec 18) (k : Packet) : Packet :=
  { opc := 7, poison := false, gated := k.gated, job := k.job, dst := k.src, src := me, coll := k.coll, sfn := k.sfn
    len := 1, addr := k.addr, deadline := BitVec.allOnes 48, zmap := 0, vc := 1, data := [1] }

/-- A packet for another device leaves by its route, on the port and class of R348 and R371; without a route it is
dropped with fault 0x30.08 and a REFUSED completion. -/
def State.route (s : State) (k : Packet) (from_ : Option (Nat × Nat)) : State :=
  let me := s.pont.devId
  match s.pont.next me.toNat k.dst.toNat from_ with
  | some h => (if from_.isSome then s.count 5 h.port 2 (pktFlits k) else s).queuePkt h.port k h.cls
  | none =>
    let s := s.pktEvent 0x3008 k
    if k.src = me || k.opc = 7 then s
    else match s.pont.next me.toNat k.src.toNat none with
      | some h => s.queuePkt h.port (refusedFor me k) h.cls
      | none => s

/-- A packet of VC 0 or 1 for every up port that satisfies a test. -/
def State.toPorts (s : State) (mk : BitVec 18 → Packet) (ok : Nat → Bool) : State :=
  (List.range 16).foldl (fun s p =>
    let x := s.pport p
    if x.state = 2 && ok p then s.queuePkt p (mk x.peer) 0 else s) s

/-- A packet of this device with no collective, no deadline and no address. -/
def State.plainPkt (s : State) (opc vc : Nat) (dst : BitVec 18) (data : List Byte) : Packet :=
  { opc := BitVec.ofNat 8 opc, poison := false, gated := false, job := 0, dst := dst, src := s.pont.devId, coll := 0
    sfn := 0, len := BitVec.ofNat 16 data.length, addr := 0, deadline := BitVec.allOnes 48, zmap := 0
    vc := BitVec.ofNat 4 vc, data := data }

/-! ### The receiver (R334-R337) -/

/-- Credits for a packet's flits are owed to the sender again. -/
def State.freeRx (s : State) (p : Nat) (k : Packet) (cls : Nat) : State :=
  let x := s.pport p
  let key := 4 * k.vc.toNat + cls
  s.setPport p { x with owed := tset x.owed key (tget x.owed key 0 + pktFlits k), ctlDue := true }

/-- A whole packet has been accepted: one of VC 15 is dropped with fault 0x30.0D, one for another device moves on, one
for this device waits in the receive buffer. -/
def State.gotPacket (s : State) (p : Nat) (k : Packet) (cls : Nat) : State :=
  if k.vc = 15 then ((s.onPont (fun d => { d with dropped := d.dropped + 1 })).pktEvent 0x300D k).freeRx p k cls
  else if k.dst = s.pont.devId || k.vc = 0 then
    let x := s.pport p
    s.setPport p { x with rx := x.rx ++ [(k, cls)] }
  else (s.route k (some (p, cls))).freeRx p k cls

/-- A link-control flit (R334, R336, R337). -/
def State.takeControl (s : State) (p : Nat) (body : Nat) : State :=
  let x := (s.pport p).acked (body % 16384) s.time
  let used := (List.range 64).foldl (fun (u : Tab Nat) i =>
    let c := body / 2 ^ (16 + 16 * i) % 65536
    if c = 0 then u else tset u i (tget u i 0 - c)) x.used
  let s := s.setPport p { x with used := used }
  if body.testBit 14 then s.takeNak p (body % 16384) else s

/-- PONT_FLIT_RECEIVE (R334-R337, R502): `rsFixed` RS codewords of the flit have been corrected, or one is uncorrectable. -/
def execPontFlitReceive (p : Port) (hdr : BitVec 64) (body : BitVec 1984) (rsFixed : BitVec 4) (rsBad : Bool) (s : State) :
    Host.Outcome State Fault Refusal :=
  .next (
    let x := s.pport p.val
    if x.state ≠ 2 then s
    else
      let s := ((s.count 5 p.val 1 1).count 5 p.val 4 rsFixed.toNat).bw (48 + p.val) false 256
      let bytes := bytesOf body.toNat 248
      let s := if rsBad then
          ((s.setPport p.val { x with fecUnc := sat16 x.fecUnc }).linkEvent 0x2F01 p.val 0).count 5 p.val 5 1
        else s
      let good := !rsBad && (hdr >>> 32).setWidth 32 == crc32 (bytesOf (hdr.toNat % 2 ^ 32) 4 ++ bytes)
      let seq := hdr.toNat % 16384
      let vc := hdr.toNat / 2 ^ 14 % 16
      let ftype := hdr.toNat / 2 ^ 18 % 4
      let last := hdr.getLsbD 20
      let cls := hdr.toNat / 2 ^ 21 % 4
      let x := s.pport p.val
      match ftype with
      | 0 => s
      | 3 => if good then s.takeControl p.val body.toNat else s
      | _ =>
        if good && seq = x.rxSeq then
          let bs := if ftype = 1 then bytes else tget x.partials vc [] ++ bytes
          let n := x.unacked + 1
          let s := s.setPport p.val { x with
            rxSeq := (x.rxSeq + 1) % 16384, nakOut := false, unacked := n, ackFrom := if x.unacked = 0 then s.time else x.ackFrom
            ctlDue := x.ctlDue || decide (64 ≤ n), partials := if last then tdel x.partials vc else tset x.partials vc bs }
          if last then s.gotPacket p.val (pktOfBytes bs vc) cls else s
        else if x.nakOut then s
        else s.setPport p.val { x with nakOut := true, nakDue := true })

/-- A packet row takes its packet out of the receive buffer, if it stands there; an error that the buffer's code corrects is
notice 0x2F.08 (R373). -/
def State.takeRx (s : State) (p : Nat) (k : Packet) : State :=
  let s := if (s.upsetIn .rxBuf p 0 4096).1 then (s.linkEvent 0x2F08 p 0).heal .rxBuf p 0 4096 else s
  let x := s.pport p
  match x.rx.find? (fun r => r.1 == k) with
  | some r => (s.setPport p { x with rx := x.rx.erase r }).freeRx p k r.2
  | none => s

/-! ### Lanes and links (R330-R333, R338) -/

/-- LANE_FAILURE (R331): the port goes on at one lane less; without a usable spare, notice 0x2F.04; with no lane it is
down. -/
def execLaneFailure (p : Port) (lane : Fin 4) (s : State) : Host.Outcome State Fault Refusal :=
  .next (
    let x := s.pport p.val
    if x.laneFail.getLsbD lane.val || x.state ≠ 2 then s
    else
      let w := x.width - 1
      let s := s.setPport p.val { x with laneFail := x.laneFail ||| (1#4 <<< lane.val), width := w
                                         state := if w = 0 then 0 else x.state
                                         downFrom := if w = 0 then some s.time else x.downFrom }
      if x.home && !x.spare then s else s.linkEvent 0x2F04 p.val lane.val)

/-- SPARE_LANE_TRAINED (R330, R331): the spare serves its home port; notice 0x2F.03. -/
def execSpareLaneTrained (p : Port) (s : State) : Host.Outcome State Fault Refusal :=
  .next (
    let x := s.pport p.val
    if x.home && !x.spare && x.laneFail ≠ 0 && x.state ≠ 3 then
      (s.setPport p.val { x with spare := true, width := if x.width = 4 then 4 else x.width + 1, state := 2
                                 downFrom := none }).linkEvent 0x2F03 p.val 64
    else s)

/-- LINK_DOWN (R338): 50 µs without an acknowledgement, or 16 NAKs without progress; notice 0x2F.05. -/
def execLinkDown (p : Port) (s : State) : Host.Outcome State Fault Refusal :=
  .next (
    let x := s.pport p.val
    if x.state = 2 ∧ ((x.replay ≠ [] ∧ x.progress + 200000 ≤ s.time) ∨ 16 ≤ x.naks) then
      (s.setPport p.val { x with state := 1, downFrom := some s.time }).linkEvent 0x2F05 p.val 0
    else s)

/-- LINK_RETRAIN_COMPLETE (R338): the sender resumes from its first unacknowledged flit; the third failure in a row fails
the port with fault 0x2F.06 and discards its replay buffer. -/
def execLinkRetrainComplete (p : Port) (ok : Bool) (s : State) : Host.Outcome State Fault Refusal :=
  .next (
    let x := s.pport p.val
    if x.state ≠ 1 then s
    else if ok then
      s.setPport p.val { x with state := 2, fails := 0, naks := 0, downFrom := none, progress := s.time
                                resend := if x.replay.isEmpty then none else some 0, nakOut := false }
    else if 2 ≤ x.fails then
      (s.setPport p.val { x with state := 3, fails := 3, replay := [], resend := none }).linkEvent 0x2F06 p.val 0
    else s.setPport p.val { x with fails := x.fails + 1 })

/-! ### Failed devices (R369-R371) -/

/-- HEARTBEAT (R369). -/
def execHeartbeat (p : Port) (s : State) : Host.Outcome State Fault Refusal :=
  .next (s.setPport p.val { s.pport p.val with heard := s.time })

/-- HEARTBEAT_TIMER (R369): every 10 µs, on every up port. -/
def execHeartbeatTimer (s : State) : Host.Outcome State Fault Refusal :=
  .next (
    if s.pont.ndim ≠ 0 ∧ s.pont.sentBeat + 40000 ≤ s.time then
      (s.onPont (fun d => { d with sentBeat := s.time })).toPorts (fun dst => s.plainPkt 0x12 0 dst []) (fun _ => true)
    else s)

end Sys2Proof.Machine
end

