-- ==== Sys2Proof/Machine/Control.lean ====
section
/-! DEFINITION. The control slot (R107-R113): waits, loops, branches, paging, scalars. MARK is the trace unit's. -/

namespace Sys2Proof.Machine

/-- Run a control-slot operation `i` when its core issues in this tcyc. -/
def State.cSlot (s : State) (p : Nat) (i : Instr) (k : State → State) : State := s.whenIssued p i none k

/-- A wait for tcyc `target` (R109). -/
def State.waitFor (s : State) (p : Nat) (i : Instr) (target : Nat) : State :=
  s.cSlot p i (fun s =>
    if target ≤ s.tcyc p then s.seqFault p 0x2202
    else s.onCore p (fun c => { c with waitNew := some target }))

/-- WAITC (R107, R109). -/
def execWaitc (p : Pos) (target : BitVec 20) (s : State) : Host.Outcome State Fault Refusal :=
  .next (s.waitFor p.val (.waitc p target) target.toNat)

/-- WAITS (R107, R109). -/
def execWaits (p : Pos) (sa : BitVec 4) (s : State) : Host.Outcome State Fault Refusal :=
  .next (s.waitFor p.val (.waits p sa) (s.sReg p.val sa.toNat).toNat)

/-- RPT (R107): the bundle issues n + 1 times, n the field. -/
def execRpt (p : Pos) (n : BitVec 16) (s : State) : Host.Outcome State Fault Refusal :=
  .next (s.cSlot p.val (.rpt p n) (fun s => s.onCore p.val (fun c =>
    if c.rptOn then c else { c with rpt := n.toNat })))

/-- Open a loop of `count` iterations over the `len` bundles that follow (R108). -/
def State.openLoop (s : State) (p : Nat) (i : Instr) (level count len : Nat) : State :=
  s.cSlot p i (fun s =>
    let c := s.coreAt p
    let first := c.pc + 1
    let crosses := match c.loops with
      | [] => false
      | l :: _ => decide (l.len ≤ (c.pc + BitVec.ofNat 13 len - l.first).toNat)
    if level != c.loops.length || crosses then s.bundleNop p 0x2203
    else s.onCore p (fun c => { c with loopNew := some { first := first, len := len, left := count } }))

/-- LOOP (R107, R108). -/
def execLoop (p : Pos) (level : BitVec 2) (count : BitVec 10) (len : BitVec 8) (s : State) :
    Host.Outcome State Fault Refusal :=
  .next (s.openLoop p.val (.loop p level count len) level.toNat (count.toNat + 1) (len.toNat + 1))

/-- LOOPS (R107, R108): the count is s(A)[23:0], and 0 skips the body. -/
def execLoops (p : Pos) (level : BitVec 2) (sa : BitVec 4) (len : BitVec 8) (s : State) :
    Host.Outcome State Fault Refusal :=
  .next (s.openLoop p.val (.loops p level sa len) level.toNat ((s.sReg p.val sa.toNat).toNat % 2 ^ 24) (len.toNat + 1))

/-- JMP (R107, R110). -/
def execJmp (p : Pos) (addr : BitVec 13) (s : State) : Host.Outcome State Fault Refusal :=
  .next (s.cSlot p.val (.jmp p addr) (fun s => s.onCore p.val (fun c => { c with jump := some addr })))

/-- BNZ (R107, R110). -/
def execBnz (p : Pos) (sa : BitVec 4) (addr : BitVec 13) (s : State) : Host.Outcome State Fault Refusal :=
  .next (s.cSlot p.val (.bnz p sa addr) (fun s =>
    if s.sReg p.val sa.toNat = 0 then s else s.onCore p.val (fun c => { c with jump := some addr })))

/-- PAGE (R113): 32 granules of the code region into a page slot, one per tcyc, through the deck port. -/
def execPage (p : Pos) (slot : BitVec 4) (code : BitVec 12) (s : State) : Host.Outcome State Fault Refusal :=
  .next (s.cSlot p.val (.page p slot code) (fun s =>
    s.port p.val 32 (fun s =>
      let g := ((s.coreAt p.val).codeBase + 8192 * code.toNat) / 256
      let s := (List.range 32).foldl (fun s k => s.pendOp p.val (.page slot.toNat k (g + k)) (k + 1) 0 0) s
      s.pendOp p.val (.pageValid slot.toNat) 32 0 0)))

/-- SETL (R107). -/
def execSetl (p : Pos) (sd : BitVec 4) (imm : BitVec 16) (s : State) : Host.Outcome State Fault Refusal :=
  .next (s.cSlot p.val (.setl p sd imm) (fun s => s.pendOp p.val (.s sd.toNat) 1 0 (imm.setWidth 2048)))

/-- SETH (R107): the lower half keeps its value. -/
def execSeth (p : Pos) (sd : BitVec 4) (imm : BitVec 16) (s : State) : Host.Outcome State Fault Refusal :=
  .next (s.cSlot p.val (.seth p sd imm) (fun s =>
    let w : Word := imm ++ (s.sReg p.val sd.toNat).setWidth 16
    s.pendOp p.val (.s sd.toNat) 1 0 (w.setWidth 2048)))

/-- The scalar functions (R107); none for a reserved one. -/
def saluOp (func : Nat) (a b : Word) : Option Word :=
  match func with
  | 0 => some (a + b)
  | 1 => some (a - b)
  | 2 => some (a &&& b)
  | 3 => some (a ||| b)
  | 4 => some (a ^^^ b)
  | 5 => some (a <<< (b.toNat % 32))
  | 6 => some (a >>> (b.toNat % 32))
  | 7 => some (a * b)
  | _ => none

/-- SALU (R107). -/
def execSalu (p : Pos) (sd sa sb func : BitVec 4) (s : State) : Host.Outcome State Fault Refusal :=
  .next (s.cSlot p.val (.salu p sd sa sb func) (fun s =>
    match saluOp func.toNat (s.sReg p.val sa.toNat) (s.sReg p.val sb.toNat) with
    | some w => s.pendOp p.val (.s sd.toNat) 1 0 (w.setWidth 2048)
    | none => s.illegal p.val))

/-- MOVX (R107): an address register, deck pointer, seed or index from scalar registers. -/
def execMovx (p : Pos) (sa : BitVec 4) (target : BitVec 5) (s : State) : Host.Outcome State Fault Refusal :=
  .next (s.cSlot p.val (.movx p sa target) (fun s =>
    let w := s.sReg p.val sa.toNat
    let t := target.toNat
    if t < 16 then s.pendOp p.val (.a t) 1 0 (w.setWidth 2048)
    else if t < 24 then s.pendOp p.val (.dp (t - 16)) 1 0 (w.setWidth 2048)
    else if sa.toNat % 2 = 1 then s.illegal p.val
    else
      let d : DWord := s.sReg p.val (sa.toNat + 1) ++ w
      s.pendOp p.val (if t < 28 then .seed (t - 24) else .idx (t - 28)) 1 0 (d.setWidth 2048)))

/-- END (R107, R111). -/
def execEnd (p : Pos) (s : State) : Host.Outcome State Fault Refusal :=
  .next (s.cSlot p.val (.endOp p) (fun s => s.onCore p.val (fun c => { c with endNew := true })))

/-- The bundle after the one at `pc`, and the loops then active (R108): the innermost loop comes first. -/
def afterBundle (pc : BitVec 13) : List LoopLvl → BitVec 13 × List LoopLvl
  | [] => (pc + 1, [])
  | l :: r =>
    if pc = l.first + BitVec.ofNat 13 (l.len - 1) then
      if 1 < l.left then (l.first, { l with left := l.left - 1 } :: r) else afterBundle pc r
    else (pc + 1, l :: r)

/-- Whether an address lies in a loop's body; addresses run on from 8,191 to 0 (R112). -/
def LoopLvl.holds (l : LoopLvl) (pc : BitVec 13) : Bool := decide ((pc - l.first).toNat < l.len)

/-- The sequencer after the tcyc in which it issued the bundle at its pc (R107-R111). -/
def CoreSt.sequence (c : CoreSt) : CoreSt :=
  if c.endNew then { c with ended := true, endNew := false, loops := [], rpt := 0, rptOn := false }
  else if 0 < c.rpt then { c with rpt := c.rpt - 1, rptOn := true }
  else
    let (pc, loops) :=
      match c.jump with
      | some t => (t, (c.loops.reverse.takeWhile (fun l => l.holds t)).reverse)
      | none =>
        match c.loopNew with
        | some l =>
          if l.left = 0 then afterBundle (l.first + BitVec.ofNat 13 (l.len - 1)) c.loops
          else (l.first, l :: c.loops)
        | none => afterBundle c.pc c.loops
    { c with
      pc := pc, loops := loops, jump := none, loopNew := none, rpt := 0, rptOn := false
      waitTo := (match c.waitNew with | some t => t | none => c.waitTo), waitNew := none }

/-- The fetch of the bundle that the core issues in this tcyc, from a valid page slot or not (R112, R113). -/
def State.fetchCheck (s : State) (p : Nat) : State :=
  let c := s.coreAt p
  let t := s.tcyc p
  if s.isLive p && !c.ended && !c.noIssue && !c.rptOn && decide (c.waitTo ≤ t) && decide (t < s.endMark)
      && !c.valid.getLsbD (c.pc.toNat / 512) then
    (s.seqFault p 0x2205).onCore p (fun c => { c with noIssue := true })
  else s

end Sys2Proof.Machine
end

