-- ==== Sys2Proof/Machine/Trace.lean ====
section
/-! DEFINITION. Trace records (R203, R511-R517): regions, forming a record, the holding registers, MARK. -/

namespace Sys2Proof.Machine

/-- A log region: 0 to 15 of the berths, 16 of the admin, which `CNT.TRACE_BASE` and `CNT.TRACE_SIZE` place (R512). -/
def State.region (s : State) (r : Nat) : TrcRegion :=
  let x := tget s.obs.regions r .reset
  if r = 16 then { x with base := s.obs.traceBase.toNat, size := s.obs.traceSize, enable := 0xFF } else x
def State.setRegion (s : State) (r : Nat) (x : TrcRegion) : State :=
  { s with obs := { s.obs with regions := tset s.obs.regions r x } }

/-- Whether a region takes the records that a bit of ENABLE selects; a berth needs FLAGS.TRACE (R512, R513, R517). -/
def State.regionTakes (s : State) (r bit : Nat) : Bool :=
  let x := s.region r
  x.size != 0 && x.enable.getLsbD bit && (r == 16 || (brtEnabled s.brt.live r && brtFlag s.brt.live r 2))

/-- The berth that all live cores of a cluster belong to (R513). -/
def State.cluBerth (s : State) (j : Nat) : Option Nat :=
  match (cluPos j).filter s.isLive with
  | [] => none
  | p :: r => (s.coreBerth p).filter (fun b => r.all (fun q => s.coreBerth q == some b))

/-- The regions of a record of a type and a berth, 0xFF for none (R513). -/
def State.recRegions (s : State) (ty berth : Nat) : List Nat :=
  let own (bit : Nat) : List Nat := if berth < 16 && s.regionTakes berth bit then [berth] else []
  match ty with
  | 4 => own 1 ++ (if s.regionTakes 16 1 then [16] else [])
  | 5 => if berth < 16 then own 2 else if s.regionTakes 16 2 then [16] else []
  | _ => own 0

/-- A record to form (R515): its source is a position, 192 + cluster, or 1000 + context. -/
structure TrcEv where
  ty    : Nat
  pos   : Nat
  berth : Nat
  tcyc  : Nat
  src   : Nat
  time  : Nat
  body  : List Byte

/-- The 64 bytes of a record (R515), with the flags and the number of its source. -/
def State.formRec (s : State) (e : TrcEv) : State × Row :=
  let o := s.obs
  let disc := tget o.discFlag e.src false || tget o.discFlag 2000 false
  let seq := tget o.seqs e.src 0
  let flags := (if disc then 1 else 0) + (if tget o.lostFlag e.src false then 2 else 0)
  let hdr := bytesOf e.ty 1 ++ bytesOf flags 1 ++ bytesOf e.pos 1 ++ bytesOf e.berth 1 ++ bytesOf e.tcyc 4
    ++ bytesOf e.time 8 ++ bytesOf s.frm.frameNum.toNat 6 ++ bytesOf seq.toNat 2
  ({ s with obs := { o with
      discFlag := tdel (tdel o.discFlag e.src) 2000, lostFlag := tdel o.lostFlag e.src
      seqs := tset o.seqs e.src (seq + 1) } },
   BitVec.ofNat 512 (ofBytes (hdr ++ e.body)))

/-- A record is lost for a region (R514): reason 0 holding register, 1 cap, 2 export. -/
def State.regionLoss (s : State) (r reason : Nat) : State :=
  let x := s.region r
  s.setRegion r { x with lost := x.lost + 1, unsaid := x.unsaid + 1, reason := reason }

/-- Losses of a region raise notice 0x33.04, once per ms (R460, R514). -/
def State.lossNotice (s : State) (r : Nat) : State := s.raise { code := 0x3304, aux := r, inst := r, blk := 1 }

/-- A core's or cluster's record into the holding register of position `p` (R203, R514). -/
def State.holdRec (s : State) (p : Nat) (e : TrcEv) : State :=
  match s.recRegions e.ty e.berth with
  | [] => s
  | rs =>
    let x := s.rtrAt p
    if x.trace.isSome then
      let s := rs.foldl (fun s r => (s.regionLoss r 0).lossNotice r) (s.count 0 0 10 1)
      { s with obs := { s.obs with lostFlag := tset s.obs.lostFlag e.src true } }
    else
      let (s, v) := s.formRec e
      s.setRtr p { x with trace := some { pay := v, side := 1 } }

/-- A record of a core in the tcyc it executes. -/
def State.coreRec (s : State) (p ty tcyc : Nat) (body : List Byte) : State :=
  s.holdRec p { ty := ty, pos := p, berth := (s.coreBerth p).getD 0xFF, tcyc := tcyc, src := p
                time := s.cluTime (posClu p), body := body }

/-- A frame record of a cluster at its end mark, through its lowest-numbered live core (R514, R516). -/
def State.frameRec (s : State) (j : Nat) : State :=
  match (cluPos j).filter s.isLive with
  | [] => s
  | p :: _ =>
    let c := s.cluAt j
    let body := bytesOf c.clkCount 4 ++ ((List.range 8).map (fun k => bytesOf (tget c.frameCnt k 0) 4)).flatten
    s.holdRec p { ty := 4, pos := 0xFF, berth := (s.cluBerth j).getD 0xFF, tcyc := c.slot, src := 192 + j
                  time := s.cluTime j, body := body }

/-- A stream record, which reaches the writer directly (R513, R514, R516): event 0 triggered, 1 done, 2 aborted. -/
def State.streamRec (s : State) (k event : Nat) : State :=
  let x := s.ctxAt k
  match s.recRegions 5 x.berth with
  | [] => s
  | rs =>
    let (s, v) := s.formRec
      { ty := 5, pos := if ctxBlk k = 0 then ctxUnit k else 0xFF, berth := x.berth, tcyc := 0, src := 1000 + k
        time := s.time
        body := bytesOf (ctxBlk k) 1 ++ bytesOf event 1 ++ bytesOf (ctxNum k) 2 ++ bytesOf x.held.toNat 4 }
    { s with obs := { s.obs with queue := s.obs.queue ++ rs.map (fun r => { region := r, body := v }) } }

/-- A popped flit with SAMPLE set makes an arrival record (R511, R516). -/
def State.arrivalRec (s : State) (p op : Nat) (f : Flit) : State :=
  if f.side.getLsbD 28 then
    let sd := f.side.toNat
    s.coreRec p 3 (s.tcyc p)
      (bytesOf (sd / 16 % 16) 1 ++ bytesOf (sd / 256 % 16) 1 ++ bytesOf (sd / 4096 % 65536) 2 ++ bytesOf op 1)
  else s

/-- MARK (R107, R513): a user mark, where the berth's trace takes it. -/
def execMark (p : Pos) (val : BitVec 16) (s : State) : Host.Outcome State Fault Refusal :=
  .next (s.cSlot p.val (.mark p val) (fun s =>
    s.coreRec p.val 2 (s.tcyc p.val) (bytesOf val.toNat 2 ++ bytesOf (s.coreAt p.val).pc.toNat 2)))

/-- An export copy is dropped (R510): counted as lost at the cap, notice 0x33.06. -/
def State.exportLost (s : State) : State :=
  ((s.count 0 0 11 1).regionLoss 16 2).raise { code := 0x3306, aux := 16, blk := 1 }

end Sys2Proof.Machine
end

