-- ==== Sys2Proof/Machine/Remote.lean ====
section
/-! DEFINITION. Pontoon's operations: local packets, AS8, the destination's checks and effects, completions, collectives,
system time and ticks, and device failure (R339-R373). The payloads of COMPLETION, DONE, DECIDE, TIME, TICK and FAILED
are log entry 24's. -/

namespace Sys2Proof.Machine

/-! ### Collective instances (R357-R361) -/

def PontSt.coll (d : PontSt) (c : Nat) : Option CollInst := d.colls.find? (fun x => x.desc.coll.toNat == c)
def PontSt.setColl (d : PontSt) (x : CollInst) : PontSt :=
  { d with colls := d.colls.map (fun y => if y.desc.coll == x.desc.coll then x else y) }
def State.setColl (s : State) (x : CollInst) : State := s.onPont (fun d => d.setColl x)

/-- An instance of a descriptor that nothing has triggered. -/
def CollInst.fresh (c : CollDesc) : CollInst :=
  { desc := c, active := false, sfn := 0, deadline := 0, received := 0, issued := false, sats := 0
    doneSent := false, dones := [], decision := none, told := false, decided := none }

/-- The system frame number nearest the current one with the low 16 bits of SFN (R339). -/
def PontSt.frameOf (d : PontSt) (sfn : Nat) : Nat :=
  let t := d.trigger.1
  let k := (sfn + 65536 - t % 65536) % 65536
  if k < 32768 then t + k else t + k - 65536
/-- I_S of a system frame (R359, R365). -/
def PontSt.instant (d : PontSt) (f : Nat) : Nat :=
  match d.lastTick with
  | some (s0, i0, p) => ((i0 : Int) + ((f : Int) - s0) * p).toNat
  | none => 0

/-- An instance triggered in system frame `f`, with the deadline of R359. -/
def CollInst.start (x : CollInst) (d : PontSt) (f : Nat) : CollInst :=
  { CollInst.fresh x.desc with
    active := true, sfn := BitVec.ofNat 48 f
    deadline := d.instant f + x.desc.dlFrames * ((d.lastTick.map (·.2.2)).getD 0) + x.desc.dlOffset }

/-- The devices that a descriptor's member list is known by here: leader, deputy, windows of the collective, and the
sources of DONE (log entry 25). -/
def CollInst.members (x : CollInst) (d : PontSt) : List (BitVec 18) :=
  (x.desc.leader :: x.desc.deputy :: (d.windows.filter (fun w => w.coll == x.desc.coll)).map (·.dev)
    ++ x.dones.map (·.1)).eraseDups

/-- Whether an operation of this device for a collective is still to complete: a request, a packet out, or a waybill that
runs on one of its windows (R359). -/
def State.ownOps (s : State) (c : BitVec 16) : Bool :=
  s.pont.ops.any (fun o => o.coll == c) ||
  s.queue.any (fun q => q.1 / 64 == 2 && q.2.reqs.any (fun r => (s.pont.windows[r.win]?).any (fun w => w.coll == c))) ||
  s.ctx.any (fun x => x.2.status == .running && (x.2.desc.any (fun b => b.far == 3)) &&
    (s.pont.windows[x.2.fbase.toNat / 2 ^ 50]?).any (fun w => w.coll == c))

/-- The decision granule (R360): written and published in DCORE's landing buffer, in its first free granule. -/
def State.publishDecision (s : State) (x : CollInst) (outcome : Nat) (clipped : Bool) (total : Nat) : State :=
  match s.physOf x.desc.dcoreX x.desc.dcoreY with
  | none => s
  | some p =>
    let k := ctxKey 0 p x.desc.ddesc
    let c := s.ctxAt k
    match c.desc, (List.range c.size).find? (fun g => tget c.grans g .free == .free) with
    | some b, some g =>
      let v := x.desc.coll.toNat + 2 ^ 16 * outcome + (if clipped then 2 ^ 24 else 0) + 2 ^ 32 * (total % 2 ^ 32)
        + 2 ^ 64 * x.sfn.toNat
      let s := (List.range 4).foldl (fun s w =>
        (s.putDeckUnit p (b.base + g) w (BitVec.ofNat 512 (v / 2 ^ (512 * w))) false true false).1) s
      s.setCtx k (c.setGran g (.published b.uses))
    | _, _ => s

/-- A packet that stands for the event of a collective (R458). -/
def State.collPkt (s : State) (x : CollInst) (opc : Nat) : Packet :=
  { s.plainPkt opc 1 s.pont.devId [] with coll := x.desc.coll, sfn := x.sfn.setWidth 16, gated := x.desc.gated }

/-- A member acts on the first outcome it has (R359-R361): 0 clean, 1 miss, 2 timed out. -/
def State.actOn (s : State) (c outcome : Nat) (clipped : Bool) (total : Nat) : State :=
  match s.pont.coll c with
  | none => s
  | some x =>
    match x.decided with
    | some 2 =>
      if outcome = 0 then
        let s := s.pktEvent 0x300C (s.collPkt x 9)
        ({ s with frm := { s.frm with stopReq := true, divStop := true } }).setColl { x with decided := some 0 }
      else s
    | some _ => s
    | none =>
      if !x.active then s
      else
        let s := s.setColl { x with active := false, decided := some outcome }
        let s := if outcome = 1 then s.pktEvent 0x3003 (s.collPkt x 9)
                 else if outcome = 2 then s.pktEvent 0x3004 (s.collPkt x 9)
                 else if clipped then s.pktEvent 0x3005 (s.collPkt x 9) else s
        s.publishDecision x outcome clipped total

/-- DECIDE for another device. -/
def State.decidePkt (s : State) (x : CollInst) (dst : BitVec 18) (outcome : Nat) (clipped : Bool) (total : Nat) : Packet :=
  { s.collPkt x 9 with dst := dst, len := 8
                       data := bytesOf (outcome + (if clipped then 256 else 0) + 2 ^ 32 * (total % 2 ^ 32)) 8 }

/-- DECIDE goes to every member, this one included (R359). -/
def State.broadcast (s : State) (c : Nat) : State :=
  match s.pont.coll c with
  | none => s
  | some x =>
    match x.decision with
    | none => s
    | some (o, cl, tot) =>
      let s := s.setColl { x with told := true }
      let s := ((x.members s.pont).filter (fun m => m != s.pont.devId)).foldl (fun s m =>
        s.route (s.decidePkt x m o cl tot) none) s
      s.actOn c o cl tot

/-- The leader, or the deputy in its place, decides (R354, R359): DECIDE to the deputy first. -/
def State.decideColl (s : State) (c outcome : Nat) : State :=
  match s.pont.coll c with
  | none => s
  | some x =>
    let total := (x.dones.map (·.2)).foldl (· + ·) 0
    let clipped := outcome = 0 && decide (x.desc.clip < total)
    let s := s.setColl { x with decision := some (outcome, clipped, total) }
    if s.pont.devId = x.desc.leader && !s.pont.dead x.desc.deputy.toNat then
      let k := s.decidePkt x x.desc.deputy outcome clipped total
      let s := s.onPont (fun d => { d with
        opNo := d.opNo + 1
        ops := d.ops ++ [{ id := d.opNo, opc := 9, dst := k.dst, addr := k.addr, coll := k.coll, sfn := k.sfn
                           issued := s.time, reqs := [] }] })
      s.route k none
    else s.broadcast c

/-- Whether this device decides an instance: it is the leader, or the deputy of a failed one (R359). -/
def PontSt.decides (d : PontSt) (x : CollInst) : Bool :=
  d.devId == x.desc.leader || (d.devId == x.desc.deputy && d.dead x.desc.leader.toNat)

/-- A DONE is held (R359): the leader decides CLEAN once every member's is, by the deadline, and MISS at once with a failed member;
the deputy of a failed leader waits for the deadline (`execCollectiveDeadline`). -/
def State.holdDone (s : State) (c : Nat) (src : BitVec 18) (sats : Nat) : State :=
  match s.pont.coll c with
  | none => s
  | some x =>
    let x := if x.dones.any (fun d => d.1 == src) then x else { x with dones := x.dones ++ [(src, sats)] }
    let s := s.setColl x
    if s.pont.devId == x.desc.leader && x.decision.isNone && x.active then
      if (x.members s.pont).any (fun m => s.pont.dead m.toNat) then s.decideColl c 1
      else if x.desc.members ≤ x.dones.length && s.sysTime ≤ x.deadline then s.decideColl c 0
      else s
    else s

/-- A member's part is done (R359): DONE to the leader and the deputy, with its saturation count. -/
def State.memberCheck (s : State) (c : Nat) : State :=
  match s.pont.coll c with
  | none => s
  | some x =>
    if x.desc.gated && x.active && !x.doneSent && x.desc.expectIn ≤ x.received && !s.ownOps x.desc.coll then
      let s := s.setColl { x with doneSent := true }
      let send (s : State) (m : BitVec 18) : State :=
        if m = s.pont.devId then s.holdDone c m x.sats
        else s.route { s.collPkt x 8 with dst := m, len := 4, data := bytesOf x.sats 4 } none
      send (send s x.desc.leader) x.desc.deputy
    else s

/-- The instance of a collective is triggered if it is not active (R357). -/
def State.trigger (s : State) (c f : Nat) : State :=
  match s.pont.coll c with
  | none => s
  | some x =>
    if x.active || (x.decided.isSome && x.sfn.toNat == f) then s
    else
      let s := s.setColl (x.start s.pont f)
      if x.desc.gated && s.pont.decides x && (x.members s.pont).any (fun m => s.pont.dead m.toNat) then s.decideColl c 1
      else s

/-! ### AS8 (R352-R354) -/

/-- Byte address of a segment's entry in the current or the next buffer (R353). -/
def scaleAddr (c : CollDesc) (step seg : Nat) : Nat := c.scale + c.segments * (step % 2) + seg
/-- The scale code of a segment (R353). -/
def segScale (c : CollDesc) (e : Nat) : Nat :=
  if e = 0 then c.initScale.toNat
  else
    let v : Int := (e : Int) + c.headroom - 15
    if v < 0 then 0 else if 254 < v then 254 else v.toNat
def State.scaleOf (s : State) (c : CollDesc) (seg : Nat) : Nat :=
  segScale c (s.lp.get (scaleAddr c s.frm.frameStep.toNat seg)).toNat

/-- The code of an FP32 value under a scale code, and whether it saturates (R353, R354). -/
def as8Encode (w sc : Nat) : Nat × Bool :=
  match fp32.dec w with
  | .nan => (0x7F, false)
  | x => e5m2.enc .rne (x.scale (127 - (sc : Int)))
/-- The FP32 value of a code under a scale code (R353). -/
def as8Decode (c sc : Nat) : Nat := fp32.enc .rne ((e5m2.dec c).scale ((sc : Int) - 127))

/-- A block's largest exponent raises the segment's next entry (R353). -/
def State.raiseScale (s : State) (c : CollDesc) (seg : Nat) (ws : List Nat) : State :=
  let best := ws.foldl (fun m w =>
    match fp32.dec w with
    | .fin neg k e => if k = 0 then m else max m (max ((FpVal.fin neg k e).log2 + 127) 1).toNat
    | _ => m) 0
  let a := scaleAddr c (s.frm.frameStep.toNat + 1) seg
  if (s.lp.get a).toNat < best then { s with lp := s.lp.set a (BitVec.ofNat 8 best) } else s

/-! ### Local packets (R341, R345, R349) -/

/-- The requests that one packet of a window carries: one unit, or the 16 units of an AS8 block once all are queued. -/
def State.packetReqs (s : State) (p : Nat) (r : Req) (w : PeerWindow) : Option (List Req) :=
  if w.op = 2 && r.isWrite then
    let lo := r.addr / 1024 * 1024
    let rs := (s.queueAt (queueKey 2 p)).reqs.filter (fun x =>
      x.ctx == r.ctx && x.win == r.win && !x.sent && decide (lo ≤ x.addr) && decide (x.addr < lo + 1024))
    let rs := (List.range 16).filterMap (fun k => rs.find? (fun x => x.addr == lo + 64 * k))
    if rs.length = 16 then some rs else none
  else some [r]

/-- The near side of some requests read in order, the first with an access of its own (R219); none while a window of the deck wakes
or its half-bank is taken. -/
def State.gather (s : State) (own : Bool) : List Req → Option (State × List Byte × Bool)
  | [] => some (s, [], false)
  | r :: t =>
    let (s, v, po, acc) := s.sourceRow r own
    if acc = .wait then none
    else (s.gather false t).map (fun x => (x.1, bytesOf v.toNat 64 ++ x.2.1, po || x.2.2))

/-- The data of an AS8 packet of one block (R341, R352-R354): its items, ZMAP, and saturations. -/
def State.encodeBlock (s : State) (w : PeerWindow) (off : Nat) (bs : List Byte) : State × List Byte × Nat × Nat :=
  let ws := (List.range 256).map (fun j => ofBytes ((bs.drop (4 * j)).take 4))
  if ws.all (· == 0) then (s, bytesOf 0x01000000 8, 1, 0)
  else match s.pont.coll w.coll.toNat with
    | some x =>
      let seg := off / 16384
      let es := ws.map (fun v => as8Encode v (s.scaleOf x.desc seg))
      (s.raiseScale x.desc seg ws, es.map (fun e => BitVec.ofNat 8 e.1), 0, (es.filter (·.2)).length)
    | none =>
      let es := ws.map (fun v => as8Encode v 127)
      (s, es.map (fun e => BitVec.ofNat 8 e.1), 0, (es.filter (·.2)).length)

/-- The packet of the request that a port serves next (R258, R349), if one can be formed. -/
def State.formPacket (s : State) (p : Nat) : State :=
  let qk := queueKey 2 p
  match (s.queueAt qk).pick (fun r => (s.pport p).closing.isNone && !r.sent &&
      ((s.pont.windows[r.win]?).any (fun w => (s.packetReqs p r w).isSome))) with
  | none => s
  | some r =>
    match s.pont.windows[r.win]? with
    | none => s
    | some w =>
      match s.packetReqs p r w with
      | none => s
      | some rs =>
        let off := (rs.head?.map (·.addr)).getD r.addr
        let addr := BitVec.ofNat 64 ((w.base + off) % 2 ^ 48 + 2 ^ 48 * (w.space % 2))
        let opc := if !r.isWrite then 2 else match w.op with | 0 => 1 | 1 => 4 | 2 => 5 | _ => 6
        match (if r.isWrite then s.gather true rs else some (s, [], false)) with
        | none => s
        | some (s, bs, po) =>
          let (s, data, zmap, sats) := if opc = 5 then s.encodeBlock w off bs else (s, bs, 0, 0)
          let s := if opc = 5 && zmap = 1 then s.count 5 p 8 1 else s
          let s := if sats = 0 then s else
            match s.pont.coll w.coll.toNat with
            | some x => (s.setColl { x with sats := x.sats + sats }).count 5 p 9 sats
            | none => s.count 5 p 9 sats
          let dl := match r.deadline with
            | some t => BitVec.ofNat 48 (((t : Int) + s.pont.diff).toNat)
            | none => BitVec.allOnes 48
          let gated := (s.pont.coll w.coll.toNat).any (fun x => x.desc.gated)
          let k : Packet :=
            { opc := BitVec.ofNat 8 opc, poison := po, gated := gated
              job := BitVec.ofNat 16 (brtJob s.brt.live (s.ctxAt r.ctx).berth), dst := w.dev, src := s.pont.devId
              coll := w.coll, sfn := BitVec.ofNat 16 r.sfn, len := if opc = 5 then 1 else BitVec.ofNat 16 64, addr := addr
              deadline := dl, zmap := BitVec.ofNat 16 zmap, vc := if opc = 2 then 1 else BitVec.ofNat 4 w.vc, data := data }
          let q := s.queueAt qk
          let ids := rs.map (·.id)
          let s := s.setQueue qk { q with reqs := q.reqs.map (fun x => if ids.contains x.id then { x with sent := true } else x) }
          let s := s.onPont (fun d => { d with
            opNo := d.opNo + 1
            ops := d.ops ++ [{ id := d.opNo, opc := opc, dst := w.dev, addr := addr, coll := w.coll, sfn := k.sfn
                               issued := s.time, reqs := ids }] })
          s.route k none

/-- PORT_FLIT_BOUNDARY (R345). -/
def execPortFlitBoundary (p : Port) (s : State) : Host.Outcome State Fault Refusal :=
  .next (if (s.pport p.val).state = 2 then (s.formPacket p.val).flitBoundary p.val else s)

/-! ### The source of an operation (R343) -/

/-- An operation is over: its requests complete, a read's with the data given. -/
def State.endOp (s : State) (o : RemoteOp) (v : Nat → Row) (poison : Bool) : State :=
  let s := s.onPont (fun d => { d with ops := d.ops.filter (fun x => x.id != o.id) })
  let s := (List.range o.reqs.length).foldl (fun s n =>
    match o.reqs[n]? with
    | none => s
    | some id =>
      match s.queue.find? (fun q => q.1 / 64 == 2 && q.2.reqs.any (fun r => r.id == id)) with
      | none => s
      | some (qk, q) =>
        match q.reqs.find? (fun r => r.id == id) with
        | none => s
        | some r =>
          let s := if r.isWrite then s else (s.sinkRow r (v n) poison false).1
          (s.dequeue qk id).unitDone r) s
  s.memberCheck o.coll.toNat

/-- The open operation that a packet from its destination ends. -/
def PontSt.opFor (d : PontSt) (k : Packet) (ok : Nat → Bool) : Option RemoteOp :=
  d.ops.find? (fun o => o.dst == k.src && o.addr == k.addr && o.coll == k.coll && o.sfn == k.sfn && ok o.opc)

/-- READ_RESP (R340, R342). -/
def execReadResp (p : Port) (pkt : Packet) (s : State) : Host.Outcome State Fault Refusal :=
  .next (
    let s := s.takeRx p.val pkt
    if pkt.dst ≠ s.pont.devId then s.route pkt (some (p.val, 0))
    else match s.pont.opFor pkt (fun o => o == 2) with
      | none => s
      | some o =>
        let s := if pkt.poison then s.pktEvent 0x3006 pkt else s
        s.endOp o (fun n => BitVec.ofNat 512 (ofBytes ((pkt.data.drop (64 * n)).take 64))) pkt.poison)

/-- COMPLETION (R340, R350, R359). -/
def execCompletion (p : Port) (pkt : Packet) (s : State) : Host.Outcome State Fault Refusal :=
  .next (
    let s := s.takeRx p.val pkt
    if pkt.dst ≠ s.pont.devId then s.route pkt (some (p.val, 0))
    else
      let status := ((pkt.data[0]?).getD 0).toNat
      match s.pont.opFor pkt (fun o => o != 2 || status == 1) with
      | none => s
      | some o =>
        let copy := o.opc == 1 && o.reqs.isEmpty
        let s := if status = 1 then (if copy then s.exportLost else s.pktEvent 0x3001 pkt) else s
        let (s, v) := if status = 1 then s.noRow else (s, 0)
        let s := s.endOp o (fun _ => v) true
        if o.opc = 9 then s.broadcast o.coll.toNat else s)

/-- A DECIDE that no completion of the deputy answers any more: the leader tells every member without it (R359, R361). -/
def State.endDecide (s : State) (o : RemoteOp) : State := (s.endOp o (fun _ => 0) true).broadcast o.coll.toNat

/-- REMOTE_OP_TIMEOUT (R343): 1 ms after issue; a read delivers zeros with the poison syndrome, and a leader no longer waits for its
deputy (R361). -/
def execRemoteOpTimeout (id : Nat) (s : State) : Host.Outcome State Fault Refusal :=
  .next (
    match s.pont.ops.find? (fun o => o.id == id && decide (o.issued + 4000000 ≤ s.time)) with
    | none => s
    | some o =>
      let k := { s.plainPkt o.opc 1 o.dst [] with coll := o.coll, sfn := o.sfn, addr := o.addr }
      if o.opc == 9 && o.reqs.isEmpty then s.endDecide o
      else (if o.opc == 1 && o.reqs.isEmpty then s.exportLost else s.pktEvent 0x3002 k).endOp o (fun _ => 0) true)

/-! ### The destination of an operation (R340, R342, R350, R355, R357) -/

/-- The berth of a Pontoon job tag. -/
def State.jobBerth (s : State) (job : BitVec 16) : Option Nat :=
  brtFind s.brt.live (fun b => brtJob s.brt.live b == job.toNat)
def pktSpace (k : Packet) : Bool := k.addr.getLsbD 48
def pktAddr (k : Packet) : Nat := k.addr.toNat % 2 ^ 48
/-- The bytes at the destination that an operation names. -/
def pktSpan (k : Packet) : Nat := if k.opc = 5 then 1024 * (k.len.toNat % 32) else k.len.toNat

/-- The conditions of R350 and the alignments of R340. -/
def State.accepts (s : State) (k : Packet) : Bool :=
  let a := pktAddr k
  let n := pktSpan k
  match s.jobBerth k.job with
  | none => false
  | some b =>
    s.grantsVc b k.vc.toNat && !s.post.killing.contains b &&
    (if pktSpace k then s.grantsDeck b (a / 67108864) (a % 67108864 / 256) ((a % 67108864 + n + 255) / 256)
     else s.grantsLp b a (a + n)) &&
    !((k.opc == 1 || k.opc == 4 || k.opc == 5) && a % 64 != 0) && !(k.opc == 4 && n % 64 != 0)

/-- The COMPLETION of an operation: status 0 OK, 1 REFUSED, 2 POISONED. -/
def State.complete (s : State) (k : Packet) (status : Nat) : State :=
  s.route { s.plainPkt 7 1 k.src [BitVec.ofNat 8 status] with
    job := k.job, coll := k.coll, sfn := k.sfn, addr := k.addr, gated := k.gated } none

/-- Whether a deck range lies in a window that is waking. -/
def State.rangeWakes (s : State) (deck : Bool) (a n : Nat) : Bool :=
  deck && (List.range ((n + 255) / 256 + 1)).any (fun k => s.granWake (a / 67108864) (a % 67108864 / 256 + k))

/-- The half-banks of a deck range that have timetabled accesses to serve in this clk (R219, R220). -/
def State.rangeBusy (s : State) (deck : Bool) (a n : Nat) : List Nat :=
  if !deck then []
  else
    let p := a / 67108864
    let c := s.cluAt (posClu p)
    (List.range ((a % 256 + n + 255) / 256)).filterMap (fun k =>
      let g := a % 67108864 / 256 + k
      let key := deckBankKey p g
      if c.serve.contains key && !c.owed.contains key && !s.granSaved p g then some key else none)

/-- Bytes written to a deck column, 64 B by 64 B. -/
def State.deckBytes (s : State) (a : Nat) (bs : List Byte) (poison : Bool) : State :=
  (List.range ((a % 64 + bs.length + 63) / 64)).foldl (fun s k =>
    let u := a / 64 * 64 + 64 * k
    let g := u % 67108864 / 256
    let gLo := u / 256 * 256
    let full := decide (a ≤ gLo) && decide (gLo + 256 ≤ a + bs.length)
    let row := (List.range 64).map (fun j =>
      if a ≤ u + j then (bs[u + j - a]?).getD (s.deck.get (u + j)) else s.deck.get (u + j))
    (s.putDeckUnit (u / 67108864) g (u % 256 / 64) (BitVec.ofNat 512 (ofBytes row)) poison full false).1) s

/-- Bytes read from a deck column. -/
def State.deckBytesAt (s : State) (a n : Nat) : State × List Byte × Bool :=
  (List.range ((a % 64 + n + 63) / 64)).foldl (fun acc k =>
    let (s, bs, po) := acc
    let u := a / 64 * 64 + 64 * k
    let (s, v, p, _) := s.deckUnit (u / 67108864) (u % 67108864 / 256) (u % 256 / 64) false
    (s, (bs ++ (bytesOf v.toNat 64).drop (if k = 0 then a % 64 else 0)).take n, po || p)) (s, [], false)

/-- A byte range of either space. -/
def State.putBytes (s : State) (deck : Bool) (a : Nat) (bs : List Byte) (poison : Bool) : State :=
  if deck then s.deckBytes a bs poison else s.lpWriteBytes a bs poison
def State.getBytes (s : State) (deck : Bool) (a n : Nat) : State × List Byte × Bool :=
  if deck then s.deckBytesAt a n else s.lpReadBytes a n

/-- An operation of a collective has been received (R359). -/
def State.collGot (s : State) (c : Nat) : State :=
  match s.pont.coll c with
  | none => s
  | some x => (s.setColl { x with received := x.received + 1 }).memberCheck c

/-- Whether an accumulate of a packet finds no room at its memory ports (R258, R271). -/
def State.accFull (s : State) (k : Packet) : Bool :=
  (k.opc == 4 || k.opc == 5) && !pktSpace k &&
    (List.range (pktSpan k / 64)).any (fun n => !s.accRoom (pktAddr k + 64 * n))

/-- An operation arrives at its destination: it moves on when it is another device's, waits while a deck window wakes or
has timetabled accesses to serve or its memory ports have no room, is refused under R350 or R357, or takes effect and completes. -/
def State.arrive (s : State) (p : Port) (k : Packet) (effect : State → State) : State :=
  if k.dst ≠ s.pont.devId then (s.takeRx p.val k).route k (some (p.val, 0))
  else if s.rangeWakes (pktSpace k) (pktAddr k) (pktSpan k) || s.accFull k then s
  else if !(s.rangeBusy (pktSpace k) (pktAddr k) (pktSpan k)).isEmpty then
    { s with bankUse := { s.bankUse with
        lostNow := (s.bankUse.lostNow ++ s.rangeBusy (pktSpace k) (pktAddr k) (pktSpan k)).eraseDups } }
  else
    let s := s.takeRx p.val k
    let f := s.pont.frameOf k.sfn.toNat
    let other := (s.pont.coll k.coll.toNat).any (fun x => x.active && x.sfn.setWidth 16 != k.sfn)
    if other || !s.accepts k then
      let s := s.pktEvent 0x3001 k
      (if other then s.pktEvent 0x300B k else s).complete k 1
    else
      let s := s.trigger k.coll.toNat f
      let s := effect s
      let s := if k.poison then s.pktEvent 0x3006 k else s
      let s := if k.opc = 2 then s else s.complete k (if k.poison then 2 else 0)
      s.collGot k.coll.toNat

/-- WRITE (R340). -/
def execWrite (p : Port) (pkt : Packet) (s : State) : Host.Outcome State Fault Refusal :=
  .next (s.arrive p pkt (fun s => s.putBytes (pktSpace pkt) (pktAddr pkt) (pkt.data.take pkt.len.toNat) pkt.poison))

/-- READ (R340, R342): its data travel in READ_RESP, on a VC of the requester's window that the packet does not name
(log entry 24). -/
def execRead (p : Port) (pkt : Packet) (s : State) : Host.Outcome State Fault Refusal :=
  .next (s.arrive p pkt (fun s =>
    let (s, bs, po) := s.getBytes (pktSpace pkt) (pktAddr pkt) pkt.len.toNat
    let vc := 2 + (Config.choice s.fresh).toNat % 13
    s.tickFresh.route { pkt with opc := 3, poison := po, dst := pkt.src, src := s.pont.devId, data := bs
                                 vc := BitVec.ofNat 4 vc } none))

/-- Rows of 16 FP32 values for the adder lanes (R355). -/
def State.accRows (s : State) (deck : Bool) (a : Nat) (bs : List Byte) (poison : Bool) : State :=
  (List.range (bs.length / 64)).foldl (fun s k =>
    s.accumulate deck (a + 64 * k) (BitVec.ofNat 512 (ofBytes ((bs.drop (64 * k)).take 64))) false poison true) s

/-- RACC_F32 (R340, R355). -/
def execRaccF32 (p : Port) (pkt : Packet) (s : State) : Host.Outcome State Fault Refusal :=
  .next (s.arrive p pkt (fun s => s.accRows (pktSpace pkt) (pktAddr pkt) pkt.data pkt.poison))

/-- The AS8 blocks of a packet: each block number with its 256 codes, zero markers left out (R341). -/
def as8Blocks (k : Packet) : List (Nat × List Byte) :=
  ((List.range (k.len.toNat % 32)).foldl (fun (acc : List (Nat × List Byte) × List Byte) b =>
    if k.zmap.getLsbD b then (acc.1, acc.2.drop 8) else (acc.1 ++ [(b, acc.2.take 256)], acc.2.drop 256)) ([], k.data)).1

/-- RACC_AS8 (R340, R353, R355): each block is decoded under its segment's scale and added in FP32. -/
def execRaccAs8 (p : Port) (pkt : Packet) (s : State) : Host.Outcome State Fault Refusal :=
  .next (s.arrive p pkt (fun s =>
    (as8Blocks pkt).foldl (fun s b =>
      let a := pktAddr pkt + 1024 * b.1
      let sc := match s.pont.coll pkt.coll.toNat with
        | some x => s.scaleOf x.desc ((a - x.desc.target % 2 ^ 48) / 16384)
        | none => 127
      s.accRows (pktSpace pkt) a (b.2.flatMap (fun c => bytesOf (as8Decode c.toNat sc) 4)) pkt.poison) s))

/-- RMAX8 (R340): each byte becomes the unsigned maximum. -/
def execRmax8 (p : Port) (pkt : Packet) (s : State) : Host.Outcome State Fault Refusal :=
  .next (s.arrive p pkt (fun s =>
    let (s, old, po) := s.getBytes (pktSpace pkt) (pktAddr pkt) pkt.len.toNat
    s.putBytes (pktSpace pkt) (pktAddr pkt)
      ((old.zip (pkt.data.take pkt.len.toNat)).map (fun x => if x.1.toNat < x.2.toNat then x.2 else x.1))
      (po || pkt.poison)))

/-- DONE (R359). -/
def execDone (p : Port) (pkt : Packet) (s : State) : Host.Outcome State Fault Refusal :=
  .next (
    let s := s.takeRx p.val pkt
    if pkt.dst ≠ s.pont.devId then s.route pkt (some (p.val, 0))
    else
      let c := pkt.coll.toNat
      let s := s.trigger c (s.pont.frameOf pkt.sfn.toNat)
      if (s.pont.coll c).any (fun x => x.sfn.setWidth 16 == pkt.sfn) then
        s.holdDone c pkt.src (ofBytes (pkt.data.take 4))
      else s)

/-- DECIDE (R359-R361): the deputy completes it and tells every member; a member acts on the first. -/
def execDecide (p : Port) (pkt : Packet) (s : State) : Host.Outcome State Fault Refusal :=
  .next (
    let s := s.takeRx p.val pkt
    if pkt.dst ≠ s.pont.devId then s.route pkt (some (p.val, 0))
    else
      let c := pkt.coll.toNat
      let o := ((pkt.data[0]?).getD 0).toNat
      let cl := ((pkt.data[1]?).getD 0).getLsbD 0
      let tot := ofBytes ((pkt.data.drop 4).take 4)
      match s.pont.coll c with
      | none => s
      | some x =>
        if x.sfn.setWidth 16 ≠ pkt.sfn then s
        else if s.pont.devId = x.desc.deputy && pkt.src = x.desc.leader && !x.told then
          ((s.complete pkt 0).setColl { x with decision := some (o, cl, tot) }).broadcast c
        else s.actOn c o cl tot)

/-- COLLECTIVE_DEADLINE (R359): the leader decides MISS; the deputy of a failed leader decides 50 µs later. -/
def execCollectiveDeadline (coll : BitVec 16) (s : State) : Host.Outcome State Fault Refusal :=
  .next (
    match s.pont.coll coll.toNat with
    | none => s
    | some x =>
      if !x.active || x.decision.isSome || !x.desc.gated then s
      else if s.pont.devId = x.desc.leader && x.deadline ≤ s.sysTime then s.decideColl coll.toNat 1
      else if s.pont.decides x && x.deadline + 200000 ≤ s.sysTime then
        s.decideColl coll.toNat (if x.desc.members ≤ x.dones.length then 0 else 1)
      else s)

/-- DECISION_WAIT_EXPIRY (R361). -/
def execDecisionWaitExpiry (coll : BitVec 16) (s : State) : Host.Outcome State Fault Refusal :=
  .next (
    match s.pont.coll coll.toNat with
    | none => s
    | some x =>
      if x.active && x.desc.gated && x.decided.isNone && x.deadline + s.pont.wait ≤ s.sysTime then
        s.actOn coll.toNat 2 false 0
      else s)

/-- RESERVED_OPC_PACKET (R340, R344): dropped and counted, fault 0x30.0D. -/
def execReservedOpcPacket (p : Port) (pkt : Packet) (s : State) : Host.Outcome State Fault Refusal :=
  .next (((s.takeRx p.val pkt).onPont (fun d => { d with dropped := d.dropped + 1 })).pktEvent 0x300D pkt)

/-- UNREACHABLE_PACKET (R371): routed; without a route it is dropped, completed REFUSED, fault 0x30.08. -/
def execUnreachablePacket (p : Port) (pkt : Packet) (s : State) : Host.Outcome State Fault Refusal :=
  .next ((s.takeRx p.val pkt).route pkt (some (p.val, 0)))

/-! ### Failed devices (R368-R372) -/

/-- The backup takes over as time master (R368): its own time is system time, and its ticks go on. -/
def State.takeOver (s : State) : State :=
  s.onPont (fun d => { d with
    master := true, backup := false, masterId := d.devId, newMaster := true, diff := d.diff
    sentTime := 0, nextTick := d.lastTick.map (fun t => ((t.1 + 1) % 2 ^ 48, t.2.1 + t.2.2, t.2.2)) })

/-- The first copy of a failed-device notice (R370): it is flooded, fault 0x30.07 is raised, and the device joins the list of up
to 64, which no command empties (log entry 98). What the list decides follows (R359, R361, R368): the leader of an instance with
this member decides MISS, and goes on without a deputy that failed. -/
def State.addFailed (s : State) (dev : BitVec 18) : State :=
  if s.pont.noticed.contains dev then s
  else
    let fits := decide (s.pont.failed.length < 64)
    let s := s.onPont (fun d => { d with noticed := d.noticed ++ [dev], failed := if fits then d.failed ++ [dev] else d.failed })
    let s := s.toPorts (fun dst => s.plainPkt 0x13 1 dst (bytesOf dev.toNat 4)) (fun _ => true)
    let s := s.pktEvent 0x3007 { s.plainPkt 0x13 1 s.pont.devId [] with src := dev }
    if !fits then s
    else
    let s := if s.pont.backup && s.pont.masterId = dev then s.takeOver else s
    let s := (s.pont.ops.filter (fun o => o.opc == 9 && o.dst == dev)).foldl State.endDecide s
    s.pont.colls.foldl (fun s x =>
      if x.active && x.desc.gated && x.decision.isNone && s.pont.devId == x.desc.leader && (x.members s.pont).contains dev then
        s.decideColl x.desc.coll.toNat 1
      else s) s

/-- FAILED (R370). -/
def execFailed (p : Port) (dev : BitVec 18) (s : State) : Host.Outcome State Fault Refusal :=
  .next (if (s.pport p.val).state = 2 then s.addFailed dev else s)

/-- NEIGHBOUR_FAILURE (R369): the ports to the neighbour have been down, or silent, for 100 µs. -/
def execNeighbourFailure (p : Port) (s : State) : Host.Outcome State Fault Refusal :=
  .next (
    let peer := (s.pport p.val).peer
    let ports := (List.range 16).filter (fun q => (s.pport q).peer == peer && (s.pport q).state != 0 || q == p.val)
    let gone (q : Nat) : Bool :=
      let x := s.pport q
      (match x.downFrom with | some t => decide (t + 400000 ≤ s.time) | none => false) ||
      (x.state == 2 && decide (x.heard + 400000 ≤ s.time))
    if s.pont.ndim ≠ 0 && ports.all gone then s.addFailed peer else s)

/-! ### System time and ticks (R363-R367) -/

/-- TIME for the devices below this one in the time tree (R364). -/
def State.sendTime (s : State) (master : BitVec 18) (now : Nat) : State :=
  s.toPorts (fun dst => { s.plainPkt 0x10 0 dst (bytesOf now 8) with src := master })
    (fun p => s.pont.parent master.toNat (s.pport p).peer.toNat 64 == some s.pont.devId.toNat)

/-- A count of nanoseconds in 16-bit two's complement, saturating (R367). -/
def satNs (q : Int) : BitVec 16 :=
  let n := q / 4
  BitVec.ofInt 16 (if 32767 < n then 32767 else if n < -32767 then -32767 else n)

/-- The delay of a link in qns: the median of its last 8 measurements, of an even number the lower middle one (R363; log entry
98); 0 before the first. -/
def PontPort.delay (x : PontPort) : Nat :=
  let k := (x.delays.length - 1) / 2
  (x.delays.find? (fun d => decide ((x.delays.filter (fun e => decide (e < d))).length ≤ k)
    && decide (k < (x.delays.filter (fun e => decide (e ≤ d))).length))).getD 0

/-- TIME (R363, R364, R368): the system time that the packet carries with the link's delay added; the offset, the lock after 8 packets under 10 ns, the join, and the packet's way on. -/
def execTime (p : Port) (pkt : Packet) (sysTime : Nat) (fromNewMaster : Bool) (s : State) :
    Host.Outcome State Fault Refusal :=
  .next (
    let s := s.takeRx p.val pkt
    let sysTime := sysTime + (s.pport p.val).delay
    if s.pont.master then s
    else
      let off : Int := (s.time : Int) - sysTime
      let jump := !s.pont.joined && off < -4000
      let s := if jump then { s with time := sysTime, obs := { s.obs with discFlag := tset s.obs.discFlag 2000 true } } else s
      let off := if jump then 0 else off
      let near := off.natAbs < 40
      let good := if near then s.pont.good + 1 else 0
      let first := fromNewMaster && !s.pont.newMaster
      let s := s.onPont (fun d => { d with
        joined := true, jumped := d.jumped || jump, offset := satNs off, diff := -off, good := good
        locked := decide (8 ≤ good) || (d.locked && near)
        lostFrom := if d.locked && !near then some s.time else if near then none else d.lostFrom
        newMaster := d.newMaster || fromNewMaster, masterId := if fromNewMaster then pkt.src else d.masterId })
      let s := if first then s.pktEvent 0x300E pkt else s
      s.sendTime pkt.src sysTime)

/-- TIME_DISTRIBUTION (R364): every 10 µs, from the master along the time tree. -/
def execTimeDistribution (s : State) : Host.Outcome State Fault Refusal :=
  .next (
    if s.pont.master ∧ s.pont.sentTime + 40000 ≤ s.time then
      (s.onPont (fun d => { d with sentTime := s.time })).sendTime s.pont.devId s.sysTime
    else s)

/-- LINK_DELAY_MEASUREMENT (R363): one delay, of which the last 8 are kept. -/
def execLinkDelayMeasurement (p : Port) (t1 t2 t3 t4 : Nat) (s : State) : Host.Outcome State Fault Refusal :=
  .next (
    let x := s.pport p.val
    let d := ((t4 - t1) - (t3 - t2)) / 2
    s.setPport p.val { x with delays := (x.delays ++ [d]).drop (x.delays.length + 1 - 8) })

/-- A system tick is known here (R365): it is flooded on, but not over the port it came from, and
waits for its instant. -/
def State.knowTick (s : State) (f inst period : Nat) (came : Option Nat) : State :=
  let s := s.onPont (fun d => { d with lastTick := some (f, inst, period), tickDue := d.tickDue ++ [(f, inst, period)] })
  s.toPorts (fun dst => s.plainPkt 0x11 0 dst (bytesOf f 6 ++ bytesOf inst 8 ++ bytesOf period 4)) (fun q => came != some q)

/-- Whether a system frame number comes after another one: numbers wrap at 2⁴⁸ (R13), so the nearer half counts as later
(DEDUCED, log entry 91). -/
def frameAfter (a b : Nat) : Bool := let d := (a + 2 ^ 48 - b) % 2 ^ 48; d != 0 && decide (d < 2 ^ 47)

/-- TICK (R365, R366): a late one is discarded with notice 0x30.09, one whose period is below the running program's
declared period with fault 0x30.0F. -/
def execTick (p : Port) (sv : BitVec 48) (inst period : Nat) (s : State) : Host.Outcome State Fault Refusal :=
  if wfPeriod period then
    .next (
      let k := s.plainPkt 0x11 0 s.pont.devId []
      if s.pont.master || s.pont.lastTick.any (fun t => !frameAfter sv.toNat t.1) then s
      else if inst < s.sysTime + 4000 then s.pktEvent 0x3009 k
      else if s.runs && (s.frm.prog.any (fun g => decide (period < g.image.period))) then s.pktEvent 0x300F k
      else s.knowTick sv.toNat inst period (some p.val))
  else .refused (.illFormed "TICK")

/-- TICK_FLOOD (R365, R368): the master floods the next tick at least LEAD before its instant. -/
def execTickFlood (s : State) : Host.Outcome State Fault Refusal :=
  .next (
    match s.pont.nextTick with
    | some (f, inst, period) =>
      if s.pont.master && decide (inst ≤ s.sysTime + s.pont.lead) then
        (s.onPont (fun d => { d with nextTick := some ((f + 1) % 2 ^ 48, inst + period, period) })).knowTick f inst period none
      else s
    | none => s)

/-- LOCK_LOSS (R367): the lock has been lost for more than 1 ms. -/
def execLockLoss (s : State) : Host.Outcome State Fault Refusal :=
  .next (
    match s.pont.lostFrom with
    | some t =>
      if t + 4000000 ≤ s.time then
        (s.onPont (fun d => { d with lostFrom := none })).raise { code := 0x300A, detail := s.pont.offset.toNat }
      else s
    | none => s)

end Sys2Proof.Machine
end

