-- ==== Sys2Proof/Machine/Host.lean ====
section
/-! DEFINITION. The host link (R374-R394): requests to the host, host accesses to device memory, bias, rings and mirror,
and the inference lanes they feed (R174-R177). -/

namespace Sys2Proof.Machine

def State.onHost (s : State) (f : HostSt → HostSt) : State := { s with host := f s.host }
/-- An event of the host link (R394): module or berth in AUX, HPA or offset in DETAIL. -/
def State.hostEvent (s : State) (code : Code) (aux detail : Nat) : State :=
  s.raise { code := code, aux := aux, detail := detail }
/-- Bytes of host memory by a command's view of it. -/
def viewBytes (h : HostView) (a n : Nat) : List Byte := (List.range n).map (fun k => tget h (a + k) 0)
/-- The berth whose program runs. -/
def State.progBerth (s : State) : Nat := (s.frm.prog.map (·.berth)).getD 0

/-! ### Requests of the device (R383-R385, R388, R392) -/

/-- A page's bias set (R383): ranges of pages in device bias, rising and disjoint. -/
def setBias (rs : List (Nat × Nat)) (lo hi : Nat) (dev : Bool) : List (Nat × Nat) :=
  let cut := rs.flatMap (fun r => [(r.1, min r.2 lo), (max r.1 hi, r.2)].filter (fun x => decide (x.1 < x.2)))
  if dev then cut.filter (fun r => decide (r.1 < lo)) ++ [(lo, hi)] ++ cut.filter (fun r => decide (hi ≤ r.1)) else cut

/-- Whether a request of the intake window may go: its entry has been produced (R388). -/
def State.intakeReady (s : State) (r : Req) : Bool :=
  r.far != 4 || (match r.da with
    | some k =>
      let pi := tget s.host.idx (4 * s.progBerth) 0
      decide ((pi - BitVec.ofNat 32 k).toInt > 0)
    | none => true)

/-- One UCIe module sends the unsent request with the earliest deadline (R258, R385). -/
def State.ucieSend (s : State) (m : Nat) : State :=
  if s.host.status ≠ 2 || s.host.retrain then s
  else
    let qk := queueKey 3 m
    let q := s.queueAt qk
    match q.pick (fun r => !r.sent && s.intakeReady r) with
    | none => s
    | some r =>
      let mark (s : State) : State :=
        let q := s.queueAt qk
        (((s.setQueue qk { q with reqs := q.reqs.map (fun x => if x.id == r.id then { x with sent := true } else x) }).served qk
          r).count 2 m 3 1)
      match r.kind with
      | .flip _ _ => (mark s).emit (.hostOwn r.id r.addr)
      | _ =>
        if r.isWrite then
          let (t, v, po, acc) := s.sourceRow r true
          if acc = .wait then { s with bankUse := t.bankUse } else (mark t).emit (.hostWrite r.id r.addr (bytesOf v.toNat 64) po)
        else (mark s).emit (.hostRead r.id r.addr 64)

/-- The UCIe module and the open request with a number. -/
def State.findHostReq (s : State) (id : Nat) : Option (Nat × Req) :=
  (List.range 4).findSome? (fun m =>
    ((s.queueAt (queueKey 3 m)).reqs.find? (fun r => r.id == id)).map (fun r => (m, r)))

/-- Whether lines of a page's flip are open (R384). -/
def State.flipping (s : State) (page : Nat) : Bool :=
  (List.range 4).any (fun m => (s.queueAt (queueKey 3 m)).reqs.any (fun r =>
    match r.kind with | .flip _ g => g == page | _ => false))

/-- DEVICE_REQUEST_COMPLETION (R378, R383-R385): the host's answer to a request that was sent. -/
def execDeviceRequestCompletion (id : Nat) (data : List Byte) (poison : Bool) (s : State) :
    Host.Outcome State Fault Refusal :=
  if wfCompletion data then
    .next (
      match s.findHostReq id with
      | none => s
      | some (m, r) =>
        if !r.sent then s
        else
          let qk := queueKey 3 m
          let v := BitVec.ofNat 512 (ofBytes data)
          let late (t : State) : State := if s.isLate r then t.count 2 m 5 1 else t
          let s1 := if poison && !r.isWrite then s.hostEvent 0x3108 m r.addr else s
          match r.kind with
          | .flip _ page =>
            let t := s.dequeue qk id
            if t.flipping page then t else t.onHost (fun h => { h with devBias := setBias h.devBias page (page + 1) true })
          | .acc a po =>
            (late (s1.dequeue qk id)).emit (.hostWrite 0 r.addr
              (bytesOf (addRows 0 v a).toNat 64) (poison || po))
          | _ =>
            if r.isWrite then late ((s.dequeue qk id).unitDone r)
            else
              let (t, acc) := s1.sinkRow r v poison true
              if acc = .wait then s.waitBank t (.deviceRequestCompletion id data poison) else late ((t.dequeue qk id).unitDone r))
  else .refused (.illFormed "DEVICE_REQUEST_COMPLETION")

/-- DEVICE_REQUEST_TIMEOUT (R392): `UCIE.CTO.LIMIT` after its issue, or 4 µs for a bias flip; 0x31.05. -/
def execDeviceRequestTimeout (id : Nat) (s : State) : Host.Outcome State Fault Refusal :=
  .next (
    match s.findHostReq id with
    | none => s
    | some (m, r) =>
      match r.kind with
      | .flip _ page =>
        if r.issued + 16000 ≤ s.time then
          let s := (List.range 4).foldl (fun s k =>
            let q := s.queueAt (queueKey 3 k)
            s.setQueue (queueKey 3 k) { q with reqs := q.reqs.filter (fun x =>
              match x.kind with | .flip _ g => g != page | _ => true) }) s
          s.hostEvent 0x3105 m (Config.hdmBase + 4096 * page)
        else s
      | _ =>
        if r.issued + 4000000 * s.host.cto.toNat ≤ s.time then
          (s.hostEvent 0x3105 m r.addr).failReq (queueKey 3 m) r 0
        else s)

/-! ### The link (R376, R378) -/

/-- UCIE_LINK_ERROR (R376): the link retrains, notice 0x31.03. -/
def execUcieLinkError (s : State) : Host.Outcome State Fault Refusal :=
  .next (if s.host.status = 2 && !s.host.retrain then
      (s.onHost (fun h => { h with retrain := true })).hostEvent 0x3103 0 0 else s)

/-- UCIE_RETRAIN_COMPLETE (R376): requests in flight are replayed; the third failure in a row takes the link down. -/
def execUcieRetrainComplete (ok : Bool) (s : State) : Host.Outcome State Fault Refusal :=
  .next (
    if !s.host.retrain then s
    else if ok then
      (List.range 4).foldl (fun s m => if s.host.modules.getLsbD m then s.count 2 m 2 1 else s)
        (s.onHost (fun h => { h with retrain := false, fails := 0 }))
    else if 2 ≤ s.host.fails then
      (s.onHost (fun h => { h with retrain := false, fails := 3, status := 3 })).hostEvent 0x3104 0 0
    else s.onHost (fun h => { h with fails := h.fails + 1 }))

/-- HOST_SNOOP (R378): RspI. -/
def execHostSnoop (hpa : Nat) (s : State) : Host.Outcome State Fault Refusal := .next (s.emit (.snoopResp hpa))

/-- UNSUPPORTED_REQUEST (R378): an Unsupported Request and fault 0x31.06. -/
def execUnsupportedRequest (hpa : Nat) (s : State) : Host.Outcome State Fault Refusal :=
  .next ((s.emit .hostUR).hostEvent 0x3106 0 hpa)

/-! ### Host accesses (R380-R383) -/

/-- Size of the HDM range (R382). -/
def State.hdmSize (s : State) : Nat :=
  let t := if s.depot.formatted then s.depot.tableBytes else 0
  (s.lpCap - t - 268435456) / 268435456 * 268435456

/-- A refused host access (R381): a read returns all ones. -/
def State.refuseHost (s : State) (code : Code) (write : Bool) (n a : Nat) : State :=
  (if write then s else s.emit (.hostData (List.replicate n 0xFF) false)).hostEvent code 0 a

/-- HOST_MEM_ACCESS (R381-R383): CXL.mem to a 64 B line of the HDM range. -/
def execHostMemAccess (write : Bool) (da : Nat) (data : Row) (s : State) : Host.Outcome State Fault Refusal :=
  if wfHostMem da then
    .next (
      let m := s.moduleFor (Config.hdmBase + da)
      let s := s.count 2 m 4 1
      if s.hdmSize ≤ da then s.refuseHost 0x3106 write 64 da
      else if s.underScrub 2 da then
        let s := s.scrubRefuse 2 da 0xFF
        if write then s else s.emit (.hostData (List.replicate 64 0) false)
      else if inPages s.host.devBias (da / 4096) || s.flipping (da / 4096) then s.refuseHost 0x3107 write 64 da
      else if !s.hostLp da then s.refuseHost 0x3106 write 64 da
      else if write then s.lpWrite da data (BitVec.allOnes 64) false
      else
        let (s, v, po) := s.lpRead da
        s.emit (.hostData (bytesOf v.toNat 64) po))
  else .refused (.illFormed "HOST_MEM_ACCESS")

/-- A BAR2 access of the near store or of a deck column, or why it waits (R228, R380, R381): the position, and the byte in
the model's memory. -/
def State.bar2 (s : State) (write : Bool) (off : Nat) (data : List Byte) (len : Nat) : State × Access :=
  let deck := decide (off < 12884901888)
  let p := if deck then off / 67108864 else (off - 12884901888) / 2097152
  let a := if deck then off else off - 12884901888
  let ok := if deck then s.deckPresent p (a % 67108864 / 256) && s.hostDeck p (a % 67108864 / 256)
            else decide (off < 13287555072) && !s.isFenced p && s.hostNst p
  if s.underScrub (if deck then 1 else 0) a && decide (off < 13287555072) then
    let s := s.scrubRefuse (if deck then 1 else 0) a p
    (if write then s else s.emit (.hostData (List.replicate len 0) false), .refused)
  else if !ok then (s.refuseHost 0x3106 write len off, .refused)
  else
    let k := if deck then a % 67108864 / 4194304 else a / 64 % 16
    let g := a % 67108864 / 256
    let row := a % 2097152 / 64
    let (key, saved) := if deck then (deckBankKey p g, s.granSaved p g) else (nstBankKey p row, s.rowSaved p row)
    match s.hostAccess p deck k key saved with
    | (s, .ok) =>
      let m := if deck then s.deck else s.nst
      if write then
        let whole := !deck && len == 64
        let s := if whole then s else if deck then s.deckEcc p a len false else s.nstEcc p a len false
        let m := m.store a (data.take len)
        let m := if whole then m.cleanWords a 64 else m.mergeWords a len
        (if deck then { s with deck := m }.bw (68 + p) true len else { s with nst := m }, .ok)
      else
        let s := if deck then (s.deckEcc p a len false).bw (68 + p) false len else s.nstEcc p a len false
        (s.emit (.hostData (m.bytes a len) false), .ok)
    | (s, acc) => (s, acc)

/-- BAR2_ACCESS (R220, R228, R380, R381): an access that loses its bank, or meets a waking one, waits for it. -/
def execBar2Access (write : Bool) (off : Nat) (data : List Byte) (len : Nat) (s : State) :
    Host.Outcome State Fault Refusal :=
  if wfBar2 write off data len then
    .next (
      match s.bar2 write off data len with
      | (s, .wait) => s.waitBank s (.bar2Access write off data len)
      | (s, _) => s)
  else .refused (.illFormed "BAR2_ACCESS")

/-! ### Rings and the mirror (R386-R391) -/

/-- HOST_IDX_WRITE (R386): an index that goes backward, or more than COUNT past the device's, is dropped with notice
0x31.09. -/
def execHostIdxWrite (b : Port) (which : Fin 3) (val : Word) (s : State) : Host.Outcome State Fault Refusal :=
  .next (
    let k := 4 * b.val + which.val
    let old := tget s.host.idx k 0
    let put (s : State) : State := s.onHost (fun h => { h with idx := tset h.idx k val })
    if which = 2 then put s
    else match tfind s.host.rings k with
      | none => put s
      | some r =>
        let ci := tget s.host.dev k 0
        if (val - old).toInt < 0 || (r.count : Int) < (val - ci).toInt then s.hostEvent 0x3109 b.val k else put s)

/-- The mirror record of a ring's berth (R387). -/
def State.mirror (s : State) (b : Nat) (event : Nat) : State :=
  match (List.range 3).findSome? (fun w => tfind s.host.rings (4 * b + w)) with
  | none => s
  | some r =>
    let f := s.frm
    let flags := (if f.spoiled then 1 else 0) + (if s.host.late then 2 else 0) + (if f.phase = 3 then 4 else 0)
    let bs := bytesOf f.frameNum.toNat 6 ++ bytesOf event 1 ++ bytesOf flags 1 ++ bytesOf f.stepNum.toNat 4
      ++ bytesOf f.lateLast.toNat 4 ++ bytesOf (tget s.host.dev (4 * b) 0).toNat 4
      ++ bytesOf (tget s.host.dev (4 * b + 1) 0).toNat 4 ++ bytesOf (tget s.host.dev (4 * b + 2) 0).toNat 4
      ++ List.replicate 36 0
    s.emit (.hostWrite 0 r.mirror bs false)

def State.rollout (s : State) (n : Nat) : Rollout := tget s.host.rollouts n .reset
def State.setRollout (s : State) (n : Nat) (r : Rollout) : State :=
  s.onHost (fun h => { h with rollouts := tset h.rollouts n r })
/-- Active rollouts in ascending order (R177). -/
def State.activeRollouts (s : State) : List Nat := (s.host.rollouts.filter (fun r => r.2.status == 1)).map (·.1)
/-- The lanes of the running image, and their capacity together (R176; log entry 26). -/
def State.lanes (s : State) : List LaneDecl := (s.frm.prog.map (fun g => g.image.lanes)).getD []
def State.laneCap (s : State) : Nat := (s.lanes.map (·.q)).foldl (· + ·) 0

/-- Whether one more rollout may be active beside the queries admitted so far (R177, R389). -/
def State.rolloutFits (s : State) : Bool := decide (s.host.admitted.length + s.activeRollouts.length < s.laneCap)

/-- A rewound rollout's previous output stands in the deck again (R177). -/
def State.rewound (s : State) (r : Rollout) : State :=
  match r.place with
  | some a => { s with deck := (s.deck.store a r.prev).cleanWords a r.prev.length }
  | none => s

/-- A control record acts on its rollout (R177, R390); one that does not fit is skipped with notice 0x31.09, as is a query that names
a rollout. -/
def State.control (s : State) (kind n : Nat) (payload : List Byte) : State :=
  let r := s.rollout n
  let bad (s : State) : State := s.hostEvent 0x3109 s.progBerth n
  if 4096 ≤ n then bad s
  else match kind with
    | 1 => if r.status = 0 && s.rolloutFits then
        s.setRollout n { Rollout.reset with status := 1, cur := payload, prev := payload } else bad s
    | 2 => if r.status = 0 then bad s else s.setRollout n { r with forcing := payload }
    | 3 => if r.status = 2 && s.rolloutFits then s.setRollout n { r with status := 1 } else bad s
    | 4 => if r.status = 2 && s.rolloutFits then (s.rewound r).setRollout n { r with status := 1, cur := r.prev } else bad s
    | 5 => if r.status = 0 then bad s else s.setRollout n .reset
    | _ => bad s

/-- The walk of the query ring at a frame start (R389), with at most `fuel` entries. -/
def State.letIn (s : State) (host : HostView) (b : Nat) (q a : RingDesc) (pi : Word) : Nat → State
  | 0 => s
  | fuel + 1 =>
    let ci := tget s.host.dev (4 * b + 1) 0
    if ci = pi then s
    else
      let bs := viewBytes host (q.base + q.entry * (ci.toNat % max q.count 1)) q.entry
      let kind := ((bs[8]?).getD 0).toNat
      let n := ofBytes ((bs.drop 10).take 2)
      let on (s : State) : State := s.onHost (fun h => { h with dev := tset h.dev (4 * b + 1) (ci + 1) })
      if kind = 0 && n = 0 then
        let used := s.host.admitted.length + s.activeRollouts.length
        let free := a.count - (tget s.host.dev (4 * b + 2) 0 - tget s.host.idx (4 * b + 2) 0).toNat
        if used < s.laneCap && used < free then
          ((on s).onHost (fun h => { h with admitted := h.admitted ++ [bs] })).letIn host b q a pi fuel
        else s
      else ((on s).control kind n (bs.drop 64)).letIn host b q a pi fuel

/-- A lane's query landing buffer for this frame (R389): the count and the frame number, then the entries. -/
def State.fillLane (s : State) (l : LaneDecl) (qs : List (List Byte)) : State :=
  let k := ctxKey 0 l.corePos l.qdesc
  let x := s.ctxAt k
  match x.desc with
  | none => s
  | some d =>
    let lo := deckAddr l.corePos d.base
    let bs := bytesOf qs.length 4 ++ bytesOf s.frm.frameNum.toNat 6 ++ List.replicate 246 0 ++ qs.flatten
    let m := (s.deck.zero lo (lo + 256 * d.size)).store lo (bs.take (256 * d.size))
    { s with deck := m }.setCtx k { x with grans := (List.range d.size).map (fun g => (g, .published d.uses)) }

/-- The queries of each lane in turn: the first Q of the first lane, the next of the second (log entry 26). -/
def State.fillLanes (s : State) : List LaneDecl → List (List Byte) → State
  | [], _ => s
  | l :: r, qs => (s.fillLane l (qs.take l.q)).fillLanes r (qs.drop l.q)

/-- Queries not served age; past 4 frames one raises notice 0x26.03, once (R176). -/
def State.ageQueries (s : State) (host : HostView) (b : Nat) (q : RingDesc) (pi : Word) : State :=
  let ci := tget s.host.dev (4 * b + 1) 0
  let open_ := ((List.range (pi - ci).toNat).map (fun k => (ci + BitVec.ofNat 32 k).toNat)).filter (fun k =>
    tget host (q.base + q.entry * (k % max q.count 1) + 8) 0 == 0)
  let old := open_.map (fun k =>
    match s.host.aged.find? (fun x => x.1 == k) with
    | some (_, n, noted) => (k, n + 1, noted)
    | none => (k, 1, false))
  let s := old.foldl (fun s x => if 4 < x.2.1 && !x.2.2 then s.hostEvent 0x2603 b x.1 else s) s
  s.onHost (fun h => { h with aged := old.map (fun x => (x.1, x.2.1, x.2.2 || decide (4 < x.2.1))) })

/-- Where the output of the n-th answer of a frame stands: the lanes' answer buffers in turn (log entry 26). -/
def State.answerAddr (s : State) (len : Nat) : List LaneDecl → Nat → Option Nat
  | [], _ => none
  | l :: r, n =>
    if n < l.q then (s.ctxAt (ctxKey 0 l.corePos l.adesc)).desc.map (fun d => deckAddr l.corePos d.base + len * n)
    else s.answerAddr len r (n - l.q)

/-- The inputs of the active rollouts in the deck (R177): the start record's payload of one that has made no step, in the slot of its
coming answer; one with a forcing record is combined with it. `nq` queries come first (log entry 26). -/
def State.rolloutInputs (s : State) (len nq : Nat) : State :=
  let act := s.activeRollouts
  (List.range act.length).foldl (fun (s : State) (n : Nat) =>
    match act[n]? with
    | none => s
    | some i =>
      let r := s.rollout i
      match r.place, s.answerAddr len s.lanes (nq + n) with
      | none, none => s
      | none, some a =>
        let bs := if r.forcing = [] then r.cur.take len else (List.range (min len r.cur.length)).map (Config.forced r.cur r.forcing)
        ({ s with deck := (s.deck.store a bs).cleanWords a bs.length }).setRollout i { r with place := some a }
      | some a, _ =>
        if r.forcing = [] then s
        else
          let bs := (List.range (min len r.cur.length)).map (Config.forced r.cur r.forcing)
          { s with deck := (s.deck.store a bs).cleanWords a bs.length }) s

/-- What the host link does at a frame start (R176, R177, R387-R389). -/
def State.hostFrameStart (s : State) (host : HostView) : State :=
  let b := s.progBerth
  let s := s.onHost (fun h => { h with admitted := [], stepTag := s.frm.stepNum, window := (tget h.dev (4 * b) 0).toNat })
  let s := match tfind s.host.rings (4 * b + 1), tfind s.host.rings (4 * b + 2) with
    | some q, some a =>
      let pi := tget s.host.idx (4 * b + 1) 0
      let s := s.letIn host b q a pi (pi - tget s.host.dev (4 * b + 1) 0).toNat
      let s := s.ageQueries host b q pi
      (s.fillLanes s.lanes s.host.admitted).rolloutInputs (a.entry - 64) s.host.admitted.length
    | _, _ => s
  s.mirror b 0

/-- The output of the n-th answer of a frame as the deck delivers it (R218), and whether it is poisoned. -/
def State.answerOf (s : State) (len n : Nat) : State × List Byte × Bool :=
  match s.answerAddr len s.lanes n with
  | some a => (s.deckEcc (a / 67108864) a len false, s.deck.bytes a len, (s.deck.ecc a len).2)
  | none => (s, List.replicate len 0, false)

/-- The 64-byte header of an answer (R390). -/
def State.answerHdr (s : State) (cookie : List Byte) (rollout : Nat) : List Byte :=
  cookie ++ bytesOf s.frm.frameNum.toNat 6 ++ bytesOf s.host.stepTag.toNat 4 ++ bytesOf (if s.frm.spoiled then 1 else 0) 1
    ++ bytesOf rollout 2 ++ List.replicate 43 0

/-- What the host link does at frame done (R177, R388, R391): answers, rollouts, intake index, mirror. -/
def State.hostFrameDone (s : State) : State :=
  let b := s.progBerth
  let act := s.activeRollouts
  let s := match tfind s.host.rings (4 * b + 2) with
    | none => s
    | some a =>
      let len := a.entry - 64
      let put (s : State) (n : Nat) (hdr : List Byte) : State :=
        let pi := tget s.host.dev (4 * b + 2) 0
        let (s, out, po) := s.answerOf len n
        (s.emit (.hostWrite 0 (a.base + a.entry * (pi.toNat % max a.count 1)) (hdr ++ out) po)).onHost
          (fun h => { h with dev := tset h.dev (4 * b + 2) (pi + 1) })
      let nq := s.host.admitted.length
      let s := (List.range nq).foldl (fun (s : State) (n : Nat) =>
        put s n (s.answerHdr (((s.host.admitted[n]?).getD []).take 8) 0xFFFF)) s
      let s := (List.range act.length).foldl (fun (s : State) (n : Nat) =>
        match act[n]? with
        | none => s
        | some r =>
          let out := (s.answerOf len (nq + n)).2.1
          let x := s.rollout r
          (put s (nq + n) (s.answerHdr (List.replicate 8 0) r)).setRollout r
            { x with prev := x.cur, cur := out, forcing := [], place := s.answerAddr len s.lanes (nq + n), status := if s.frm.spoiled then 2 else 1 }) s
      if s.frm.spoiled && !act.isEmpty then s.hostEvent 0x2604 b act.length else s
  let s := s.lanes.foldl (fun (s : State) (l : LaneDecl) =>
    let k := ctxKey 0 l.corePos l.adesc
    s.setCtx k { s.ctxAt k with grans := [] }) s
  let s := match tfind s.host.rings (4 * b) with
    | none => s
    | some r => s.onHost (fun h => { h with dev := tset h.dev (4 * b) (tget h.dev (4 * b) 0 + BitVec.ofNat 32 r.nIn) })
  s.mirror b 1

end Sys2Proof.Machine
end

