-- ==== Sys2Proof/Machine/Slots.lean ====
section
/-! DEFINITION. What the words of a program spell: the slots of a bundle (R104, R107, R115, R119, R120, R123) and the instructions of a
waybill (R253). -/

namespace Sys2Proof.Machine

/-! ### The slots (R104) -/

/-- The slots of a bundle (R104). -/
def slotC (b : BitVec 128) : BitVec 24 := b.extractLsb' 104 24
def slotM (b : BitVec 128) : BitVec 28 := b.extractLsb' 76 28
def slotA (b : BitVec 128) (arr : Arr) : BitVec 12 := b.extractLsb' (52 + 12 * arr.val) 12
def slotV (b : BitVec 128) : BitVec 40 := b.extractLsb' 12 40
def slotN (b : BitVec 128) : BitVec 12 := b.extractLsb' 0 12

/-! ### The command of a slot: none for a reserved encoding (R105), no command for NOP. A field that an operation does not
use is ignored; op-specific bits of a memory operation that its row of R115 does not define are reserved (DEDUCED, log entry
89). -/

/-- The control slot (R107). -/
def decodeC (p : Pos) (w : BitVec 24) : Option (List Instr) :=
  let f (lo n : Nat) : BitVec n := w.extractLsb' lo n
  match (f 20 4).toNat with
  | 0x0 => some []
  | 0x1 => some [.waitc p (f 0 20)]
  | 0x2 => some [.waits p (f 16 4)]
  | 0x3 => some [.rpt p (f 0 16)]
  | 0x4 => some [.loop p (f 18 2) (f 8 10) (f 0 8)]
  | 0x5 => some [.loops p (f 18 2) (f 12 4) (f 0 8)]
  | 0x6 => some [.jmp p (f 0 13)]
  | 0x7 => some [.bnz p (f 13 4) (f 0 13)]
  | 0x8 => some [.page p (f 12 4) (f 0 12)]
  | 0x9 => some [.setl p (f 16 4) (f 0 16)]
  | 0xA => some [.seth p (f 16 4) (f 0 16)]
  | 0xB => some [.salu p (f 16 4) (f 12 4) (f 8 4) (f 4 4)]
  | 0xC => some [.movx p (f 16 4) (f 11 5)]
  | 0xD => some [.mark p (f 0 16)]
  | 0xE => some [.endOp p]
  | _ => none

/-- The memory slot (R115). -/
def decodeM (p : Pos) (w : BitVec 28) : Option (List Instr) :=
  let f (lo n : Nat) : BitVec n := w.extractLsb' lo n
  let v : BitVec 5 := f 19 5
  let a : BitVec 4 := f 15 4
  let dp : BitVec 3 := f 12 3
  let op (ok : Bool) (i : Instr) : Option (List Instr) := if ok then some [i] else none
  match (f 24 4).toNat with
  | 0x0 => some []
  | 0x1 => op (f 2 10 == 0) (.ld p v a (f 0 2))
  | 0x2 => op (f 4 8 == 0) (.st p v a (f 0 2) (f 2 2))
  | 0x3 => op (f 1 11 == 0) (.sta p v a (f 0 1))
  | 0x4 => op (f 0 4 == 0) (.psd p a (if (f 11 1) == 0 then 0 else 1) (f 4 7))
  | 0x5 => op (f 0 12 == 0) (.dkrd p a dp)
  | 0x6 => op (f 0 12 == 0) (.dkwr p a dp)
  | 0x7 => op (f 0 6 == 0) (.ldl p a dp (f 6 6))
  | 0x8 => op (f 0 6 == 0) (.stl p a dp (f 6 6))
  | 0x9 => op (f 1 11 == 0) (.dkrt p a dp (f 0 1))
  | 0xA => op (f 0 12 == 0) (.push p a)
  | 0xB => op (f 0 12 == 0) (.pop p a)
  | _ => none

/-- An array sub-slot (R120): its operation, then SWAP, then LATCH. -/
def decodeA (p : Pos) (arr : Arr) (w : BitVec 12) : Option (List Instr) :=
  let f (lo n : Nat) : BitVec n := w.extractLsb' lo n
  let rest : List Instr := (if (f 7 1) == 1 then [.swap p arr] else []) ++ (if (f 2 1) == 1 then [.latch p arr] else [])
  if f 0 2 != 0 then none
  else
    match (f 9 3).toNat with
    | 0 => some rest
    | 1 => some (.feed p arr ((f 8 1) == 1) (f 3 4) :: rest)
    | 2 => some (.cfg p arr (f 3 4) :: rest)
    | _ => none

/-- The vector slot (R123). -/
def decodeV (p : Pos) (w : BitVec 40) : Option (List Instr) :=
  let o : VOp := { vd := w.extractLsb' 27 5, va := w.extractLsb' 22 5, vb := w.extractLsb' 17 5, vc := w.extractLsb' 12 5
                   md := w.extractLsb' 0 12 }
  match (w.extractLsb' 32 8).toNat with
  | 0x00 => some []
  | 0x01 => some [.vadd p o]
  | 0x02 => some [.vsub p o]
  | 0x03 => some [.vmul p o]
  | 0x04 => some [.vfma p o]
  | 0x05 => some [.vmax p o]
  | 0x06 => some [.vmin p o]
  | 0x07 => some [.vabs p o]
  | 0x08 => some [.vneg p o]
  | 0x09 => some [.vcmp p o]
  | 0x0A => some [.vsel p o]
  | 0x0B => some [.vmov p o]
  | 0x0C => some [.vbc p o]
  | 0x0D => some [.vrdp p o]
  | 0x0E => some [.vlane p o]
  | 0x10 => some [.vrcp p o]
  | 0x11 => some [.vsqrt p o]
  | 0x12 => some [.vrsqrt p o]
  | 0x13 => some [.vdiv p o]
  | 0x14 => some [.vexp2 p o]
  | 0x15 => some [.vlog2 p o]
  | 0x16 => some [.vtanh p o]
  | 0x17 => some [.vsigm p o]
  | 0x18 => some [.verf p o]
  | 0x19 => some [.vsin p o]
  | 0x1A => some [.vcos p o]
  | 0x20 => some [.vrsum p o]
  | 0x21 => some [.vrmax p o]
  | 0x22 => some [.vrmin p o]
  | 0x23 => some [.vrdot p o]
  | 0x28 => some [.viadd p o]
  | 0x29 => some [.visub p o]
  | 0x2A => some [.vand p o]
  | 0x2B => some [.vor p o]
  | 0x2C => some [.vxor p o]
  | 0x2D => some [.vshl p o]
  | 0x2E => some [.vshr p o]
  | 0x30 => some [.dadd p o]
  | 0x31 => some [.dmul p o]
  | 0x32 => some [.dfma p o]
  | 0x33 => some [.drsum p o]
  | 0x34 => some [.dcvt p o]
  | 0x38 => some [.vcvf p o]
  | 0x39 => some [.vcvm p o]
  | 0x3A => some [.vcvb p o]
  | 0x3B => some [.vcvi p o]
  | 0x40 => some [.update p o]
  | _ => none

/-- The network slot (R119). -/
def decodeN (p : Pos) (w : BitVec 12) : Option (List Instr) :=
  let a : BitVec 4 := w.extractLsb' 5 4
  match (w.extractLsb' 9 3).toNat with
  | 0 => some []
  | 1 => some [.send p a (w.extractLsb' 1 4) ((w.extractLsb' 0 1) == 1)]
  | 2 => some [.recv p a]
  | 3 => some [.recva p a]
  | 4 => some [.recvaB p a]
  | 5 => some [.drop p]
  | _ => none

/-- Whether a bundle pairs an UPDATE with an operation of its memory slot (R129). -/
def updateBeside (b : BitVec 128) : Bool := (slotV b).extractLsb' 32 8 == 0x40 && (slotM b).extractLsb' 24 4 != 0

/-- The commands that a bundle spells at a position; none where a slot holds a reserved encoding or breaks a constraint that
the encoding alone shows (R104, R105). -/
def bundleOps (p : Pos) (b : BitVec 128) : Option (List Instr) :=
  match decodeC p (slotC b), decodeM p (slotM b), decodeA p 0 (slotA b 0), decodeA p 1 (slotA b 1), decodeV p (slotV b),
      decodeN p (slotN b) with
  | some c, some m, some a0, some a1, some v, some n => if updateBeside b then none else some (c ++ m ++ a0 ++ a1 ++ v ++ n)
  | _, _, _, _, _, _ => none

/-! ### Waybill instructions (R253) -/

/-- The instruction of a waybill that a 64-bit word spells for a context; none for a reserved encoding. -/
def decodeWaybill (c : CtxId) (w : DWord) : Option Instr :=
  let f (lo n : Nat) : BitVec n := w.extractLsb' lo n
  let zero (lo n : Nat) : Bool := f lo n == 0
  match (f 59 5).toNat with
  | 0x00 => if zero 0 59 then some (.waybillEnd c) else none
  | 0x01 => if (f 56 3).toNat ≤ 2 then some (.setb c (f 56 3) (f 0 56)) else none
  | 0x02 => if (f 56 3).toNat ≤ 5 then some (.waybillLoop c (f 56 3) (f 36 20) (f 12 24) (f 0 12)) else none
  | 0x03 => if (f 56 3).toNat ≤ 5 && zero 0 56 then some (.endl c (f 56 3)) else none
  | 0x04 => if zero 0 12 then some (.xfer c (f 52 7) (f 28 24) (f 12 16)) else none
  | 0x05 => if zero 0 14 then some (.gather c (f 52 7) (f 36 16) (f 20 16) (f 14 6)) else none
  | 0x06 => if zero 0 14 then some (.scatter c (f 52 7) (f 36 16) (f 20 16) (f 14 6)) else none
  | 0x07 => if (f 56 3).toNat ≤ 3 && (f 53 3).toNat ≤ 5 && zero 36 17 && zero 0 16 then
      some (.pred c (f 56 3) (f 53 3) (f 16 20)) else none
  | 0x08 => if zero 0 59 then some (.waybillMark c) else none
  | 0x09 => if zero 0 59 then some (.fence c) else none
  | _ => none

/-- Whether a word is no waybill instruction. -/
def badWaybill (w : DWord) : Bool := (decodeWaybill ⟨0, 0, 0⟩ w).isNone

end Sys2Proof.Machine
end

