-- ==== Sys2Proof/Machine/Waybills.lean ====
section
/-! DEFINITION. Waybills (R247-R262): triggers, the ten instructions, far checks, publication and the wait limit. -/

namespace Sys2Proof.Machine

/-! ### Starting, ending, waiting (R250, R253, R255, R261) -/

/-- A waybill starts at instruction 0, its index position as the last SETB set it (R255). -/
def CtxSt.start (x : CtxSt) : CtxSt :=
  { x with status := .running, queued := false, pc := 0, skip := false, loops := [], idxPos := x.idxSet, unit := 0
           index := none, waitFrom := none }

/-- A drain's granules of which some units have been read and none is open become free (R250). -/
def State.freePartial (s : State) (k : Nat) : State :=
  let x := s.ctxAt k
  s.setCtx k { x with grans := x.grans.filter (fun g =>
    match g.2 with
    | .produced rd => rd == 0 || s.openTouch k g.1
    | _ => true) }

/-- The Depot units that a waybill wrote are closed (R307). -/
def State.closeFor (s : State) (k : Nat) : State := s.onDepot (fun d => d.closeUnits (fun u => u.ctx == some k))

/-- END (R250, R253, R255): done until the next trigger, or started again by a queued one. -/
def State.wbEnd (s : State) (k : Nat) : State :=
  let s := (s.freePartial k).closeFor k
  let x := s.ctxAt k
  let s := s.streamRec k 1
  if x.queued then (s.setCtx k x.start).streamRec k 0
  else s.setCtx k { x with status := .done, waitFrom := none, loops := [] }

/-- The next instruction; after the PLEN-th the waybill ends (R253). -/
def State.wbNext (s : State) (k : Nat) : State :=
  let x := s.ctxAt k
  let s := s.setCtx k { x with pc := x.pc + 1, unit := 0, index := none, waitFrom := none }
  if ((x.desc.map (fun b => b.prog.length)).getD 0) ≤ x.pc + 1 then s.wbEnd k else s

/-- The waybill waits (R250, R254, R258); a wait goes on from where it began (R261). `full` is the memory port whose queue
is full. -/
def State.wbWait (s : State) (k : Nat) (full : Option Nat) : State :=
  let x := s.ctxAt k
  s.setCtx k { x with waitFrom := some (x.waitFrom.getD s.time), full := full }

/-- The memory port on whose full queue a request for a far address waits (R258, R502). -/
def State.fullPort (s : State) (b : BufDesc) (far : Nat) : Option Nat :=
  let qk := (s.lpRoute far).1
  if b.far = 0 && qk / 64 == 0 && !s.room qk 1 then some (qk % 64) else none

/-- The word at which a waybill stands (R253). -/
def CtxSt.word (x : CtxSt) : Option DWord := x.desc.bind (fun b => b.prog[x.pc]?)

/-- The far address of a transfer as u64 (R252). -/
def CtxSt.farAddr (x : CtxSt) (foff : Int) : Nat :=
  let sum := (x.loops.map (fun l => (l.idx : Int) * l.fs)).foldl (· + ·) 0
  (((x.fbase.toNat : Int) + 64 * (sum + foff)) % (2 ^ 64 : Int)).toNat
/-- The near unit of a transfer (R252). -/
def CtxSt.nearAddr (x : CtxSt) (noff : Int) : Nat :=
  let sum := (x.loops.map (fun l => (l.idx : Int) * l.ns)).foldl (· + ·) 0
  (((x.nbase.toNat : Int) + sum + noff) % ((4 * max x.size 1 : Nat) : Int)).toNat

/-- Instruction `i` of a running waybill that stands at it; a skipped one is passed over (R253). None runs in a stop (R262). A word
that the store delivers corrected is a notice, an uncorrectable one aborts the context (R273). -/
def State.wbGo (s : State) (c : CtxId) (i : Instr) (f : State → CtxSt → State) : State :=
  let k := idKey c
  let x := s.ctxAt k
  let (co, un) := s.upsetIn .context k x.pc 1
  if x.status ≠ .running || !s.streamsRun || x.word.bind (decodeWaybill c) ≠ some i then s
  else if un then ((s.setCtx k { x with status := .aborted, waitFrom := none }).streamRec k 2).ctxEvent k 0x2B07 (x.farAddr 0 % 2 ^ 56)
  else
  let s := if co then (s.ctxEvent k 0x2B06 (x.farAddr 0 % 2 ^ 56)).heal .context k x.pc 1 else s
  if x.skip then (s.setCtx k { x with skip := false }).wbNext k
  else f s x

/-- A trigger event (R255). -/
def State.wbTrigger (s : State) (k : Nat) : State :=
  let x := s.ctxAt k
  match x.status with
  | .done => (s.setCtx k x.start).streamRec k 0
  | .running => if x.queued then s.ctxEvent k 0x2B03 x.fbase.toNat else s.setCtx k { x with queued := true }
  | _ => s

/-- The triggers of a frame start (R247). -/
def State.triggerWaybills (s : State) (first : Bool) : State :=
  s.ctx.foldl (fun s e =>
    match e.2.desc with
    | none => s
    | some b =>
      if !b.prog.isEmpty && ((b.trigger == 0 && first) || b.trigger == 1 || (b.trigger == 2 && b.tix == s.frm.index.toNat)) then
        s.wbTrigger e.1
      else s) s

/-- WAYBILL_END (R253). -/
def execWaybillEnd (c : CtxId) (s : State) : Host.Outcome State Fault Refusal :=
  .next (s.wbGo c (.waybillEnd c) (fun s _ => s.wbEnd (idKey c)))

/-- SETB (R253). -/
def execSetb (c : CtxId) (reg : BitVec 3) (val : BitVec 56) (s : State) : Host.Outcome State Fault Refusal :=
  .next (s.wbGo c (.setb c reg val) (fun s x =>
    let x := match reg.toNat with
      | 0 => { x with fbase := val }
      | 1 => { x with nbase := val.setWidth 32 }
      | 2 => { x with idxPos := val.toNat, idxSet := val.toNat }
      | _ => x
    (s.setCtx (idKey c) x).wbNext (idKey c)))

/-- LOOP (R253): 1 to 1,048,576 iterations; levels open in order. -/
def execWaybillLoop (c : CtxId) (level : BitVec 3) (count : BitVec 20) (fs : BitVec 24) (ns : BitVec 12) (s : State) :
    Host.Outcome State Fault Refusal :=
  .next (s.wbGo c (.waybillLoop c level count fs ns) (fun s x =>
    (s.setCtx (idKey c) { x with loops := { level := level.toNat, count := count.toNat + 1, idx := 0, fs := fs.toInt
                                            ns := ns.toInt, body := x.pc + 1 } :: x.loops }).wbNext (idKey c)))

/-- ENDL (R253): back to the body while iterations are left. -/
def execEndl (c : CtxId) (level : BitVec 3) (s : State) : Host.Outcome State Fault Refusal :=
  .next (s.wbGo c (.endl c level) (fun s x =>
    match x.loops with
    | l :: r =>
      if l.level ≠ level.toNat then s.wbNext (idKey c)
      else if l.idx + 1 < l.count then s.setCtx (idKey c) { x with loops := { l with idx := l.idx + 1 } :: r, pc := l.body }
      else (s.setCtx (idKey c) { x with loops := r }).wbNext (idKey c)
    | [] => s.wbNext (idKey c)))

/-! ### Far checks (R256, R305, R308, R349, R385, R388) -/

/-- Depot namespace, window index and offset of a far address (R305, R349). -/
def farIdx (far : Nat) : Nat := far / 1125899906842624 % 64
def farOff (far : Nat) : Nat := far % 1125899906842624

/-- The entry and host address of an intake window offset (R388). -/
def State.intake (s : State) (b off : Nat) : Option (Nat × Nat) :=
  (tfind s.host.rings (4 * b)).bind (fun r =>
    if off < r.nIn * r.entry then
      let e := s.host.window + off / max r.entry 1
      some (e, r.base + r.entry * (e % max r.count 1) + off % max r.entry 1)
    else none)

/-- The first failed check of a far request of `n` units (R256). -/
def State.farCheck (s : State) (k : Nat) (b : BufDesc) (far n : Nat) : Option Code :=
  let x := s.ctxAt k
  let len := 64 * n
  if 2 ^ 56 ≤ far then some 0x2B05
  else match b.far with
    | 0 => if s.lpCap < far + len then some 0x2B05 else if s.grantsLp x.berth far (far + len) then none else some 0x2B02
    | 1 =>
      if far.testBit 55 then
        (if (s.intake x.berth (far % 2 ^ 55 + len - 1)).isSome then none else some 0x2B05)
      else if 2 ^ 52 < far + len then some 0x2B05
      else if s.grantsHpa x.berth far (far + len) then none else some 0x2B02
    | 2 =>
      let ns := farIdx far
      let off := farOff far
      match tfind s.depot.ns ns with
      | none => some 0x2B05
      | some d =>
        if 65536 * d.size < off + len && !(d.ring && b.kind == 2 && off < 65536 * d.size) then some 0x2B05
        else if !s.grantsNs x.berth ns || d.locked then some 0x2B02
        else if b.kind = 2 then
          if !kindWrites d.kind then some 0x2E08
          else if d.append ≠ off || (d.owner.any (fun o => o != k)) then some 0x2E07
          else none
        else if kindReads d.kind then none else some 0x2E08
    | _ =>
      match s.pont.windows[farIdx far]? with
      | none => some 0x2B05
      | some w => if w.size < farOff far + len then some 0x2B05
                  else if s.grantsVc x.berth w.vc then none else some 0x2B02

/-- The record of a failed check. -/
def State.farFail (s : State) (k : Nat) (code : Code) (far : Nat) : State :=
  if code.toNat / 256 = 0x2E then s.depotEvent code (farIdx far) (farOff far)
  else s.ctxEvent k code (far % 2 ^ 56)

/-- An accepted transfer to an archive owns it and moves its append point (R308); a transfer on a window of a collective
triggers its instance (R357). -/
def State.farTake (s : State) (k : Nat) (b : BufDesc) (far n : Nat) : State :=
  if b.far = 2 && b.kind = 2 then
    let ns := farIdx far
    match tfind s.depot.ns ns with
    | none => s
    | some d =>
      let a := farOff far + 64 * n
      let d' := { d with owner := some k, append := if d.ring then a % (65536 * max d.size 1) else a }
      s.onDepot (fun t => { t with ns := tset t.ns ns d' })
  else if b.far = 3 then
    match s.pont.windows[farIdx far]? with
    | some w => if w.coll = 0 then s else s.trigger w.coll.toNat s.pont.trigger.1
    | none => s
  else s

/-! ### Transfers (R249, R250, R252, R254) -/

/-- One 64 B request of a transfer: the queue it goes to, and itself; none while its serving block has no room, the Depot
is not ready, or its channel buffer is full (R258, R307, R320, R321). -/
def State.route1 (s : State) (k : Nat) (b : BufDesc) (far near : Nat) (full : Bool) : Option (State × Nat × Req) :=
  let x := s.ctxAt k
  let r : Req := { id := 0, ctx := k, kind := .unit near full, isWrite := b.kind == 2, far := b.far, addr := far, da := none
                   deadline := x.deadline s.time, issued := s.time, sent := false, win := 0, sfn := s.pont.trigger.1 }
  let fit (s : State) (qk : Nat) (r : Req) : Option (State × Nat × Req) := if s.room qk 1 then some (s, qk, r) else none
  match b.far with
  | 0 => let (qk, a, da) := s.lpRoute far; fit s qk { r with addr := a, da := da }
  | 1 =>
    if far.testBit 55 then
      match s.intake x.berth (far % 2 ^ 55) with
      | some (e, hpa) => fit s (queueKey 3 (s.moduleFor hpa)) { r with far := 4, addr := hpa, da := some e }
      | none => none
    else fit s (queueKey 3 (s.moduleFor far)) r
  | 2 =>
    let ns := farIdx far
    let off := match tfind s.depot.ns ns with
      | some d => if d.ring then farOff far % (65536 * max d.size 1) else farOff far
      | none => farOff far
    let r := { r with addr := flashAddr ns off }
    if !s.depot.readable then none
    else if b.kind = 2 then
      if s.depot.state = 2 then fit s (queueKey 1 (s.depot.readChan ns (off / 65536))) r
      else if !s.depot.takes then none
      else match s.depot.writeChan ns (off / 65536) s.time (some k) with
        | some (d, c) => if s.room (queueKey 1 c) 1 then some ({ s with depot := d }, queueKey 1 c, r) else none
        | none => none
    else fit s (queueKey 1 (s.depot.readChan ns (off / 65536))) r
  | _ =>
    match s.pont.windows[farIdx far]? with
    | none => none
    | some w =>
      let p := ((s.pont.next s.pont.devId.toNat w.dev.toNat none).map (fun h => h.port)).getD 0
      fit s (queueKey 2 p) { r with addr := farOff far, win := farIdx far }

/-- One unit that issues no request: a fill's is written zero, a drain's counts as read (R254, R256); none while the bank is taken.
`own` marks the unit that stands for the granule's access. -/
def State.zeroUnit (s : State) (k : Nat) (fill : Bool) (near : Nat) (full own : Bool) : Option State :=
  if fill then
    let (s, acc) := s.nearWrite k near 0 false full own
    if acc = .wait then none else some s
  else
    let x := s.ctxAt k
    match tget x.grans (near / 4) .free with
    | .produced rd =>
      let rd := rd ||| (1#4 <<< (near % 4))
      some (s.setCtx k (x.setGran (near / 4) (if rd = 15 then .free else .produced rd)))
    | _ => some s

/-- The units of one granule of a transfer, all or none: each far request is checked before it issues, and one that fails moves
nothing (R256); with `null` none issues (R254). -/
def State.issuePiece (s : State) (k : Nat) (b : BufDesc) (far near : Nat) (full null : Bool) : Nat → Option State
  | 0 => some s
  | n + 1 =>
    let code := if null then none else s.farCheck k b far 1
    let s1 := match code with
      | some c => s.farFail k c far
      | none => s
    let s2 :=
      if null || code.isSome then s1.zeroUnit k (b.kind == 1) near full (n == 0)
      else match (s1.farTake k b far 1).route1 k b far near full with
        | none => none
        | some (s, qk, r) =>
          let s := s.enqueue qk r
          let x := s.ctxAt k
          some (s.setCtx k { x with open_ := x.open_ + 1 })
    match s2 with
    | none => none
    | some s => s.issuePiece k b (far + 64) (near + 1) full null n

/-- Whether a transfer may touch a granule now (R249, R250). The spec names neither who fills nor who empties a staging range: its
granules are always free and always produced (DESIGN CHOICE, log entry 95). -/
def CtxSt.mayTouch (x : CtxSt) (b : BufDesc) (k g : Nat) : Bool :=
  ctxBlk k != 0 ||
  match tget x.grans g .free with
  | .free => b.kind == 1
  | .produced _ => b.kind == 2
  | _ => false

/-- The rest of a transfer, granule by granule, until it is issued or must wait; `null` issues no request. -/
def State.transfer (s : State) (k : Nat) (b : BufDesc) (far near0 n : Nat) (null : Bool) : Nat → State
  | 0 => s
  | fuel + 1 =>
    let x := s.ctxAt k
    if n ≤ x.unit then s.wbNext k
    else
      let ring := 4 * max b.size 1
      let near := (near0 + x.unit) % ring
      let len := min (4 - near % 4) (n - x.unit)
      if !x.mayTouch b k (near / 4) then s.wbWait k none
      else
        let s2 := s.issuePiece k b (far + 64 * x.unit) near (len == 4) null len
        match s2 with
        | none => s.wbWait k (s.fullPort b (far + 64 * x.unit))
        | some s3 =>
          let y := s3.ctxAt k
          let w := if b.kind = 1 && !y.written.contains (near / 4) then y.written ++ [near / 4] else y.written
          (s3.setCtx k { y with unit := x.unit + len, written := w
                                waitFrom := none }).transfer k b far near0 n null fuel

/-- A transfer of an instruction of context `k`. -/
def State.wbTransfer (s : State) (k : Nat) (foff noff : Int) (n : Nat) (null : Bool) : State :=
  let x := s.ctxAt k
  match x.desc with
  | none => s
  | some b => s.transfer k b (x.farAddr foff) (x.nearAddr noff) n null (n + 1)

/-- XFER (R252, R253). -/
def execXfer (c : CtxId) (len : BitVec 7) (foff : BitVec 24) (noff : BitVec 16) (s : State) :
    Host.Outcome State Fault Refusal :=
  .next (s.wbGo c (.xfer c len foff noff) (fun s _ => s.wbTransfer (idKey c) foff.toInt noff.toInt (len.toNat + 1) false))

/-- The next index of index buffer `x` of the same core (R254), or a wait; its granule is freed after its last. -/
def State.nextIndex (s : State) (k : Nat) (x : Nat) : State × Option Word :=
  let c := s.ctxAt k
  match c.index with
  | some i => (s, some i)
  | none =>
    if ctxBlk k ≠ 0 then (s.wbWait k none, none)
    else
      let p := ctxUnit k
      let kx := ctxKey 0 p x
      let y := s.ctxAt kx
      let g := c.idxPos / 64 % max y.size 1
      match y.desc, tget y.grans g .free with
      | some b, .produced _ =>
        match s.deckUnit p (b.base + g) (c.idxPos % 64 / 16) true with
        | (s, v, _, .ok) =>
          let i := (v >>> (32 * (c.idxPos % 16))).setWidth 32
          let s := if c.idxPos % 64 = 63 then s.setCtx kx ((s.ctxAt kx).setGran g .free) else s
          let c := s.ctxAt k
          (s.setCtx k { c with index := some i, lastIdx := i, idxPos := c.idxPos + 1 }, some i)
        | (_, _, _, .wait) => (s.wbWait k none, none)
        | (s, _, _, .refused) =>
          let c := s.ctxAt k
          (s.setCtx k { c with index := some 0, lastIdx := 0, idxPos := c.idxPos + 1 }, some 0)
      | _, _ => (s.wbWait k none, none)

/-- GATHER (R254): a null index writes zeros and issues no request. -/
def execGather (c : CtxId) (len : BitVec 7) (scale noff : BitVec 16) (x : BitVec 6) (s : State) :
    Host.Outcome State Fault Refusal :=
  .next (s.wbGo c (.gather c len scale noff x) (fun s _ =>
    match s.nextIndex (idKey c) x.toNat with
    | (s, none) => s
    | (s, some i) =>
      s.wbTransfer (idKey c) ((i.toNat : Int) * scale.toNat) noff.toInt (len.toNat + 1) (i == 0xFFFFFFFF)))

/-- SCATTER (R254): a null index moves nothing. -/
def execScatter (c : CtxId) (len : BitVec 7) (scale noff : BitVec 16) (x : BitVec 6) (s : State) :
    Host.Outcome State Fault Refusal :=
  .next (s.wbGo c (.scatter c len scale noff x) (fun s _ =>
    match s.nextIndex (idKey c) x.toNat with
    | (s, none) => s
    | (s, some i) =>
      if i = 0xFFFFFFFF then s.wbNext (idKey c)
      else s.wbTransfer (idKey c) ((i.toNat : Int) * scale.toNat) noff.toInt (len.toNat + 1) false))

/-- PRED (R253): the next instruction is skipped unless the condition holds. -/
def execPred (c : CtxId) (cond level : BitVec 3) (arg : BitVec 20) (s : State) : Host.Outcome State Fault Refusal :=
  .next (s.wbGo c (.pred c cond level arg) (fun s x =>
    let i := ((x.loops.find? (fun l => l.level == level.toNat)).map (·.idx)).getD 0
    let holds := match cond.toNat with
      | 0 => x.lastIdx != 0xFFFFFFFF
      | 1 => decide (i < arg.toNat)
      | 2 => i == arg.toNat
      | 3 => s.frm.index.toNat == arg.toNat % 65536
      | _ => true
    let s := s.wbNext (idKey c)
    let y := s.ctxAt (idKey c)
    if y.status = .running && y.pc = x.pc + 1 then s.setCtx (idKey c) { y with skip := !holds } else s))

/-- WAYBILL_MARK (R249, R250, R307). -/
def execWaybillMark (c : CtxId) (s : State) : Host.Outcome State Fault Refusal :=
  .next (s.wbGo c (.waybillMark c) (fun s _ =>
    let s := (s.freePartial (idKey c)).closeFor (idKey c)
    let x := s.ctxAt (idKey c)
    (s.setCtx (idKey c) { x with toPub := x.toPub ++ x.written, written := [] }).wbNext (idKey c)))

/-- FENCE (R253, R307): passed once no request of the waybill is open. -/
def execFence (c : CtxId) (s : State) : Host.Outcome State Fault Refusal :=
  .next (s.wbGo c (.fence c) (fun s x =>
    let s := s.closeFor (idKey c)
    if x.open_ = 0 then s.wbNext (idKey c) else s))

/-- GRANULE_PUBLISH (R249): each marked granule to which no write is open is published. -/
def execGranulePublish (c : CtxId) (s : State) : Host.Outcome State Fault Refusal :=
  .next (
    let k := idKey c
    let x := s.ctxAt k
    match x.desc with
    | none => s
    | some b =>
      let ready := x.toPub.filter (fun g => !s.openTouch k g)
      let y := ready.foldl (fun (y : CtxSt) g => y.setGran g (.published b.uses)) x
      s.setCtx k { y with toPub := x.toPub.filter (fun g => s.openTouch k g) })

/-! ### The wait limit (R261) -/

/-- A context as INST packs it (R458). -/
def ctxInst (k : Nat) : Nat := 1 + 2 * ctxNum k + 256 * ctxUnit k + 65536 * ctxBlk k

/-- The second context of R261, as INST packs it (R458): that of an LDL or STL which the buffer's core holds on, else that of the
index buffer, or of the own buffer, whose granule the waiter needs; 0 when there is none. -/
def State.secondCtx (s : State) (k : Nat) : Nat :=
  let x := s.ctxAt k
  let p := ctxUnit k
  let name (d : Nat) : Nat := ctxInst (ctxKey 0 p d)
  let own (noff : Int) : Nat :=
    match x.desc with
    | some b =>
      let near := ((x.nearAddr noff : Nat) + x.unit) % (4 * max b.size 1)
      if x.mayTouch b k (near / 4) then 0 else ctxInst k
    | none => 0
  if ctxBlk k ≠ 0 then 0
  else
    match (s.cluAt (posClu p)).held.findSome? (fun i =>
      match i with
      | .ldl q _ _ d => if q.val = p then some d.toNat else none
      | .stl q _ _ d => if q.val = p then some d.toNat else none
      | _ => none) with
    | some d => name d
    | none =>
      match (x.desc.bind (fun b => b.prog[x.pc]?)) with
      | some w =>
        let op := w.toNat / 2 ^ 59
        if (op = 5 || op = 6) && x.index.isNone then name (w.toNat / 2 ^ 14 % 64)
        else if op = 4 then own (w.extractLsb' 12 16).toInt
        else if op = 5 || op = 6 then own (w.extractLsb' 20 16).toInt
        else 0
      | none => 0

/-- WAYBILL_WAIT_LIMIT (R261): a wait past `WB.WAIT_LIMIT.FRAMES` frame periods; fault 0x2B.01, the context aborted. -/
def execWaybillWaitLimit (c : CtxId) (s : State) : Host.Outcome State Fault Refusal :=
  .next (
    let k := idKey c
    let x := s.ctxAt k
    match x.waitFrom with
    | none => s
    | some t =>
      if x.status = .running && s.streamsRun && decide (t + s.waitLimit.toNat * s.frm.period < s.time) then
        let far := (x.farAddr 0) % 2 ^ 56
        let s := (s.setCtx k { x with status := .aborted, waitFrom := none }).streamRec k 2
        let inst := s.secondCtx k
        if ctxBlk k = 0 then
          s.raise { code := 0x2B01, pos := ctxUnit k, unit := 0xA, inst := inst, aux := ctxNum k, detail := far }
        else
          s.raise { code := 0x2B01, inst := inst, blk := ctxBlk k, port := some (ctxUnit k), aux := ctxNum k
                    detail := far + 2 ^ 56 * ctxUnit k }
      else s)

end Sys2Proof.Machine
end

