-- ==== Sys2Proof/Machine/Update.lean ====
section
/-! DEFINITION. The parameter update (R274-R293): UPDATE, the schedule engine, group constants, step rows, shard counters
and skew. -/

namespace Sys2Proof.Machine

/-! ### Binary64 (R281, R282) -/

def f64 (x : FpVal) : DWord := BitVec.ofNat 64 (fp64.enc .rne x)
def n64 (d : DWord) : FpVal := fp64.dec d.toNat
def nat64 (n : Nat) : DWord := f64 (.ofInt n 0)
/-- An FP32 value in binary64, exact. -/
def w64 (w : Word) : DWord := f64 (fp32.dec w.toNat)
def add64 (a b : DWord) : DWord := f64 (FpVal.add (n64 a) (n64 b))
def sub64 (a b : DWord) : DWord := f64 (FpVal.add (n64 a) (FpVal.neg (n64 b)))
def mul64 (a b : DWord) : DWord := f64 (FpVal.mul (n64 a) (n64 b))
def div64 (a b : DWord) : DWord := f64 (FpVal.div (n64 a) (n64 b))
def sqrt64 (a : DWord) : DWord := f64 (FpVal.sqrt (n64 a))
def max64 (a b : DWord) : DWord := f64 (FpVal.max (n64 a) (n64 b))
def one64 : DWord := nat64 1
/-- floor of a value that is not negative. -/
def floor64 (a : DWord) : DWord :=
  match n64 a with
  | .fin neg m e => f64 (.fin neg (roundInt m e .rz) 0)
  | x => f64 x
/-- A binary64 value rounded once to FP32 (R283). -/
def to32 (a : DWord) : Word := f32 (n64 a)

/-- Left-to-right binary powering (R282): bit `k - 1` down to bit 0. -/
def powi (b : DWord) (n : Nat) : Nat → DWord → DWord
  | 0, r => r
  | k + 1, r =>
    let r := mul64 r r
    powi b n k (if n.testBit k then mul64 r b else r)

/-- The position within a restart schedule of period `p`, growing by `mult` (R281). -/
def restart (u p mult : Nat) : Nat → Nat × Nat
  | 0 => (u, p)
  | k + 1 => if u < p then (u, p) else restart (u - p) (p * mult) mult k

/-- lr_curve of R281. -/
def lrCurve (d : GroupDesc) (t : Nat) : DWord :=
  let peak := w64 d.lrPeak
  let low := w64 d.lrMin
  let init := w64 d.lrInit
  if d.warm ≠ 0 && t ≤ d.w then
    let f := div64 (nat64 t) (nat64 d.w)
    if d.warm = 1 then add64 init (mul64 (sub64 peak init) f)
    else mul64 init (pow64 (div64 peak init) f)
  else
    let u := t - 1 - (if d.warm ≠ 0 then d.w else 0)
    let (x, p) :=
      if d.flags.getLsbD 0 then
        (if d.mult = 1 then (u % max d.p 1, d.p) else restart u d.p d.mult 64)
      else if d.decay = 1 || d.decay = 2 then (min u d.p, d.p)
      else (u, d.p)
    let r := div64 (nat64 x) (nat64 p)
    let h := nat64 (max d.w 1)
    let lr := match d.decay with
      | 0 => peak
      | 1 => add64 low (div64 (mul64 (sub64 peak low) (add64 one64 (cos64 (mul64 0x400921FB54442D18 r)))) (nat64 2))
      | 2 => sub64 peak (mul64 (sub64 peak low) r)
      | 3 => mul64 peak (sqrt64 (div64 h (add64 h (nat64 x))))
      | 4 => mul64 peak (pow64 (w64 d.gamma) r)
      | _ => mul64 peak (pow64 (w64 d.gamma) (floor64 r))
    max64 lr low

/-- The step size of a group under the override (R284). -/
def UpdSt.stepSize (u : UpdSt) (k : Nat) (d : GroupDesc) (t : Nat) : DWord :=
  let lr := lrCurve d t
  if u.ovrArmed && (u.ovrAll || u.ovrGroup.toNat = k) then
    (if u.ovrMode = 1 then mul64 lr (w64 u.ovrValue) else w64 u.ovrValue)
  else lr

/-- The nine group constants for step t (R275, R282, R283). -/
def UpdSt.groupConsts (u : UpdSt) (k : Nat) (d : GroupDesc) (t : Nat) : List Word :=
  let om (b : DWord) : DWord := sub64 one64 b
  let corr (b : DWord) : DWord := div64 one64 (sub64 one64 (powi b t 64 one64))
  [to32 (u.stepSize k d t), to32 (corr d.beta1), to32 (corr d.beta2), to32 d.beta1, to32 (om d.beta1), to32 d.beta2,
   to32 (om d.beta2), d.eps, d.wd]

/-! ### The engines (R274, R283-R287, R292) -/

def State.onUpd (s : State) (f : UpdSt → UpdSt) : State := { s with upd := f s.upd }

/-- An event of region r's engine: AUX the shard or record, DETAIL the step t (R293). -/
def State.updEvent (s : State) (code : Code) (r aux : Nat) : State :=
  s.raise { code := code, inst := r, aux := aux, detail := s.frm.stepNum.toNat + 1 }

/-- A write of `UPD.LR_OVERRIDE` that takes effect (R284): `m` is MODE, GROUP and ALL. -/
def UpdSt.setOverride (u : UpdSt) (value : Word) (m : BitVec 9) : UpdSt :=
  let mode := m.toNat % 4
  let bad := match fp32.dec value.toNat with
    | .fin neg k _ => neg && k != 0
    | _ => true
  if mode = 3 || bad then u
  else if mode = 0 then { u with ovrValue := 0, ovrMode := 0, ovrGroup := 0, ovrAll := false, ovrArmed := false }
  else { u with ovrValue := value, ovrMode := if mode = 2 then 0 else 1, ovrGroup := BitVec.ofNat 6 (m.toNat / 4 % 64)
                ovrAll := m.getLsbD 8, ovrArmed := true }

/-- The writes of the berth that wait for a frame start (R284, R287). -/
def State.updPending (s : State) : State :=
  s.onUpd (fun u =>
    let u := match u.ovrPend with | some (v, m) => u.setOverride v m | none => u
    { u with policy := u.policyPend.getD u.policy, ovrPend := none, policyPend := none })

/-- Step rows into the near store of every live core (R285). -/
def State.stepRows (s : State) : State :=
  match s.frm.prog with
  | none => s
  | some g =>
    let v := s.frm.frameStep.toNat + 2 ^ 32 * s.frm.frameNum.toNat + 2 ^ 80 * s.frm.index.toNat
    g.image.cores.foldl (fun s c =>
      match s.physOf c.lx c.ly with
      | some p => { s with nst := (s.nst.write (nstAddr p c.stepRow) v (2 ^ 64 - 1) 64).cleanWords (nstAddr p c.stepRow) 64 }
      | none => s) s

/-- The skew check of one region at the start of a commit frame (R287). -/
def State.skewCheck (s : State) (r : Nat) : State :=
  let now := s.frm.frameStep
  let bad (e : Nat × ShardEntry) : Bool := e.1 / 1024 == r && !e.2.frozen && e.2.t != now
  match s.upd.shards.find? bad with
  | none => s
  | some (_, e) =>
    let s := s.onUpd (fun u => { u with skewShard := BitVec.ofNat 10 e.shard, skewRegion := BitVec.ofNat 2 r })
    if s.upd.policy then
      (s.onUpd (fun u => { u with
        adopted := true, shards := u.shards.map (fun x => if bad x then (x.1, { x.2 with t := now }) else x) })).updEvent
        0x2D02 r e.shard
    else
      let s := s.raise { code := 0x2D01, inst := r, aux := e.shard, detail := s.frm.stepNum.toNat + 1, quiet := true }
      (List.range 12).foldl (fun (s : State) (c : Nat) => s.cluSpoil (12 * r + c) 0x2D01) s

/-- An engine whose shard table holds an uncorrectable entry, or whose duplicate disagrees, reports it (R286, R293, R452). -/
def State.engineCheck (s : State) (r : Nat) : State :=
  let s := (s.upd.shards.filter (fun e => e.1 / 1024 == r)).foldl (fun (s : State) (e : Nat × ShardEntry) =>
    if (s.upsetIn .shard r (e.1 % 1024) 1).2 then s.updEvent 0x2D07 r e.2.shard else s) s
  if s.upset .schedule r 0 != .good then (s.updEvent 0x2D08 r 0).heal .schedule r 0 1 else s

/-- Group constants of every group in use, in all four regions (R283). -/
def State.writeConsts (s : State) : State :=
  let t := s.frm.frameStep.toNat + 1
  s.onUpd (fun u => (List.range 4).foldl (fun u r =>
    u.groups.foldl (fun (u : UpdSt) g =>
      let cs := u.groupConsts g.1 g.2 t
      { u with consts := tset u.consts (64 * r + g.1) cs, lr := tset u.lr (64 * r + g.1) (cs.headD 0) }) u) u)

/-- The read of root record `n` of the committed buffer (R292): a position and the byte offsets of its two buffers. The record
stays due while its bank is another's in this clk or wakes (R220, R228). -/
def State.rootRead (s : State) (n : Nat) : State :=
  match s.frm.prog.bind (fun g => g.image.rootRecs[n]?) with
  | none => s
  | some (p, o0, o1) =>
    let off := if s.frm.frameStep.getLsbD 0 then o1 else o0
    match s.deckTake p (off / 256) 1 with
    | (s, .wait) => s.onUpd (fun u => { u with rootDue := u.rootDue ++ [n] })
    | (s, .refused) => s
    | (s, .ok) =>
      let a := 67108864 * p + off
      let s := s.deckEcc p a 32 false
      let t := BitVec.ofNat 32 (s.deck.read a 4)
      if t = tget s.upd.rootSeen n 0 then s
      else
        let s := s.onUpd (fun u => { u with rootSeen := tset u.rootSeen n t })
        match (s.deck.get (a + 4)).toNat with
        | 1 => s.updEvent 0x2D05 (posRegion p) n
        | 2 => s.updEvent 0x2D06 (posRegion p) n
        | _ => s
/-- The reads of root records that are due (R292). -/
def State.rootReads (s : State) : State :=
  s.upd.rootDue.foldl State.rootRead (s.onUpd (fun u => { u with rootDue := [] }))
/-- All root records of the committed buffer are due (R292). -/
def State.rootRecords (s : State) : State :=
  let n := ((s.frm.prog.map (fun g => g.image.rootRecs)).getD []).length
  (s.onUpd (fun u => { u with rootDue := List.range n })).rootReads

/-- The engines at a frame start (R274, R285, R287, R292); the constants reach the cores 1 µs later. -/
def State.updFrameStart (s : State) (commit : Bool) : State :=
  let s := (s.updPending.onUpd (fun u => { u with nfNote := [], arrived := false })).stepRows
  if commit then (((List.range 4).foldl (fun (s : State) (r : Nat) => (s.engineCheck r).skewCheck r) s).writeConsts).rootRecords else s

/-- An open decision (R274, R284, R287). -/
def State.updOpen (s : State) : State :=
  let t := s.frm.frameStep + 1
  { s.onUpd (fun u => { u with
      ovrArmed := false, ovrMode := 0
      shards := u.shards.map (fun x => if x.2.frozen then x else (x.1, { x.2 with t := t })) }) with
    frm := { s.frm with stepNum := t } }

/-! ### UPDATE (R129, R275-R278) -/

/-- One element: the new parameter, m and v (R275). Constants lr, c1, c2, b1, omb1, b2, omb2, eps, wd. -/
def updateElem (k : List Word) (p m v g : Word) : Word × Word × Word :=
  let c (i : Nat) : FpVal := fp32.dec ((k[i]?).getD 0).toNat
  let n (w : Word) : FpVal := fp32.dec w.toNat
  let mul (a b : FpVal) : FpVal := n (f32 (FpVal.mul a b))
  let fma (a b d : FpVal) : Word := f32 (FpVal.add (FpVal.mul a b) d)
  let m1 := fma (c 3) (n m) (mul (c 4) (n g))
  let v1 := fma (mul (c 6) (n g)) (n g) (mul (c 5) (n v))
  let mh := mul (n m1) (c 1)
  let vh := mul (n v1) (c 2)
  let den := n (f32 (FpVal.add (n (f32 (FpVal.sqrt vh))) (c 7)))
  let r := n (f32 (FpVal.div mh den))
  let q := n (fma (c 8) (n p) r)
  let p1 := fma (FpVal.neg (c 0)) q (n p)
  (p1, m1, v1)

/-- Whether an FP32 word is NaN or infinite. -/
def notFinite (w : Word) : Bool := match fp32.dec w.toNat with | .fin _ _ _ => false | _ => true

/-- BF16 elements of 2 rows, in FP32. -/
def bf16Lanes (v : Nat) : List Word := (List.range 64).map (fun i => BitVec.ofNat 32 (v / 2 ^ (16 * i) % 65536 * 65536))
/-- 64 codes of `n` bytes packed in element order. -/
def packCodes (n : Nat) (cs : List Nat) : Nat := (cs.zipIdx.map (fun c => c.1 * 2 ^ (8 * n * c.2))).foldl (· + ·) 0
/-- The byte mask of the live elements, `n` bytes each. -/
def liveMask (n : Nat) (live : List Bool) : Nat :=
  (live.zipIdx.map (fun c => if c.1 then (2 ^ n - 1) * 2 ^ (n * c.2) else 0)).foldl (· + ·) 0

/-- The legality of UPDATE's fields (R129, R277). -/
def updateOk (o : VOp) : Bool :=
  o.fmt < 2 && o.rnd < 2 && o.pm == 0 && o.va.toNat % 4 == 0 && o.va.toNat < 16 && o.vd.toNat < 16 &&
  (if o.rnd = 1 then decide (o.vc.toNat < 16) else o.vc == 0)

/-- The update of a live block under an open gate (R275-R278): reads in this tcyc, writes landing at t + 11. -/
def State.updateBlock (s : State) (p : Nat) (o : VOp) : State :=
  let n := o.va.toNat
  let row (i : Nat) : Nat := rowOf (s.aReg p (n + i))
  let srow := rowOf (s.aReg p o.vc.toNat)
  let b := o.vb.toNat
  let mx := o.rnd = 1
  let (s, pv) := s.readRows p (row 0) (if o.fmt = 0 then 4 else 2)
  let (s, mv) := s.readRows p (row 1) 2
  let (s, vv) := s.readRows p (row 2) (if mx then 1 else 2)
  let (s, gv) := s.readRows p (row 3) 4
  let (s, sv) := if mx then s.readRows p srow 1 else (s, 0)
  let sc (h : Nat) : Nat := sv / 2 ^ (16 * b + 8 * h) % 256
  let words (v : Nat) : List Word := (List.range 64).map (fun i => BitVec.ofNat 32 (v / 2 ^ (32 * i) % 2 ^ 32))
  let ps := if o.fmt = 0 then words pv else bf16Lanes pv
  let ms := bf16Lanes mv
  let vs := if mx then (List.range 64).map (fun i =>
      if sc (i / 32) = 0xFF then 0x7FC00000
      else f32 ((e4m3.dec (vv / 2 ^ (8 * i) % 256)).scale ((sc (i / 32) : Int) - 127)))
    else bf16Lanes vv
  let gs := words gv
  let k := tget s.upd.consts (64 * posRegion p + o.imm) []
  let res := (List.range 64).map (fun i =>
    let at_ (l : List Word) : Word := (l[i]?).getD 0
    let (p1, m1, v1) := updateElem k (at_ ps) (at_ ms) (at_ vs) (at_ gs)
    let live := !(notFinite (at_ gs) || notFinite p1 || notFinite m1 || notFinite v1)
    (live, p1, m1, if live then v1 else at_ vs))
  let live := res.map (·.1)
  let idx := s.idxReg p 3
  let bf (r : Rnd) (w : Word) : Nat := bf16.enc r (fp32.dec w.toNat)
  let s := if o.fmt = 0 then s.pendRows p (row 0) (packCodes 4 (res.map (fun x => x.2.1.toNat))) (liveMask 4 live) 12 2 4
    else s.pendRows p (row 0)
      (packCodes 2 (res.zipIdx.map (fun x =>
        bf (.sr (srBits (s.seedReg p 3) s.frm.frameStep (idx + BitVec.ofNat 64 x.2))) x.1.2.1))) (liveMask 2 live) 12 2 2
  let s := s.pendRows p (row 1) (packCodes 2 (res.map (fun x => bf .rne x.2.2.1))) (liveMask 2 live) 12 2 2
  let s :=
    if !mx then s.pendRows p (row 2) (packCodes 2 (res.map (fun x => bf .rne x.2.2.2))) (liveMask 2 live) 12 2 2
    else
      let nums := res.map (fun x => fp32.dec x.2.2.2.toNat)
      let (c0, s0, n0) := convBlock e4m3 (fun _ => .rne) (nums.take 32)
      let (c1, s1, n1) := convBlock e4m3 (fun _ => .rne) (nums.drop 32)
      let l0 := (live.take 32).any id
      let l1 := (live.drop 32).any id
      let m := (if l0 then 2 ^ 32 - 1 else 0) + (if l1 then (2 ^ 32 - 1) * 2 ^ 32 else 0)
      let sm := (if l0 then 2 ^ (2 * b) else 0) + (if l1 then 2 ^ (2 * b + 1) else 0)
      let s := s.pendRows p (row 2) (packCodes 1 (c0 ++ c1)) m 12 2 1
      let s := s.pendRows p srow (s0 * 2 ^ (16 * b) + s1 * 2 ^ (16 * b + 8)) sm 12 2 1
      let n := (if l0 then n0 else 0) + (if l1 then n1 else 0)
      s.count 8 p 12 n
  let skipped := (live.filter (!·)).length
  if skipped = 0 then s
  else
    let s := s.count 8 p 13 skipped
    if s.upd.nfNote.contains p then s
    else (s.onUpd (fun u => { u with nfNote := p :: u.nfNote })).raiseAt 0x2D03 p 9 (s.coreAt p).pc.toNat
      (s.frm.frameStep.toNat + 1)

/-- The rows an UPDATE reads wake (R228). -/
def State.updateWakes (s : State) (p : Nat) (o : VOp) : Bool :=
  let row (i : Nat) : Nat := rowOf (s.aReg p (o.va.toNat + i))
  s.rowsWake p (row 0) (if o.fmt = 0 then 4 else 2) || s.rowsWake p (row 1) 2 ||
  s.rowsWake p (row 2) (if o.rnd = 1 then 1 else 2) || s.rowsWake p (row 3) 4 ||
  (o.rnd == 1 && s.rowsWake p (rowOf (s.aReg p o.vc.toNat)) 1)

/-- UPDATE stands before the gate point of its frame, or in a frame without one (R129). -/
def State.updateEarly (s : State) (p : Nat) : Bool :=
  !s.isCommitFrame || (match s.hdr with | some h => decide (s.tcyc p < h.c + h.g) | none => true)
/-- The freeze bit of the block (R129). -/
def State.frozenBlock (s : State) (p : Nat) (o : VOp) : Bool := (s.sReg p o.vd.toNat).getLsbD o.vb.toNat
/-- The gate is open and the block live (R129). -/
def State.updateLive (s : State) (p : Nat) (o : VOp) : Bool :=
  !s.updateEarly p && (tfind s.upd.groups o.imm).isSome && (s.cluAt (posClu p)).gate == some true && !s.frozenBlock p o

/-- Why an UPDATE that its slots take holds: the step sizes or the gate decision have not arrived (R60, R274), or a row that
it reads lies in a waking bank (R228). -/
def State.updateCause (s : State) (p : Nat) (o : VOp) : Option HoldCause :=
  let c := s.coreAt p
  let t := s.tcyc p
  if !updateOk o || c.mAt = some t || t < c.vBusy || t < c.mBusy || s.updateEarly p then none
  else if !s.upd.arrived || (s.cluAt (posClu p)).gate.isNone then some .gate
  else wakeCause (s.updateLive p o && s.updateWakes p o)

/-- UPDATE (R129, R274-R279). -/
def execUpdate (p : Pos) (o : VOp) (s : State) : Host.Outcome State Fault Refusal :=
  .next (s.whenIssued p.val (.update p o) (s.updateCause p.val o) (fun s =>
    let c := s.coreAt p.val
    let t := s.tcyc p.val
    if !updateOk o || c.mAt = some t then s.illegal p.val
    else if t < c.vBusy || t < c.mBusy then s.seqFault p.val 0x2209
    else
      let s' := s.onCore p.val (fun c => { c with
        vBusy := t + 4, vAt := some t, vWas := c.vBusy, mBusy := t + 4, mAt := some t, mWas := c.mBusy, updAt := some t })
      let n := o.va.toNat
      let s' := (((s'.useA p.val n 2).useA p.val (n + 1) 2).useA p.val (n + 2) 2).useA p.val (n + 3) 2
      let s' := s'.pendOp p.val (.idxAdd 3) 1 2 64
      let r := posRegion p.val
      if s.updateEarly p.val then s'.seqFault p.val 0x220A
      else if (tfind s.upd.groups o.imm).isNone then s'.seqFault p.val 0x2211
      else if s.updateLive p.val o then ((s'.event p.val 0x1A 1).count 1 r 2 1).updateBlock p.val o
      else (if s.frozenBlock p.val o then s'.count 1 r 3 1 else s').event p.val 0x1B 1))

end Sys2Proof.Machine
end

