-- ==== Sys2Proof/Machine/Observe.lean ====
section
/-! DEFINITION. The counter collector and the trace writer (R498-R518): latches, counter pages, bandwidth windows, log
regions. COUNTER_PAGE_WRITE stands with the pigeonholes, whose COUNTERS command it completes. -/

namespace Sys2Proof.Machine

def State.onObs (s : State) (f : ObsSt → ObsSt) : State := { s with obs := f s.obs }

/-! ### Latches (R504, R505) -/

/-- The cluster whose node keeps a counter (R505): clusters, deck columns and cores. -/
def keyClu (k : Nat) : Option Nat :=
  match k / 65536 with
  | 6 => some (k / 64 % 1024)
  | 7 => some (posClu (k / 64 % 1024))
  | 8 => some (posClu (k / 64 % 1024))
  | _ => none

/-- A table with the entries of another one that a test selects in place of its own. -/
def takeKeys (t u : Tab α) (p : Nat → Bool) : Tab α :=
  (u.filter (fun e => p e.1)).foldl (fun t e => tset t e.1 e.2) (t.filter (fun e => !p e.1))

/-- A cluster latches its counters at its end mark (R505). -/
def State.endLatch (s : State) (j : Nat) : State :=
  s.onObs (fun o => { o with
    endVal := takeKeys o.endVal s.cnt.val (fun k => keyClu k == some j)
    endOvf := takeKeys o.endOvf s.cnt.ovf (fun k => keyClu k == some j) })

/-- The page of a latch: triggers 0 and 1 of a command, 2 of a frame, 3 of the admin, 4 of COUNTERS (R504). -/
def State.pageOf (s : State) (trigger pgh opcode tag : Nat) (berth : Option (Nat × Nat)) : PageJob :=
  let frame := trigger == 2
  let own (k : Nat) : Bool := frame && (keyClu k).isSome
  { trigger := trigger, pgh := pgh, opcode := opcode, tag := tag, index := s.obs.pageIdx, time := s.time
    frame := s.frm.frameNum, stepNum := s.frm.stepNum, berth := berth
    val := takeKeys s.cnt.val s.obs.endVal own, ovf := takeKeys s.cnt.ovf s.obs.endOvf own
    bw := s.obs.bwRead, lr := s.upd.lr, window := s.obs.bwUs }

def State.addPage (s : State) (j : PageJob) : State := s.onObs (fun o => { o with jobs := o.jobs ++ [j] })

/-- A command or admin latch travels to the clusters as a CONTROL packet (R505). -/
def State.latchPacket (s : State) : State := s.emit (courierMsg 54 63 6 1)

/-- The filtered page of a berth with CNT_VIS and a log region, in a slot (R507). -/
def State.filteredPage (s : State) (b slot trigger pgh opcode tag : Nat) : State :=
  if b < 16 && brtFlag s.brt.live b 1 && (s.region b).size != 0 then
    s.addPage (s.pageOf trigger pgh opcode tag (some (b, slot)))
  else s

/-- The latch of a program command (R505-R507). -/
def State.cmdLatch (s : State) (trigger pgh opcode tag b : Nat) : State :=
  let s := s.latchPacket
  let s := if s.obs.cmdPages then s.addPage (s.pageOf trigger pgh opcode tag none) else s
  s.filteredPage b trigger trigger pgh opcode tag

/-- The frame's latch at frame done (R505, R506). -/
def State.frameLatch (s : State) : State :=
  if s.obs.framePages then s.addPage (s.pageOf 2 0xFF 0 0 none) else s

/-- An admin latch (R505). -/
def State.adminLatch (s : State) : State := s.latchPacket.addPage (s.pageOf 3 0xFF 0 0 none)

/-- CNT_LATCH (R505, R510). -/
def execCntLatch (s : State) : Host.Outcome State Fault Refusal := .next s.adminLatch

/-- Whether a node of the Courier network keeps a counter (R207). -/
def nodeKeeps (node k : Nat) : Bool :=
  if node < 48 then keyClu k == some node else node < 52 && k / 65536 == 1 && k / 64 % 1024 == node - 48

/-- COURIER_COUNTER_LATCH (R209, R505): a node latches when the packet reaches it, within 150 ns of its dispatch. -/
def execCourierCounterLatch (node : Fin 64) (s : State) : Host.Outcome State Fault Refusal :=
  .next (s.onObs (fun o => { o with jobs := o.jobs.map (fun j =>
    if j.trigger ≠ 2 && decide (s.time ≤ j.time + courierBound) then
      { j with val := takeKeys j.val s.cnt.val (nodeKeeps node.val), ovf := takeKeys j.ovf s.cnt.ovf (nodeKeeps node.val) }
    else j) }))

/-! ### The bytes of a page (R503, R504, R507, R517) -/

/-- The blocks of a page: base, units, bytes of a unit, block. -/
def pageBlocks : List (Nat × Nat × Nat × Nat) :=
  [(0x100, 1, 256, 0), (0x200, 4, 64, 1), (0x300, 4, 64, 2), (0x400, 16, 128, 3), (0xC00, 32, 64, 4),
   (0x1400, 16, 128, 5), (0x2C00, 48, 128, 6), (0x4400, 192, 64, 7), (0x7400, 192, 128, 8)]

/-- What a filtered page shows (R517). -/
def State.pageShows (s : State) (b blk unit : Nat) : Bool :=
  match blk with
  | 8 => s.isLive unit && s.coreBerth unit == some b
  | 6 => s.cluBerth unit == some b
  | _ => false

/-- The 8-byte word at an offset of a page. -/
def State.pageWord (s : State) (j : PageJob) (off : Nat) : Nat :=
  let full := j.berth.isNone
  if off < 0x100 then
    let hdr := bytesOf 0x434E5450 4 ++ bytesOf 1 2 ++ bytesOf j.trigger 1 ++ bytesOf j.pgh 1 ++ bytesOf j.opcode 2
      ++ bytesOf j.tag 2 ++ bytesOf j.index.toNat 4 ++ bytesOf j.time 8 ++ bytesOf j.frame.toNat 8
      ++ bytesOf j.stepNum.toNat 4 ++ bytesOf j.window 4
      ++ bytesOf ((j.berth.map (·.1)).getD 0xFF) 8
    ofBytes ((hdr.drop off).take 8)
  else if 0x1C00 ≤ off && off < 0x2C00 then
    (if full then (tget j.bw ((off - 0x1C00) / 8) 0).toNat else 0)
  else if 0xD400 ≤ off && off < 0xD800 then
    let shown := match j.berth with
      | none => true
      | some (b, _) => s.frm.prog.isSome && s.progBerth == b
    let at_ (n : Nat) : Nat := (tget j.lr n 0).toNat
    if shown then at_ ((off - 0xD400) / 4) + 2 ^ 32 * at_ ((off - 0xD400) / 4 + 1) else 0
  else
    match pageBlocks.find? (fun b => decide (b.1 ≤ off) && decide (off < b.1 + b.2.1 * b.2.2.1)) with
    | none => 0
    | some (base, _, n, blk) =>
      let unit := (off - base) / n
      let key := cntKey blk unit ((off - base) % n / 8)
      let shown := match j.berth with
        | none => true
        | some (b, _) => s.pageShows b blk unit
      if shown then (tget j.val key 0).toNat + (if tget j.ovf key false then 2 ^ 48 else 0) else 0

/-- The 64 KiB of a page. -/
def State.pageBytes (s : State) (j : PageJob) : List Byte :=
  (List.range 8192).flatMap (fun k => bytesOf (s.pageWord j (8 * k)) 8)

/-- Whether the ring's range meets a grant of a berth, or the ring is empty (R506). -/
def State.ringBlocked (s : State) : Bool :=
  let lo := s.obs.pageBase.toNat
  let hi := lo + 65536 * s.obs.pageCount
  s.obs.pageCount == 0 || decide (s.lpCap < hi) ||
  (List.range 16).any (fun b => brtEnabled s.brt.live b && (List.range 16).any (fun k =>
    let r := brtLp s.brt.live b k
    decide (r.1 < hi) && decide (lo < r.1 + r.2.1)))

/-! ### The writer's share (R514) -/

/-- Records per 12,800 qns that 2 % of the memory ports' data rate in the speed step carries (R264, R514). -/
def writerRate (step : Nat) : Nat :=
  match step with | 0 => 1280 | 1 => 1150 | 2 => 1020 | 3 => 900 | _ => 770

/-- The bucket brought up to now: 4,096 records at most. -/
def State.refill (s : State) : State :=
  s.onObs (fun o => { o with
    bucket := min 52428800 (o.bucket + (s.time - o.bucketAt) * writerRate s.pwr.memStep), bucketAt := s.time })
/-- Take `n` records' worth, if the bucket holds them. -/
def State.takeShare (s : State) (n : Nat) : Option State :=
  let s := s.refill
  if 12800 * n ≤ s.obs.bucket then some (s.onObs (fun o => { o with bucket := o.bucket - 12800 * n })) else none

/-- A page is skipped: counted, notice 0x33.02 (R506). -/
def State.skipPage (s : State) (j : PageJob) : State :=
  (s.count 0 0 14 1).raise { code := 0x3302, aux := (j.berth.map (·.1)).getD 0xFF }

/-- A page reaches LPDDR5X: the state and its address, none where it is skipped (R506, R507). -/
def State.storePage (s : State) (j : PageJob) : State × Option Nat :=
  match j.berth with
  | none =>
    if s.ringBlocked then (s.skipPage j, none)
    else
      let a := s.obs.pageBase.toNat + 65536 * (s.obs.pageIdx.toNat % s.obs.pageCount)
      let s := (s.lpWriteBytes a (s.pageBytes j) false).count 0 0 13 1
      (s.onObs (fun o => { o with pageIdx := o.pageIdx + 1, mirror := some j }), some a)
  | some (b, slot) =>
    let r := s.region b
    if r.size = 0 then (s.skipPage j, none)
    else
      let a := r.base + 0x1000 + 65536 * slot
      ((s.lpWriteBytes a (s.pageBytes j) false).count 0 0 13 1, some a)

/-! ### Bandwidth windows (R508) -/

/-- BW_WINDOW_BOUNDARY (R508): the readings of the window that ends, in MB/s. -/
def execBwWindowBoundary (s : State) : Host.Outcome State Fault Refusal :=
  .next (
    let o := s.obs
    if o.bwFrom + 4000 * o.bwUs ≤ s.time then
      let rate (key : Nat) : Nat := min 0xFFFFFFFF ((tget o.bwBytes key 0 - tget o.bwStart key 0) / max o.bwUs 1)
      s.onObs (fun o => { o with
        bwRead := (List.range 260).map (fun k => (k, BitVec.ofNat 64 (rate (2 * k) + 2 ^ 32 * rate (2 * k + 1))))
        bwStart := o.bwBytes, bwFrom := o.bwFrom + 4000 * o.bwUs, bwUs := o.bwPend.getD o.bwUs, bwPend := none })
    else s)

/-- COUNTER_PARITY_ERROR (R499): the counter is cleared, its OVF set; fault 0x33.03. -/
def execCounterParityError (c : CounterId) (s : State) : Host.Outcome State Fault Refusal :=
  .next (
    let k := cntKey c.blk.val c.unit.val c.idx.val
    ({ s with cnt := { s.cnt with val := tdel s.cnt.val k, ovf := tset s.cnt.ovf k true } }).raise
      { code := 0x3303, pos := if c.blk = 8 then c.unit.val else 0xFF, inst := k, aux := c.unit.val })

/-! ### The trace writer (R510, R512-R515) -/

/-- Records that a region's ring holds (R512). -/
def TrcRegion.cap (x : TrcRegion) : Nat := (x.size - 0x31000) / 64

/-- One record into a region's ring (R512). -/
def State.putRec (s : State) (r : Nat) (v : Row) : State :=
  let x := s.region r
  let a := x.base + 0x31000 + 64 * (x.written % max x.cap 1)
  ((s.lpWrite a v (BitVec.allOnes 64) false).setRegion r { x with written := x.written + 1 }).count 0 0 9 1

/-- An export copy of a record of the admin region (R510). -/
def State.exportRec (s : State) (v : Row) : State :=
  let e := s.obs.exportReg.toNat
  if e % 2 = 0 then s
  else
    let dev := BitVec.ofNat 18 (e / 4)
    let addr := BitVec.ofNat 64 (64 * (s.obs.exported % 1048576))
    let k : Packet := { s.plainPkt 1 14 dev (bytesOf v.toNat 64) with job := BitVec.ofNat 16 (e / 2 ^ 20), addr := addr }
    let s := s.onObs (fun o => { o with exported := o.exported + 1 })
    if (s.pont.next s.pont.devId.toNat dev.toNat none).isNone then s.exportLost
    else
      (s.onPont (fun d => { d with
        opNo := d.opNo + 1
        ops := d.ops ++ [{ id := d.opNo, opc := 1, dst := dev, addr := addr, coll := 0, sfn := 0, issued := s.time, reqs := [] }]
        })).route k none

/-- A record for a region reaches the writer: dropped with an empty bucket; a loss record first after any loss (R514). -/
def State.writeRec (s : State) (r : Nat) (v : Row) : State :=
  let lose (s : State) : State := ((s.count 0 0 11 1).regionLoss r 1).lossNotice r
  if (s.region r).size = 0 then s.count 0 0 12 1
  else
    let x := s.region r
    let step (s : State) : State := if x.unsaid = 0 then s else
      let (s, w) := s.formRec { ty := 6, pos := 0xFF, berth := if r < 16 then r else 0xFF, tcyc := 0, src := 999
                                time := s.time, body := bytesOf x.unsaid 4 ++ bytesOf x.reason 1 }
      (s.putRec r w).setRegion r { (s.putRec r w).region r with unsaid := 0 }
    match s.takeShare (if x.unsaid = 0 then 1 else 2) with
    | none => lose s.refill
    | some s =>
      let s := (step s).putRec r v
      if r = 16 then s.exportRec v else s

/-- The region of a record that comes from a sink (R513). -/
def State.sinkRegions (s : State) (v : Row) : List Nat := s.recRegions (v.toNat % 256) (v.toNat / 2 ^ 24 % 256)

/-- TRACE_RECORD_WRITE (R512-R515): the record with the earliest TIME of those that wait at the writer. -/
def execTraceRecordWrite (s : State) : Host.Outcome State Fault Refusal :=
  .next (
    let when_ (v : Row) : Nat := v.toNat / 2 ^ 64 % 2 ^ 64
    match s.obs.sinkIn, s.obs.queue with
    | [], [] => s
    | v :: r, q =>
      let direct := match q with | x :: _ => decide (when_ x.body < when_ v) | [] => false
      match direct, q with
      | true, x :: t => (s.onObs (fun o => { o with queue := t })).writeRec x.region x.body
      | _, _ =>
        let s := s.onObs (fun o => { o with sinkIn := r })
        match s.sinkRegions v with
        | [] => s.count 0 0 12 1
        | rs => rs.foldl (fun s g => s.writeRec g v) s
    | [], x :: t => (s.onObs (fun o => { o with queue := t })).writeRec x.region x.body)

/-- TRACE_CONTROL_UPDATE (R512): the control block of a region, every 1 µs. -/
def execTraceControlUpdate (region : Fin 17) (s : State) : Host.Outcome State Fault Refusal :=
  .next (
    let x := s.region region.val
    if x.size = 0 then s
    else s.lpWriteBytes x.base (bytesOf x.written 8 ++ bytesOf x.lost 8 ++ bytesOf x.cap 4 ++ List.replicate 4076 0) false)

end Sys2Proof.Machine
end

