-- ==== Sys2Proof/Machine/Postmaster.lean ====
section
/-! DEFINITION. Pigeonholes (R395-R406): the page, rings, responses, and the counter pages that complete COUNTERS. -/

namespace Sys2Proof.Machine

def State.pghAt (s : State) (n : Nat) : PghSt := tget s.post.pgh n .reset
def State.setPgh (s : State) (n : Nat) (p : PghSt) : State := { s with post := { s.post with pgh := tset s.post.pgh n p } }
def State.onPost (s : State) (f : PostSt → PostSt) : State := { s with post := f s.post }

/-! ### The command under way (R404) -/

def PghSt.op (p : PghSt) : Nat := tabRead p.copy 0 2
def PghSt.plen (p : PghSt) : Nat := tabRead p.copy 4 4
def PghSt.berth (p : PghSt) : Nat := tabRead p.copy 8 1
def PghSt.force (p : PghSt) : Bool := (tabRead p.copy 9 1).testBit 0
def PghSt.notify (p : PghSt) : Bool := (tabRead p.copy 9 1).testBit 1
def PghSt.buf (p : PghSt) : Nat := tabRead p.copy 0x10 8
def PghSt.buflen (p : PghSt) : Nat := tabRead p.copy 0x18 4
/-- `n` payload bytes from offset `off`. -/
def PghSt.pl (p : PghSt) (off n : Nat) : Nat := tabRead p.copy (0x40 + off) n
def PghSt.plBytes (p : PghSt) (off n : Nat) : List Byte := tabBytes p.copy (0x40 + off) n

/-- The pigeonholes whose command is RUNNING, in order of number. -/
def State.running (s : State) : List Nat := (List.range 64).filter (fun n => (s.pghAt n).state == 2)
/-- Those that run a command whose effect has begun and that waits to complete. -/
def State.waiting (s : State) (op : Nat) : List Nat :=
  s.running.filter (fun n => (s.pghAt n).begun && (s.pghAt n).op == op)

/-! ### Responses (R397, R399, R405, R406) -/

/-- What a command answers: STATUS, DETAIL, FAULT, FIELD and the response data. -/
structure Answer where
  status : Nat := 0
  detail : Nat := 0
  fault  : Nat := 0
  field  : Nat := 0
  data   : List Byte := []

/-- Firmware writes the response and the pigeonhole enters DONE (R399, R405). -/
def State.respond (s : State) (n : Nat) (a : Answer) : State :=
  let p := s.pghAt n
  let hdr := tabBytes p.copy 0 4 ++ bytesOf a.status 1 ++ bytesOf 0 1 ++ bytesOf a.detail 2 ++ bytesOf a.data.length 4
    ++ bytesOf (min 0xFFFFFFFF ((s.time - p.ringAt) / 4000)) 4 ++ bytesOf s.frm.frameNum.toNat 6 ++ bytesOf a.fault 2
    ++ bytesOf a.field 2 ++ List.replicate 38 0
  let s := s.setPgh n { p with
    resp := tabStore (tabStore p.resp 0 hdr) 0x40 (a.data.take 1920), state := 3, begun := false, wait := [] }
  let s := s.count 0 0 (if a.status = 4 then 8 else 7) 1
  if p.notify then
    let off := if n < 32 then 0x1E128 else 0x1E130
    { s with flt := { s.flt with
        leaves := tset s.flt.leaves off (tget s.flt.leaves off 0 ||| (1#32 <<< (n % 32)))
        setNow := s.flt.justSet s.time off (n % 32) } }
  else s

/-- The command of pigeonhole `n` completes: the end page of a program command first (R505). -/
def State.finishCmd (s : State) (n : Nat) (a : Answer) : State :=
  let p := s.pghAt n
  if p.state ≠ 2 then s
  else (if p.op / 256 = 3 then s.cmdLatch 1 n p.op p.tag.toNat p.berth else s).respond n a

/-- The command has taken effect and waits to complete. -/
def State.await (s : State) (n : Nat) (w : List Nat) : State :=
  s.setPgh n { s.pghAt n with begun := true, wait := w }

/-- A step under the berth table that a former owner's command was issued under (R402). -/
def State.underOld (s : State) (t : Option (Tab Byte)) (k : State → State) : State :=
  match t with
  | none => k s
  | some old =>
    let live := s.brt.live
    let s := k { s with brt := { s.brt with live := old } }
    { s with brt := { s.brt with live := live } }

/-- Run the effect of a command that pigeonhole `n` holds RUNNING and that has not begun. -/
def State.command (s : State) (n : Pgh) (op : Nat) (k : State → PghSt → State) : State :=
  let p := s.pghAt n.val
  if p.state = 2 && !p.begun && p.op == op && !s.post.switching then s.underOld p.old (fun s => k s p) else s

/-- Bytes that firmware writes into host memory (R404). -/
def State.hostPut (s : State) (hpa : Nat) (bs : List Byte) : State := s.emit (.hostWrite 0 hpa bs false)

/-! ### RING and the change of an owner (R399, R402, R403) -/

/-- Whether a ring is accepted (R399, R402, R403, R469). -/
def State.ringOk (s : State) (n : Nat) : Bool :=
  let p := s.pghAt n
  s.post.firmware && !s.frm.halted && (p.state == 0 || p.state == 3) && s.owner n != 0x1F && p.old.isNone

/-- RING (R396, R399). -/
def execRing (n : Pgh) (s : State) : Host.Outcome State Fault Refusal :=
  .next (
    let p := s.pghAt n.val
    if s.ringOk n.val then
      s.setPgh n.val { p with
        state := 1, ringAt := s.time, tag := BitVec.ofNat 16 (tabRead p.cmd 2 2)
        resp := p.resp.filter (fun e => decide (0x40 ≤ e.1)) }
    else s.setPgh n.val { p with dropped := true, dropAt := some s.time })

/-- OWNER_CHANGE_DISCARD (R402): the response is discarded, the page zeroed, the state IDLE. -/
def execOwnerChangeDiscard (n : Pgh) (s : State) : Host.Outcome State Fault Refusal :=
  .next (
    let p := s.pghAt n.val
    if p.old.isSome && p.state == 3 then s.setPgh n.val .reset else s)

/-! ### Counter pages (R506, R507) -/

/-- COUNTER_PAGE_WRITE (R506, R507, R514): the oldest latched page is written, or skipped 100 µs after its latch. -/
def execCounterPageWrite (s : State) : Host.Outcome State Fault Refusal :=
  .next (
    match s.obs.jobs with
    | [] => s
    | j :: r =>
      let pop (s : State) : State := s.onObs (fun o => { o with jobs := r })
      let finish (x : State × Option Nat) : State :=
        let p := x.1.pghAt j.pgh
        if j.trigger = 4 && p.begun && p.op == 0x0701 && p.tag.toNat == j.tag && decide (p.ringAt ≤ j.time) then
          x.1.finishCmd j.pgh (match x.2 with
            | some a => { data := bytesOf a 8 }
            | none => { status := 5, fault := 0x3302 })
        else x.1
      match s.takeShare 1024 with
      | some t => finish ((pop t).storePage j)
      | none => if j.time + 400000 < s.time then finish ((pop s).skipPage j, none) else s)

end Sys2Proof.Machine
end

