-- ==== Sys2Proof/Machine/Courier.lean ====
section
/-! DEFINITION. The Courier network (R207-R213): packets, acknowledgements and resends, the spoils that it carries to
the tick root, notifications, and what it drops. -/

namespace Sys2Proof.Machine

def State.onFrm (s : State) (f : FrameSt → FrameSt) : State := { s with frm := f s.frm }
def State.onCour (s : State) (f : CourierSt → CourierSt) : State := { s with cour := f s.cour }
def State.onClu (s : State) (j : Nat) (f : CluSt → CluSt) : State := s.setClu j (f (s.cluAt j))

/-- A packet of an acknowledged class leaves its source and awaits its ACK (R210). -/
def State.sendPkt (s : State) (src dst : Nat) (cls : BitVec 3) (pay : BitVec 17) : State :=
  (s.emit (courierMsg src dst cls pay)).onCour (fun c => { c with
    open_ := c.open_ ++ [{ src := src, dst := dst, cls := cls, pay := pay, sentAt := s.time, resends := 0 }] })

/-- A broadcast of the tick root to all 48 cluster nodes, each of which acknowledges it (R207, R209). -/
def State.rootCast (s : State) (cls : BitVec 3) (pay : BitVec 17) : State :=
  (s.emit (courierMsg 52 63 cls pay)).onCour (fun c => { c with
    open_ := c.open_ ++ (List.range 48).map (fun j =>
      { src := 52, dst := j, cls := cls, pay := pay, sentAt := s.time, resends := 0 }) })

/-- A receiver acknowledges a packet to its sender (R209). -/
def State.ackPkt (s : State) (node src : Nat) (cls : BitVec 3) (pay : BitVec 17) : State :=
  s.emit (courierMsg node src 4 (pay.setWidth 14 ++ cls))

/-! ### The tree (R207, R210) -/

/-- The nodes from one up to the root, the root left out: each names its hop to the node above it. -/
def courierUp (n : Nat) : List Nat := if n < 48 then [n, 48 + n / 12] else if n = 52 || 55 ≤ n then [] else [n]

/-- The hops that a packet takes: those up to the node where the paths part, and those down from it. Hop n is the one from node n
to the node above it, hop 64 + n the one back (DESIGN CHOICE, log entry 96: the spec numbers no hop). A broadcast takes every hop
down. -/
def courierPath (src dst : Nat) : List Nat :=
  if dst = 63 then courierUp src ++ (List.range 52).map (64 + ·)
  else
    let a := courierUp src
    let b := courierUp dst
    a.filter (fun n => !b.contains n) ++ ((b.filter (fun n => !a.contains n)).reverse.map (64 + ·))

/-- The packet that a hop carries next: of those under way over it, that of the class with the lowest priority number, in the order
sent (R209). -/
def CourierSt.onHop (c : CourierSt) (hop : Nat) : Option CourierOut :=
  match c.open_.filter (fun o => (courierPath o.src o.dst).contains hop) with
  | [] => none
  | o :: r => some (r.foldl (fun a b => if b.cls.toNat < a.cls.toNat then b else a) o)

/-- What tells a packet on a hop from another one. -/
def CourierSt.headOf (c : CourierSt) (hop : Nat) : Option (Nat × BitVec 3 × BitVec 17) := (c.onHop hop).map (fun o => (o.src, o.cls, o.pay))

/-- The failures of the packet that a hop carries (R210). -/
def CourierSt.failsOf (c : CourierSt) (hop : Nat) : Nat :=
  if tget c.hopHead hop none = c.headOf hop then tget c.hopFail hop 0 else 0

/-- A packet is lost on its way: a SPOIL reaches the root once its sender has sent it again (R210, R211). -/
def State.losePkt (s : State) (o : CourierOut) : State :=
  { s with flt := { s.flt with dues := s.flt.dues.map (fun d =>
      if o.cls = 2 && d.clu.any (fun k => k.val == o.src) && d.code.setWidth 17 == o.pay then
        { d with latest := max d.latest (o.sentAt + 4000 + courierBound) } else d) } }

/-- An event of the Courier network (R213): INST names the hop; the spec gives no place to the link set and the CLASS
(log entry 11). -/
def State.courEvent (s : State) (code : Code) (hop : Nat) : State :=
  (s.raise { code := code, inst := hop, detail := (Config.choice s.fresh).toNat }).tickFresh

/-- ACK (R209): the sender's copy of the packet that `src` acknowledges to `dst` is done with. -/
def execAck (src dst : Fin 64) (cls : BitVec 3) (pay : BitVec 14) (s : State) : Host.Outcome State Fault Refusal :=
  .next (s.onCour (fun c => { c with
    open_ := c.open_.filter (fun o => !(o.src == dst.val && o.dst == src.val && o.cls == cls
      && o.pay.setWidth 14 == pay)) }))

/-- NOTIFY (R209): the Postmaster learns of a leaf's record. -/
def execNotify (src : Fin 64) (code : Code) (spoils : Bool) (s : State) : Host.Outcome State Fault Refusal :=
  .next (s.onCour (fun c => { c with
    notified := tset c.notified src.val (code.setWidth 17 + (if spoils then 0x10000 else 0)) }))

/-- CLOSE_INJECTION_GATE (R202, R209): a CONTROL packet closes a position's injection gate. -/
def execCloseInjectionGate (p : Pos) (s : State) : Host.Outcome State Fault Refusal :=
  .next (s.onRtr p.val (fun r => { r with gateShut := true }))

/-- RESERVED_CLASS_PACKET (R209, R213): dropped and counted, fault 0x28.05. -/
def execReservedClassPacket (pkt : Word) (s : State) : Host.Outcome State Fault Refusal :=
  .next (
    if pkt.toNat % 8 = 7 then (s.onCour (fun c => { c with dropped := c.dropped + 1 })).courEvent 0x2805 (pkt.toNat / 8 % 64)
    else s)

/-- COURIER_CRC_MISMATCH (R210): a resend on the hop, notice 0x28.01; the fourth failure of a packet drops it and switches
the hop to its other link set, notice 0x28.02. -/
def execCourierCrcMismatch (hop : Fin 128) (s : State) : Host.Outcome State Fault Refusal :=
  .next (
    let n := s.cour.failsOf hop.val
    if n < 3 then
      ((s.onCour (fun c => { c with
        hopFail := tset c.hopFail hop.val (n + 1), hopHead := tset c.hopHead hop.val (c.headOf hop.val) })).count 0 0 6 1).courEvent
        0x2801 hop.val
    else
      ((match s.cour.onHop hop.val with | some o => s.losePkt o | none => s).onCour (fun c => { c with
        hopFail := tset c.hopFail hop.val 0, hopSetB := tset c.hopSetB hop.val (!tget c.hopSetB hop.val false)
        })).courEvent 0x2802 hop.val)

/-- COURIER_RESEND_TIMER (R210): packets of a source without an ACK for 1 µs go again; after 8 resends the sender gives
up with fault 0x28.03. -/
def execCourierResendTimer (src : Fin 64) (s : State) : Host.Outcome State Fault Refusal :=
  .next (
    let late (o : CourierOut) : Bool := o.src == src.val && decide (o.sentAt + 4000 ≤ s.time)
    s.cour.open_.foldl (fun (s : State) (o : CourierOut) =>
      if !late o then s
      else if o.resends < 8 then
        ((s.emit (courierMsg o.src o.dst o.cls o.pay)).onCour (fun c => { c with
          open_ := c.open_.map (fun x => if x == o then { x with sentAt := s.time, resends := x.resends + 1 } else x)
          })).count 0 0 6 1
      else (s.onCour (fun c => { c with open_ := c.open_.filter (fun x => x != o) })).courEvent 0x2803 src.val) s)

/-! ### Spoils on their way (R209, R462, R463) -/

/-- A spoil that travelled reaches the root, which acknowledges it. -/
def State.spoilArrives (s : State) (d : SpoilDue) : State :=
  let s := match d.clu with
    | some j => s.ackPkt 52 j.val 2 (d.code.setWidth 17)
    | none => s
  ({ s with flt := { s.flt with dues := s.flt.dues.filter (fun x => x != d) } }).rootSpoil d.step

/-- Every spoil of a cluster arrives: it precedes the cluster's commit report (R209). -/
def State.spoilsOf (s : State) (j : Nat) : State :=
  (s.flt.dues.filter (fun d => d.clu.any (fun k => k.val == j))).foldl State.spoilArrives s

/-- Whether a moment lies in the root clock cycle of frame done: the root's clock is 1.2 GHz (R39, R430). -/
def State.inClkOfDone (s : State) (t : Nat) : Bool :=
  match s.frm.doneAt with
  | some d => sameRootClk t d
  | none => false

/-- A spoil that reaches the root in the clk of frame done acts on the frame that has just done (R463). -/
def State.spoilDone (s : State) (step : Bool) : State :=
  if s.frm.decision = some true then s.damage
  else s.onFrm (fun f => { f with spoiled := f.spoiled || !step, stepSpoiled := true })

/-- SPOIL (R462, R463): a cluster's spoil of this code reaches the tick root. -/
def execSpoil (code : Code) (inClkOfDone : Bool) (s : State) : Host.Outcome State Fault Refusal :=
  .next (
    match s.flt.dues.find? (fun d => d.code == code) with
    | none => s
    | some d =>
      if inClkOfDone && s.frm.phase == 2 && s.inClkOfDone s.time then
        ({ s with flt := { s.flt with dues := s.flt.dues.filter (fun x => x != d) } }).spoilDone d.step
      else s.spoilArrives d)

end Sys2Proof.Machine
end

