-- ==== Sys2Proof/Machine/Clocks.lean ====
section
/-! DEFINITION. What takes effect between frame done and the next frame start (R42, R65, R428-R444): writes of the tick
registers, the adaptive target, VDD_CORE and the fixed clocks. -/

namespace Sys2Proof.Machine

def State.onPwr (s : State) (f : PowerSt → PowerSt) : State := { s with pwr := f s.pwr }

/-- The floor under so many emergency steps (R444). -/
def floorMhz (steps : Nat) : Nat := 1850 - 150 * steps

/-- The first multiple of the period after a frame start that lies ahead (R36, R57). -/
def timerAfter (started period now : Nat) : Nat := started + period * ((now - started) / max period 1 + 1)

/-- Whether a change that waits for a frame boundary may take effect now (R42, R65, R443): a frame is done, or no
program runs. -/
def State.between (s : State) : Bool :=
  s.frm.phase == 0 || s.frm.phase == 2 || (s.frm.phase == 3 && s.frm.stopKind == .atTick) || s.frm.doneAt.isSome

/-! ### CLK.TICK_SRC and CLK.FRAME_PERIOD (R37, R42) -/

/-- The writes that wait for frame done take effect (R42); the timer runs from the last frame start (R36). -/
def State.tickWrites (s : State) : State :=
  let f := s.frm
  if f.pendSrc.isNone && f.pendPeriod.isNone then s
  else
    let period := f.pendPeriod.getD f.period
    let bits := f.pendSrc.getD 0
    let src : BitVec 2 := if f.pendSrc.isSome then bits.setWidth 2 else f.src
    s.onFrm (fun f => { f with
      src := src, period := period, pendSrc := none, pendPeriod := none
      fallback := if f.pendSrc.isSome then bits.getLsbD 2 else f.fallback
      ftickOutEn := if f.pendSrc.isSome then bits.getLsbD 3 else f.ftickOutEn
      timerNext := if src == 0 && (f.phase == 1 || f.phase == 2) then some (timerAfter f.started period s.time)
                   else none })

/-- A write of `CLK.TICK_SRC` (R37, R42): SRC, FALLBACK and FTICK_OUT_EN. -/
def State.writeTickSrc (s : State) (v : BitVec 4) : State :=
  let s := s.onFrm (fun f => { f with pendSrc := some v })
  if s.runs then s else s.tickWrites

/-- A write of `CLK.FRAME_PERIOD` and whether it is taken (R42): in range, and not below the running program's declared
period. -/
def State.writePeriod (s : State) (v : Nat) : State × Bool :=
  if decide (v < 200000) || decide (40000000 < v) || (s.runs && s.frm.prog.any (fun g => decide (v < g.image.period))) then
    (s, false)
  else
    let s := s.onFrm (fun f => { f with pendPeriod := some v })
    (if s.runs then s else s.tickWrites, true)

/-! ### The adaptive target and VDD_CORE (R428, R429, R438-R445) -/

/-- A target within the floor and `CLK.ADAPT.SET_MHZ`, equal to the floor under emergency limiting (R428). -/
def PowerSt.withTarget (p : PowerSt) (mhz : Int) : PowerSt :=
  { p with nowMhz :=
      if 0 < p.emerg then floorMhz p.emerg
      else if mhz < 1850 then 1850
      else if (p.setMhz : Int) < mhz then p.setMhz else mhz.toNat }

/-- The changes that firmware keeps for a frame boundary (R438, R442, R443): the target, and VDD_CORE lowered by at most
10 mV but not below the boot point. -/
def State.powerChanges (s : State) : State :=
  let p := s.pwr
  let mv := max (p.setMv.toNat - min p.lowerMv 10) p.bootMv
  let down := p.lowerMv ≠ 0 && decide (mv < p.setMv.toNat) && !p.avsFail
  let want : Int := if p.toFloor then 1850 else (p.nowMhz : Int) + p.delta
  let p' := if p.toFloor || p.delta ≠ 0 then p.withTarget want else p
  let s := { s with pwr := { p' with
    delta := 0, lowerMv := 0, setMv := if down then BitVec.ofNat 10 mv else p.setMv } }
  if down then s.emit (.avs mv) else s

/-- Ask for a change at the next frame boundary, or at once where none is awaited (R443). -/
def State.askPower (s : State) (f : PowerSt → PowerSt) : State :=
  let s := s.onPwr f
  if s.between then s.powerChanges else s

/-- VDD_CORE goes up at once (R433, R438), by at most 25 mV and to at most 0.850 V. -/
def State.raiseVdd (s : State) (mv : Nat) : State :=
  let v := min 850 (s.pwr.setMv.toNat + min mv 25)
  if s.pwr.avsFail || v = s.pwr.setMv.toNat then s
  else (s.onPwr (fun p => { p with setMv := BitVec.ofNat 10 v })).emit (.avs v)

/-! ### SET_CLOCK (R65, R417, R431) -/

/-- When the next tick is expected (R65): the internal timer's, or the last accepted one plus its period. -/
def State.nextTickAt (s : State) : Option Nat :=
  match s.frm.src.toNat with
  | 0 => s.frm.timerNext
  | 1 => none
  | 2 => s.frm.accepted.map (· + s.frm.period)
  | _ => s.frm.accepted.map (· + (s.pont.lastTick.map (·.2.2)).getD s.frm.period)

/-- The values of SET_CLOCK come into force: the target, and the steps of the memory ports and the Depot, whose packages
keep the step left in their other set point (R431). -/
def State.applyClock (s : State) (mhz mem dep : Nat) : State :=
  let p := s.pwr
  let now := if p.nowMhz = p.setMhz then mhz else min p.nowMhz mhz
  { s with
    pwr := ({ p with
      setMhz := mhz, memStep := mem, depotStep := dep, clkReq := none
      setPoint := if mem = p.memStep then p.setPoint else p.memStep }).withTarget now
    mport := (List.range 16).foldl (fun t i => tset t i { tget t i .reset with step := BitVec.ofNat 3 mem }) s.mport
    depot := (List.range 32).foldl (fun d i => d.setChan i { d.chanAt i with step := BitVec.ofNat 2 dep }) s.depot
    frm := { s.frm with deferrals := 0 } }

/-- The commands that wait for their clock step answer the values in force (R417). -/
def State.clockAnswers (s : State) : State :=
  (s.waiting 0x0802).foldl (fun s n =>
    s.finishCmd n { data := bytesOf s.pwr.nowMhz 2 ++ bytesOf s.pwr.memStep 1 ++ bytesOf s.pwr.depotStep 1 }) s

/-- A clock step at a frame boundary (R65): deferred while less than 2 µs remain before the next tick; after 1,000
deferrals under stretch the next tick is held for it. -/
def State.clockStep (s : State) : State :=
  match s.pwr.clkReq with
  | none => s
  | some (mhz, mem, dep) =>
    let fixed := mem ≠ s.pwr.memStep || dep ≠ s.pwr.depotStep
    let soon := match s.nextTickAt with | some t => decide (t < s.time + 8000) | none => false
    if s.post.switching then s
    else if fixed && s.runs && soon then
      if !s.frm.policy && decide (1000 ≤ s.frm.deferrals) then
        ((s.applyClock mhz mem dep).onFrm (fun f => { f with holdNext := true })).clockAnswers
      else s.onFrm (fun f => { f with deferrals := f.deferrals + 1 })
    else (s.applyClock mhz mem dep).clockAnswers

end Sys2Proof.Machine
end

