-- ==== Sys2Proof/Machine/Frames.lean ====
section
/-! DEFINITION. Ticks, frames, the commit gate and stops (R36-R75, R539). -/

namespace Sys2Proof.Machine

/-- An event of the frame machinery (R75, R458). -/
def State.frmEvent (s : State) (code : Code) (detail : Nat := 0) : State :=
  s.raise { code := code, aux := s.frm.index.toNat, detail := detail }

/-! ### The start of a frame (R38, R45, R52, R112, R141, R539) -/

/-- A latch in progress leaves the shadow holding no tile (R539). -/
def ArraySt.frameStart (x : ArraySt) : ArraySt :=
  match x.shadow with
  | .latching _ _ _ => { x with shadow := .none }
  | _ => x

/-- A core at a frame start: its sequencer at the entry address, everything still due discarded (R111, R112, R539);
a core that the image does not use executes no bundle (log entry 34). -/
def CoreSt.frameStart (c : CoreSt) (entry : BitVec 13) (used : Bool) : CoreSt :=
  { c with
    pc := entry, loops := [], loopNew := none, jump := none, rpt := 0, rptOn := false, waitTo := 0, waitNew := none
    ended := !used, endNew := false, noIssue := false, nopAt := none, vBusy := 0, mBusy := 0, mAt := none
    updAt := none, vAt := none, vWas := 0, mWas := 0, portBusy := 0, portAt := none, advA := [], advD := [], pend := [], turnBuf := []
    arr0 := c.arr0.frameStart, arr1 := c.arr1.frameStart }

/-- A stop at a frame start: slots free, the other bank after a completed LOAD (R141, R143). -/
def StopSt.frameStart (x : StopSt) : StopSt :=
  { x with
    slot0 := .free, slot1 := .free, cur := if x.loadDone then !x.cur else x.cur, loadDone := false, loadBusy := none
    tableEnd := none, mkUntil0 := 0, mkUntil1 := 0, fills := 0, wantDkrt := none }

/-- A router at a frame start: queues empty, the other bank after a completed LOAD (R186, R191). -/
def RouterSt.frameStart (x : RouterSt) : RouterSt :=
  { x with
    qN := [], qE := [], qS := [], qW := [], pool := [], mbuf := [], inj := [], ej := [], outs := []
    cur := if x.loadDone then !x.cur else x.cur, loadDone := false, loadBusy := none, poolBusy := 0
    tableEnd := none, zombieNote := false }

/-- A cluster at a frame start: its slot counter at 0 (R49). -/
def CluSt.frameStart (c : CluSt) : CluSt :=
  { c with
    slot := 0, running := true, atEnd := false, phaseAcc := 0, clkCount := 0, stopped := false, stopping := false, held := []
    cause := none, bankHold := 0, acc := [], gate := none, reported := false, gateWait := none, spoilSent := false
    frameCnt := [], lag := 0, boost := 0 }

/-- The clusters, cores, stops, routers and links at a frame start. -/
def State.unitsStart (s : State) (h : FrameHdr) : State :=
  let used := ((s.frm.prog.map (fun g => g.image.cores)).getD []).filterMap (fun c => s.physOf c.lx c.ly)
  { s with
    clu := (List.range 48).map (fun j => (j, (s.cluAt j).frameStart))
    core := (List.range 192).map (fun p => (p, (s.coreAt p).frameStart (tget h.entry p 0) (used.contains p)))
    stop := s.stop.map (fun e => (e.1, e.2.frameStart))
    rtr := s.rtr.map (fun e => (e.1, e.2.frameStart))
    ferryFly := [], meshFly := [], obs := { s.obs with samples := [] } }

/-- At the first frame start of a step, the next buffer of every AS8 scale table is zeroed (R353). -/
def State.scalesStart (s : State) : State :=
  let cs := (s.frm.prog.map (fun g => g.image.colls)).getD []
  cs.foldl (fun s c =>
    if c.as8 then
      s.lpWriteBytes (scaleAddr c (s.frm.frameStep.toNat + 1) 0) (List.replicate c.segments 0) false
    else s) s

/-- Log regions that wait for a frame start (R512). -/
def State.obsPending (s : State) : State :=
  { s with obs := { s.obs with
      regions := takeKeys s.obs.regions s.obs.regPend (fun k => (tfind s.obs.regPend k).isSome), regPend := [] } }

/-- A held tick starts its frame late (R56): its lateness, notice 0x14.02. A tick that firmware held for a clock step
raises the notice too (R65). -/
def State.lateStart (s : State) : State :=
  match s.frm.heldTick with
  | some t =>
    let late := min 0xFFFFFFFF (s.time - t)
    let s := s.onFrm (fun f => { f with heldTick := none, lateLast := BitVec.ofNat 32 late, holdNext := false })
    (s.frmEvent 0x1402 late).count 0 0 5 1
  | none =>
    if s.frm.holdNext then (s.onFrm (fun f => { f with holdNext := false })).frmEvent 0x1402 s.frm.lateLast.toNat
    else s

/-- The floor of the frame that starts (R66, R444). -/
def State.floorStart (s : State) : State :=
  let lo := s.frm.floorNext
  let low := decide (lo < s.frm.floorNow)
  let up := decide (floorMhz s.pwr.emerg < lo)
  let s := s.onFrm (fun f => { f with floorNow := lo })
  let s := if up then s.onPwr (fun p => { p with emerg := (1850 - lo) / 150, nowMhz := lo }) else s
  if low then s.frmEvent 0x140A lo else s

/-- A frame starts (R36, R38, R45, R47, R52, R63, R245, R274, R353, R388). The records of 0x14.02 and 0x14.0A that its start raises
come before the frame number and the timetable index advance (DESIGN CHOICE, log entry 86). -/
def State.startFrame (s : State) (host : HostView) : State :=
  match s.frm.prog with
  | none => s
  | some g =>
    let s := (s.lateStart).floorStart
    let f := s.frm
    let n := max g.image.frames.length 1
    let first := f.firstFrame
    let bad := f.nextSpoiled || f.spoilEach
    let s := s.onFrm (fun f => { f with
      phase := 1, frameNum := f.frameNum + 1, frameStep := f.stepNum, started := s.time, doneAt := none
      index := if first then f.index else BitVec.ofNat 16 ((f.index.toNat + 1) % n)
      spoiled := bad, nextSpoiled := false, stepSpoiled := (!f.newStep && f.stepSpoiled) || bad
      reports := [], decision := none, exemptOverrun := false
      timerNext := if f.src == 0 then some (s.time + f.period) else none
      firstFrame := false, newStep := false })
    let s := s.count 0 0 0 1
    let s := if f.ftickOutEn then s.emit .ftickOut else s
    match s.hdr with
    | none => s
    | some h =>
      let s := (List.range 192).foldl State.fetchCheck (s.unitsStart h)
      let s := (List.range 192).foldl (fun s p => (s.planIdle p false h).planIdle p true h) s
      let s := if s.frm.src == 3 then s.onPont (fun d => { d with trigger := s.frm.sysTick }) else s
      let s := s.obsPending
      let s := if f.newStep then s.scalesStart else s
      let s := s.triggerWaybills first
      let s := s.updFrameStart h.last
      s.hostFrameStart host

/-! ### Stops (R67-R72) -/

/-- Whether a request is the program's. -/
def Req.ofProgram (r : Req) : Bool :=
  match r.kind with
  | .unit _ _ => true
  | .spill _ _ => true
  | .fill _ _ => true
  | _ => false

/-- The program's requests that are issued and not complete (R69). -/
def State.issued (s : State) : List ReqRec :=
  s.queue.flatMap (fun q => (q.2.reqs.filter Req.ofProgram).map (fun r =>
    { block := q.1 / 64, unit := q.1 % 64, id := r.id, done := false }))

/-- A stop at tick takes effect (R67): a held tick is discarded, the issued requests drain. -/
def State.stopAtTick (s : State) : State :=
  s.onFrm (fun f => { f with
    phase := 3, stopKind := .atTick, grantsChanged := false, heldTick := none, timerNext := none, stopReq := false, divStop := false, stepOne := false
    drainFrom := some s.time, stopAt := s.time, stopReqs := s.issued, stopSlots := [], stopForced := false })

/-- The issued requests of the program are abandoned (R418). -/
def State.abandon (s : State) : State :=
  let s := s.queue.foldl (fun (s : State) (q : Nat × QueueSt) =>
    (q.2.reqs.filter Req.ofProgram).foldl (fun (s : State) (r : Req) => (s.dequeue q.1 r.id).unitDone r) s) s
  s.onPont (fun d => { d with ops := d.ops.filter (fun o => o.reqs.isEmpty) })

/-- An immediate stop is asked for (R68): STOP goes to every cluster. A forced one spoils the frame with 0x10.06 and
abandons the issued requests (R418, R470). -/
def State.immediate (s : State) (forced : Bool) : State :=
  let s := s.onFrm (fun f => { f with
    stopKind := .immediate, grantsChanged := false, stopForced := forced, exemptOverrun := true, heldTick := none, timerNext := none
    stopReq := false, divStop := false, stepOne := false, drainFrom := some s.time, stopAt := s.time, stopReqs := s.issued
    stopSlots := [] })
  let s := s.rootCast 0 0
  if forced then (s.raise { code := 0x1006 }).abandon else s

/-- Whether every cluster has been recorded; one whose clock is lost never will be (R432). -/
def State.allStopped (s : State) : Bool :=
  s.frm.stopKind == .atTick ||
  (List.range 48).all (fun j => s.frm.stopSlots.any (fun e => e.1 == j) || (s.cluAt j).clockLost.isSome)

/-- The banks that hold retained regions, by position: bit k bank or window k (R230). -/
def Retained.holds (r : Retained) (deck : Bool) (p k : Nat) : Bool :=
  r.pos == p && (r.entry.kind == (if deck then 1 else 0)) && decide (0 < r.entry.count) &&
  (if deck then decide (r.entry.base / 16384 ≤ k) && decide (k ≤ (r.entry.base + r.entry.count - 1) / 16384)
   else decide ((k + 16 - r.entry.base % 16) % 16 < r.entry.count))

/-- Banks with retained regions in retention, the others off (R230). -/
def State.banksOff (s : State) : State :=
  (List.range 192).foldl (fun (s : State) (p : Nat) =>
    [false, true].foldl (fun (s : State) (deck : Bool) =>
      s.setBank p deck ((s.planned p deck).foldl (fun b k =>
        b.toIdle deck k (s.post.retained.any (fun r => r.holds deck p k))) (s.bankAt p deck))) s) s

/-- A context returns to unused; its HELD and WAITED counters stay (R259, R262). -/
def CtxSt.unuse (x : CtxSt) : CtxSt := { CtxSt.reset with held := x.held, waited := x.waited }

/-- The commands that wait for the next frame done answer at once when no program runs (R412). -/
def State.overrideAnswers (s : State) : State :=
  (s.waiting 0x0308).foldl (fun s n => s.finishCmd n { data := bytesOf (s.frm.stepNum.toNat + 1) 8 }) s

/-- The invocation ends (R230, R412, R538): PHASE 0b00, retained regions kept or not, every context unused; writes that
wait for a frame take effect. The image stays the loaded program, with no invocation (`loaded` off). -/
def State.endInvocation (s : State) (keep : Bool) : State :=
  match s.frm.prog with
  | none => s
  | some g =>
    let mine : List Retained := if keep then g.image.retain.filterMap (fun e =>
        (s.colOf e.lx e.ly).map (fun p => { berth := g.berth, entry := e, pos := p, shape := g.image.shapeHash }))
      else []
    let s := s.onPost (fun p => { p with retained := p.retained.filter (fun r => r.berth != g.berth) ++ mine })
    let s := s.banksOff
    let s := s.onFrm (fun f => { f with
      prog := some { g with loaded := false }, phase := 0, stopKind := .none, stopEnd := none, heldTick := none, timerNext := none, drainFrom := none
      stopReq := false, divStop := false, stepOne := false, firstFrame := false, newStep := false, doneAt := none, stopReqs := []
      stopSlots := [], nextSpoiled := false, exemptOverrun := false })
    let s := { s with
      clu := s.clu.map (fun (e : Nat × CluSt) => (e.1, { e.2 with running := false, stopped := false, held := [], cause := none }))
      ctx := s.ctx.map (fun (e : Nat × CtxSt) => (e.1, e.2.unuse))
      queue := s.queue.map (fun (q : Nat × QueueSt) => (q.1, { q.2 with reqs := q.2.reqs.filter (fun r => !r.ofProgram) }))
      stk := [], ferryFly := [], meshFly := []
      flt := { s.flt with dues := [] }
      obs := { s.obs with samples := [] }
      pont := { s.pont with
        ops := s.pont.ops.filter (fun o => o.reqs.isEmpty), windows := [], colls := [], nextTick := none }
      host := { s.host with rings := [], rollouts := [], admitted := [], aged := [] } }
    (s.tickWrites.updPending).obsPending.overrideAnswers.powerChanges.clockStep

/-- The stop is complete (R67, R69): the states of the recorded requests, STOP_EXACT, fault 0x14.08 for an incomplete
drain; the invocation ends where STOP asked for it; STOP and STEP answer. -/
def State.stopFinish (s : State) : State :=
  let f := s.frm
  let left := s.issued
  let lost := (List.range 48).any (fun j => (s.cluAt j).clockLost.isSome)
  let whole := left.isEmpty && !f.stopForced && !lost
  let s := s.onFrm (fun f => { f with
    phase := 3, drainFrom := none
    stopExact := (if f.stopKind == .immediate then whole else f.stopExact)
    stopReqs := f.stopReqs.map (fun (r : ReqRec) => { r with done := !f.stopForced && !left.any (fun x => x.id == r.id) }) })
  let s := if f.stopKind == .immediate && !f.stopForced && !left.isEmpty then s.frmEvent 0x1408 else s
  let s := match f.stopEnd with | some keep => s.endInvocation keep | none => s
  let bit (b : Bool) : Nat := if b then 1 else 0
  let ans (s : State) : List Byte :=
    bytesOf s.frm.lastDone.toNat 8 ++ bytesOf (bit s.frm.stopExact) 1 ++ bytesOf s.frm.phase.toNat 1
  let s := (s.waiting 0x0304).foldl (fun s n => s.finishCmd n { data := ans s }) s
  let s := if (s.waiting 0x0305).isEmpty then s else s.onFrm (fun f => { f with silence := s.time })
  (s.waiting 0x0305).foldl (fun s n => s.finishCmd n { data := bytesOf s.frm.lastDone.toNat 6 }) s

/-- A stop asked for in the tail takes effect; a stop whose clusters are recorded and whose requests have completed, or
have had 20 µs, is complete (R67-R69). -/
def State.stopCheck (s : State) : State :=
  let f := s.frm
  if f.phase == 2 && f.stopKind == .none && f.stopReq then s.stopAtTick
  else match f.drainFrom with
    | none => s
    | some t =>
      if s.allStopped then
        let s := s.onFrm (fun f => { f with phase := 3 })
        if s.issued.isEmpty || f.stopForced || decide (t + 80000 ≤ s.time) then s.stopFinish else s
      else s

/-- RESUME, or the resumption of STEP, which measures the silence of R41 from its own completion (R41, R71, R262): the stop does not count toward a wait limit. After an immediate stop the clusters are released;
after a stop at tick the timer's first tick comes one period later. -/
def State.resume (s : State) (step : Bool) : State :=
  let gap := s.time - s.frm.stopAt
  let s := { s with
    ctx := s.ctx.map (fun (e : Nat × CtxSt) => (e.1, { e.2 with waitFrom := e.2.waitFrom.map (· + gap) }))
    clu := s.clu.map (fun (e : Nat × CluSt) => (e.1, { e.2 with gateWait := e.2.gateWait.map (· + gap) })) }
  if s.frm.stopKind == .immediate then
    let s := s.rootCast 0 1
    s.onFrm (fun f => { f with
      phase := if f.doneAt.isSome || f.firstFrame then 2 else 1, stopKind := .none, stopForced := false
      silence := if step then f.silence else s.time
      timerNext := if f.src == 0 then some (timerAfter f.started f.period s.time) else none })
  else
    s.onFrm (fun f => { f with
      phase := 2, stopKind := .none, silence := if step then f.silence else s.time
      timerNext := if f.src == 0 then some (s.time + f.period) else none })

/-- Whether chunks of activation stacks are in flight: while the program stands stopped, those that the stop recorded (R163). -/
def State.chunksOpen (s : State) : Bool := s.stk.any (fun e => e.2.chunk.isSome)

/-- RESUME or STEP of pigeonhole `n` resumes the program; STEP runs one frame. -/
def State.resumeNow (s : State) (n : Nat) (step : Bool) : State :=
  if step then ((s.await n []).resume true).onFrm (fun f => { f with stepOne := true }) else (s.resume false).finishCmd n {}

/-- The same once the recorded chunks have completed (R163); the command waits with `[1]` until then. -/
def State.resumeOr (s : State) (n : Nat) (step : Bool) : State :=
  if s.chunksOpen then s.await n [1] else s.resumeNow n step

/-- The resumptions that wait for chunks. -/
def State.resumeWaiting (s : State) : State :=
  if s.frm.phase != 3 || s.frm.drainFrom.isSome || s.chunksOpen then s
  else
    let s := ((s.waiting 0x0306).filter (fun n => (s.pghAt n).wait == [1])).foldl (fun (s : State) (n : Nat) => s.resumeNow n false) s
    ((s.waiting 0x0305).filter (fun n => (s.pghAt n).wait == [1])).foldl (fun (s : State) (n : Nat) => s.resumeNow n true) s

/-! ### Ticks (R36-R43, R54-R57, R70) -/

/-- An overrun (R39, R54-R57, R63): under stretch the tick is held, or discarded behind a held one; under strict it is
discarded and spoils the frame, unless the gate has opened. A frame with an immediate stop is exempt (R70). -/
def State.overrun (s : State) (host : HostView) : State :=
  let f := s.frm
  if f.exemptOverrun then s
  else
    let s := s.count 0 0 4 1
    if !f.policy then
      if f.heldTick.isSome then s.frmEvent 0x1405
      else
        let s := s.onFrm (fun f => { f with heldTick := some s.time })
        if f.phase == 2 then s.startFrame host else s
    else if f.decision = some true then s.frmEvent 0x1409
    else if f.phase == 2 then
      let e : Ev := { code := 0x1401, aux := f.index.toNat }
      let s := if f.spoiled then s else s.count 0 0 1 1
      ((s.countEvent e).logEvent e false).spoilDone false
    else s.frmEvent 0x1401

/-- A tick of the selected source reaches the tick root (R36, R39, R70): it starts a frame, or is an overrun; in a stop,
with no program or on a halted root it is discarded. -/
def State.strike (s : State) (host : HostView) : State :=
  let f := s.frm
  if f.halted || f.phase == 0 || f.phase == 3 || f.stopKind != .none then s
  else
    let s := s.onFrm (fun f => { f with accepted := some s.time, silence := s.time, lossDone := false })
    if f.phase == 2 && !s.inClkOfDone s.time then
      if f.stopReq then s.stopAtTick else s.startFrame host
    else s.overrun host

/-- INTERNAL_TICK (R36): the timer's tick, one period after the last frame start and after each tick of its own. -/
def execInternalTick (host : HostView) (s : State) : Host.Outcome State Fault Refusal :=
  .next (
    match s.frm.timerNext with
    | some t =>
      if s.frm.src == 0 && decide (t ≤ s.time) then
        (s.onFrm (fun f => { f with timerNext := some (t + max f.period 1) })).strike host
      else s
    | none => s)

/-- TICK_DOORBELL_STRIKE (R43): STRIKE written in the admin page. -/
def execTickDoorbellStrike (viaAdmin : Bool) (host : HostView) (s : State) : Host.Outcome State Fault Refusal :=
  .next (if viaAdmin && s.frm.src == 1 then s.strike host else s)

/-- FTICK_IN_EDGE (R36, R40): a pulse that passes the deglitch filter; one that is early raises notice 0x14.03. -/
def execFtickInEdge (highNs : Nat) (host : HostView) (s : State) : Host.Outcome State Fault Refusal :=
  .next (
    if s.frm.src != 2 || decide (highNs < 20) then s
    else
      let early := match s.frm.accepted with
        | some t => decide ((s.time - t) * 256 < s.frm.period * s.frm.early.toNat)
        | none => false
      if early then s.frmEvent 0x1403 else s.strike host)

/-- SYSTEM_TICK_DELIVERY (R36, R365): system time has reached the instant of a system tick. -/
def execSystemTickDelivery (host : HostView) (s : State) : Host.Outcome State Fault Refusal :=
  .next (
    match s.pont.tickDue with
    | [] => s
    | (n, inst, _) :: r =>
      if inst ≤ s.sysTime then
        let s := s.onPont (fun d => { d with tickDue := r })
        if s.frm.src == 3 then (s.onFrm (fun f => { f with sysTick := (n, inst) })).strike host else s
      else s)

/-- TICK_LOSS (R41): no tick of an external source for LATE sixteenths of a period; notice 0x14.04, and with FALLBACK the
timer takes over with a tick at once. -/
def execTickLoss (host : HostView) (s : State) : Host.Outcome State Fault Refusal :=
  .next (
    let f := s.frm
    if (f.phase == 1 || f.phase == 2) && (f.src == 2 || f.src == 3) && f.late != 0 && !f.lossDone
        && decide (f.silence + f.period * f.late.toNat / 16 ≤ s.time) then
      let s := s.frmEvent 0x1404
      if f.fallback then
        (s.onFrm (fun f => { f with src := 0, timerNext := some (s.time + f.period) })).strike host
      else s.onFrm (fun f => { f with lossDone := true })
    else s)

/-! ### The end mark (R48, R143, R191, R505, R516, R539) -/

/-- Whether a pending item of a core is one that R539 names: the items of stops and routers have rules of their own. -/
def Dst.ofCore (d : Dst) : Bool :=
  match d with
  | .trainLoad _ _ _ => false
  | .trainDone _ => false
  | .slotLoad _ _ => false
  | .slotDone => false
  | .fetched _ _ _ _ _ _ => false
  | .turn _ _ => false
  | .turnStop _ _ _ _ => false
  | .zeroStop _ _ _ => false
  | .poolRead _ _ => false
  | _ => true

/-- The checks of a core at its end mark (R111, R160, R539). -/
def State.coreEnd (s : State) (p : Nat) (last : Bool) : State :=
  let c := s.coreAt p
  let due := c.pend.any (fun x => x.dst.ofCore) || c.arr0.isLatching || c.arr1.isLatching
  let s := if due then s.seqFault p 0x2212 else s
  let s := if !c.ended && !c.noIssue then s.seqFault p 0x2204 else s
  if last && (s.stkAt p).depth ≠ 0 then s.raiseAt 0x2601 p 9 c.pc.toNat else s

/-- The checks of a Ferry stop at the end mark (R141, R143). -/
def State.stopEndMark (s : State) (p : Nat) (arr : Arr) : State :=
  let x := s.stopAt (2 * p + arr.val)
  let s := match x.loadBusy with | some e => s.stopFault p arr 0x250E e | none => s
  let s := if x.slot0.used then s.stopRec p arr 0x250D x.slot0.entryAt x.slot0.entry else s
  if x.slot1.used then s.stopRec p arr 0x250D x.slot1.entryAt x.slot1.entry else s

/-- The checks of a router at the end mark (R186, R191): one record a queue, with its port and occupancy. -/
def State.routerEndMark (s : State) (p : Nat) : State :=
  let x := s.rtrAt p
  let q (s : State) (port n : Nat) (ej : Bool) : State :=
    if n = 0 then s else s.raiseAt 0x2709 p 7 0 (port + 524288 * n + (if ej then 8388608 else 0))
  let s := match x.loadBusy with | some e => s.entryFault p 0x2712 e (seMain e).inp (seMain e).tag | none => s
  let s := q (q (q (q s 0 x.qN.length false) 1 x.qE.length false) 2 x.qS.length false) 3 x.qW.length false
  let s := q (q (q s 4 x.inj.length false) 5 x.pool.length false) 7 x.mbuf.length false
  q s 4 x.ej.length true

/-- The header of the frame that follows (R45). -/
def State.nextHdr (s : State) : Option FrameHdr :=
  s.frm.prog.bind (fun g => g.image.frames[(s.frm.index.toNat + 1) % max g.image.frames.length 1]?)

/-- END_MARK_REACHED (R48, R227, R454, R505, R516, R539): a cluster's slot counter has reached the end mark. -/
def execEndMarkReached (j : Clu) (s : State) : Host.Outcome State Fault Refusal :=
  .next (
    let c := s.cluAt j.val
    match s.hdr with
    | none => s
    | some h =>
      if s.frm.phase == 1 && c.running && !c.atEnd && !c.stopped && c.clockLost.isNone && decide (h.endMark ≤ c.slot) then
        let s := (cluPos j.val).foldl (fun (s : State) (p : Nat) =>
          let s := if s.isLive p then ((s.coreEnd p h.last).stopEndMark p 0).stopEndMark p 1 else s
          s.routerEndMark p) s
        let s := (s.endLatch j.val).frameRec j.val
        let s := match s.nextHdr with
          | some n => s.planClu j.val (fun s p deck => s.planWake p deck n)
          | none => s
        s.onClu j.val (fun c => { c with atEnd := true, checker := c.checker + 1 })
      else s)

/-! ### Frame done (R39, R42, R55, R65, R67, R391, R505) -/

/-- FRAME_DONE (R39): the tick root learns that every cluster has reached its end mark. -/
def State.frameDone (s : State) (host : HostView) : State :=
  let last := s.isCommitFrame
  let s := if s.frm.spoiled then s.count 0 0 1 1 else s
  let s := s.onFrm (fun f => { f with
    doneAt := some s.time, lastDone := f.frameNum, newStep := f.newStep || last
    phase := if f.stopKind == .none then 2 else f.phase })
  let s := s.frameLatch.tickWrites
  let s := s.hostFrameDone.overrideAnswers
  let s := if s.post.switching then s else s.powerChanges.clockStep
  let f := s.frm
  if f.stopKind != .none then s
  else if f.stopReq || f.stepOne || (f.stopOnSpoil && last && f.stepSpoiled) then s.stopAtTick.stopCheck
  else if f.heldTick.isSome then s.startFrame host
  else s

/-- FRAME_DONE (R39, R52). -/
def execFrameDone (host : HostView) (s : State) : Host.Outcome State Fault Refusal :=
  .next (
    let f := s.frm
    let all := (List.range 48).all (fun j => (s.cluAt j).atEnd)
    let in_ := f.phase == 1 || (f.phase == 3 && f.stopKind == .immediate)
    if in_ && all && f.doneAt.isNone then s.frameDone host else s)

/-! ### Immediate stops and releases in the clusters (R68, R69, R71) -/

/-- A cluster that an immediate stop has reached stops, its tcyc complete, and answers (R68, R69, R209). -/
def State.stopNow (s : State) (j : Nat) : State :=
  (s.onClu j (fun c => { c with stopped := true, stopping := false })).sendPkt j 52 0 2

/-- IMMEDIATE_STOP (R68): STOP reaches a cluster: one that executes a tcyc completes it first, any other stops and answers. -/
def execImmediateStop (j : Clu) (s : State) : Host.Outcome State Fault Refusal :=
  .next (
    let c := s.cluAt j.val
    if s.frm.stopKind == .immediate && s.frm.drainFrom.isSome && !c.stopped && c.clockLost.isNone then
      let s := s.ackPkt j.val 52 0 0
      if s.inTcyc j.val && (decide (0 < c.bankHold) || !s.holds j.val) then s.setClu j.val { c with stopping := true }
      else s.stopNow j.val
    else s)

/-- STOP_REACHED (R69): the root records a cluster's slot counter; the last one makes PHASE 0b11. -/
def execStopReached (j : Clu) (s : State) : Host.Outcome State Fault Refusal :=
  .next (
    let c := s.cluAt j.val
    if s.frm.stopKind == .immediate && s.frm.drainFrom.isSome && c.stopped
        && !s.frm.stopSlots.any (fun e => e.1 == j.val) then
      ((s.ackPkt 52 j.val 0 2).onFrm (fun f => { f with stopSlots := f.stopSlots ++ [(j.val, c.slot)] })).stopCheck
    else s)

/-- STOP_DRAIN_TIMEOUT (R67, R69): 20 µs after the stop. -/
def execStopDrainTimeout (s : State) : Host.Outcome State Fault Refusal :=
  .next (
    match s.frm.drainFrom with
    | some t => if t + 80000 ≤ s.time then s.stopCheck else s
    | none => s)

/-- RELEASE (R71, R163): a cluster goes on after the resumption, which has waited for the recorded chunks of the stacks. -/
def execRelease (j : Clu) (s : State) : Host.Outcome State Fault Refusal :=
  .next (
    let c := s.cluAt j.val
    if c.stopped && s.frm.stopKind == .none then (s.ackPkt j.val 52 0 1).setClu j.val { c with stopped := false } else s)

/-! ### The commit gate (R60-R63, R212) -/

/-- COMMIT (R60, R61): a cluster's report, after every spoil that it sent, reaches the root. -/
def execCommit (j : Clu) (frame : BitVec 16) (s : State) : Host.Outcome State Fault Refusal :=
  .next (
    if (s.cluAt j.val).reported && frame == s.frm.frameNum.setWidth 16 && !s.frm.reports.contains j.val then
      ((s.spoilsOf j.val).ackPkt 52 j.val 3 (0#1 ++ frame)).onFrm (fun f => { f with reports := f.reports ++ [j.val] })
    else s)

/-- GATE_DECISION (R60-R62, R289; a spoil of the same clk closes the gate again, `State.closeAgain`): with the reports of all clusters the root decides; a duplicate that disagrees closes
the gate with fault 0x16.03. -/
def execGateDecision (dupAgrees : Bool) (s : State) : Host.Outcome State Fault Refusal :=
  .next (
    if s.runs && s.isCommitFrame && s.frm.decision.isNone && s.frm.reports.length == 48 then
      let s := if dupAgrees then s else s.raise { code := 0x1603 }
      let open_ := !s.frm.stepSpoiled && dupAgrees
      let s := s.onFrm (fun f => { f with
        decision := some open_, decided := if open_ then some (s.time, s.upd.ovrArmed, s.upd.ovrMode) else none })
      let s := s.rootCast 1 ((if open_ then 1#1 else 0#1) ++ s.frm.frameNum.setWidth 16)
      if open_ then s.updOpen.count 0 0 2 1
      else (s.frmEvent 0x1407 s.frm.stepNum.toNat).count 0 0 3 1
    else s)

/-- GATE (R60, R62): the decision reaches a cluster. -/
def execGate (j : Clu) (frame : BitVec 16) (isOpen : Bool) (s : State) : Host.Outcome State Fault Refusal :=
  .next (
    let c := s.cluAt j.val
    if s.frm.decision = some isOpen ∧ frame = s.frm.frameNum.setWidth 16 ∧ c.gate.isNone then
      (s.ackPkt j.val 52 1 ((if isOpen then 1#1 else 0#1) ++ frame)).setClu j.val { c with gate := some isOpen, gateWait := none }
    else s)

/-- GATE_HOLD_TIMEOUT (R212): 20 µs at the gate point without a decision; fault 0x28.04 and an immediate stop. -/
def execGateHoldTimeout (j : Clu) (s : State) : Host.Outcome State Fault Refusal :=
  .next (
    match (s.cluAt j.val).gateWait with
    | some t =>
      if t + 80000 ≤ s.time then
        let s := (s.onClu j.val (fun c => { c with gateWait := none })).courEvent 0x2804 j.val
        if s.frm.stopKind == .none then s.immediate false else s
      else s
    | none => s)

end Sys2Proof.Machine
end

