-- ==== Sys2Proof/Machine/Sha3.lean ====
section
/-! DEFINITION. SHA3-512, which the spec names (R33, R480, R491) and FIPS 202 defines (PRESUMED, log entry 8). -/

namespace Sys2Proof.Machine

/-- The 25 lanes of the permutation's state; lane (x, y) stands at x + 5·y. -/
abbrev Lanes := Vector DWord 25

/-- Lane (x, y), both modulo 5. -/
def Lanes.at (a : Lanes) (x y : Nat) : DWord := a.getD (x % 5 + 5 * (y % 5)) 0

/-- The rotation of lane (x, y), at x + 5·y. -/
def keccakRot : List Nat :=
  [0, 1, 62, 28, 27, 36, 44, 6, 55, 20, 3, 10, 43, 25, 39, 41, 45, 15, 21, 8, 18, 2, 61, 56, 14]

/-- The round constants. -/
def keccakRounds : List DWord :=
  [0x0000000000000001, 0x0000000000008082, 0x800000000000808A, 0x8000000080008000, 0x000000000000808B,
   0x0000000080000001, 0x8000000080008081, 0x8000000000008009, 0x000000000000008A, 0x0000000000000088,
   0x0000000080008009, 0x000000008000000A] ++
  [0x000000008000808B, 0x800000000000008B, 0x8000000000008089, 0x8000000000008003, 0x8000000000008002,
   0x8000000000000080, 0x000000000000800A, 0x800000008000000A, 0x8000000080008081, 0x8000000000008080,
   0x0000000080000001, 0x8000000080008008]

/-- The parity of column x. -/
def Lanes.column (a : Lanes) (x : Nat) : DWord := a.at x 0 ^^^ a.at x 1 ^^^ a.at x 2 ^^^ a.at x 3 ^^^ a.at x 4

/-- One round with constant `rc`. -/
def keccakRound (a : Lanes) (rc : DWord) : Lanes :=
  let d : Vector DWord 5 := Vector.ofFn fun x => a.column (x + 4) ^^^ (a.column (x + 1)).rotateLeft 1
  let m : Lanes := Vector.ofFn fun i => (a[i] ^^^ d.getD (i % 5) 0).rotateLeft (keccakRot.getD i 0)
  let b (x y : Nat) : DWord := m.at (x + 3 * y) x
  let c : Lanes := Vector.ofFn fun i => b (i % 5) (i / 5) ^^^ (~~~ b (i % 5 + 1) (i / 5) &&& b (i % 5 + 2) (i / 5))
  c.set 0 (c.getD 0 0 ^^^ rc)

/-- The permutation of 24 rounds. -/
def keccak (a : Lanes) : Lanes := keccakRounds.foldl keccakRound a

/-- Lane `i` of a block of bytes, least significant byte first. -/
def blockLane (bytes : List Byte) (i : Nat) : DWord :=
  ((bytes.drop (8 * i)).take 8).foldr (fun (b : Byte) (acc : DWord) => acc <<< 8 ||| b.setWidth 64) 0

/-- A block of 72 bytes taken into the state. -/
def absorb (a : Lanes) (block : List Byte) : Lanes :=
  keccak (Vector.ofFn fun i => if i.val < 9 then a[i] ^^^ blockLane block i else a[i])

/-- The blocks of a byte string: the last one is closed by 06, zeros and a set top bit. -/
def absorbAll : Nat → Lanes → List Byte → Lanes
  | 0, a, _ => a
  | fuel + 1, a, bytes =>
    if bytes.length < 72 then
      let n := bytes.length
      let pad : List Byte := if n = 71 then [0x86] else 0x06 :: List.replicate (70 - n) 0 ++ [0x80]
      absorb a (bytes ++ pad)
    else absorbAll fuel (absorb a (bytes.take 72)) (bytes.drop 72)

/-- The 64-byte digest of a byte string; digest byte k is bits [8k+7:8k] (R4). -/
def sha3 (bytes : List Byte) : BitVec 512 :=
  let a := absorbAll (bytes.length / 72 + 1) (Vector.replicate 25 0) bytes
  a.getD 7 0 ++ a.getD 6 0 ++ a.getD 5 0 ++ a.getD 4 0 ++ a.getD 3 0 ++ a.getD 2 0 ++ a.getD 1 0 ++ a.getD 0 0

end Sys2Proof.Machine
end

