-- ==== Sys2Proof/Machine/Registers.lean ====
section
/-! DEFINITION. The registers as they read (R8, R37-R74, R226-R243, R284-R289, R326, R333, R351, R367, R377-R396,
R429-R447, R461-R475, R479-R490, R509-R510), by name and by BAR0 offset. -/

namespace Sys2Proof.Machine

/-- Fields packed from bit 0 up: width and value each. -/
def pack : List (Nat × Nat) → Nat
  | [] => 0
  | (n, v) :: r => v % 2 ^ n + 2 ^ n * pack r
def bitOf (b : Bool) : Nat := if b then 1 else 0

/-! ### Named registers -/

/-- `CLK.TICK_SRC` and `CLK.FRAME_PERIOD` (R8, R37, R42): the value last written, in force or awaiting frame done. -/
def State.tickSrc (s : State) : Nat :=
  match s.frm.pendSrc with
  | some v => v.toNat
  | none => pack [(2, s.frm.src.toNat), (1, bitOf s.frm.fallback), (1, bitOf s.frm.ftickOutEn)]
def State.framePeriod (s : State) : Nat := s.frm.pendPeriod.getD s.frm.period
/-- `CLK.FTICK_WIN` (R40). -/
def State.ftickWin (s : State) : Nat := pack [(8, s.frm.early.toNat), (8, s.frm.late.toNat)]
/-- `CLK.OVERRUN_POLICY` (R55). -/
def State.overrunPolicy (s : State) : Nat := pack [(1, bitOf s.frm.policy), (1, bitOf s.frm.stopOnSpoil)]
/-- `CLK.FRAME_STATUS` (R73). -/
def State.frameStatus (s : State) : Nat :=
  pack [(2, s.frm.phase.toNat), (1, bitOf s.frm.heldTick.isSome), (1, bitOf s.frm.spoiled), (1, bitOf s.frm.stepSpoiled),
        (1, bitOf s.frm.stopExact), (2, 0), (16, s.frm.index.toNat)]
/-- `CLK.ADAPT` (R429). -/
def State.clkAdapt (s : State) : Nat := pack [(16, s.pwr.setMhz), (12, s.pwr.nowMhz), (2, s.pwr.emerg)]
/-- `UPD.STATUS` (R289). -/
def State.updStatus (s : State) : Nat :=
  pack [(1, bitOf s.upd.damaged), (1, bitOf s.upd.adopted), (10, s.upd.skewShard.toNat), (2, s.upd.skewRegion.toNat)]
/-- `UPD.LR_OVERRIDE` (R284). -/
def State.lrOverride (s : State) : Nat :=
  let mode := if s.upd.ovrArmed then (if s.upd.ovrMode = 1 then 1 else 2) else 0
  pack [(32, s.upd.ovrValue.toNat), (2, mode), (6, s.upd.ovrGroup.toNat), (1, bitOf s.upd.ovrAll), (1, bitOf s.upd.ovrArmed)]
/-- `NST[i].PWR` and `DECK[i].PWR` (R226): an absent window reads off. -/
def State.pwrReg (s : State) (p : Nat) (deck : Bool) : Nat :=
  pack ((List.range 16).map (fun k =>
    (2, if deck && decide (s.deckWindows p ≤ k) then 2 else (s.bankAt p deck).stateOf k)))
/-- `NST[i].BGT` and `DECK[i].BGT` (R238). -/
def State.bgtReg (s : State) (p : Nat) (deck : Bool) : Nat :=
  pack [(16, bitOf (s.bankAt p deck).bgtEn), (16, (s.bankAt p deck).bgtPace.toNat)]
/-- `NST[i].BGT_STAT` and `DECK[i].BGT_STAT` (R238). -/
def State.bgtStat (s : State) (p : Nat) (deck : Bool) : Nat :=
  pack [(16, (s.bankAt p deck).sweeps.toNat), (13, (s.bankAt p deck).group)]
/-- `DECK.KILL_SCRUB` (R232). -/
def State.killScrub (s : State) : Nat :=
  pack [(1, bitOf (s.post.scrubs.any (fun x => x.2.1 != 2))), (15, s.post.lastBerth.toNat), (16, s.post.lastUs.toNat)]
/-- `MPORT[i].STATUS` and `MPORT[i].ECC_CNT` (R272). -/
def State.mportStatus (s : State) (i : Nat) : Nat :=
  let m := s.mportAt i
  pack [(3, m.step.toNat), (1, bitOf m.trained), (1, bitOf (decide (s.time < m.retrainTo))), (2, m.refmult.toNat),
        (1, bitOf m.pkg)]
def State.mportEcc (s : State) (i : Nat) : Nat := pack [(16, (s.mportAt i).corr.toNat), (16, (s.mportAt i).uncorr.toNat)]
/-- `DEPOT.STATUS` and `DEPOT[i].CHAN` (R326). -/
def State.depotStatus (s : State) : Nat :=
  let d := s.depot
  pack [(2, d.state.toNat), (1, bitOf d.rebuild), (1, bitOf d.flushed), (1, bitOf d.torn), (2, if d.state = 0 then 2 else d.width.toNat),
        (1, bitOf d.quiesced), (8, d.wear.toNat)]
def State.depotChan (s : State) (c : Nat) : Nat :=
  let x := s.depot.chanAt c
  pack [(2, x.step.toNat), (1, bitOf x.trained), (1, bitOf (x.trained && x.failed)), (3, x.targets.toNat), (9, x.luns.toNat),
        (16, if x.trained then x.retired.toNat else 0)]
/-- `PONT[p].STATUS` and `PONT[p].ERR_CNT` (R333). -/
def State.pontStatus (s : State) (p : Nat) : Nat :=
  let x := s.pport p
  pack [(2, x.state.toNat), (3, x.width.toNat), (1, bitOf x.spare), (1, bitOf x.home), (4, x.laneFail.toNat),
        (18, x.peer.toNat)]
def State.pontErr (s : State) (p : Nat) : Nat := pack [(16, (s.pport p).fecUnc.toNat), (16, (s.pport p).retry.toNat)]
/-- `PONT.NODE`, `PONT.SHAPE` (R351) and `PONT.TIME_STATUS` (R367). -/
def State.pontNode (s : State) : Nat :=
  let d := s.pont
  pack [(18, d.devId.toNat), (1, bitOf d.joined), (1, bitOf d.master), (3, d.skipA.toNat), (3, d.skipB.toNat),
        (1, bitOf d.backup)]
def State.pontShape (s : State) : Nat := pack [(24, s.pont.lens.toNat), (3, s.pont.ndim.toNat)]
def State.pontTime (s : State) : Nat :=
  pack [(1, bitOf s.pont.locked), (15, bitOf s.pont.jumped), (16, s.pont.offset.toNat)]
/-- `UCIE.STATUS` (R377). -/
def State.ucieStatus (s : State) : Nat :=
  pack [(2, s.host.status.toNat), (4, s.host.modules.toNat), (4, s.host.repaired.toNat), (1, bitOf s.host.retrain)]
/-- `PWR.AVS` (R440), `PWR.CTL` (R442) and `PWR.STATUS` (R447). -/
def State.pwrAvs (s : State) : Nat :=
  pack [(16, s.pwr.setMv.toNat), (10, s.pwr.readMv.toNat), (1, bitOf s.pwr.avsFail)]
def State.pwrCtl (s : State) : Nat := s.pwr.limitW.toNat
def State.pwrStatus (s : State) : Nat :=
  pack [(12, s.pwr.powerW.toNat), (8, s.pwr.tjC.toNat), (3, s.pwr.trigger.toNat), (1, bitOf s.pwr.tripped)]
/-- `ADM.BOOT_STATUS` (R479). -/
def State.bootStatus (s : State) : Nat :=
  let b := s.boot
  pack [(3, b.phase.toNat), (8, b.failedPos.toNat), (1, bitOf b.ungraded), (1, bitOf s.shape.degraded),
        (1, bitOf b.ephemeral), (1, bitOf b.trippedB), (1, bitOf b.suspectB), (3, b.fwResult.toNat),
        (3, b.grResult.toNat), (4, b.lEff.toNat), (1, bitOf b.failedDeck)]
/-- `BRT.STATUS` (R490): a commit takes no time here, so BUSY reads 0. -/
def State.brtStatus (s : State) : Nat :=
  pack [(1, 0), (1, bitOf (s.brt.shadow != s.brt.live)), (3, s.brt.err.toNat), (4, s.brt.errBerth.toNat),
        (14, s.brt.errOffset.toNat)]
/-- `BRT.DIGEST` (R490). -/
def State.brtDigest (s : State) : BitVec 512 := sha3 (tabBytes s.brt.live 0 15360)
/-- `PGH[n].STATE` (R396). -/
def State.pghState (s : State) (n : Nat) : Nat :=
  let p := s.pghAt n
  pack [(2, p.state.toNat), (6, bitOf p.dropped), (8, s.owner n), (16, p.tag.toNat)]
/-- `TOP.LOG_STAT[s]` (R461). -/
def State.logStat (s : State) (n : Nat) : Nat :=
  let l := tget s.flt.logs n .reset
  pack [(16, l.recs.length), (8, l.supp.toNat), (8, l.lost.toNat)]

/-! ### The interrupt tree (R472-R475, R471) -/

/-- What the bits of a summary name, from bit 0 up (R473, R474); nothing for a leaf. -/
def treeKids (off : Nat) : List Nat :=
  let at_ (a step n : Nat) : List Nat := (List.range n).map (fun k => a + step * k)
  if off = 0x10000 then
    at_ 0x12000 0x2000 4 ++ at_ 0x1A000 0x1000 4 ++ [0x1E000, 0x1E100, 0x1F000, 0x1E200, 0x1E300]
  else if 0x12000 ≤ off && off < 0x1A000 then
    let rgn := off / 0x2000 * 0x2000
    let r := off - rgn
    let g := (rgn - 0x12000) / 0x2000
    if r = 0 then at_ (rgn + 0x100) 8 12 ++ [rgn + 8, rgn + 0x10]
    else if 0x100 ≤ r && r < 0x160 && r % 8 = 0 then
      (cluPos (12 * g + (r - 0x100) / 8)).map (fun p => rgn + 0x400 + 0x80 * posInRegion p)
    else if 0x400 ≤ r && r < 0x1C00 && r % 0x80 = 0 then at_ (off + 8) 8 11
    else []
  else if off = 0x1A000 then at_ 0x1A008 8 16
  else if 0x1A008 ≤ off && off < 0x1A088 && off % 8 = 0 then at_ (0x1A100 + 12 * (off - 0x1A008)) 8 12
  else if off = 0x1B000 then at_ 0x1B100 24 16
  else if 0x1B100 ≤ off && off < 0x1B280 && (off - 0x1B100) % 24 = 0 then [off + 8, off + 16]
  else if off = 0x1C000 then at_ 0x1C010 8 4 ++ [0x1C008]
  else if 0x1C010 ≤ off && off < 0x1C030 && off % 8 = 0 then at_ (0x1C100 + 24 * (off - 0x1C010)) 24 8
  else if 0x1C100 ≤ off && off < 0x1C400 && (off - 0x1C100) % 24 = 0 then [off + 8, off + 16]
  else if off = 0x1D000 then at_ 0x1D100 24 16 ++ [0x1D008]
  else if 0x1D100 ≤ off && off < 0x1D280 && (off - 0x1D100) % 24 = 0 then [off + 8, off + 16]
  else if off = 0x1E000 then at_ 0x1E008 8 2
  else if off = 0x1E100 then at_ 0x1E108 8 6
  else if off = 0x1E200 then [0x1E208]
  else if off = 0x1E300 then at_ 0x1E308 8 2
  else if off = 0x1F000 then at_ 0x1F008 8 7
  else if 0x1F020 ≤ off && off < 0x1F040 && off % 8 = 0 then at_ (0x1F100 + 12 * (off - 0x1F020)) 8 12
  else []

/-- The code class of a leaf (R456, R475); none for the DONE leaves and for offsets that hold no leaf. -/
def leafClass (off : Nat) : Option Nat :=
  if off % 8 ≠ 0 && !(0x1B100 ≤ off && off < 0x1E000) then none
  else if 0x12000 ≤ off && off < 0x1A000 then
    let r := off % 0x2000
    if r = 8 then some 0x12
    else if r = 0x10 then some 0x2D
    else if 0x400 ≤ r && r < 0x1C00 then
      let b := r % 0x80
      if b = 0 || 96 ≤ b then none
      else ([0x22, 0x21, 0x21, 0x23, 0x25, 0x25, 0x27, 0x29, 0x26, 0x2B, 0x2D][b / 8 - 1]?)
    else none
  else if 0x1A100 ≤ off && off < 0x1A700 then some 0x2A
  else if 0x1B100 ≤ off && off < 0x1B280 then
    match (off - 0x1B100) % 24 with | 8 => some 0x2C | 16 => some 0x2B | _ => none
  else if off = 0x1C008 then some 0x2E
  else if 0x1C100 ≤ off && off < 0x1C400 then
    match (off - 0x1C100) % 24 with | 8 => some 0x2E | 16 => some 0x2B | _ => none
  else if off = 0x1D008 then some 0x30
  else if 0x1D100 ≤ off && off < 0x1D280 then
    match (off - 0x1D100) % 24 with | 8 => some 0x2F | 16 => some 0x2B | _ => none
  else if 0x1F100 ≤ off && off < 0x1F280 then some 0x15
  else match off with
    | 0x1E008 => some 0x31
    | 0x1E010 => some 0x26
    | 0x1E108 => some 0x10
    | 0x1E110 => some 0x28
    | 0x1E118 => some 0x2D
    | 0x1E120 => some 0x17
    | 0x1E208 => some 0x32
    | 0x1E308 => some 0x33
    | 0x1E310 => some 0x33
    | 0x1F008 => some 0x14
    | 0x1F010 => some 0x16
    | 0x1F018 => some 0x15
    | _ => none

def isDone (off : Nat) : Bool := off == 0x1E128 || off == 0x1E130
def isLeaf (off : Nat) : Bool := (leafClass off).isSome || isDone off
def isSummary (off : Nat) : Bool := !(treeKids off).isEmpty

/-- The bits of a cause or summary register, which its mask shares (R472). The mask of a leaf holds a bit for every code of the
leaf's class, also for those that another leaf of the class shows (DESIGN CHOICE, log entry 86). -/
def treeBits (off : Nat) : Nat :=
  if isDone off then 2 ^ 32 - 1
  else match leafClass off with
    | some c => ((codeTable c).map (fun e => 2 ^ e.1)).foldl (· + ·) 0
    | none => 2 ^ (treeKids off).length - 1

/-- The causes of a leaf that its reset mask masks: the notices of its class (R472). -/
def maskReset (off : Nat) : Word :=
  match leafClass off with
  | some c => BitVec.ofNat 32 ((((codeTable c).filter (fun e => e.2.1 == 2)).map (fun e => 2 ^ e.1)).foldl (· + ·) 0)
  | none => 0
def State.maskOf (s : State) (off : Nat) : Word := tget s.flt.masks off (maskReset off)

/-- A register of the tree as it reads (R472): a summary bit is 1 while what it names has an unmasked bit; at most
`fuel` levels below. -/
def State.treeVal (s : State) (off : Nat) : Nat → Word
  | 0 => tget s.flt.leaves off 0
  | n + 1 =>
    match treeKids off with
    | [] => tget s.flt.leaves off 0
    | ks => BitVec.ofNat 32 ((ks.zipIdx.map (fun k =>
        if s.treeVal k.1 n &&& ~~~(s.maskOf k.1) = 0 then 0 else 2 ^ k.2)).foldl (· + ·) 0)
def State.tree (s : State) (off : Nat) : Word := s.treeVal off 5

/-- Whether IRQ_N is driven low (R469, R471): an unmasked bit of `TOP.SUMMARY`, or a halted device; released in reset. -/
def State.irqLow (s : State) : Bool :=
  s.pins.resetN && (s.frm.halted || s.tree 0x10000 &&& ~~~(s.maskOf 0x10000) != 0)

/-! ### BAR0 (R379, R475, R479, R489, R490, R509) -/

def half (v : Nat) (hi : Bool) : Nat := if hi then v / 2 ^ 32 % 2 ^ 32 else v % 2 ^ 32

/-- The admin page (R479). -/
def State.readAdmin (s : State) (off : Nat) : Nat :=
  let b := s.boot
  match off with
  | 0x000 => s.bootStatus
  | 0x010 => half b.fwAddr.toNat false
  | 0x014 => half b.fwAddr.toNat true
  | 0x018 => b.fwLen.toNat
  | 0x020 => half b.grAddr.toNat false
  | 0x024 => half b.grAddr.toNat true
  | 0x028 => b.grLen.toNat
  | 0x030 => half b.hrAddr.toNat false
  | 0x034 => half b.hrAddr.toNat true
  | 0x038 => b.hrLen.toNat
  | 0x200 => Config.romVersion.toNat
  | _ => 0

/-- The berth table window (R489, R490). -/
def State.readBrt (s : State) (off : Nat) : Nat :=
  if off < 0x5C00 then tabRead s.brt.shadow (off - 0x2000) 4
  else if off = 0x5C08 then s.brtStatus
  else if 0x5C40 ≤ off && off < 0x5C80 then (s.brtDigest.toNat / 2 ^ (8 * (off - 0x5C40))) % 2 ^ 32
  else 0

/-- The interrupt tree window (R461, R466, R475). -/
def State.readTree (s : State) (off : Nat) : Nat :=
  if 0x10100 ≤ off && off < 0x10168 then (if off % 8 = 0 then s.logStat ((off - 0x10100) / 8) else 0)
  else if 0x12000 ≤ off && off < 0x1A000 && off % 0x2000 / 8 = 3 then
    half (tget s.flt.suspect ((off - 0x12000) / 0x2000) 0).toNat (off % 8 == 4)
  else if isLeaf off || isSummary off then (s.tree off).toNat
  else if isLeaf (off - 4) || isSummary (off - 4) then (s.maskOf (off - 4)).toNat
  else 0

/-- A pigeonhole's page (R395, R399, R402): its response area reads 0 while POSTED or RUNNING, all of it while a change
of its owner is pending. -/
def State.readPgh (s : State) (n off : Nat) : Nat :=
  let p := s.pghAt n
  if off = 0xFC8 then s.pghState n
  else if p.old.isSome then 0
  else if off < 0x800 then tabRead p.cmd off 4
  else if off < 0xFC0 then (if p.state = 1 || p.state = 2 then 0 else tabRead p.resp (off - 0x800) 4)
  else 0

/-- The counter window (R509, R510). -/
def State.readCnt (s : State) (off : Nat) : Nat :=
  let o := s.obs
  if 0x90000 ≤ off && off < 0xA0000 then
    match o.mirror with
    | some j => half (s.pageWord j (off / 8 * 8 - 0x90000)) (off % 8 == 4)
    | none => 0
  else if 0x81000 ≤ off && off < 0x81600 then half (tget s.cnt.sel ((off - 0x81000) / 8) 0).toNat (off % 8 == 4)
  else match off with
    | 0x80000 => bitOf o.framePages + 2 * bitOf o.cmdPages
    | 0x80008 => half o.pageBase.toNat false
    | 0x8000C => half o.pageBase.toNat true
    | 0x80010 => o.pageCount
    | 0x80018 => o.pageIdx.toNat
    | 0x80020 => o.bwPend.getD o.bwUs
    | 0x80028 => half o.traceBase.toNat false
    | 0x8002C => half o.traceBase.toNat true
    | 0x80030 => half o.traceSize false
    | 0x80034 => half o.traceSize true
    | 0x80038 => half o.exportReg.toNat false
    | 0x8003C => half o.exportReg.toNat true
    | _ => 0

/-- The 32 bits at a BAR0 offset, a multiple of 4, as they read (R379); reserved offsets read 0. -/
def State.readReg (s : State) (off : Nat) : Nat :=
  if off < 0x1000 then s.readAdmin off
  else if 0x2000 ≤ off && off < 0x6000 then s.readBrt off
  else if 0x10000 ≤ off && off < 0x20000 then s.readTree off
  else if 0x20000 ≤ off && off < 0x30000 then
    let b := (off - 0x20000) / 0x1000
    (if off % 0x1000 < 12 then (tget s.host.idx (4 * b + off % 0x1000 / 4) 0).toNat else 0)
  else if 0x40000 ≤ off && off < 0x80000 then s.readPgh ((off - 0x40000) / 0x1000) (off % 0x1000)
  else if 0x80000 ≤ off && off < 0x100000 then s.readCnt off
  else 0

end Sys2Proof.Machine
end

