-- ==== Sys2Proof/Machine/Images.lean ====
section
/-! DEFINITION. What LOAD and BIND_CHECK check of an image (R44-R46, R140, R159, R187, R203, R223, R229, R248, R280, R411),
and what they place on chip. -/

namespace Sys2Proof.Machine

/-- Whether two ranges (start, length) share an item. -/
def meets (a b : Nat × Nat) : Bool := decide (a.1 < b.1 + b.2) && decide (b.1 < a.1 + a.2)

/-- Whether some two elements of a list stand in a relation, the earlier first. -/
def anyPair (p : α → α → Bool) : List α → Bool
  | [] => false
  | x :: r => r.any (p x) || anyPair p r

/-! ### Tables (R46, R140, R187, R203) -/

/-- The entries of a table up to END, each with its first tcyc under the SEG entries before it (R46); none where a
segment number decreases or exceeds 17. `sg` is the table's SEG code. -/
def segWalk (sg seg : Nat) : List (BitVec 128) → Option (List (BitVec 128 × Nat))
  | [] => some []
  | e :: r =>
    let op := fld e 31 28
    if op = 0 then some []
    else if op = sg then
      let k := fld e 4 0
      if decide (k < seg) || decide (17 < k) then none else segWalk sg k r
    else (segWalk sg seg r).map (fun l => (e, 1048576 * seg + fld e 19 0) :: l)

/-- Whether a train-table entry has a reserved encoding, or a LEN that disagrees with its MODE (R137, R139, R140). -/
def badTrainEntry (e : BitVec 128) : Bool :=
  let op := enOp e
  badTrain e || (decide (1 ≤ op) && decide (op ≤ 6) && (match modeInfo (enMode e) with
        | some i => i.len != enLen e
        | none => true))

/-- The entries of a table up to its END, with it (R140, R185). -/
def toEnd : List (BitVec 128) → List (BitVec 128)
  | [] => []
  | e :: r => if enOp e = 0 then [e] else e :: toEnd r

/-- A train table of a frame with this end mark (R46, R140); a bank holds 2,048 entries (R141). -/
def trainOk (endMark : Nat) (t : List (BitVec 128)) : Bool :=
  match segWalk 8 0 t with
  | none => false
  | some es =>
    decide (t.length ≤ 2048) && !(toEnd t).any badTrain
    && es.all (fun x => !badTrainEntry x.1 && decide (x.2 < endMark))
    && !anyPair (fun a b => enLane a.1 == enLane b.1 && meets (a.2, enLen a.1) (b.2, enLen b.1))
        (es.filter (fun x => fld x.1 31 28 ≤ 4))

/-- Whether a port of the router at `p` leads somewhere as an input, or as an output (R179, R187, R200). -/
def portOk (p : Nat) (fenced inp : Bool) (port : Nat) : Bool :=
  match port with
  | 0 => decide (p % 12 < 11) || !inp
  | 1 => decide (p / 12 < 15)
  | 2 => decide (0 < p % 12) || !inp
  | 3 => decide (0 < p / 12)
  | 4 => !fenced
  | 5 => fenced
  | 6 => inp
  | _ => true

/-- Output port of a bit of an OUT mask: bit 6 is the merge buffer. -/
def outPort (bit : Nat) : Nat := if bit = 6 then 7 else bit

/-- The outputs that an entry claims (R197). -/
def claims (e : BitVec 128) : Nat := if seStandby e then seOut e ||| seAltOut e else seOut e

/-- Whether an entry pops an input and sends outputs: FWD or a merge. -/
def moves (e : BitVec 128) : Bool := let op := fld e 31 28; decide (1 ≤ op) && decide (op ≤ 3)

/-- An entry that is a trace slot by its input (R203). -/
def isTrace (e : BitVec 128) : Bool := traceSlot e (seMain e).inp

/-- One entry of a slot table at position `p` whose pool column has `rows` rows (R184-R187, R200, R203). -/
def slotEntryOk (p rows : Nat) (fenced : Bool) (marked : List (Nat × Nat)) (e : BitVec 128) : Bool :=
  let op := fld e 31 28
  !badSlot e
  && (op != 4 || (fenced && decide (seRow e + seLen e ≤ rows)))
  && (!moves e ||
      (portOk p fenced true (seMain e).inp && (!seStandby e || portOk p fenced true (seAlt e).inp)
       && (List.range 7).all (fun b => !(claims e).testBit b || portOk p fenced false (outPort b))
       && (!(claims e).testBit 5 || decide (seRow e + seLen e ≤ rows))
       && ((seMain e).inp != 6 || isTrace e) && (!seStandby e || (seAlt e).inp != 6 || traceSlot e (seAlt e).inp)
       && (!isTrace e || (List.range 4).all (fun b =>
            !(claims e).testBit b || (linkTo p b).isNone || marked.contains (p, b)))))

/-- Whether two entries claim an output in one tcyc other than as a merge pair (R187, R193). -/
def slotClash (a b : BitVec 128 × Nat) : Bool :=
  let op := fld a.1 31 28
  moves a.1 && moves b.1 && (claims a.1 &&& claims b.1) != 0 && meets (a.2, seLen a.1) (b.2, seLen b.1)
  && !((op == 2 || op == 3) && fld b.1 31 28 == op && seOut a.1 == seOut b.1)

/-- Whether three entries claim one output in one tcyc. -/
def slotTriple : List (BitVec 128 × Nat) → Bool
  | [] => false
  | x :: r =>
    let hit (a b : BitVec 128 × Nat) : Bool :=
      moves a.1 && moves b.1 && (claims a.1 &&& claims b.1) != 0 && meets (a.2, seLen a.1) (b.2, seLen b.1)
    anyPair hit (r.filter (hit x)) || slotTriple r

/-- Whether two trace slots claim a marked link within 32 consecutive tcyc (R203). -/
def traceClose (p : Nat) (marked : List (Nat × Nat)) (a b : BitVec 128 × Nat) : Bool :=
  isTrace a.1 && isTrace b.1
  && (List.range 4).any (fun k => marked.contains (p, k) && (claims a.1).testBit k && (claims b.1).testBit k)
  && meets (a.2, seLen a.1 + 31) (b.2, seLen b.1 + 31)

/-- A slot table of a frame with this end mark (R46, R187); a bank holds 4,096 entries (R186). -/
def slotsOk (p rows endMark : Nat) (fenced : Bool) (marked : List (Nat × Nat)) (t : List (BitVec 128)) : Bool :=
  match segWalk 6 0 t with
  | none => false
  | some es =>
    decide (t.length ≤ 4096) && !(toEnd t).any badSlot
    && es.all (fun x => slotEntryOk p rows fenced marked x.1 && decide (x.2 < endMark))
    && !anyPair slotClash es && !slotTriple es && !anyPair (traceClose p marked) es
    && !es.any (fun x => isTrace x.1 && decide (1 < seLen x.1)
        && (List.range 4).any (fun k => marked.contains (p, k) && (claims x.1).testBit k))

/-! ### Frames (R44, R45) -/

/-- The budget of a declared period (R44). -/
def budget (period : Nat) : Nat := period * 37 / 80 - 2048

/-- A frame timetable header under a declared period (R44, R45). -/
def headerOk (period : Nat) (h : FrameHdr) : Bool :=
  decide (h.endMark ≤ budget period)
  && (!h.last || (decide (4096 ≤ h.c) && decide (1024 ≤ h.g) && decide (h.c + h.g < h.endMark)))

/-! ### Waybills and landing buffers (R247, R248, R253) -/

/-- Whether loops open in order 0 to 5 and close in the reverse order, `depth` of them open (R253). -/
def nested (depth : Nat) : List (BitVec 64) → Bool
  | [] => depth == 0
  | w :: r =>
    match fld w 63 59 with
    | 2 => fld w 58 56 == depth && nested (depth + 1) r
    | 3 => decide (0 < depth) && fld w 58 56 + 1 == depth && nested (depth - 1) r
    | _ => nested depth r

/-- The field of a descriptor of `n` bytes from byte `off` on. -/
def descField (d : BitVec w) (off n : Nat) : Nat := d.toNat / 256 ^ off % 256 ^ n

/-- A landing-buffer descriptor with the waybill at its POFF (R247). -/
def bufDesc (img : Image) (num : Nat) (d : BitVec 256) : BufDesc :=
  { num := num, kind := descField d 0 1, far := descField d 1 1, trigger := descField d 2 1, uses := descField d 3 1
    base := descField d 4 4, size := descField d 8 4, rate := descField d 0xC 4, tix := descField d 0x10 2
    prog := (List.range (descField d 0x12 1)).map (fun k => tget img.words (descField d 0x14 4 + 8 * k) 0) }

/-- A stack descriptor (R158). -/
def stackDesc (d : BitVec 512) : StackDesc :=
  { base := descField d 0 4, size := descField d 4 4, spillBase := descField d 8 8, spillSize := descField d 0x10 4
    high := descField d 0x14 4, low := descField d 0x18 4, ahead := descField d 0x1C 4, pushRate := descField d 0x20 4
    popRate := descField d 0x24 4 }

/-- A landing-buffer descriptor and its waybill, on its own (R247, R248): the reserved bytes are 0. -/
def descOk (img : Image) (d : BitVec 256) : Bool :=
  let b := bufDesc img 0 d
  b.kind == 0 ||
  (descField d 0x13 1 == 0 && descField d 0x18 8 == 0 && decide (b.kind ≤ 3) && decide (b.far ≤ 3) && decide (b.trigger ≤ 2) && decide (b.rate ≤ 4096) && decide (b.tix ≤ 65535)
   && decide (1 ≤ b.size) && decide (b.size ≤ 65536)
   && (if b.kind = 1 then decide (1 ≤ b.uses) && decide (b.uses ≤ 255) else b.uses == 0)
   && (if b.kind = 3 then b.prog.isEmpty else decide (1 ≤ b.prog.length) && decide (b.prog.length ≤ 32))
   && !b.prog.any badWaybill && nested 0 b.prog)

/-- A stack descriptor on its own (R158, R159): the reserved bytes are 0. -/
def stackOk (w : BitVec 512) : Bool :=
  let d := stackDesc w
  descField w 0x28 24 == 0 && d.size % 64 == 0 && decide (256 ≤ d.size) && decide (d.base + d.size ≤ 262144)
  && d.spillBase % 4096 == 0 && d.spillSize % 64 == 0 && decide (d.spillSize ≤ 16777216)
  && decide (1 ≤ d.pushRate) && decide (d.pushRate ≤ 4096) && decide (1 ≤ d.popRate) && decide (d.popRate ≤ 4096)
  && (d.spillSize == 0 || (decide (64 ≤ d.ahead) && decide (d.ahead ≤ d.low) && decide (d.low + 64 ≤ d.high)
      && decide (d.high + 64 ≤ d.size)))

/-- The accumulable ranges of a core (R223): base, rows. -/
def accumRange (r : BitVec 64) : Nat × Nat := (fld r 14 0, fld r 30 16 + 1)
def accumOk (rs : List (BitVec 64)) : Bool :=
  decide (rs.length ≤ 8) && rs.all (fun r => fld r 15 15 == 0 && fld r 63 32 == 0)
  && !anyPair (fun a b =>
      let x := accumRange a
      let y := accumRange b
      decide ((y.1 + 32768 - x.1) % 32768 < x.2) || decide ((x.1 + 32768 - y.1) % 32768 < y.2)) rs

/-- The code region of a core in granules. -/
def imgCode (c : CoreImage) : Nat × Nat := (c.codeBase / 256, (c.codeSize + 255) / 256)

/-- The landing buffers that a core's image uses. -/
def imgBuffers (img : Image) (c : CoreImage) : List BufDesc :=
  (c.bufs.map (fun d => bufDesc img d.1 d.2)).filter (fun b => b.kind != 0)

/-- The stack of a core, and whether it spills (R158, R159). -/
def imgStack (c : CoreImage) : Option StackDesc := c.stack.map stackDesc
def imgSpills (c : CoreImage) : Bool := (imgStack c).any (fun d => d.spillSize != 0)

/-- The bundles of a core's code pages: those of the start frame, and those that the code region of its deck column holds (R112,
R113). -/
def imgBundles (c : CoreImage) : List (BitVec 128) :=
  let code := c.deckData.filter (fun x => decide (c.codeBase ≤ x.1) && decide (x.1 < c.codeBase + c.codeSize))
  let t : Tab Nat := code.foldl (fun (t : Tab Nat) x =>
    let k := (x.1 - c.codeBase) / 16
    tset t k (tget t k 0 + x.2.toNat * 256 ^ ((x.1 - c.codeBase) % 16))) []
  c.bundles.map (·.2) ++ t.map (fun e => BitVec.ofNat 128 e.2)

/-- The operations of a core's code pages. -/
def imgOps (c : CoreImage) : List Instr := (imgBundles c).flatMap (fun b => (bundleOps 0 b).getD [])

/-- Whether the code of a core keeps to its buffers, its stack and the image's groups (R117, R118, R159, R248, R280): an LDL names a
fill, an STL a drain or index, PUSH and POP need a stack, and an UPDATE's group has a descriptor. -/
def opAllowed (img : Image) (c : CoreImage) (i : Instr) : Bool :=
  let kinds (d : BitVec 6) (ks : List Nat) : Bool := (imgBuffers img c).any (fun b => b.num == d.toNat && ks.contains b.kind)
  match i with
  | .ldl _ _ _ d => kinds d [1]
  | .stl _ _ _ d => kinds d [2, 3]
  | .push _ _ => c.stack.isSome
  | .pop _ _ => c.stack.isSome
  | .update _ o => img.groups.any (fun e => e.1 == o.imm)
  | _ => true

/-- Whether declared dependencies of buffers form a cycle (R260): one is left when those on buffers that need none are taken out
over and over. -/
def depCycle (deps : List (BufRef × BufRef)) : Nat → Bool
  | 0 => !deps.isEmpty
  | n + 1 => depCycle (deps.filter (fun e => deps.any (fun g => g.1 == e.2))) n

/-- The ranges, descriptors and code of one core (R114, R117, R118, R159, R223, R248, R280); `lpOk` says which spill
areas lie in an LPDDR5X range of the berth. -/
def coreOk (img : Image) (p : Nat) (lpOk : Nat → Nat → Bool) (c : CoreImage) : Bool :=
  let regions := (if c.codeSize = 0 then [] else [imgCode c]) ++ (imgBuffers img c).map (fun b => (b.base, b.size))
  accumOk c.accum
  && (match c.stack with
      | none => true
      | some w =>
        let d := stackDesc w
        stackOk w && !regions.any (meets (d.base, d.size))
          && (d.spillSize == 0 || lpOk d.spillBase (d.spillBase + 256 * d.spillSize)))
  && c.bufs.all (fun d => descOk img d.2) && (c.bufs.map (·.1)).eraseDups.length == c.bufs.length && (imgOps c).all (opAllowed img c)
  && (imgBuffers img c).all (fun b => decide (b.num < 64) && decide (b.base + b.size ≤ 262144) && !(imgSpills c && decide (62 ≤ b.num))
      && img.frames.all (fun h => (List.range 16).all (fun k =>
          !meets (b.base, b.size) (16384 * k, 16384) || (hdrOn h p true).getLsbD k)))
  && !anyPair meets regions

/-! ### Group descriptors (R280) -/

/-- An FP32 or FP64 value that is 0 or positive and finite. -/
def plain32 (w : Word) : Bool := !notFinite w && (!w.getLsbD 31 || w.toNat % 2 ^ 31 == 0)
def mag32 (w : Word) : Nat := w.toNat % 2 ^ 31
def unit64 (w : DWord) : Bool := decide (w.toNat < 0x3FF0000000000000) || w.toNat == 2 ^ 63

/-- A group descriptor within its ranges (R280). -/
def groupOk (e : Nat × GroupDesc) : Bool :=
  let d := e.2
  let pre := d.flags.getLsbD 1
  decide (e.1 < 64) && decide (d.warm ≤ 2) && decide (d.decay ≤ 5) && decide (d.flags.toNat < 4)
  && (if pre then decide (1 ≤ d.preIter) && decide (d.preIter ≤ 64) else d.preIter == 0)
  && (if d.warm = 0 then d.w == 0 else decide (1 ≤ d.w) && decide (d.w ≤ 2 ^ 31))
  && decide (1 ≤ d.p) && decide (d.p ≤ 2 ^ 31) && decide (1 ≤ d.mult) && decide (d.mult ≤ 16)
  && decide (1 ≤ d.preK) && decide (d.preK ≤ 65535)
  && [d.lrInit, d.lrPeak, d.lrMin, d.gamma, d.eps, d.wd, d.preEps, d.preTol].all plain32
  && decide (0 < mag32 d.gamma) && decide (mag32 d.gamma ≤ 0x3F800000) && unit64 d.beta1 && unit64 d.beta2
  && decide (0 < mag32 d.eps) && (!pre || (decide (0 < mag32 d.preEps) && decide (0 < mag32 d.preTol)))
  && !(d.warm == 2 && mag32 d.lrInit == 0) && decide (mag32 d.lrMin ≤ mag32 d.lrPeak)

/-! ### The order of the checks (R411) -/

/-- An entry of a retain table (R229). -/
def State.retainOk (s : State) (e : RetainEntry) : Bool :=
  decide (e.kind ≤ 1) && decide (e.lx < 16) && decide (1 ≤ e.count)
  && (match if e.kind = 0 then s.physOf e.lx e.ly else s.colOf e.lx e.ly with
      | some p => decide (e.base + e.count ≤ if e.kind = 0 then 32768 else 16384 * s.deckWindows p)
      | none => false)

/-- The 96-byte shape record (R32). -/
def State.shapeRecord (s : State) : List Byte :=
  bytesOf 0x50485347 4 ++ bytesOf 1 2 ++ bytesOf s.shape.rows 1 ++ bytesOf 0 1 ++ bytesOf s.shape.fenced.toNat 24
    ++ bytesOf s.shape.loss.toNat 48 ++ bytesOf s.shape.grade.toNat 1 ++ bytesOf (bitOf s.shape.degraded) 1 ++ bytesOf 0 14

/-- The shape hash (R33): the first 32 bytes of the digest over bytes 0x00 to 0x4F of the shape record. -/
def State.shapeHash (s : State) : BitVec 256 := (sha3 (s.shapeRecord.take 80)).setWidth 256

/-- Whether a port stream names a context that there is (R245). -/
def portStreamOk (x : PortStream) : Bool :=
  match x.blk with
  | 1 => decide (x.unit < 16) && decide (x.num < 128)
  | 2 => decide (x.unit < 32) && decide (x.num < 32)
  | 3 => decide (x.unit < 16) && decide (x.num < 128)
  | _ => false

/-- Whether a range lies within one LPDDR5X range of berth `b` (R159). -/
def State.inLpRange (s : State) (b lo hi : Nat) : Bool :=
  brtEnabled s.brt.live b && (List.range 16).any (fun k =>
    let r := brtLp s.brt.live b k
    decide (r.1 ≤ lo) && decide (hi ≤ r.1 + r.2.1))

/-- The content checks of an image (R411 step 3). -/
def State.imageRange (s : State) (b : Nat) (img : Image) : Bool :=
  let ends := img.frames.map (·.endMark)
  let tabs (ok : Nat → List (BitVec 128) → Bool) (ts : List (List (BitVec 128))) : Bool :=
    (ts.zip ends).all (fun x => ok x.2 x.1)
  decide (200000 ≤ img.period) && decide (img.period ≤ 40000000)
  && decide (1 ≤ img.frames.length) && decide (img.frames.length ≤ 65536) && img.frames.all (headerOk img.period)
  && img.cores.all (fun c => match s.physOf c.lx c.ly with
      | none => false
      | some p => tabs trainOk c.trains0 && tabs trainOk c.trains1 && tabs (fun e t => slotsOk p 0 e false img.marked t) c.slots
          && coreOk img p (s.inLpRange b) c)
  && img.fenced.all (fun f => s.isFenced f.pos
      && tabs (fun e t => slotsOk f.pos (65536 * s.deckWindows f.pos) e true img.marked t) f.slots)
  && decide (img.retain.length ≤ 64) && img.retain.all s.retainOk
  && img.ports.all portStreamOk && img.ports.all (fun x => descOk img x.desc)
  && (img.ports.map (fun x => (x.blk, x.unit, x.num))).eraseDups.length == img.ports.length
  && !depCycle img.deps img.deps.length && img.groups.all groupOk
  && decide (img.lanes.length ≤ 8) && img.lanes.all (fun l => decide (1 ≤ l.q) && decide (l.q ≤ 4096))

/-- The granules of a position that a table's entries name: FETCH and LOAD, and the rows that a router reads from or writes
to its pool (R201). -/
def tableGrans (slot : Bool) (t : List (BitVec 128)) : List (Nat × Nat) :=
  t.filterMap (fun e =>
    let op := fld e 31 28
    if slot then
      (if op = 5 then some (fld e 122 105, seLen e)
       else if op = 4 || (moves e && (claims e).testBit 5) then
        some (seRow e / 4, (seRow e + seLen e - 1) / 4 + 1 - seRow e / 4)
       else none)
    else if op = 5 then some (enGran e, (enLen e + 3) / 4) else if op = 7 then some (enGran e, enLen e) else none)

/-- The granules of its deck column that the image of a core uses. -/
def imgGrans (img : Image) (c : CoreImage) : List (Nat × Nat) :=
  (if c.codeSize = 0 then [] else [imgCode c]) ++ (imgBuffers img c).map (fun b => (b.base, b.size))
    ++ (match imgStack c with | some d => [(d.base, d.size)] | none => [])
    ++ c.deckData.map (fun x => (x.1 / 256, 1)) ++ (c.trains0 ++ c.trains1).flatMap (tableGrans false)
    ++ c.slots.flatMap (tableGrans true)

/-- Whether everything that an image uses is granted to the berth (R411 step 4). -/
def State.imageGranted (s : State) (b : Nat) (img : Image) : Bool :=
  let deck (p : Nat) (g : Nat × Nat) : Bool := s.grantsDeck b p g.1 (g.1 + g.2)
  img.cores.all (fun c => match s.physOf c.lx c.ly with
    | none => false
    | some p => s.grantsCore b p && (imgGrans img c).all (deck p))
  && img.fenced.all (fun f => f.deckData.all (fun x => deck f.pos (x.1 / 256, 1))
      && (f.slots.flatMap (tableGrans true)).all (deck f.pos))
  && img.retain.all (fun e => match s.colOf e.lx e.ly with
      | none => false
      | some p => if e.kind = 0 then s.grantsCore b p else deck p (e.base, e.count))
  && img.ports.all (fun x => s.grantsLp b x.stage (x.stage + 256 * (bufDesc img x.num x.desc).size))
  && img.colls.all (fun c => s.grantsVc b (2 + 2 * c.group) && s.grantsVc b (3 + 2 * c.group)
      && (!c.as8 || s.grantsLp b c.scale (c.scale + 2 * c.segments)))
  && img.windows.all (fun w => s.grantsVc b w.vc) && img.namespaces.all (s.grantsNs b)

/-- The status of LOAD or BIND_CHECK (R411): the four checks in their order. -/
def State.imageStatus (s : State) (b : Nat) (img : Image) : Nat :=
  if img.digest ≠ img.bodyDigest then 7
  else if img.shapeHash ≠ s.shapeHash then 6
  else if !s.imageRange b img then 2
  else if !s.imageGranted b img then 3
  else 0

/-! ### Placement (R34, R114, R141, R186, R286, R411) -/

/-- A table of entries by index. -/
def tabOf (t : List (BitVec 128)) : Tab (BitVec 128) := t.zipIdx.map (fun x => (x.2, x.1))

/-- What the core of an image is at the start of a run (R102, R113, R114): its code pages and ranges, everything else
undefined. -/
def imgCore (c : CoreImage) : CoreSt :=
  { CoreSt.reset with
    istore := c.bundles.foldl (fun t e => tset t e.1 e.2) [], accum := c.accum, codeBase := c.codeBase
    valid := c.slotsIn.foldl (fun v k => v ||| (1#16 <<< k)) 0 }

/-- The first tables of a stop and of a router. -/
def stopOf (t : List (List (BitVec 128))) (i : Nat) : StopSt := { StopSt.reset with bank0 := tabOf (t[i]?.getD []) }
def State.placeTables (s : State) (img : Image) (i : Nat) : State :=
  let s := { s with
    stop := [], core := []
    rtr := s.rtr.map (fun (e : Nat × RouterSt) => (e.1, { RouterSt.reset with ident := e.2.ident, gateShut := e.2.gateShut })) }
  let s := img.cores.foldl (fun (s : State) (c : CoreImage) =>
    match s.physOf c.lx c.ly with
    | none => s
    | some p =>
      ((((s.setCore p (imgCore c)).setStop (2 * p) (stopOf c.trains0 i)).setStop (2 * p + 1) (stopOf c.trains1 i)).onRtr p
        (fun r => { r with bank0 := tabOf (c.slots[i]?.getD []) }))) s
  img.fenced.foldl (fun (s : State) (f : FencedImage) =>
    s.onRtr f.pos (fun r => { r with bank0 := tabOf (f.slots[i]?.getD []) })) s

/-- The bytes that an image places in the deck columns, whose windows are made on for them; with `lost`, only where a window
has lost its contents since (R227, R411). -/
def State.placeDeck (s : State) (img : Image) (lost : Bool) : State :=
  let of (s : State) (p : Nat) (bs : List (Nat × Byte)) : State :=
    (List.range (s.deckWindows p)).foldl (fun (s : State) (k : Nat) =>
      let here := bs.filter (fun x => x.1 / 4194304 == k)
      let b := s.deckB p
      let kept := b.stateOf k == 0 || b.stateOf k == 1 || (b.stateOf k == 3 && (tfind b.wakeAt k).any (fun w => !w.2))
      if here.isEmpty || (lost && kept) then s
      else
        let s := s.bankOn p true k
        { s with deck := here.foldl (fun m x =>
            (m.set (67108864 * p + x.1) x.2).cleanWords (67108864 * p + x.1 / 8 * 8) 8) s.deck }) s
  let s := img.cores.foldl (fun (s : State) (c : CoreImage) =>
    match s.physOf c.lx c.ly with | some p => of s p c.deckData | none => s) s
  img.fenced.foldl (fun (s : State) (f : FencedImage) => of s f.pos f.deckData) s

/-- LOAD takes effect (R280, R286, R289, R411): the program replaces the loaded one. -/
def State.place (s : State) (b : Nat) (img : Image) : State :=
  let s := (s.placeTables img 0).placeDeck img false
  let s := s.onUpd (fun u => { u with
    damaged := false, adopted := false, skewShard := 0, skewRegion := 0, restored := none
    groups := img.groups.foldl (fun t e => tset t e.1 e.2) []
    shards := img.shards.foldl (fun t e => tset t e.1 { e.2 with t := 0 }) [] })
  s.onFrm (fun f => { f with prog := some { image := img, berth := b, loaded := true } })

end Sys2Proof.Machine
end

