-- ==== Sys2Proof/Machine/Checks.lean ====
section
/-! DEFINITION. The checks that firmware makes of a posted command (R399-R407), in their order, with the ranges of
R408-R417. -/

namespace Sys2Proof.Machine

/-! ### The command table (R408-R417) -/

/-- Who may post a command (R407): 0 any pigeonhole, 1 the berth or the admin, 2 the admin; none for an unknown opcode. -/
def cmdBy (op : Nat) : Option Nat :=
  if [0x0101, 0x0102, 0x0501, 0x0602, 0x0804, 0x0A01, 0x0A02].contains op then some 0
  else if [0x0103, 0x0401, 0x0402, 0x0502, 0x0503, 0x050B, 0x050C, 0x0601, 0x0802, 0x0803, 0x0901, 0x0902, 0x0903].contains op
    then some 2
  else if [0x0201, 0x0202, 0x0301, 0x0302, 0x0303, 0x0304, 0x0305, 0x0306, 0x0307, 0x0308, 0x0403, 0x0404, 0x0405, 0x0504,
      0x0505, 0x0506, 0x0507, 0x0508, 0x0509, 0x050A, 0x0701, 0x0702, 0x0703, 0x0801].contains op then some 1
  else none

/-- Commands that act on a berth or on its program, and so must name one. -/
def needsBerth (op : Nat) : Bool :=
  [0x0201, 0x0202, 0x0301, 0x0302, 0x0303, 0x0304, 0x0305, 0x0306, 0x0307, 0x0308, 0x0401, 0x0405, 0x0703].contains op

/-- The payload size of a command (R408-R417). -/
def plenOf (p : PghSt) : Nat :=
  match p.op with
  | 0x0103 => 6
  | 0x0301 => 0x18
  | 0x0302 => 0x18
  | 0x0303 => 0x69
  | 0x0304 => 2
  | 0x0307 => 0x0D
  | 0x0308 => 7
  | 0x0401 => 9
  | 0x0402 => 0x10
  | 0x0403 => 0x18
  | 0x0404 => 0x20
  | 0x0405 => 0x0D
  | 0x0502 => 4
  | 0x0503 => 0x10
  | 0x0504 => 2
  | 0x0505 => 1
  | 0x0506 => 0x20
  | 0x0507 => 0x20
  | 0x0508 => 0x10 + 16 * p.pl 8 2
  | 0x0509 => 0x10 + 16 * p.pl 8 2
  | 0x050A => 1
  | 0x050B => 6
  | 0x0601 => 0x23
  | 0x0702 => 4
  | 0x0703 => 0x18
  | 0x0801 => 0x0D
  | 0x0802 => 4
  | 0x0803 => 2
  | 0x0901 => 0x20
  | 0x0902 => 0x20
  | 0x0903 => 0x10
  | 0x0A01 => 8 + p.pl 0 1
  | _ => 0

def within (lo hi v : Nat) : Bool := decide (lo ≤ v) && decide (v ≤ hi)
def multiple (k v : Nat) : Bool := v % k == 0

/-- The fields of a payload: offset, bytes, and which values are in range on their own. Every other byte is reserved. -/
def fieldsOf (p : PghSt) : List (Nat × Nat × (Nat → Bool)) :=
  let any : Nat → Bool := fun _ => true
  match p.op with
  | 0x0103 => [(0, 1, within 0 12), (2, 2, within 0 255), (4, 2, within 1 60)]
  | 0x0301 => [(0, 1, fun v => v == 0 || v == 3), (8, 8, multiple 4096), (16, 8, within 1 17179869184)]
  | 0x0302 => [(0, 1, fun v => v == 0 || v == 3), (8, 8, multiple 4096), (16, 8, within 1 17179869184)]
  | 0x0303 => [(0, 2, any), (4, 4, any), (8, 32, any), (0x28, 32, any), (0x48, 32, any), (0x68, 1, within 0 7)]
  | 0x0304 => [(0, 1, within 0 1), (1, 1, within 0 1)]
  | 0x0307 => [(0, 4, within 0 3), (4, 4, within 0 1), (8, 4, within 0 255), (12, 1, within 0 7)]
  | 0x0308 => [(0, 4, fun v => match fp32.dec v with | .fin neg k _ => !neg || k == 0 | _ => false), (4, 1, within 0 2),
      (5, 1, within 0 63), (6, 1, within 0 1)]
  | 0x0401 => [(0, 8, fun v => multiple 65536 v && decide (0 < v)), (8, 1, within 0 1)]
  | 0x0402 => [(0, 8, multiple 65536), (8, 8, multiple 65536)]
  | 0x0403 => [(0, 1, within 0 2), (8, 8, multiple (if p.pl 0 1 = 0 then 65536 else 64)),
      (16, 8, multiple (if p.pl 0 1 = 0 then 65536 else 64))]
  | 0x0404 =>
    let g (k : Nat) : Nat := match p.pl k 1 with | 0 => 65536 | 3 => 1 | _ => 64
    let lg := max (g 0) (g 1)
    [(0, 1, within 0 3), (1, 1, within 0 3), (8, 8, multiple (g 0)), (16, 8, multiple (g 1)),
      (24, 8, fun v => multiple lg v && decide (v ≤ 68719476736))]
  | 0x0405 => [(0, 8, multiple 4096), (8, 4, within 1 262144), (12, 1, within 0 1)]
  | 0x0502 => [(0, 1, fun v => v == 8 || v == 16 || v == 32), (1, 1, within 0 1), (2, 2, within 1 720)]
  | 0x0503 => [(0, 1, within 0 63), (1, 1, within 0 3), (2, 1, fun v => v == 0 || (v == 1 && p.pl 1 1 == 2)),
      (3, 1, fun v => v == 0 || (decide (v ≤ 16) && p.pl 1 1 == 1)), (8, 8, any)]
  | 0x0504 => [(0, 1, within 0 63), (1, 1, within 0 1)]
  | 0x0505 => [(0, 1, within 0 63)]
  | 0x0506 => [(0, 1, within 0 63), (1, 1, fun v => v == 0 || v == 3), (8, 8, multiple 4096), (16, 8, any),
      (24, 8, fun v => multiple 4096 v && decide (v ≤ 68719476736))]
  | 0x0507 => [(0, 1, within 0 63), (1, 1, fun v => v == 0 || v == 3), (8, 8, multiple 4096), (16, 8, any),
      (24, 8, fun v => multiple 4096 v && decide (v ≤ 68719476736))]
  | 0x0508 => [(0, 1, within 0 63), (4, 4, any), (8, 2, within 1 96), (16, 16 * p.pl 8 2, any)]
  | 0x0509 => [(0, 1, within 0 63), (4, 4, any), (8, 2, within 0 96), (16, 16 * p.pl 8 2, any)]
  | 0x050A => [(0, 1, within 0 63)]
  | 0x050B => [(0, 4, any), (4, 2, within 1 120)]
  | 0x0601 => [(0, 4, within 0 262143), (4, 1, within 1 6), (5, 6, any), (0x0B, 1, fun v => v == 7 || decide (v ≤ 5)),
      (0x0C, 1, fun v => v == 7 || decide (v ≤ 5)), (0x0D, 3, within 0 262143), (0x10, 1, any), (0x12, 2, any), (0x14, 2, any),
      (0x18, 4, within 100 10000), (0x1C, 4, within 5 10000), (0x20, 3, within 0 262143)]
  | 0x0702 => [(0, 1, within 0 15), (1, 1, within 0 10), (2, 1, within 0 63), (3, 1, within 1 64)]
  | 0x0703 => [(0, 1, within 0 7), (1, 1, fun v => v == 0 || within 8 20 v), (8, 8, multiple 65536), (16, 8, multiple 65536)]
  | 0x0801 => [(0, 4, within 0 15), (4, 4, any), (8, 4, within 0 65535), (12, 1, within 0 7)]
  | 0x0802 => [(0, 2, within 1850 2100), (2, 1, within 0 4), (3, 1, within 0 3)]
  | 0x0803 => [(0, 2, within 800 1800)]
  | 0x0901 => [(0, 1, within 0 1), (1, 1, within 0 3), (8, 24, any)]
  | 0x0902 => [(0, 1, within 0 1), (2, 2, within 1 65535), (4, 2, within 1 65535), (8, 24, any)]
  | 0x0903 => [(0, 1, within 0 3), (1, 1, within 1 2), (2, 1, fun v => v == 0 || (v == 1 && p.pl 0 1 == 3)), (8, 8, any)]
  | 0x0A01 => [(0, 1, within 32 64), (8, p.pl 0 1, any)]
  | _ => []

/-- The least of some offsets. -/
def least (l : List Nat) : Option Nat := l.foldl (fun m x => match m with | none => some x | some y => some (min x y)) none

/-- The first offending field of a payload on its own (R407 step 3): a value out of range or a reserved byte set. -/
def badField (p : PghSt) : Option Nat :=
  let fs := fieldsOf p
  let gaps := (List.range (plenOf p)).filter (fun k =>
    !fs.any (fun f => decide (f.1 ≤ k) && decide (k < f.1 + f.2.1)) && p.pl k 1 != 0)
  (least ((fs.filter (fun f => !f.2.2 (p.pl f.1 f.2.1))).map (·.1) ++ gaps)).map (64 + ·)

/-- The first offending byte of the header (R404, R407 step 3). ATTEST and GRADE_RECORD need a buffer of 8 KiB. -/
def badHeader (p : PghSt) : Option Nat :=
  let res := ((List.range 54).map (· + 10)).filter (fun k => !(within 0x10 0x1B k) && tabRead p.copy k 1 != 0)
  let pick (b : Bool) (o : Nat) : List Nat := if b then [o] else []
  let room := p.op / 256 == 0x0A
  least (res ++ pick (decide (4 ≤ tabRead p.copy 9 1)) 9 ++ pick (decide (16 ≤ p.berth) && p.berth != 0xFF) 8
    ++ pick (p.buf % 4096 != 0 || decide (2 ^ 52 ≤ p.buf) || (room && p.buf == 0)) 0x10 ++ pick (p.plen != plenOf p) 4
    ++ pick (room && decide (p.buflen < 8192)) 0x18)

/-! ### Authority and device state (R403, R407 step 2, R412, R417, R419) -/

/-- Whether the loaded program is of berth `b`. -/
def State.mine (s : State) (b : Nat) : Bool := s.frm.prog.any (fun g => g.berth == b)

/-- Whether RUN, RESUME and STEP are denied: a damaged commit, the holdover, a lost clock (R289, R424, R468). -/
def State.stuck (s : State) : Bool := s.upd.damaged || s.pwr.holdover || s.post.noRun

/-- Whether the deck ranges of a command's list may be read or written: a checkpoint needs a stop at tick (R322). -/
def State.atTickStop (s : State) : Bool := s.frm.phase == 0 || (s.frm.phase == 3 && s.frm.stopKind == .atTick)

/-- The ranges of CHECKPOINT or RESTORE: deck or LPDDR5X, address, length (R415). -/
def rangesOf (p : PghSt) : List (Bool × Nat × Nat) :=
  (List.range (p.pl 8 2)).map (fun k =>
    let a := p.pl (16 + 16 * k) 8
    (a.testBit 63, a % 2 ^ 63, p.pl (24 + 16 * k) 8))

/-- The namespace that a command names. -/
def nsOf (op : Nat) (p : PghSt) : Option Nat :=
  if [0x0503, 0x0504, 0x0505, 0x0506, 0x0507, 0x0508, 0x0509, 0x050A].contains op then some (p.pl 0 1) else none

/-- Whether the state of the device forbids the command (R407 step 2). -/
def State.stateDenies (s : State) (n : Nat) (p : PghSt) : Bool :=
  let admin := decide (n < 4)
  let b := p.berth
  let vis := admin || brtFlag s.brt.live b 1
  match p.op with
  | 0x0303 => !s.mine b || s.stuck
  | 0x0304 => !s.mine b
  | 0x0305 => !s.mine b || s.frm.phase != 3 || s.stuck
  | 0x0306 => !s.mine b || s.frm.phase != 3 || s.stuck || s.frm.grantsChanged || !s.frm.prog.any (fun g => s.imageGranted b g.image)
  | 0x0307 => !s.mine b
  | 0x0308 => !s.mine b
  | 0x0502 => s.frm.prog.isSome
  | 0x0508 => s.upd.damaged || ((rangesOf p).any (·.1) && !s.atTickStop)
  | 0x0701 => !vis || (!admin && (s.region b).size == 0)
  | 0x0702 => !vis
  | 0x0703 => !brtFlag s.brt.live b 2
  | 0x0801 => !admin && !s.mine b
  | 0x0903 => p.pl 0 1 == 3 && !s.runs
  | _ => false

/-- Authority and state (R407 step 2): the offending field, if the command is denied. -/
def State.denied (s : State) (n : Nat) (p : PghSt) (by_ : Nat) : Option Nat :=
  let admin := decide (n < 4)
  let b := p.berth
  if (s.shape.restricted || s.shape.unusable) && !([1, 9, 10].contains (p.op / 256)) then some 0
  else if by_ = 2 && !admin then some 0
  else if !admin && b != s.owner n && !(by_ == 0 && b == 0xFF) then some 8
  else if b == 0xFF && needsBerth p.op then some 8
  else if s.post.killing.contains b && p.op != 0x0201 && p.op != 0x0202 then some 8
  else if s.stateDenies n p then some 0
  else none

/-! ### Ranges that depend on the device (R407 step 3) -/

/-- A ring descriptor of RUN (R413) at payload offset `o`. -/
def ringAt (p : PghSt) (o : Nat) : RingDesc :=
  { base := p.pl o 8, mirror := p.pl (o + 8) 8, entry := p.pl (o + 16) 4, count := p.pl (o + 20) 4, nIn := p.pl (o + 24) 4 }

/-- The first field of a ring descriptor that is out of range; `mirror` is that of the descriptors before it. -/
def badRing (p : PghSt) (k : Nat) (mirror : Option Nat) : Option Nat :=
  let o := 8 + 32 * k
  let r := ringAt p o
  let pick (b : Bool) (x : Nat) : List Nat := if b then [64 + o + x] else []
  least (pick (r.base % 4096 != 0) 0 ++ pick (r.mirror % 64 != 0 || mirror.any (· != r.mirror)) 8
    ++ pick (r.entry % 64 != 0 || !within 64 65536 r.entry) 16
    ++ pick (!within 2 65536 r.count || r.count &&& (r.count - 1) != 0) 20
    ++ pick (if k = 0 then !within 1 65536 r.nIn else r.nIn != 0) 24 ++ pick (p.pl (o + 28) 4 != 0) 28)

/-- The rings that RUN names, 0 intake, 1 query, 2 answer. -/
def ringsOf (p : PghSt) : List Nat := (List.range 3).filter (fun k => (p.pl 0x68 1).testBit k)

/-- The period in force (R44, R366): with the system tick, that of the last TICK. -/
def State.periodInForce (s : State) : Nat :=
  if s.frm.src == 3 then (if s.pont.master then s.frm.period else (s.pont.lastTick.map (·.2.2)).getD 0) else s.frm.period

/-- Whether the answer and query rings that a lane needs are missing (R413). -/
def State.lanesMiss (s : State) (p : PghSt) : Bool :=
  !s.lanes.isEmpty && !((ringsOf p).contains 1 && (ringsOf p).contains 2)

/-- Usable capacity of a SPACE in bytes: LPDDR5X, deck, near store, host. -/
def State.spaceSize (s : State) (space : Nat) : Nat :=
  match space with
  | 0 => s.lpCap
  | 1 => 192 * 67108864
  | 2 => 192 * 2097152
  | _ => 2 ^ 52

/-- Whether bytes of a SPACE overlap. -/
def spacesMeet (a b : Nat × Nat × Nat) : Bool := a.1 == b.1 && meets (a.2.1, a.2.2) (b.2.1, b.2.2)

/-- Bits of c_j (R417), and the element count of a pass, in the mode of an active tile. -/
def checksumBits (m : ModeInfo) : Nat := if m.mx then 39 else 32

/-- The word, block or checksum that INJECT names, in range (R417). -/
def State.injectOk (s : State) (p : PghSt) : Bool :=
  let a := p.pl 8 8
  match p.pl 0 1 with
  | 0 => decide (a < s.spaceSize 2)
  | 1 => decide (a < s.spaceSize 1) && s.deckPresent (a / 67108864) (a % 67108864 / 256)
  | 2 => decide (a < s.lpCap)
  | _ =>
    let i := a % 256
    let t := ((s.coreAt i).arr (if p.pl 2 1 = 0 then 0 else 1)).active
    decide (a < 2 ^ 22) && s.isLive i
    && (match modeInfo t.mode.toNat with
        | none => false
        | some m => decide (a / 256 % 256 < m.depth) && decide (a / 65536 % 64 + p.pl 1 1 ≤ checksumBits m))

/-- The version that RESTORE names (R415): 0 for the newest. -/
def State.versionOf (s : State) (p : PghSt) : Option DepotVersion :=
  (tfind s.depot.ns (p.pl 0 1)).bind (fun x =>
    if p.pl 4 4 = 0 then x.versions.getLast? else x.versions.find? (fun y => y.num == p.pl 4 4))

/-- Bytes of some ranges, and the bytes of a namespace that its sealed versions and a new one take, in whole units. -/
def bytesIn (rs : List (Nat × Nat × Nat)) : Nat := (rs.map (fun r => r.2.2)).foldl (· + ·) 0
def inUnits (n : Nat) : Nat := (n + 65535) / 65536

/-- The ranges of a command as SPACE, address and bytes. -/
def spacesOf (p : PghSt) : List (Nat × Nat × Nat) := (rangesOf p).map (fun r => (if r.1 then 1 else 0, r.2.1, r.2.2))

/-- A namespace's number and fields that NS commands need: it exists, and the transfer lies in it (R304, R308, R415). -/
def State.nsRange (s : State) (p : PghSt) : Option Nat :=
  let ns := p.pl 0 1
  match tfind s.depot.ns ns with
  | none => if p.op = 0x0503 then
      (let free := s.depot.usable - (s.depot.ns.map (·.2.size)).foldl (· + ·) 0
       if decide (free < p.pl 8 8) || decide (2 ^ 34 ≤ p.pl 8 8) then some 0x48 else none)
    else some 0x40
  | some x =>
    let off := p.pl 8 8
    let len := p.pl 24 8
    let bytes := 65536 * x.size
    match p.op with
    | 0x0503 => some 0x40
    | 0x0506 => if off + len ≤ bytes then none else some 0x58
    | 0x0507 =>
      if x.kind = 2 && off ≠ x.append then some 0x48
      else if (if x.kind = 2 && x.ring then decide (bytes < len) else decide (bytes < off + len)) then some 0x58
      else none
    | 0x0508 =>
      let used := (x.versions.map (fun v => inUnits (bytesIn v.ranges))).foldl (· + ·) 0
      if x.kind = 1 && decide (x.size < used + inUnits (bytesIn (spacesOf p))) then some 0x48 else none
    | 0x0509 =>
      let v := p.pl 4 4
      if x.kind = 1 && (x.versions.isEmpty || (v != 0 && !x.versions.any (fun y => y.num == v))) then some 0x44
      else none
    | _ => none

/-- The first offending field among those whose range depends on the device. -/
def State.badRange (s : State) (p : PghSt) : Option Nat :=
  let sp (k : Nat) : Nat := p.pl k 1
  match p.op with
  | 0x0301 => if p.pl 8 8 + p.pl 16 8 ≤ s.spaceSize (sp 0) then none else some 0x48
  | 0x0302 => if p.pl 8 8 + p.pl 16 8 ≤ s.spaceSize (sp 0) then none else some 0x48
  | 0x0303 =>
    if s.frm.prog.any (fun g => decide (g.image.frames.length ≤ p.pl 0 2)) then some 0x40
    else
      let mir := (ringsOf p).head?.map (fun k => p.pl (16 + 32 * k) 8)
      match least ((ringsOf p).filterMap (fun k => badRing p k mir)) with
      | some o => some o
      | none =>
        if s.lanesMiss p then some 0xA8
        else if s.frm.src == 3 && s.pont.lastTick.isNone && !s.pont.master then none
        else if s.frm.prog.any (fun g => decide (s.periodInForce < g.image.period)) then some 0
        else none
  | 0x0402 =>
    let hit := (List.range 16).any (fun b => (List.range 16).any (fun k =>
      let r := brtLp s.brt.live b k
      decide (0 < r.2.1) && r.1 == p.pl 0 8 && r.2.1 == p.pl 8 8))
    if hit then none else some 0x48
  | 0x0403 => if p.pl 8 8 + p.pl 16 8 ≤ s.spaceSize (sp 0) then none else some 0x48
  | 0x0404 =>
    if s.spaceSize (sp 0) < p.pl 8 8 + p.pl 24 8 then some 0x48
    else if s.spaceSize (sp 1) < p.pl 16 8 + p.pl 24 8 then some 0x50
    else if spacesMeet (sp 0, p.pl 8 8, p.pl 24 8) (sp 1, p.pl 16 8, p.pl 24 8) then some 0x58
    else none
  | 0x0405 => if p.pl 0 8 + 4096 * p.pl 8 4 ≤ s.hdmSize then none else some 0x40
  | 0x0508 =>
    match least ((rangesOf p).zipIdx.filterMap (fun x =>
        if x.1.2.1 + x.1.2.2 ≤ s.spaceSize (if x.1.1 then 1 else 0) then none else some (0x50 + 16 * x.2))) with
    | some o => some o
    | none => s.nsRange p
  | 0x0509 =>
    match least ((rangesOf p).zipIdx.filterMap (fun x =>
        if x.1.2.1 + x.1.2.2 ≤ s.spaceSize (if x.1.1 then 1 else 0) then none else some (0x50 + 16 * x.2))) with
    | some o => some o
    | none =>
      match s.nsRange p with
      | some o => some o
      | none =>
        let ver := s.versionOf p
        let rs := rangesOf p
        if rs.isEmpty || ver.all (fun y => y.ranges.length == rs.length
            && (y.ranges.zip rs).all (fun z => z.1.2.2 == z.2.2.2)) then none
        else some 0x48
  | 0x0601 =>
    let lens := (List.range 6).map (fun d => p.pl (5 + d) 1)
    let nd := p.pl 4 1
    let bad := lens.zipIdx.any (fun x => if x.2 < nd then !within 2 16 x.1 else x.1 != 1)
    let skip (o : Nat) : Bool := let v := p.pl o 1; v != 7 && (decide (nd ≤ v) || decide (p.pl (5 + v) 1 < 4))
    if bad || decide (262144 < lens.foldl (· * ·) 1) then some 0x45
    else if skip 0x0B then some 0x4B
    else if skip 0x0C then some 0x4C
    else if decide (s.frm.period < 4000 * p.pl 0x1C 4) then some 0x5C
    else if p.pl 0x20 3 == p.pl 0x0D 3 then some 0x60
    else none
  | 0x0702 =>
    if (s.physOf (p.pl 0 1) (p.pl 1 1)).isNone then some 0x40
    else if 64 < p.pl 2 1 + p.pl 3 1 then some 0x43
    else none
  | 0x0703 =>
    if p.pl 0 1 = 0 && p.pl 16 8 = 0 then none
    else if !within 262144 17179869184 (p.pl 16 8) then some 0x50
    else if s.lpCap < p.pl 8 8 + p.pl 16 8 then some 0x48
    else none
  | 0x0903 => if s.injectOk p then none else some 0x48
  | _ => if (nsOf p.op p).isSome then s.nsRange p else none

/-! ### Grants (R407 step 4) -/

/-- Whether the bytes from `a` over `n` of a SPACE are granted to berth `b`. -/
def State.grantsSpace (s : State) (b space a n : Nat) : Bool :=
  match space with
  | 0 => s.grantsLp b a (a + n)
  | 1 => (List.range 192).all (fun p =>
      let lo := max a (67108864 * p)
      let hi := min (a + n) (67108864 * (p + 1))
      decide (hi ≤ lo) || s.grantsDeck b p (lo % 67108864 / 256) ((hi - 67108864 * p + 255) / 256))
  | 2 => (List.range 192).all (fun p =>
      decide (min (a + n) (2097152 * (p + 1)) ≤ max a (2097152 * p)) || s.grantsCore b p)
  | _ => s.grantsHpa b a (a + n)

/-- The ranges of memory that a command names: SPACE, address, bytes, and the field that names it. -/
def touched (p : PghSt) : List (Nat × Nat × Nat × Nat) :=
  match p.op with
  | 0x0301 => [(p.pl 0 1, p.pl 8 8, p.pl 16 8, 0x48)]
  | 0x0302 => [(p.pl 0 1, p.pl 8 8, p.pl 16 8, 0x48)]
  | 0x0303 => (ringsOf p).flatMap (fun k =>
      let r := ringAt p (8 + 32 * k)
      [(3, r.base, r.entry * r.count, 0x48 + 32 * k), (3, r.mirror, 64, 0x50 + 32 * k)])
  | 0x0403 => [(p.pl 0 1, p.pl 8 8, p.pl 16 8, 0x48)]
  | 0x0404 => [(p.pl 0 1, p.pl 8 8, p.pl 24 8, 0x48), (p.pl 1 1, p.pl 16 8, p.pl 24 8, 0x50)]
  | 0x0405 => [(0, p.pl 0 8, 4096 * p.pl 8 4, 0x40)]
  | 0x0506 => [(p.pl 1 1, p.pl 16 8, p.pl 24 8, 0x50)]
  | 0x0507 => [(p.pl 1 1, p.pl 16 8, p.pl 24 8, 0x50)]
  | 0x0508 => (rangesOf p).zipIdx.map (fun x => (if x.1.1 then 1 else 0, x.1.2.1, x.1.2.2, 0x50 + 16 * x.2))
  | 0x0509 => (rangesOf p).zipIdx.map (fun x => (if x.1.1 then 1 else 0, x.1.2.1, x.1.2.2, 0x50 + 16 * x.2))
  | 0x0703 => if p.pl 16 8 = 0 then [] else [(0, p.pl 8 8, p.pl 16 8, 0x48)]
  | _ => []

/-- What a namespace refuses to a command (R304, R306, R322): a lock, or its kind. -/
def State.nsDenies (s : State) (p : PghSt) : Bool :=
  match (nsOf p.op p).bind (tfind s.depot.ns) with
  | none => false
  | some x =>
    (x.locked && p.op != 0x0505)
    || (match p.op with
        | 0x0506 => x.kind == 1
        | 0x0507 => x.kind == 1 || (x.kind == 3 && s.runs && s.frm.prog.any (fun g => brtNs s.brt.live g.berth (p.pl 0 1)))
        | 0x0508 => x.kind != 1
        | 0x0509 => x.kind != 1
        | 0x050A => x.kind != 1
        | _ => false)

/-- The first thing named that is not granted (R407 step 4), with what R362 and R366 deny a RUN. -/
def State.notGranted (s : State) (p : PghSt) : Option Nat :=
  let b := p.berth
  let named := decide (b < 16)
  let spaces := (touched p).find? (fun t => !s.grantsSpace b t.1 t.2.1 t.2.2.1)
  if named && p.buf ≠ 0 && !s.grantsHpa b p.buf (p.buf + p.buflen) then some 0x10
  else if named && spaces.isSome then spaces.map (·.2.2.2)
  else if named && (nsOf p.op p).any (fun ns => p.op != 0x0503 && !s.grantsNs b ns) then some 0x40
  else if s.nsDenies p then some 0x40
  else match p.op with
    | 0x0509 =>
      let rs := if (rangesOf p).isEmpty then ((s.versionOf p).map (·.ranges)).getD [] else []
      if named && rs.any (fun r => !s.grantsSpace b r.1 r.2.1 r.2.2) then some 0x44 else none
    | 0x0303 =>
      if s.frm.src == 3 && s.pont.lastTick.isNone && !s.pont.master then some 0
      else if s.frm.src != 3 && s.frm.prog.any (fun g => g.image.colls.any (·.gated)) then some 0
      else none
    | 0x0702 => if named && !(s.physOf (p.pl 0 1) (p.pl 1 1)).any (s.grantsCore b) then some 0x40 else none
    | _ => none

/-! ### Resources (R400, R407 step 5) -/

/-- The resources of R400 by their DETAIL codes that a command needs: the program state, one namespace (with its number),
the Depot as a whole, the Pontoon configuration, the clock settings. -/
def resource (p : PghSt) : Option (Nat × Nat) :=
  let op := p.op
  if [0x0202, 0x0301, 0x0303, 0x0304, 0x0305, 0x0306, 0x0307, 0x0308].contains op then some (0x0101, 0)
  else if (nsOf op p).isSome then some (0x0102, p.pl 0 1)
  else if op = 0x0502 then some (0x0103, 0)
  else if op = 0x0601 then some (0x0104, 0)
  else if op / 256 = 8 && op ≠ 0x0804 then some (0x0105, 0)
  else none

/-- Whether a resource of another running command is in the way; a FORMAT needs every namespace. -/
def State.resourceHeld (s : State) (n : Nat) (p : PghSt) : Option Nat :=
  let others := s.running.filter (fun m => m != n)
  match resource p with
  | none => none
  | some r =>
    if others.any (fun m => resource (s.pghAt m) == some r) then some r.1
    else if r.1 = 0x0102 && others.any (fun m => (s.pghAt m).op == 0x0502) then some 0x0103
    else if r.1 = 0x0103 && others.any (fun m => ((resource (s.pghAt m)).map (·.1)) == some 0x0102) then some 0x0103
    else none

/-- Whether the berth-table shadow differs from the live table (R414, R490). -/
def State.shadowDirty (s : State) : Bool := s.brt.shadow != s.brt.live

/-- What else a command must wait for (R400, R406, R410, R414-R417, R431): the DETAIL of its BUSY. -/
def State.busy (s : State) (n : Nat) (p : PghSt) : Option Nat :=
  let op := p.op
  let runs := s.runs
  let depot := decide (op / 256 = 5) && op != 0x0501
  let writes := op == 0x0502 || op == 0x0507 || op == 0x0508 || op == 0x0503 || op == 0x0504
  if op = 0x0202 || op = 0x0304 then none
  else match s.resourceHeld n p with
    | some d => some d
    | none =>
      let rescan := op == 0x0502 && p.pl 1 1 == 1 && s.depot.state == 0 && s.depot.found != []
      if depot && s.depot.state != 1 && s.depot.state != 2 && !rescan then some 0x0103
      else if writes && (s.depot.quiescing || s.depot.flushing) then some 0x0103
      else match op with
        | 0x0301 => if runs then some 0x0107 else none
        | 0x0303 => if runs then some 0x0107 else none
        | 0x0401 => if s.shadowDirty then some 0x0106 else none
        | 0x0402 => if s.shadowDirty then some 0x0106 else none
        | 0x0403 => if runs && (p.pl 0 1 == 1 || p.pl 0 1 == 2) && (p.berth == 0xFF || s.mine p.berth) then some 0x0107 else none
        | 0x0404 =>
          if runs && [p.pl 0 1, p.pl 1 1].any (fun x => x == 1 || x == 2) && (p.berth == 0xFF || s.mine p.berth) then some 0x0107
          else none
        | 0x0509 => if runs then some 0x0107 else none
        | 0x0601 => if runs then some 0x0107 else none
        | 0x0802 => if runs && p.pl 2 1 ≠ s.pwr.memStep && p.pl 2 1 ≠ s.pwr.setPoint then some 0x0107 else none
        | 0x0901 => if s.frm.prog.any (fun g => g.loaded) then some 0x0107 else none
        | _ => none

/-! ### The order (R407) -/

/-- What the checks of a command answer: nothing when it may run. -/
def State.checkCmd (s : State) (n : Nat) (p : PghSt) : Option Answer :=
  match cmdBy p.op with
  | none => some { status := 8 }
  | some by_ =>
    match s.denied n p by_ with
    | some o => some { status := 3, field := o }
    | none =>
      match badHeader p with
      | some o => some { status := 2, field := o }
      | none =>
        match badField p with
        | some o => some { status := 2, field := o }
        | none =>
          match s.badRange p with
          | some o => some { status := 2, field := o }
          | none =>
            match s.notGranted p with
            | some o => some { status := 3, field := o }
            | none => (s.busy n p).map (fun d => { status := 1, detail := d })

end Sys2Proof.Machine
end

