-- ==== Sys2Proof/Machine/Programs.lean ====
section
/-! DEFINITION. The program commands of group 0x03 and the berth commands of group 0x02 (R409-R413, R418, R419), with the
scrub of a kill (R231, R232, R495). -/

namespace Sys2Proof.Machine

/-! ### LOAD and BIND_CHECK (R411) -/

/-- The response data of LOAD (R411). -/
def loadData (img : Image) : List Byte :=
  bytesOf img.digest.toNat 64 ++ bytesOf img.shapeHash.toNat 32 ++ bytesOf img.period 4 ++ bytesOf img.frames.length 4

/-- The field behind a status of an image check: its address, for RANGE and DENIED (R405). -/
def imageField (status : Nat) : Nat := if status = 2 || status = 3 then 0x48 else 0

/-- LOAD (R411): the checks in their order, then the placement. -/
def execLoad (n : Pgh) (img : Image) (s : State) : Host.Outcome State Fault Refusal :=
  .next (s.command n 0x0301 (fun s p =>
    let st := s.imageStatus p.berth img
    if st = 0 then (s.place p.berth img).finishCmd n.val { data := loadData img }
    else s.finishCmd n.val { status := st, field := imageField st }))

/-- BIND_CHECK (R411): the same checks; the offset of the first failing item is open, because the spec does not give the
container of an image (log entries 3, 9). -/
def execBindCheck (n : Pgh) (img : Image) (s : State) : Host.Outcome State Fault Refusal :=
  .next (s.command n 0x0302 (fun s p =>
    let st := s.imageStatus p.berth img
    s.tickFresh.finishCmd n.val {
      status := st, field := imageField st, data := loadData img ++ bytesOf (Config.choice s.fresh).toNat 8 }))

/-! ### RUN (R34, R44, R102, R134, R230, R280, R286, R353, R412, R413) -/

/-- The entries of an image's retain table that berth `b` receives intact, by index, with their regions (R230). -/
def State.intact (s : State) (b : Nat) (img : Image) : List (Nat × Retained) :=
  img.retain.zipIdx.filterMap (fun x =>
    (s.post.retained.find? (fun r => r.berth == b && r.entry == x.1 && r.shape == s.shapeHash
      && s.colOf x.1.lx x.1.ly == some r.pos)).map (fun r => (x.2, r)))

/-- The deck bytes that an image placed. -/
def State.placedRanges (s : State) (img : Image) : List (Nat × Nat) :=
  let of (p : Nat) (bs : List (Nat × Byte)) : List (Nat × Nat) :=
    bs.map (fun x => (67108864 * p + x.1, 67108864 * p + x.1 + 1))
  img.cores.flatMap (fun c => match s.physOf c.lx c.ly with | some p => of p c.deckData | none => [])
    ++ img.fenced.flatMap (fun f => of f.pos f.deckData)

/-- The contexts of an image, done until their first trigger (R245-R247, R255); HELD and WAITED go on (R259, R498). -/
def State.contextsOf (s : State) (b : Nat) (img : Image) : Tab CtxSt :=
  let mk (k stage : Nat) (d : BufDesc) : CtxSt :=
    { (s.ctxAt k).unuse with desc := some d, berth := b, stage := stage, status := .done }
  let cores := img.cores.foldl (fun (t : Tab CtxSt) (c : CoreImage) =>
    match s.physOf c.lx c.ly with
    | none => t
    | some p => (imgBuffers img c).foldl (fun t d => tset t (ctxKey 0 p d.num) (mk (ctxKey 0 p d.num) 0 d)) t)
    (s.ctx.map (fun e => (e.1, e.2.unuse)))
  img.ports.foldl (fun t x =>
    let d := bufDesc img x.num x.desc
    let k := ctxKey x.blk x.unit x.num
    if d.kind = 0 then t else tset t k (mk k x.stage d)) cores

/-- The stacks of an image, empty (R160). -/
def State.stacksOf (s : State) (img : Image) : Tab StackSt :=
  img.cores.foldl (fun (t : Tab StackSt) (c : CoreImage) =>
    match s.physOf c.lx c.ly, imgStack c with
    | some p, some d => tset t p { StackSt.reset with desc := some d }
    | _, _ => t) []

/-- Whether an event code of R501 is not reserved. -/
def eventOk (e : Nat) : Bool :=
  decide (e ≤ 0x0A) || within 0x10 0x14 e || within 0x18 0x1B e || within 0x20 0x22 e || within 0x24 0x29 e
  || within 0x30 0x35 e || e == 0x38 || e == 0x39

/-- Eight selections written: a reserved code leaves its selection as it was (R5, R501). -/
def newSel (old new : DWord) : DWord :=
  let b (w : DWord) (k : Nat) : Nat := w.toNat / 2 ^ (8 * k) % 256
  BitVec.ofNat 64 (((List.range 8).map (fun k => (if eventOk (b new k) then b new k else b old k) * 2 ^ (8 * k))).foldl (· + ·) 0)

/-- The selections of an image's counter table; a write of a selection clears its counter (R500), a reserved one is dropped
(R5, R501). -/
def State.selectCounters (s : State) (img : Image) : State :=
  let sel := img.cores.foldl (fun (t : Tab DWord) (c : CoreImage) =>
    match s.physOf c.lx c.ly with | some p => tset t p (newSel (tget t p 0) c.cntSel) | none => t) s.cnt.sel
  let cleared (k : Nat) : Bool :=
    decide (k / 65536 = 8) && decide (k % 64 < 8) && img.cores.any (fun c =>
      s.physOf c.lx c.ly == some (k % 65536 / 64) && eventOk (c.cntSel.toNat / 2 ^ (8 * (k % 64)) % 256))
  { s with cnt := { s.cnt with
      sel := sel
      val := s.cnt.val.filter (fun e => !cleared e.1), ovf := s.cnt.ovf.filter (fun e => !cleared e.1) } }

/-- The current buffer of every AS8 scale table takes INIT_SCALE, unless RESTORE has written both buffers (R353). -/
def State.initScales (s : State) (img : Image) (step : Nat) : State :=
  img.colls.foldl (fun (s : State) (c : CollDesc) =>
    let kept := match s.upd.restored with
      | some rs => coveredBy (rs.map (fun r => (r.1, r.2 - r.1))) c.scale (c.scale + 2 * c.segments) (rs.length + 1)
      | none => false
    if c.as8 && !kept then s.lpWriteBytes (scaleAddr c step 0) (List.replicate c.segments c.initScale) false else s) s

/-- RUN takes effect: the invocation's start (R102, R230, R412). -/
def State.startRun (s : State) (g : Prog) (p : PghSt) (mask : List (Nat × Retained)) : State :=
  let img := g.image
  let b := g.berth
  let start := p.pl 0 2
  let step := p.pl 4 4
  let others := s.post.retained.filter (fun r => r.berth != b)
  let kept := others ++ mask.map (·.2)
  let near (k : Nat) : List (Nat × Nat) := (kept.filter (fun r => r.entry.kind == k)).map Retained.range
  let s := { s with
    epoch := s.epoch + 1
    nst := s.nst.forget (s.epoch + 1) (near 0)
    deck := s.deck.forget (s.epoch + 1) (near 1 ++ s.placedRanges img)
    post := { s.post with retained := others } }
  let s := (s.placeTables img start).placeDeck img true
  let s := { s with
    stk := s.stacksOf img, ctx := s.contextsOf b img, splice := img.splice, ferryFly := [], meshFly := []
    clu := s.clu.map (fun (e : Nat × CluSt) => (e.1, { e.2 with running := false, atEnd := false, stopped := false, held := [] })) }
  let s := (s.selectCounters img).initScales img step
  let s := { s with
    obs := { s.obs with
      sreg := (List.range 192).map (fun i => (i, BitVec.ofNat 32 (0x5A5A0000 + (i + 1)))), samples := [] }
    upd := { s.upd with
      shards := if s.upd.restored.isSome then s.upd.shards
                else s.upd.shards.map (fun (e : Nat × ShardEntry) => (e.1, { e.2 with t := BitVec.ofNat 32 step }))
      rootSeen := [] }
    pont := { s.pont with windows := img.windows, colls := img.colls.map CollInst.fresh }
    depot := { s.depot with ns := s.depot.ns.map (fun (e : Nat × DepotNs) => (e.1, { e.2 with owner := none })) }
    host := { s.host with
      rings := (ringsOf p).foldl (fun t k => tset t (4 * b + k) (ringAt p (8 + 32 * k)))
        (s.host.rings.filter (fun e => e.1 / 4 != b))
      idx := s.host.idx.filter (fun e => e.1 / 4 != b), dev := s.host.dev.filter (fun e => e.1 / 4 != b)
      rollouts := [], admitted := [], aged := [], window := 0 } }
  let s := match img.frames[start]? with
    | some h => (List.range 192).foldl (fun (s : State) (i : Nat) => (s.planWake i false h).planWake i true h) s
    | none => s
  let s := s.onFrm (fun f => { f with
    phase := 2, prog := some { g with loaded := true }
    index := BitVec.ofNat 16 start, stepNum := BitVec.ofNat 32 step, frameStep := BitVec.ofNat 32 step
    firstFrame := true, newStep := true, spoiled := false, stepSpoiled := false, nextSpoiled := false
    stopKind := .none, stopReq := false, divStop := false, stepOne := false, stopEnd := none, stopForced := false, heldTick := none
    decision := none, reports := [], doneAt := none, drainFrom := none, exemptOverrun := false, holdNext := false
    silence := s.time
    timerNext := if f.src == 0 then some (s.time + f.period) else none })
  if s.pont.master && s.frm.src == 3 then
    (s.onPont (fun d => { d with
      nextTick := some ((Config.choice s.fresh).toNat % 2 ^ 48,
        s.sysTime + d.lead + (Config.choice (s.fresh + 1)).toNat % s.frm.period, s.frm.period) })).tickFresh.tickFresh
  else s

/-- RUN (R412, R413). A shape hash that no longer matches completes FAULT (R34), with no code of its own. -/
def execRun (n : Pgh) (s : State) : Host.Outcome State Fault Refusal :=
  .next (s.command n 0x0303 (fun s p =>
    match s.frm.prog with
    | none => s.finishCmd n.val { status := 3 }
    | some g =>
      if g.image.shapeHash ≠ s.shapeHash then s.finishCmd n.val { status := 5 }
      else
        let mask := s.intact g.berth g.image
        let bits := mask.foldl (fun v x => v + 2 ^ x.1) 0
        (s.startRun g p mask).finishCmd n.val { data := bytesOf bits 8 ++ bytesOf s.frm.frameNum.toNat 6 }))

/-! ### STOP, STEP and RESUME (R67-R72, R412, R418) -/

/-- A range of a SPACE that an abandoned command may have written in part. -/
def State.openRange (s : State) (r : Nat × Nat × Nat) : State :=
  let go (m : Mem) (base : Nat) : Mem := m.open_ (base + r.2.1) (base + r.2.1 + r.2.2) s.fresh
  match r.1 with
  | 0 => { s with lp := go s.lp 0, fresh := s.fresh + 1 }
  | 1 => { s with deck := go s.deck 0, fresh := s.fresh + 1 }
  | 2 => { s with nst := go s.nst 0, fresh := s.fresh + 1 }
  | _ => s

/-- What an abandoned command leaves (R401, R411-R417): every other effect is not applied. -/
def State.leave (s : State) (n : Nat) : State :=
  let p := s.pghAt n
  if p.state ≠ 2 then s
  else match p.op with
  | 0x0304 =>
    if p.begun && p.pl 0 1 == 0 && !p.force && s.frm.drainFrom.isNone then
      let others := (s.waiting 0x0304).filter (· != n)
      s.onFrm (fun f => { f with
        stopReq := s.upd.damaged || s.pwr.holdover || f.divStop || !others.isEmpty
        stopEnd := if others.any (fun m => (s.pghAt m).pl 1 1 == 1) then some true else none })
    else s
  | 0x0305 => if p.begun && s.frm.phase == 2 && s.frm.stepOne then s.stopAtTick.stopCheck else s
  | 0x0403 => s.openRange (p.pl 0 1, p.pl 8 8, p.pl 16 8)
  | 0x0404 => s.openRange (p.pl 1 1, p.pl 16 8, p.pl 24 8)
  | 0x0405 => { s with queue := s.queue.map (fun (q : Nat × QueueSt) => (q.1, { q.2 with reqs := q.2.reqs.filter (fun r =>
      match r.kind with | .flip m _ => m != n | _ => true) })) }
  | 0x0502 => s.onDepot (fun d => { d with ns := [], data := .empty 3, mapped := .empty 3, bufs := [], map := [] })
  | 0x0508 => s.depotEvent 0x2E0E (p.pl 0 1) (((tfind s.depot.ns (p.pl 0 1)).map (·.nextVer)).getD 0)
  | 0x0509 =>
    let rs := if (spacesOf p).isEmpty then ((s.versionOf p).map (·.ranges)).getD [] else spacesOf p
    rs.foldl State.openRange s
  | 0x050C => s.onDepot (fun d => { d with quiescing := false })
  | 0x0601 => s.onPont (fun d => { d with ndim := 0 })
  | 0x0802 => if p.begun then s.onPwr (fun w => { w with clkReq := none }) else s
  | _ => s

/-- Other running commands that satisfy a test fail: aborted by a forced disable or a kill (R406, R418). -/
def State.failOthers (s : State) (n : Nat) (q : PghSt → Bool) : State :=
  (s.running.filter (fun m => m != n && q (s.pghAt m))).foldl (fun (s : State) (m : Nat) =>
    let op := (s.pghAt m).op
    (if op = 0x0304 || op = 0x0305 then s else s.leave m).finishCmd m { status := 5, detail := 1 }) s

/-- What STOP answers (R411). -/
def State.stopAnswer (s : State) : Answer :=
  { data := bytesOf s.frm.lastDone.toNat 8 ++ bytesOf (bitOf s.frm.stopExact) 1 ++ bytesOf s.frm.phase.toNat 1 }

/-- STOP (R412, R418): at tick, immediate, or forced; the answer comes with the end of the stop. -/
def execStop (n : Pgh) (s : State) : Host.Outcome State Fault Refusal :=
  .next (s.command n 0x0304 (fun s p =>
    let finish := p.pl 1 1 == 1
    if s.frm.phase == 0 then s.finishCmd n.val s.stopAnswer
    else if s.frm.phase == 3 && s.frm.drainFrom.isNone then
      let s := if finish then s.endInvocation true else s
      s.finishCmd n.val s.stopAnswer
    else
      let s := s.await n.val []
      let s := if finish then s.onFrm (fun f => { f with stopEnd := some true }) else s
      if p.force then
        let prog (q : PghSt) : Bool := q.berth == p.berth && [0x0303, 0x0304, 0x0305, 0x0306, 0x0308].contains q.op
        ((s.failOthers n.val prog).immediate true).stopCheck
      else if s.frm.drainFrom.isSome then s
      else if p.pl 0 1 = 1 then (s.immediate false).stopCheck
      else if s.frm.phase == 2 then s.stopAtTick.stopCheck
      else s.onFrm (fun f => { f with stopReq := true })))

/-- STEP (R72, R412): one frame from a stop at tick, or the rest of an interrupted one. -/
def execStepCmd (n : Pgh) (s : State) : Host.Outcome State Fault Refusal :=
  .next (s.command n 0x0305 (fun s _ =>
    if s.frm.phase == 3 && s.frm.drainFrom.isNone then
      s.resumeOr n.val true
    else s.finishCmd n.val { status := 3 }))

/-- RESUME (R71, R412). -/
def execResume (n : Pgh) (s : State) : Host.Outcome State Fault Refusal :=
  .next (s.command n 0x0306 (fun s _ =>
    if s.frm.phase == 3 && s.frm.drainFrom.isNone then s.resumeOr n.val false
    else s.finishCmd n.val { status := 3 }))

/-! ### SET_POLICY and LR_OVERRIDE (R55, R261, R284, R287, R412) -/

/-- SET_POLICY (R412): the reserved limit 0 is dropped (R5, R261). -/
def execSetPolicy (n : Pgh) (s : State) : Host.Outcome State Fault Refusal :=
  .next (s.command n 0x0307 (fun s p =>
    let m := p.pl 12 1
    let s := if m.testBit 0 then
        s.onFrm (fun f => { f with policy := (p.pl 0 4).testBit 0, stopOnSpoil := (p.pl 0 4).testBit 1 }) else s
    let s := if m.testBit 1 then
        (let t := s.onUpd (fun u => { u with policyPend := some ((p.pl 4 4).testBit 0) })
         if t.runs then t else t.updPending) else s
    let drop := m.testBit 2 && p.pl 8 4 == 0
    let s := if m.testBit 2 && !drop then { s with waitLimit := BitVec.ofNat 8 (p.pl 8 4) } else s
    s.finishCmd n.val { data := bytesOf (if drop then 4 else 0) 1 }))

/-- LR_OVERRIDE (R284, R412): it completes at the next frame done, or at once when no program runs. -/
def execLrOverride (n : Pgh) (s : State) : Host.Outcome State Fault Refusal :=
  .next (s.command n 0x0308 (fun s p =>
    let m : BitVec 9 := BitVec.ofNat 9 (p.pl 4 1 + 4 * p.pl 5 1 + 256 * p.pl 6 1)
    let s := (s.onUpd (fun u => { u with ovrPend := some (BitVec.ofNat 32 (p.pl 0 4), m) })).await n.val []
    if s.runs then s else s.updPending.overrideAnswers))

/-! ### BERTH_STATE and KILL (R231, R232, R409, R419, R495) -/

/-- BERTH_STATE (R409). -/
def execBerthState (n : Pgh) (s : State) : Host.Outcome State Fault Refusal :=
  .next (s.command n 0x0201 (fun s p =>
    let b := p.berth
    let st := if s.post.killing.contains b then 4
      else if !s.mine b then 0
      else if s.frm.phase == 0 then 1
      else if s.frm.phase == 3 then 3 else 2
    let digest := match s.frm.prog with | some g => if g.berth = b then g.image.digest.toNat else 0 | none => 0
    let locked := s.depot.ns.foldl (fun v e => if e.2.locked && brtNs s.brt.live b e.1 then v + 2 ^ e.1 else v) 0
    s.finishCmd n.val { data := bytesOf st 8 ++ bytesOf digest 64 ++ bytesOf locked 8 }))

/-- A register file of zeros. -/
def zeros (n : Nat) (z : α) : Tab α := (List.range n).map (fun k => (k, z))

/-- The registers, partial sums, instruction store, tables, buffers and queues of a core position are zeroed (R231). -/
def State.scrubCore (s : State) (p : Nat) : State :=
  let c := s.coreAt p
  let arr (x : ArraySt) : ArraySt := { x with psum := zeros 128 0 }
  let s := s.setCore p { c with
    s := zeros 16 0, a := zeros 16 0, v := zeros 32 0, m := zeros 4 0, istore := [], valid := 0, pend := []
    arr0 := arr c.arr0, arr1 := arr c.arr1 }
  let s := (s.setStop (2 * p) .reset).setStop (2 * p + 1) .reset
  s.onRtr p (fun r => { RouterSt.reset with ident := r.ident, gateShut := r.gateShut })

/-- Cores, deck ranges and LPDDR5X ranges that a berth loses enter the scrub (R231, R232, R493, R495): the LPDDR5X pages go
to device bias at once. -/
def State.startScrub (s : State) (b : Nat) (cores : List Nat) (decks lps : List (Nat × Nat)) : State :=
  let s := cores.foldl (fun (s : State) (p : Nat) => s.scrubCore p) s
  let s := cores.foldl (fun (s : State) (p : Nat) => s.voidRetained 0 (2097152 * p) (2097152 * (p + 1))) s
  let s := decks.foldl (fun (s : State) (r : Nat × Nat) => s.voidRetained 1 r.1 r.2) s
  let s := s.onHost (fun h => { h with
    devBias := lps.foldl (fun t r => setBias t (r.1 / 4096) ((r.2 + 4095) / 4096) true) h.devBias })
  s.onPost (fun x => { x with
    scrubs := x.scrubs ++ cores.map (fun p => (b, 0, 2097152 * p, 2097152 * (p + 1))) ++ decks.map (fun r => (b, 1, r.1, r.2))
      ++ lps.map (fun r => (b, 2, r.1, r.2))
    killInfo := (b, s.time, 0) :: x.killInfo.filter (fun k => k.1 != b), scrubNoted := x.scrubNoted.filter (· != b)
    lastBerth := BitVec.ofNat 4 b })

/-- The deck byte ranges and the LPDDR5X ranges of a berth in a table. -/
def deckRanges (t : Tab Byte) (b : Nat) : List (Nat × Nat) :=
  ((List.range 16).map (brtDeck t b)).filterMap (fun r =>
    if r.2.2.1 = 0 then none
    else some (67108864 * r.1 + 256 * r.2.1, 67108864 * r.1 + 256 * (r.2.1 + r.2.2.1)))
def lpRanges (t : Tab Byte) (b : Nat) : List (Nat × Nat) :=
  ((List.range 16).map (brtLp t b)).filterMap (fun r => if r.2.1 = 0 then none else some (r.1, r.1 + r.2.1))
def coresOf (t : Tab Byte) (b : Nat) : List Nat := (List.range 192).filter (brtCore t b)

/-- The program's invocation ends at once, with no retained regions (R419, R468, R493). -/
def State.endByForce (s : State) : State := if s.runs then (s.immediate true).endInvocation false else s

/-- KILL (R419): always forced; it completes with its scrub. A second KILL completes with the first. -/
def execKill (n : Pgh) (s : State) : Host.Outcome State Fault Refusal :=
  .next (s.command n 0x0202 (fun s p =>
    let b := p.berth
    if s.post.killing.contains b then s.await n.val []
    else
      let mine := s.mine b
      let s := if mine then s.endByForce.onFrm (fun f => { f with prog := none }) else s
      let s := s.failOthers n.val (fun q => q.berth == b && q.op != 0x0202)
      let posted := (List.range 64).filter (fun m =>
        (s.pghAt m).state == 1 && tabRead (s.pghAt m).cmd 8 1 == b && tabRead (s.pghAt m).cmd 0 2 != 0x0202)
      let s := posted.foldl (fun (s : State) (m : Nat) =>
        let q := s.pghAt m
        (s.setPgh m { q with copy := q.cmd }).respond m { status := 3, field := 8 }) s
      let t := s.brt.live
      let cores := if brtEnabled t b then coresOf t b else []
      let s := s.startScrub b cores (if brtEnabled t b then deckRanges t b else []) (if brtEnabled t b then lpRanges t b else [])
      let counter (k : Nat) : Bool := decide (k / 65536 = 8) && cores.contains (k % 65536 / 64)
      let s := { s with
        ctx := s.ctx.map (fun (e : Nat × CtxSt) => if e.2.berth = b && ctxBlk e.1 == 0 && cores.contains (ctxUnit e.1) then (e.1, .reset)
          else if e.2.berth = b && e.2.desc.isSome then (e.1, .reset) else e)
        cnt := { s.cnt with
          val := s.cnt.val.filter (fun e => !counter e.1), ovf := s.cnt.ovf.filter (fun e => !counter e.1) }
        depot := { s.depot with
          ns := s.depot.ns.map (fun (e : Nat × DepotNs) => if brtNs t b e.1 then (e.1, { e.2 with locked := true }) else e) }
        host := { s.host with
          idx := s.host.idx.filter (fun e => e.1 / 4 != b), dev := s.host.dev.filter (fun e => e.1 / 4 != b)
          rings := s.host.rings.filter (fun e => e.1 / 4 != b) }
        upd := if mine then { s.upd with
            lr := [], ovrValue := 0, ovrMode := 0, ovrGroup := 0, ovrAll := false, ovrArmed := false, ovrPend := none }
          else s.upd
        post := { s.post with
          killing := b :: s.post.killing, retained := s.post.retained.filter (fun r => r.berth != b) } }
      s.await n.val []))

/-- KILL_SCRUB_COMPLETE (R231, R232, R495): every item under the scrub of a berth is zero with valid check bits and
accessible; the KILL commands that wait for it complete. The scrub time of LPDDR5X is open (log entry 9). -/
def execKillScrubComplete (b : Port) (s : State) : Host.Outcome State Fault Refusal :=
  .next (
    match s.post.killInfo.find? (fun k => k.1 == b.val) with
    | none => s
    | some k =>
      let mine := s.post.scrubs.filter (fun x => x.1 == b.val)
      let zero (m : Mem) (tag : Nat) : Mem :=
        (mine.filter (fun x => x.2.1 == tag)).foldl (fun m x => m.zero x.2.2.1 x.2.2.2) m
      let us := (s.time - k.2.1) / 4000
      let s := { s with
        nst := zero s.nst 0, deck := zero s.deck 1, lp := zero s.lp 2
        post := { s.post with
          scrubs := s.post.scrubs.filter (fun x => x.1 != b.val), killInfo := s.post.killInfo.filter (fun x => x.1 != b.val)
          killing := s.post.killing.filter (· != b.val), lastUs := BitVec.ofNat 16 (min us 65535) } }
      let data := bytesOf us 4 ++ bytesOf (Config.choice s.fresh).toNat 4
      ((s.waiting 0x0202).filter (fun m => (s.pghAt m).berth == b.val)).foldl (fun s m => s.finishCmd m { data := data }) s.tickFresh)

end Sys2Proof.Machine
end

