-- ==== Sys2Proof/Machine/Commit.lean ====
section
/-! DEFINITION. Berth-table commits (R489-R493). -/

namespace Sys2Proof.Machine

/-! ### The checks (R489-R491) -/

/-- Where the tables of the Depot and of the bias bits begin (R303, R382): the bytes below are the berths' to hold. -/
def State.lpFree (s : State) : Nat :=
  s.lpCap - (if s.depot.formatted then s.depot.tableBytes else 0) - 268435456

/-- The offending fields of one entry on its own: offset in the entry and ERR code. -/
def State.entryErrs (s : State) (t : Tab Byte) (b : Nat) : List (Nat × Nat) :=
  let f (off n : Nat) : Nat := brtField t b off n
  let pick (c : Bool) (off err : Nat) : List (Nat × Nat) := if c then [(off, err)] else []
  let zero (off n : Nat) : List (Nat × Nat) :=
    ((List.range n).find? (fun k => f (off + k) 1 != 0)).toList.map (fun k => (off + k, 5))
  pick (decide (16 ≤ f 0 1)) 0 5 ++ zero 1 1
    ++ pick (f 2 2 == 0 && f 4 2 != 0) 2 4 ++ pick (f 4 2 &&& 0x8003 != 0) 4 5 ++ zero 6 2
    ++ pick (f 8 8 % 16 != 0) 8 5
    ++ pick ((List.range 192).any (fun i => brtCore t b i && s.isFenced i)) 0x18 3 ++ zero 0x30 16
    ++ (List.range 16).flatMap (fun k =>
        let r := brtDeck t b k
        let o := 0x40 + 8 * k
        if r.2.2.2.2 ≠ 0 then [(o, 5)]
        else if r.2.2.1 = 0 then []
        else if 192 ≤ r.1 then [(o, 2)]
        else if 262144 < r.2.1 + r.2.2.1 then [(o, 3)]
        else pick (decide (16384 * s.deckWindows r.1 < r.2.1 + r.2.2.1)) o 2)
    ++ (List.range 16).flatMap (fun k =>
        let r := brtLp t b k
        let o := 0xC0 + 16 * k
        if r.2.1 = 0 then []
        else if r.1 % 65536 ≠ 0 then [(o, 5)]
        else if r.2.1 % 65536 ≠ 0 then [(o + 8, 5)]
        else if s.lpCap < r.1 + r.2.1 then [(o, 3)]
        else pick (decide (s.lpFree < r.1 + r.2.1)) o 2)
    ++ (List.range 16).flatMap (fun k =>
        let r := brtHpa t b k
        pick (r.2 != 0 && r.1 % 4096 != 0) (0x1C0 + 16 * k) 5 ++ pick (r.2 % 4096 != 0) (0x1C8 + 16 * k) 5)
    ++ zero 0x2C0 256

/-- What two enabled berths must not share (R491), as fields of the later one, `b`. -/
def pairErrs (t : Tab Byte) (a b : Nat) : List (Nat × Nat) :=
  let pick (c : Bool) (off err : Nat) : List (Nat × Nat) := if c then [(off, err)] else []
  let both (off n : Nat) : Bool := brtField t a off n &&& brtField t b off n != 0
  let deck (k : Nat) : Nat × Nat × Nat := let r := brtDeck t b k; (r.1, r.2.1, r.2.2.1)
  pick (brtJob t b != 0 && brtJob t a == brtJob t b) 2 4 ++ pick (both 8 8) 8 1 ++ pick (both 0x10 8) 0x10 1
    ++ pick (both 0x18 24) 0x18 1
    ++ (List.range 16).flatMap (fun k =>
        let d := deck k
        pick ((List.range 16).any (fun j =>
          let r := brtDeck t a j
          r.1 == d.1 && meets (r.2.1, r.2.2.1) (d.2.1, d.2.2))) (0x40 + 8 * k) 1)
    ++ (List.range 16).flatMap (fun k =>
        let d := brtLp t b k
        pick ((List.range 16).any (fun j => let r := brtLp t a j; meets (r.1, r.2.1) (d.1, d.2.1))) (0xC0 + 16 * k) 1)

/-- The first offending field of a table: its offset and ERR code. -/
def State.tableErr (s : State) (t : Tab Byte) : Option (Nat × Nat) :=
  let on := (List.range 16).filter (brtEnabled t)
  let all := (List.range 16).flatMap (fun b =>
    (s.entryErrs t b ++ (if brtEnabled t b then (on.filter (· < b)).flatMap (fun a => pairErrs t a b) else [])).map
      (fun e => (0x3C0 * b + e.1, e.2)))
  all.foldl (fun m e => match m with
    | none => some e
    | some x => if e.1 < x.1 || (e.1 == x.1 && decide (e.2 < x.2)) then some e else some x) none

/-! ### The commit point (R402, R492, R493, R512) -/

/-- A range less another one. -/
def cutRange (r k : Nat × Nat) : List (Nat × Nat) :=
  [(r.1, min r.2 k.1), (max r.1 k.2, r.2)].filter (fun x => decide (x.1 < x.2))
/-- Ranges less others. -/
def cutRanges (rs ks : List (Nat × Nat)) : List (Nat × Nat) := ks.foldl (fun l k => l.flatMap (fun r => cutRange r k)) rs

/-- What a berth loses between two tables: cores, deck bytes and LPDDR5X bytes. A disabled berth holds nothing. -/
def lostBy (old new : Tab Byte) (b : Nat) : List Nat × List (Nat × Nat) × List (Nat × Nat) :=
  if !brtEnabled old b then ([], [], [])
  else
    let on := brtEnabled new b
    ((coresOf old b).filter (fun i => !(on && brtCore new b i)),
     cutRanges (deckRanges old b) (if on then deckRanges new b else []),
     cutRanges (lpRanges old b) (if on then lpRanges new b else []))

/-- The effect of a commit on one berth (R493, R512): removed items are scrubbed, a running program that loses one ends,
a log region that is no longer granted is disabled. -/
def State.berthLoses (s : State) (old : Tab Byte) (b : Nat) : State :=
  let l := lostBy old s.brt.live b
  let none_ := l.1.isEmpty && l.2.1.isEmpty && l.2.2.isEmpty
  let s := if none_ then s
    else
      let s := if s.mine b && s.runs then (s.raise { code := 0x3205, aux := b }).endByForce else s
      s.startScrub b l.1 l.2.1 l.2.2
  let x := s.region b
  if x.size ≠ 0 && !s.grantsLp b x.base (x.base + x.size) then
    ({ s with obs := { s.obs with regions := tdel s.obs.regions b, regPend := tdel s.obs.regPend b } }).raise
      { code := 0x3305, aux := b, inst := b, blk := 1 }
  else s

/-- The grants of berth `b` in a table that its stopped program uses (R71): the cores of its image, the deck ranges of their
columns and of its pool columns, its VCs and namespaces, and every LPDDR5X and host range, any of which its waybills and rings
may use (DEDUCED, log entry 92). -/
def State.usedGrants (s : State) (t : Tab Byte) (b : Nat) (img : Image) : List Nat :=
  let ps := img.cores.filterMap (fun c => s.physOf c.lx c.ly)
  let cols := ps ++ img.fenced.map (·.pos)
  let vcs := img.colls.flatMap (fun c => [2 + 2 * c.group, 3 + 2 * c.group]) ++ img.windows.map (·.vc)
  let bit (x : Bool) : Nat := if x then 1 else 0
  if !brtEnabled t b then []
  else
    ps.map (fun p => bit (brtCore t b p))
      ++ (List.range 16).map (fun k => if cols.contains (brtDeck t b k).1 then brtField t b (0x40 + 8 * k) 8 % 2 ^ 45 else 0)
      ++ (List.range 16).flatMap (fun k => [(brtLp t b k).1, (brtLp t b k).2.1, (brtHpa t b k).1, (brtHpa t b k).2])
      ++ vcs.map (fun v => bit (brtVc t b v)) ++ img.namespaces.map (fun n => bit (brtNs t b n))

/-- A commit notes that it changed a grant of the stopped program (R71). -/
def State.noteGrants (s : State) (old : Tab Byte) : State :=
  match s.frm.prog with
  | none => s
  | some g =>
    if s.frm.phase == 3 && s.usedGrants old g.berth g.image != s.usedGrants s.brt.live g.berth g.image then
      s.onFrm (fun f => { f with grantsChanged := true })
    else s

/-- A commit of the shadow (R490, R491): whether it passed. -/
def State.commitTable (s : State) : State × Bool :=
  match s.tableErr s.brt.shadow with
  | some (off, err) =>
    let b := off / 0x3C0
    (({ s with brt := { s.brt with err := BitVec.ofNat 3 err, errBerth := BitVec.ofNat 4 b, errOffset := BitVec.ofNat 14 off } }).raise
      { code := 0x3204, aux := b }, false)
  | none =>
    let old := s.brt.live
    let owners := (List.range 64).map s.owner
    let s := { s with brt := { s.brt with live := s.brt.shadow, err := 0, errBerth := 0, errOffset := 0 } }
    let s := (owners.zipIdx).foldl (fun (s : State) (x : Nat × Nat) =>
      let p := s.pghAt x.2
      if x.1 ≠ s.owner x.2 && (p.state == 1 || p.state == 2) then s.setPgh x.2 { p with old := some (p.old.getD old) } else s) s
    ((List.range 16).foldl (fun (s : State) (b : Nat) => s.berthLoses old b) (s.noteGrants old), true)

/-- BRT_COMMIT_GO (R490-R493): through the admin page. -/
def execBrtCommitGo (viaAdmin : Bool) (s : State) : Host.Outcome State Fault Refusal :=
  .next (if viaAdmin then s.commitTable.1 else s)

/-- BRT_COMMIT_REVERT (R490): the shadow takes the live table. -/
def execBrtCommitRevert (s : State) : Host.Outcome State Fault Refusal :=
  .next { s with brt := { s.brt with shadow := s.brt.live } }

end Sys2Proof.Machine
end

