-- ==== Sys2Proof/Machine/Memory.lean ====
section
/-! DEFINITION. The memory commands of group 0x04 and the tests of group 0x09 (R242, R384, R414, R417). -/

namespace Sys2Proof.Machine

/-! ### ALLOC and FREE (R414) -/

/-- The least power of two not below `n`. -/
def pow2Up (n : Nat) : Nat → Nat → Nat
  | 0, k => k
  | fuel + 1, k => if n ≤ k then k else pow2Up n fuel (2 * k)

/-- The LPDDR5X ranges that a table's entries name. -/
def allLp (t : Tab Byte) : List (Nat × Nat) := (List.range 16).flatMap (lpRanges t)

/-- The lowest free range of a size (R414): aligned, outside every grant and the reserved ranges. -/
def State.findFree (s : State) (size : Nat) : Option Nat :=
  let al := pow2Up size 48 65536
  let up (a : Nat) : Nat := (a + al - 1) / al * al
  let taken := allLp s.brt.live
  least (((0 :: taken.map (fun r => up r.2))).filter (fun a =>
    decide (a + size ≤ s.lpFree) && !taken.any (fun r => decide (r.1 < a + size) && decide (a < r.2))))

/-- The shadow with an LP range slot of a berth written. -/
def setLp (t : Tab Byte) (b k addr size : Nat) (host : Bool) : Tab Byte :=
  tabWrite (tabWrite t (0x3C0 * b + 0xC0 + 16 * k) addr 8) (0x3C0 * b + 0xC8 + 16 * k) (size + bitOf host) 8

/-- ALLOC (R414). -/
def execAlloc (n : Pgh) (s : State) : Host.Outcome State Fault Refusal :=
  .next (s.command n 0x0401 (fun s p =>
    let b := p.berth
    let size := p.pl 0 8
    match s.findFree size, (List.range 16).find? (fun k => (brtLp s.brt.live b k).2.1 == 0) with
    | some a, some k =>
      let t := { s with brt := { s.brt with shadow := setLp s.brt.shadow b k a size (p.pl 8 1 == 1) } }
      let r := t.commitTable
      if r.2 then r.1.finishCmd n.val { data := bytesOf a 8 }
      else ({ r.1 with brt := { r.1.brt with shadow := s.brt.shadow } }).finishCmd n.val { status := 2, field := 0x40 }
    | _, _ => s.finishCmd n.val { status := 2, field := 0x40 }))

/-- FREE (R414, R493): the range is scrubbed and leaves its grant. -/
def execFree (n : Pgh) (s : State) : Host.Outcome State Fault Refusal :=
  .next (s.command n 0x0402 (fun s p =>
    let hit := (List.range 256).find? (fun x =>
      let r := brtLp s.brt.live (x / 16) (x % 16)
      decide (0 < r.2.1) && r.1 == p.pl 0 8 && r.2.1 == p.pl 8 8)
    match hit with
    | none => s.finishCmd n.val { status := 2, field := 0x48 }
    | some x =>
      let t := { s with
        lp := s.lp.zero (p.pl 0 8) (p.pl 0 8 + p.pl 8 8)
        brt := { s.brt with shadow := setLp s.brt.shadow (x / 16) (x % 16) 0 0 false } }
      let r := t.commitTable
      if r.2 then r.1.finishCmd n.val {}
      else ({ r.1 with brt := { r.1.brt with shadow := s.brt.shadow } }).finishCmd n.val { status := 2, field := 0x48 }))

/-! ### SCRUB and COPY (R414) -/

/-- The banks and windows of the ranges of some SPACEs, on (R228). -/
def State.spacesOn (s : State) (rs : List (Nat × Nat × Nat)) : State :=
  rs.foldl (fun (s : State) (r : Nat × Nat × Nat) =>
    if r.1 = 1 || r.1 = 2 then s.rangeOn (r.1 == 1) r.2.1 r.2.2 else s) s

/-- Whether some deck ranges meet a window that is absent (R216): the code that an access of it raises. -/
def State.absent (s : State) (rs : List (Nat × Nat × Nat)) : Bool :=
  rs.any (fun r => r.1 == 1 && decide (0 < r.2.2) &&
    (List.range 3072).any (fun w => decide (4194304 * w < r.2.1 + r.2.2) && decide (r.2.1 < 4194304 * (w + 1))
      && decide (s.deckWindows (w / 16) ≤ w % 16)))

/-- What a command answers that moved the bytes of some ranges: FAULT with the code of an absent window, or OK. -/
def State.movedAnswer (s : State) (rs : List (Nat × Nat × Nat)) (data : List Byte) : Answer :=
  if s.absent rs then { status := 5, fault := 0x2A05 } else { data := data }

/-- SCRUB: zeros with valid check bits and no poison. -/
def execScrub (n : Pgh) (s : State) : Host.Outcome State Fault Refusal :=
  .next (s.command n 0x0403 (fun s p =>
    let a := p.pl 8 8
    let e := a + p.pl 16 8
    let s := s.spacesOn [(p.pl 0 1, a, p.pl 16 8)]
    let s := match p.pl 0 1 with
      | 0 => { s with lp := s.lp.zero a e }
      | 1 => { s with deck := s.deck.zero a e }
      | _ => { s with nst := s.nst.zero a e }
    s.finishCmd n.val (s.movedAnswer [(p.pl 0 1, a, p.pl 16 8)] [])))

/-- 64 B or less read at an address of a SPACE: its bytes and whether they are poisoned. -/
def State.spaceRead (s : State) (space a n : Nat) (host : HostView) : State × List Byte × Bool :=
  match space with
  | 0 => s.lpReadBytes a n
  | 1 => s.deckBytesAt a n
  | 2 =>
    if s.underScrub 0 a then (s.scrubRefuse 0 a (a / 2097152), List.replicate n 0, false) else (s.nstEcc (a / 2097152) a n false, s.nst.bytes a n, (s.nst.ecc a n).2)
  | _ => (s, viewBytes host a n, false)

/-- 64 B or less written at an address of a SPACE. -/
def State.spaceWrite (s : State) (space a : Nat) (bs : List Byte) (poison : Bool) : State :=
  match space with
  | 0 => s.lpWriteBytes a bs poison
  | 1 => s.deckBytes a bs poison
  | 2 =>
    if s.underScrub 0 a then s.scrubRefuse 0 a (a / 2097152)
    else
      let m := (s.nst.store a bs).cleanWords a bs.length
      { s with nst := if poison then { m with marks := (List.range 8).foldl (fun t k => tset t (a / 8 + k) .poison) m.marks } else m }
  | _ => s.hostPut a bs

/-- `k` blocks of 64 B moved between SPACEs, `n` bytes in all. -/
def State.moveBlocks (s : State) (from_ dest : Nat × Nat) (n : Nat) (host : HostView) : Nat → State
  | 0 => s
  | k + 1 =>
    let m := min 64 n
    let r := s.spaceRead from_.1 from_.2 m host
    (r.1.spaceWrite dest.1 dest.2 r.2.1 r.2.2).moveBlocks (from_.1, from_.2 + 64) (dest.1, dest.2 + 64) (n - m) host k

/-- COPY (R414). -/
def execCopy (n : Pgh) (host : HostView) (s : State) : Host.Outcome State Fault Refusal :=
  .next (s.command n 0x0404 (fun s p =>
    let len := p.pl 24 8
    let rs := [(p.pl 0 1, p.pl 8 8, len), (p.pl 1 1, p.pl 16 8, len)]
    let t := (s.spacesOn rs).moveBlocks (p.pl 0 1, p.pl 8 8) (p.pl 1 1, p.pl 16 8) len host ((len + 63) / 64)
    t.finishCmd n.val (s.movedAnswer rs [])))

/-! ### BIAS_FLIP (R384, R414) -/

/-- The 64 lines of a page that a flip asks the host to give up. -/
def State.flipPage (s : State) (n page : Nat) : State :=
  (List.range 64).foldl (fun (s : State) (k : Nat) =>
    let hpa := Config.hdmBase + 4096 * page + 64 * k
    s.enqueue (queueKey 3 (s.moduleFor hpa))
      { id := 0, ctx := 0, kind := .flip n page, isWrite := false, far := 0, addr := hpa, da := none, deadline := none
        issued := s.time, sent := false, win := 0, sfn := 0 }) s

/-- Whether lines of a pigeonhole's flip are open. -/
def State.flipOpen (s : State) (n : Nat) : Bool :=
  s.queue.any (fun q => q.2.reqs.any (fun r => match r.kind with | .flip m _ => m == n | _ => false))

/-- The next page of a flip to device bias that is under way, or its answer: `wait` holds the next page and the end. -/
def State.flipNext (s : State) (n : Nat) : State :=
  let p := s.pghAt n
  match p.wait with
  | [page, last] =>
    if s.flipOpen n then s
    else if page < last then
      let hpa := Config.hdmBase + 4096 * page
      if s.room (queueKey 3 (s.moduleFor hpa)) 64 then (s.setPgh n { p with wait := [page + 1, last] }).flipPage n page else s
    else
      let first := p.pl 0 8 / 4096
      let got := ((List.range (p.pl 8 4)).filter (fun k => inPages s.host.devBias (first + k))).length
      s.finishCmd n { data := bytesOf got 4 }
  | _ => s

/-- BIAS_FLIP (R384): to host bias at once, to device bias page by page. -/
def execBiasFlip (n : Pgh) (s : State) : Host.Outcome State Fault Refusal :=
  .next (
    if (s.waiting 0x0405).contains n.val then s.flipNext n.val
    else s.command n 0x0405 (fun s p =>
      let first := p.pl 0 8 / 4096
      let last := first + p.pl 8 4
      if p.pl 12 1 = 0 then
        (s.onHost (fun h => { h with devBias := setBias h.devBias first last false })).finishCmd n.val { data := bytesOf (p.pl 8 4) 4 }
      else (s.await n.val [first, last]).flipNext n.val))

/-! ### MARCH, BGT and INJECT (R242, R417) -/

/-- The positions of a 24-byte mask at a payload offset. -/
def maskAt (p : PghSt) (off : Nat) : List Nat := (List.range 192).filter (fun i => (p.pl off 24).testBit i)
def maskOfPos (ps : List Nat) : Nat := ps.foldl (fun v i => v ||| 2 ^ i) 0

/-- The banks of a memory of a position marched on request: what was found in any of them (R241, R242). -/
def State.marchFor (s : State) (p : Nat) (deck : Bool) (cells : List BadCell) : State × List Marched :=
  let (b, found) := (s.bankAt p deck).marchAll p deck cells
  (s.setBank p deck b, found.map (·.2))

/-- MARCH (R240-R242): the near stores and the deck columns of the positions it names; the operands are the cells that fail in
each kind of memory. -/
def execMarch (n : Pgh) (nstCells deckCells : List BadCell) (s : State) : Host.Outcome State Fault Refusal :=
  .next (s.command n 0x0901 (fun s p =>
    let ps := maskAt p 8
    let keep := p.pl 0 1 == 1
    let mem := p.pl 1 1
    let one (s : State) (i : Nat) (deck : Bool) : State × List Marched :=
      if mem.testBit (bitOf deck) && (deck || s.isLive i) then
        (s.marchUnit i deck keep).marchFor i deck (if deck then deckCells else nstCells) else (s, [])
    let (s, found) := ps.foldl (fun (r : State × List (Nat × List Marched)) (i : Nat) =>
      let (s, a) := one r.1 i false
      let (s, b) := one s i true
      (s, r.2 ++ [(i, a ++ b)])) (s, [])
    let where_ (m : Marched) : Nat := maskOfPos ((found.filter (fun f => f.2.contains m)).map (·.1))
    s.finishCmd n.val { data := bytesOf (where_ .repaired) 24 ++ bytesOf (where_ .unrepairable) 24 }))

/-- BGT (R238, R417). -/
def execBgt (n : Pgh) (s : State) : Host.Outcome State Fault Refusal :=
  .next (s.command n 0x0902 (fun s p =>
    let en := p.pl 0 1 == 1
    let s := (maskAt p 8).foldl (fun (s : State) (i : Nat) =>
      (s.setNstB i { s.nstB i with bgtEn := en, bgtPace := BitVec.ofNat 16 (p.pl 2 2) }).setDeckB i
        { s.deckB i with bgtEn := en, bgtPace := BitVec.ofNat 16 (p.pl 4 2) }) s
    s.finishCmd n.val {}))

/-- A memory with bit `k` of the word at `a` flipped; a check bit has no place in the data. -/
def Mem.flipBit (m : Mem) (a k bits : Nat) : Mem :=
  if k < bits then m.set (a + k / 8) (m.get (a + k / 8) ^^^ (1#8 <<< (k % 8))) else m

/-- The bit of `n` that number `c` chooses among those that are neither `i` nor `j`. -/
def thirdBit (n i j c : Nat) : Nat := ((List.range n).filter (fun k => k != i && k != j)).getD (c % (n - 2)) 0

/-- A word with one or two flipped bits (R218): one is corrected on a read, two are uncorrectable; which bits is open. A flip in a word
that has one already leaves the errors of both. -/
def Mem.injectWord (m : Mem) (a flips fresh : Nat) : Mem :=
  let w := a / 8
  let i := (Config.choice fresh).toNat % 72
  let j := (i + 1 + (Config.choice (fresh + 1)).toNat % 71) % 72
  match tget m.marks w .good with
  | .good =>
    if flips = 1 then { m with marks := tset m.marks w .corrected }
    else
      let m := (m.flipBit (8 * w) i 64).flipBit (8 * w) j 64
      { m with marks := tset m.marks w .uncorrectable }
  | .corrected =>
    let m := (m.flipBit (8 * w) i 64).flipBit (8 * w) j 64
    let k := thirdBit 72 i j (Config.choice (fresh + 2)).toNat
    { (if flips = 1 then m else m.flipBit (8 * w) k 64) with marks := tset m.marks w .uncorrectable }
  | _ => m

/-- A block of LPDDR5X with one or two flipped bits of its 68 symbols (R267): one symbol is corrected on a read. -/
def Mem.injectBlock (m : Mem) (a flips fresh : Nat) : Mem :=
  let b := a / 64 * 64
  let i := (Config.choice fresh).toNat % 544
  let j := (i + 1 + (Config.choice (fresh + 1)).toNat % 543) % 544
  match tget m.marks (b / 8) .good with
  | .good =>
    if flips = 1 || i / 8 == j / 8 then { m with marks := tset m.marks (b / 8) .corrected }
    else
      let m := (m.flipBit b i 512).flipBit b j 512
      { m with marks := tset m.marks (b / 8) .uncorrectable }
  | .corrected =>
    let m := (m.flipBit b i 512).flipBit b j 512
    let k := thirdBit 544 i j (Config.choice (fresh + 2)).toNat
    { (if flips = 1 then m else m.flipBit b k 512) with marks := tset m.marks (b / 8) .uncorrectable }
  | _ => m

/-- An integer held as a sign bit, number `w`, and `w` bits of magnitude, with bit `b` flipped (R93; log entry 85). -/
def flipInt (v : Int) (b w : Nat) : Int :=
  if b = w then -v else (if v < 0 then -1 else 1) * ((v.natAbs ^^^ 2 ^ b : Nat) : Int)

/-- The checksum value c_j of an active tile with bits flipped (R417): a sign bit and 38 bits in MX modes, FP32 bits in
BF16 modes. -/
def Tile.flipSum (t : Tile) (m : ModeInfo) (j b flips : Nat) : Tile :=
  let one (v : Int) (k : Nat) : Int := if m.mx then flipInt v k 38 else ((BitVec.ofInt 32 v ^^^ (1#32 <<< k)).toNat : Int)
  let f (v : Int) : Int := if flips = 2 then one (one v b) (b + 1) else one v b
  let base := if t.sums.isEmpty then List.replicate m.depth 0 else t.sums
  { t with sums := base.zipIdx.map (fun x => if x.2 = j then f x.1 else x.1) }

/-- INJECT (R417). -/
def execInject (n : Pgh) (s : State) : Host.Outcome State Fault Refusal :=
  .next (s.command n 0x0903 (fun s p =>
    let a := p.pl 8 8
    let k := p.pl 1 1
    let f := s.fresh
    let s := match p.pl 0 1 with
      | 0 => { s with nst := s.nst.injectWord a k f, fresh := f + 3 }
      | 1 => { s with deck := s.deck.injectWord a k f, fresh := f + 3 }
      | 2 => { s with lp := s.lp.injectBlock a k f, fresh := f + 3 }
      | _ =>
        let i := a % 256
        let arr : Arr := if p.pl 2 1 = 0 then 0 else 1
        let x := (s.coreAt i).arr arr
        match modeInfo x.active.mode.toNat with
        | none => s
        | some m =>
          let x := { x with active := x.active.flipSum m (a / 256 % 256) (a / 65536 % 64) k }
          s.onCore i (fun c => if arr = 0 then { c with arr0 := x } else { c with arr1 := x })
    s.finishCmd n.val {}))

end Sys2Proof.Machine
end

