-- ==== Sys2Proof/Machine/DepotCmds.lean ====
section
/-! DEFINITION. The Depot commands of group 0x05 (R304-R308, R315, R318, R321-R324, R415). -/

namespace Sys2Proof.Machine

/-! ### Namespaces (R304-R306, R415) -/

/-- A byte range without its contents: it reads zero. -/
def Mem.clear (m : Mem) (lo hi : Nat) : Mem :=
  { m with
    cells := m.cells.filter (fun c => decide (c.1 < lo) || decide (hi ≤ c.1))
    marks := m.marks.filter (fun c => decide (8 * c.1 < lo) || decide (hi ≤ 8 * c.1)) }

/-- The units of a byte range of a namespace are unmapped (R306). -/
def DepotSt.unmap (d : DepotSt) (ns lo hi : Nat) : DepotSt :=
  let hit (u : Nat) : Bool := decide (lo / 65536 ≤ u) && decide (65536 * u < hi)
  { d with
    bufs := d.bufs.filter (fun u => !(u.ns == ns && hit u.unit))
    map := d.map.filter (fun e => !(e.1 / 17179869184 == ns && hit (e.1 % 17179869184)))
    data := d.data.clear (flashAddr ns lo) (flashAddr ns hi)
    mapped := d.mapped.clear (flashAddr ns lo) (flashAddr ns hi), journal := d.journal + 1 }

/-- Bytes of a whole namespace. -/
def nsSpan : Nat := 1125899906842624

/-- Units not taken by a namespace. -/
def DepotSt.freeUnits (d : DepotSt) : Nat := d.usable - (d.ns.map (·.2.size)).foldl (· + ·) 0

/-- The endurance record (R318). The share of free blocks depends on the media (log entry 19). -/
def State.endurance (s : State) : List Byte :=
  let d := s.depot
  bytesOf Config.flashRated 4 ++ bytesOf d.mean 4 ++ bytesOf ((d.blocks.map (fun b => b.2.erases)).foldl max 0) 4
    ++ bytesOf (min d.used 0xFFFF) 2 ++ bytesOf (Config.choice s.fresh).toNat 2 ++ bytesOf d.accepted 8
    ++ bytesOf d.programmed 8 ++ bytesOf d.dead.length 4
    ++ bytesOf (((List.range 32).filter (fun c => (d.chanAt c).failed)).foldl (fun v c => v + 2 ^ c) 0) 4
    ++ List.replicate 24 0

/-- DEPOT_STATUS (R415). -/
def execDepotStatus (n : Pgh) (s : State) : Host.Outcome State Fault Refusal :=
  .next (s.command n 0x0501 (fun s _ =>
    let chans := (List.range 32).flatMap (fun c => bytesOf (s.depotChan c) 4)
    s.tickFresh.finishCmd n.val { data := bytesOf s.depotStatus 4 ++ chans ++ s.endurance }))

/-- The Depot with no namespaces, in a stripe width. -/
def DepotSt.format (d : DepotSt) (w hours : Nat) : DepotSt :=
  let d := { d with
    width := if w = 8 then 0 else if w = 16 then 1 else 2, patrolHours := hours, ns := [], data := .empty 3
    mapped := .empty 3, durable := .empty 3, bufs := [], map := [], stripes := [], rot := 0, journal := 0, journalAll := 0
    formatted := true, rebuild := false }
  let thin := (List.range (32 / d.w)).any (fun g => decide ((d.live g).length + 1 < d.w))
  { d with state := if thin then 2 else 1 }.wearOut

/-- New media, whose unique IDs a rescan accepts (R315): nothing is known of their blocks. -/
def DepotSt.rescan (d : DepotSt) : DepotSt :=
  if d.uids = d.found.tail then d
  else { d with
    uids := d.found.tail, blocks := [], lunFails := [], lunDead := []
    chans := d.chans.map (fun (e : Nat × DepotChan) => (e.1, { e.2 with failed := false, retired := 0 })) }

/-- FORMAT (R302, R303, R315, R415): with RESCAN, factory defect marks of blocks never erased retire them. -/
def execFormat (n : Pgh) (defects : List BlockId) (s : State) : Host.Outcome State Fault Refusal :=
  .next (s.command n 0x0502 (fun s p =>
    let re := p.pl 1 1 == 1
    let s := s.onDepot (fun d => (if re then d.rescan else d).format (p.pl 0 1) (p.pl 2 2))
    let s := if re then defects.foldl (fun (s : State) (b : BlockId) =>
        if (tget s.depot.blocks (blockKey b) .reset).erases = 0 then s.retireBlock b 0 else s) s else s
    s.finishCmd n.val { data := bytesOf s.depot.usable 8 }))

/-- NS_CREATE (R304, R323): the default KEEP is 2. -/
def execNsCreate (n : Pgh) (s : State) : Host.Outcome State Fault Refusal :=
  .next (s.command n 0x0503 (fun s p =>
    let keep := p.pl 3 1
    let x : DepotNs := { kind := p.pl 1 1, size := p.pl 8 8, ring := p.pl 2 1 == 1, keep := if keep = 0 then 2 else keep
                         append := 0, owner := none, locked := false, versions := [], nextVer := 1 }
    let s := s.onDepot (fun d => { d with ns := tset d.ns (p.pl 0 1) x })
    s.finishCmd n.val { data := bytesOf s.depot.freeUnits 8 }))

/-- Every block that held data of a namespace is erased (R306); the units of others that it holds move first. -/
def State.sanitize (s : State) (held : List (Nat × Nat)) : State :=
  let bs := held.map (fun l => s.depot.blockOf l.1 l.2)
  let s := s.onDepot (fun d => d.moveUnits (fun _ loc => bs.any (fun b => d.inBlock b loc)))
  (bs.map (fun b => (blockKey b, b.chan.val))).eraseDups.foldl (fun (s : State) (k : Nat × Nat) =>
    if (tget s.depot.blocks k.1 .reset).retired then s else s.eraseBlock k.1 k.2) s

/-- NS_DELETE (R306): the units are unmapped at once; with SANITIZE their blocks are erased. -/
def execNsDelete (n : Pgh) (s : State) : Host.Outcome State Fault Refusal :=
  .next (s.command n 0x0504 (fun s p =>
    let ns := p.pl 0 1
    let held := (s.depot.map.filter (fun e => e.1 / 17179869184 == ns)).map (·.2)
    let s := s.onDepot (fun d => { d.unmap ns 0 nsSpan with ns := tdel d.ns ns })
    let s := if p.pl 1 1 = 1 then
        (s.sanitize held).onDepot (fun d => { d with durable := d.durable.clear (flashAddr ns 0) (flashAddr ns nsSpan) })
      else s
    s.finishCmd n.val {}))

/-- NS_RELEASE (R306): a namespace that a kill has locked is released. -/
def execNsRelease (n : Pgh) (s : State) : Host.Outcome State Fault Refusal :=
  .next (s.command n 0x0505 (fun s p =>
    (s.onDepot (fun d => { d with
      ns := d.ns.map (fun (e : Nat × DepotNs) => if e.1 = p.pl 0 1 then (e.1, { e.2 with locked := false }) else e) })).finishCmd
      n.val {}))

/-! ### Transfers (R306, R308-R310, R317, R415) -/

/-- A 64 B block of a command enters a channel buffer (R307); a full buffer programs its oldest unit first. -/
def DepotSt.put (d : DepotSt) (ns off now : Nat) (v : Row) (poison : Bool) : DepotSt :=
  let opened := match d.writeChan ns (off / 65536) now none with
    | some (x : DepotSt × Nat) => x.1
    | none =>
      let c := d.place.2.1
      let old := match d.oldestClosed c with | some u => some u | none => d.bufs.find? (fun u => u.chan == c)
      let d := match old with | some u => d.mapUnit u | none => d
      match d.writeChan ns (off / 65536) now none with | some x => x.1 | none => d
  opened.accept ns off now v poison

/-- A 64 B block of a namespace read, or written, by a command. -/
def State.nsGet (s : State) (ns off : Nat) : State × Row × Bool := s.depotRead (s.depot.readChan ns (off / 65536)) ns off 0
def State.nsPut (s : State) (ns off : Nat) (v : Row) (poison : Bool) : State :=
  let s := s.onDepot (fun d => d.put ns off s.time v poison)
  let c := s.depot.readChan ns (off / 65536)
  ((s.chanUse c).count 4 c 1 64).bw (16 + c) true 64

/-- `k` blocks from a namespace to a SPACE; `n` bytes in all. -/
def State.nsToSpace (s : State) (ns off space a n : Nat) : Nat → State
  | 0 => s
  | k + 1 =>
    let r := s.nsGet ns off
    (r.1.spaceWrite space a ((bytesOf r.2.1.toNat 64).take (min 64 n)) r.2.2).nsToSpace ns (off + 64) space (a + 64) (n - 64) k

/-- `k` blocks from a SPACE to a namespace of `size` bytes, with whether one was poisoned. -/
def State.spaceToNs (s : State) (space a ns off size n : Nat) (host : HostView) : Nat → State × Bool
  | 0 => (s, false)
  | k + 1 =>
    let r := s.spaceRead space a (min 64 n) host
    let t := (r.1.nsPut ns (off % size) (BitVec.ofNat 512 (ofBytes r.2.1)) r.2.2).spaceToNs space (a + 64) ns (off + 64) size
      (n - 64) host k
    (t.1, r.2.2 || t.2)

/-- NS_READ (R306, R415). -/
def execNsRead (n : Pgh) (s : State) : Host.Outcome State Fault Refusal :=
  .next (s.command n 0x0506 (fun s p =>
    (s.nsToSpace (p.pl 0 1) (p.pl 8 8) (p.pl 1 1) (p.pl 16 8) (p.pl 24 8) (p.pl 24 8 / 64)).finishCmd n.val {}))

/-- NS_WRITE (R304, R308, R317, R415): a write to an archive moves its append point; a read-only Depot takes none. -/
def execNsWrite (n : Pgh) (host : HostView) (s : State) : Host.Outcome State Fault Refusal :=
  .next (s.command n 0x0507 (fun s p =>
    let ns := p.pl 0 1
    let off := p.pl 8 8
    let len := p.pl 24 8
    match tfind s.depot.ns ns with
    | none => s.finishCmd n.val { status := 2, field := 0x40 }
    | some x =>
      if s.depot.state = 2 then (s.depotEvent 0x2E0A ns off).finishCmd n.val { status := 5, fault := 0x2E0A }
      else
        let size := 65536 * x.size
        let s := (s.spaceToNs (p.pl 1 1) (p.pl 16 8) ns off (max size 1) len host (len / 64)).1
        let x := if x.kind = 2 then { x with append := if x.ring then (off + len) % max size 1 else off + len } else x
        (s.onDepot (fun d => { d with ns := tset d.ns ns x })).finishCmd n.val {}))

/-! ### Checkpoints (R322-R324) -/

/-- Where the data of a version lie in its namespace: 32 TiB are kept for each of the at most 17 versions at a time. -/
def versionBase (num : Nat) : Nat := 35184372088832 * (num % 32)

/-- The ranges of a version copied into a namespace from an offset on, with whether a block was poisoned. -/
def State.saveRanges (s : State) (ns off : Nat) (rs : List (Nat × Nat × Nat)) : State × Bool :=
  match rs with
  | [] => (s, false)
  | (sp, a, len) :: r =>
    let t := s.spaceToNs sp a ns off nsSpan len [] ((len + 63) / 64)
    let u := t.1.saveRanges ns (off + (len + 63) / 64 * 64) r
    (u.1, t.2 || u.2)

/-- The ranges of a version copied back. -/
def State.loadRanges (s : State) (ns off : Nat) (rs : List (Nat × Nat × Nat)) : State :=
  match rs with
  | [] => s
  | (sp, a, len) :: r =>
    (s.nsToSpace ns off sp a len ((len + 63) / 64)).loadRanges ns (off + (len + 63) / 64 * 64) r

/-- A version is sealed (R323): its units and the seal record are in the journal on flash; the oldest version beyond KEEP
is released. -/
def DepotSt.seal (d : DepotSt) (ns : Nat) (x : DepotNs) (v : DepotVersion) : DepotSt :=
  let vs := x.versions ++ [v]
  let old := vs.take (vs.length - x.keep)
  let d := (d.bufs.filter (fun u => u.ns == ns)).foldl DepotSt.mapUnit d
  let d := old.foldl (fun d o => d.unmap ns o.offset (o.offset + 35184372088832)) d
  { d with
    ns := tset d.ns ns { x with versions := vs.drop (vs.length - x.keep), nextVer := x.nextVer + 1 }
    durable := d.mapped, journal := 0, programmed := d.programmed + 65536 }

/-- CHECKPOINT (R322, R323): a fault before the seal leaves no version, notice 0x2E.0E. -/
def execCheckpoint (n : Pgh) (s : State) : Host.Outcome State Fault Refusal :=
  .next (s.command n 0x0508 (fun s p =>
    let ns := p.pl 0 1
    match tfind s.depot.ns ns with
    | none => s.finishCmd n.val { status := 2, field := 0x40 }
    | some x =>
      let rs := spacesOf p
      let num := x.nextVer
      let base := versionBase num
      let fail (s : State) (code : Nat) : State :=
        ((s.onDepot (fun d => d.unmap ns base (base + 35184372088832))).depotEvent 0x2E0E ns num).finishCmd n.val
          { status := 5, fault := code }
      if s.depot.state = 2 then fail (s.depotEvent 0x2E0A ns base) 0x2E0A
      else
        let t := (s.spacesOn rs).saveRanges ns base rs
        if s.absent rs then fail t.1 0x2A05
        else if t.2 then fail t.1 (if rs.any (fun r => r.1 == 1) then 0x2A02 else 0x2C02)
        else
          let v : DepotVersion :=
            { num := num, step := BitVec.ofNat 32 (p.pl 4 4), stepNum := s.frm.stepNum, ranges := rs, offset := base
              shards := s.upd.shards, digest := (s.frm.prog.map (fun g => g.image.digest)).getD 0, shape := s.shapeHash
              sealed := s.time }
          (t.1.onDepot (fun d => d.seal ns x v)).finishCmd n.val { data := bytesOf num 4 }))

/-- RESTORE (R286, R289, R324). -/
def execRestore (n : Pgh) (s : State) : Host.Outcome State Fault Refusal :=
  .next (s.command n 0x0509 (fun s p =>
    match s.versionOf p with
    | none => s.finishCmd n.val { status := 2, field := 0x44 }
    | some v =>
      if v.ranges.any (fun r => r.1 == 1) && v.shape != s.shapeHash then s.finishCmd n.val { status := 6 }
      else
        let rs := if (spacesOf p).isEmpty then v.ranges else spacesOf p
        let s := (s.spacesOn rs).loadRanges (p.pl 0 1) v.offset rs
        if s.absent rs then s.finishCmd n.val { status := 5, fault := 0x2A05 }
        else
          let lps := (rs.filter (fun r => r.1 == 0)).map (fun r => (r.2.1, r.2.1 + r.2.2))
          (s.onUpd (fun u => { u with
            damaged := false, restored := some ((u.restored.getD []) ++ lps)
            shards := u.shards.map (fun (e : Nat × ShardEntry) =>
              (e.1, { e.2 with t := ((tfind v.shards e.1).map (·.t)).getD e.2.t })) })).finishCmd n.val
            { data := bytesOf v.step.toNat 4 }))

/-- VERSIONS (R415), oldest first. -/
def execVersions (n : Pgh) (s : State) : Host.Outcome State Fault Refusal :=
  .next (s.command n 0x050A (fun s p =>
    let vs := ((tfind s.depot.ns (p.pl 0 1)).map (·.versions)).getD []
    s.finishCmd n.val { data := vs.flatMap (fun v =>
      bytesOf v.num 4 ++ bytesOf v.step.toNat 4 ++ bytesOf (bytesIn v.ranges) 8) }))

/-! ### The dead-letter table and the quiesce (R315, R321) -/

/-- A dead-letter entry as bytes (R315). -/
def DeadLetter.bytes (x : DeadLetter) : List Byte :=
  bytesOf x.loc.toNat 4 ++ bytesOf x.reason.toNat 1 ++ bytesOf 0 1 ++ bytesOf x.pe.toNat 2 ++ bytesOf x.time.toNat 8

/-- DEAD_LETTER (R315, R415). -/
def execDeadLetter (n : Pgh) (s : State) : Host.Outcome State Fault Refusal :=
  .next (s.command n 0x050B (fun s p =>
    s.finishCmd n.val { data := ((s.depot.dead.drop (p.pl 0 4)).take (p.pl 4 2)).flatMap DeadLetter.bytes }))

/-- The programs of a quiesce have ended (R321): QUIESCED is set and the command completes. The size of the flush-complete
record is open (log entry 9). -/
def State.quiesceNext (s : State) (n : Nat) : State :=
  let before := s.depot.programmed
  let s := (s.onDepot (fun d => { d.flush with
    programmed := d.flush.programmed + (Config.choice s.fresh).toNat, quiescing := false, quiesced := true })).tickFresh
  s.finishCmd n { data := bytesOf (s.depot.programmed - before) 8 }

/-- DEPOT_QUIESCE (R321): from its acceptance the Depot accepts no write; it completes when every buffer is programmed. -/
def execDepotQuiesce (n : Pgh) (s : State) : Host.Outcome State Fault Refusal :=
  .next (
    if (s.waiting 0x050C).contains n.val then s.quiesceNext n.val
    else s.command n 0x050C (fun s _ =>
      (s.onDepot (fun d => { d.closeUnits (fun _ => true) with quiescing := true })).await n.val []))

end Sys2Proof.Machine
end

