-- ==== Sys2Proof/Machine/System.lean ====
section
/-! DEFINITION. The commands of groups 0x01, 0x06, 0x07, 0x08 and 0x0A (R408, R416-R418, R470, R488). -/

namespace Sys2Proof.Machine

/-! ### Identity and status (R408) -/

/-- IDENTIFY (R408). -/
def execIdentify (n : Pgh) (s : State) : Host.Outcome State Fault Refusal :=
  .next (s.command n 0x0101 (fun s _ =>
    let b := s.boot
    let data := bytesOf Config.romVersion.toNat 4 ++ bytesOf b.fwVersion.toNat 4 ++ bytesOf b.fwDigest.toNat 64
      ++ bytesOf b.keyHash.toNat 64 ++ s.shapeRecord ++ bytesOf (if s.shape.unusable then 0 else s.shape.rows) 1
      ++ bytesOf (bitOf (s.shape.restricted || s.shape.unusable)) 1
    s.finishCmd n.val { data := data }))

/-- STATUS (R408): the registers in the order the table names them, each at its own width. -/
def execStatus (n : Pgh) (s : State) : Host.Outcome State Fault Refusal :=
  .next (s.command n 0x0102 (fun s _ =>
    let berth := match s.frm.prog with | some g => g.berth | none => 0xFF
    let data := bytesOf s.frameStatus 4 ++ bytesOf s.frm.frameNum.toNat 8 ++ bytesOf s.frm.stepNum.toNat 4
      ++ bytesOf s.updStatus 4 ++ bytesOf s.depotStatus 4 ++ bytesOf s.ucieStatus 4 ++ bytesOf s.pontNode 4
      ++ bytesOf s.pontTime 4 ++ (List.range 16).flatMap (fun p => bytesOf (s.pontStatus p) 4)
      ++ (List.range 16).flatMap (fun i => bytesOf (s.mportStatus i) 4) ++ bytesOf berth 1
    s.finishCmd n.val { data := data }))

/-- FAULT_LOG (R408, R460): records in log order; an uncorrectable one is returned as code 0x10.04 alone, which is a fault too. -/
def execFaultLog (n : Pgh) (s : State) : Host.Outcome State Fault Refusal :=
  .next (s.command n 0x0103 (fun s p =>
    let recs := (tget s.flt.logs (p.pl 0 1) .reset).recs
    let asked := ((List.range recs.length).zip recs).drop (p.pl 2 2) |>.take (p.pl 4 2)
    let lost (i : Nat) : Bool := (s.upsetIn .logRec (p.pl 0 1) i 1).2
    let s := (asked.filter (fun e => lost e.1)).foldl (fun (s : State) _ => s.raise { code := 0x1004, inst := p.pl 0 1 }) s
    s.finishCmd n.val { data := asked.flatMap (fun e => bytesOf (if lost e.1 then 0x1004 else e.2.toNat) 32) }))

/-! ### Pontoon (R330, R332, R338, R347, R351, R416, R418, R470) -/

/-- The ports that a configuration uses (R347). -/
def PontSt.uses (d : PontSt) (p : Nat) : Bool :=
  if p < 12 then decide (p < 2 * d.ndim.toNat) else if p < 14 then d.skipA != 7 else d.skipB != 7
/-- The device that the map cables to a port (R347). -/
def PontSt.cabled (d : PontSt) (p : Nat) : Nat :=
  let id := d.devId.toNat
  let way (n : Int) : Int := if p % 2 = 0 then n else -n
  if p < 12 then d.along id (p / 2) (way 1)
  else d.along id (if p < 14 then d.skipA.toNat else d.skipB.toNat) (way 2)

/-- A port that is not in use: off, with its error counts. -/
def PontPort.off (x : PontPort) : PontPort := { PontPort.reset with fecUnc := x.fecUnc, retry := x.retry, home := x.home }

/-- The bring-up of an enabled port (R332, R338, R347): a link that does not train in three attempts fails with 0x2F.06; one
with a round trip over 15 µs, or with another peer, stays down with 0x2F.07 or 0x2F.0A. -/
def State.bringUp (s : State) (p : Nat) (trains : Bool) (rtNs : Nat) (peer : BitVec 18) : State :=
  let x := s.pport p
  if x.state = 2 then s.setPport p { x with closing := none }
  else if !trains then
    (s.setPport p { x.off with state := 3, fails := 3 }).linkEvent 0x2F06 p 0
  else if 15000 < rtNs then (s.setPport p x.off).linkEvent 0x2F07 p 0
  else if peer.toNat ≠ s.pont.cabled p then (s.setPport p { x.off with peer := peer }).linkEvent 0x2F0A p 0
  else s.setPport p { x.off with state := 2, width := 4, peer := peer, heard := s.time, progress := s.time }

/-- A port that CONFIGURE disables (R418, R470): gracefully it starts no packet and goes down once its flits are
acknowledged; forced, it goes down at once and fault 0x10.06 is raised. -/
def State.disablePort (s : State) (p : Nat) (force : Bool) : State :=
  let x := s.pport p
  let busy := !x.replay.isEmpty || x.txq.any (fun t => t.sent != 0)
  if x.state = 2 && busy && !force then s.setPport p { x with closing := some (x.closing.getD s.time) }
  else
    let s' := s.setPport p x.off
    if x.state = 2 && force then s'.raise { code := 0x1006 } else s'

/-- Ports that close go down once every flit is acknowledged, or after 50 µs (R470). -/
def State.closePorts (s : State) : State :=
  (List.range 16).foldl (fun (s : State) (p : Nat) =>
    let x := s.pport p
    match x.closing with
    | none => s
    | some t =>
      if (x.replay.isEmpty && !x.txq.any (fun y => y.sent != 0)) || decide (t + 200000 ≤ s.time) then s.setPport p x.off else s) s

/-- `PONT.NODE`, `PONT.SHAPE` and the parameters of CONFIGURE (R351, R361, R365, R368, R416). The device that is time master
has joined by being so; no TICK has been received since (R366). -/
def State.configurePont (s : State) (p : PghSt) : State :=
  let nd := p.pl 4 1
  let lens := (List.range 6).foldl (fun v d => v + (p.pl (5 + d) 1 - 1) * 2 ^ (4 * d)) 0
  let id : BitVec 18 := BitVec.ofNat 18 (p.pl 0 4)
  let master : BitVec 18 := BitVec.ofNat 18 (p.pl 0x0D 3)
  let backup : BitVec 18 := BitVec.ofNat 18 (p.pl 0x20 3)
  s.onPont (fun d => { d with
    devId := id, ndim := BitVec.ofNat 3 nd, lens := BitVec.ofNat 24 lens, skipA := BitVec.ofNat 3 (p.pl 0x0B 1)
    skipB := BitVec.ofNat 3 (p.pl 0x0C 1), masterId := master, backupId := backup, master := id == master
    backup := id == backup, joined := d.joined || id == master, newMaster := false, wait := 4000 * p.pl 0x18 4
    lead := 4000 * p.pl 0x1C 4, lastTick := none, tickDue := [], nextTick := none })

/-- CONFIGURE (R416): the ports that are enabled come up, the others go down. -/
def execConfigure (n : Pgh) (linkUp : BitVec 16) (roundTripNs : List Nat) (peers : List (BitVec 18)) (s : State) :
    Host.Outcome State Fault Refusal :=
  if wfConfigure roundTripNs peers then
    .next (s.command n 0x0601 (fun s p =>
      let s := s.configurePont p
      let enabled := p.pl 0x12 2
      let back := p.pl 0x14 2
      let s := (List.range 16).foldl (fun (s : State) (q : Nat) =>
        let homed := if q % 2 = 1 then (p.pl 0x10 1).testBit (q / 2) else !(p.pl 0x10 1).testBit (q / 2)
        let x := s.pport q
        let s := s.setPport q { x with home := homed }
        if enabled.testBit q && s.pont.uses q then
          (if x.state = 3 && !back.testBit q then s
           else s.bringUp q (linkUp.getLsbD q) (roundTripNs[q]?.getD 0) (peers[q]?.getD 0))
        else s.disablePort q p.force) s
      s.finishCmd n.val { data := (List.range 16).flatMap (fun q => bytesOf (s.pontStatus q) 4) }))
  else .refused (.illFormed "CONFIGURE")

/-- PONT_STATUS (R416). -/
def execPontStatus (n : Pgh) (s : State) : Host.Outcome State Fault Refusal :=
  .next (s.command n 0x0602 (fun s _ =>
    let ids := s.pont.failed
    let data := (List.range 16).flatMap (fun q => bytesOf (s.pontStatus q) 4)
      ++ (List.range 16).flatMap (fun q => bytesOf (s.pontErr q) 4) ++ bytesOf s.pontNode 4 ++ bytesOf s.pontShape 4
      ++ bytesOf s.pontTime 4 ++ bytesOf ids.length 4
      ++ (List.range 64).flatMap (fun k => bytesOf ((ids[k]?.getD 0).toNat) 4)
    s.finishCmd n.val { data := data }))

/-! ### Observation (R259, R417, R505-R507, R512) -/

/-- COUNTERS (R417, R505): the page of the admin, or of the berth in slot 2 of its region; COUNTER_PAGE_WRITE answers. -/
def execCounters (n : Pgh) (s : State) : Host.Outcome State Fault Refusal :=
  .next (s.command n 0x0701 (fun s p =>
    let s := (s.await n.val []).latchPacket
    if n.val < 4 then s.addPage (s.pageOf 4 n.val 0x0701 p.tag.toNat none)
    else s.filteredPage p.berth 2 4 n.val 0x0701 p.tag.toNat))

/-- CONTEXT_CNT (R259, R417). -/
def execContextCnt (n : Pgh) (s : State) : Host.Outcome State Fault Refusal :=
  .next (s.command n 0x0702 (fun s p =>
    match s.physOf (p.pl 0 1) (p.pl 1 1) with
    | none => s.finishCmd n.val { status := 2, field := 0x40 }
    | some i =>
      let data := (List.range (p.pl 3 1)).flatMap (fun k =>
        let x := s.ctxAt (ctxKey 0 i (p.pl 2 1 + k))
        bytesOf x.held.toNat 4 ++ bytesOf x.waited.toNat 4)
      s.finishCmd n.val { data := data }))

/-- TRACE (R417, R512): while a run is in progress it takes effect at the next frame start. -/
def execTrace (n : Pgh) (s : State) : Host.Outcome State Fault Refusal :=
  .next (s.command n 0x0703 (fun s p =>
    let x : TrcRegion := { TrcRegion.reset with
      base := p.pl 8 8, size := p.pl 16 8, expo := p.pl 1 1, enable := BitVec.ofNat 8 (p.pl 0 1) }
    let s := if s.runs then s.onObs (fun o => { o with regPend := tset o.regPend p.berth x }) else s.setRegion p.berth x
    s.finishCmd n.val {}))

/-! ### Frames, clocks and power (R37, R40, R42, R65, R417, R443, R447) -/

/-- SET_FRAME (R42, R417). -/
def execSetFrame (n : Pgh) (s : State) : Host.Outcome State Fault Refusal :=
  .next (s.command n 0x0801 (fun s p =>
    let m := p.pl 12 1
    let s := if m.testBit 0 then s.writeTickSrc (BitVec.ofNat 4 (p.pl 0 4)) else s
    let r := if m.testBit 1 then s.writePeriod (p.pl 4 4) else (s, true)
    let s := if m.testBit 2 then
        r.1.onFrm (fun f => { f with early := BitVec.ofNat 8 (p.pl 8 1), late := BitVec.ofNat 8 (p.pl 9 1) }) else r.1
    s.finishCmd n.val { data := bytesOf (if r.2 then 0 else 2) 1 }))

/-- SET_CLOCK (R65, R417, R431): at the next frame boundary, or at once. -/
def execSetClock (n : Pgh) (s : State) : Host.Outcome State Fault Refusal :=
  .next (s.command n 0x0802 (fun s p =>
    let s := (s.onPwr (fun w => { w with clkReq := some (p.pl 0 2, p.pl 2 1, p.pl 3 1) })).await n.val []
    if s.between then s.clockStep else s))

/-- POWER_LIMIT (R417, R442). -/
def execPowerLimit (n : Pgh) (s : State) : Host.Outcome State Fault Refusal :=
  .next (s.command n 0x0803 (fun s p =>
    (s.onPwr (fun w => { w with limitW := BitVec.ofNat 12 (p.pl 0 2) })).finishCmd n.val {}))

/-- THERMAL (R417, R447). -/
def execThermal (n : Pgh) (s : State) : Host.Outcome State Fault Refusal :=
  .next (s.command n 0x0804 (fun s _ =>
    s.finishCmd n.val { data := (List.range 56).flatMap (fun k => bytesOf (tget s.pwr.sensors k 0).toNat 2) }))

/-! ### Attestation (R485, R488) -/

/-- The flags of an attestation report (R488). -/
def State.attestFlags (s : State) : Nat :=
  let off := (List.range 192).any (fun i => !(s.nstB i).bgtEn || !(s.deckB i).bgtEn)
  pack [(1, bitOf s.boot.ungraded), (1, bitOf s.shape.degraded), (1, bitOf s.boot.ephemeral),
        (1, bitOf (s.shape.restricted || s.shape.unusable)), (1, bitOf s.pwr.holdover), (1, bitOf s.post.spareUsed),
        (1, bitOf off), (1, bitOf s.upd.damaged)]

/-- A list of exactly `n` bytes, padded with zeros. -/
def padTo (n : Nat) (bs : List Byte) : List Byte := (List.range n).map (fun k => bs[k]?.getD 0)

/-- Whether a valid grade record is in use (R485). -/
def State.graded (s : State) : Bool := s.boot.grResult == 1

/-- Bytes 0x000 to 0xC1F of the report, which its signature covers (R488). -/
def State.attestBody (s : State) (nonce : List Byte) : List Byte :=
  let b := s.boot
  let digest := match s.frm.prog with | some g => g.image.digest.toNat | none => 0
  let berth := match s.frm.prog with | some g => g.berth | none => 0xFF
  bytesOf 0x41545354 4 ++ bytesOf 1 2 ++ bytesOf 0x1E33 2 ++ bytesOf nonce.length 1 ++ bytesOf 0 7 ++ padTo 64 nonce
    ++ bytesOf Config.romVersion.toNat 4 ++ bytesOf b.fwVersion.toNat 4 ++ bytesOf b.fwDigest.toNat 64
    ++ bytesOf b.keyHash.toNat 64 ++ bytesOf s.shapeHash.toNat 32 ++ bytesOf s.shape.grade.toNat 1 ++ bytesOf b.lEff.toNat 1
    ++ bytesOf s.attestFlags 2 ++ bytesOf 0 4 ++ bytesOf (if s.graded then (sha3 b.gradeRec).toNat else 0) 64
    ++ bytesOf s.brtDigest.toNat 64 ++ bytesOf digest 64 ++ bytesOf berth 1 ++ bytesOf s.frm.phase.toNat 1 ++ bytesOf 0 6
    ++ bytesOf s.frm.frameNum.toNat 6 ++ bytesOf 0 2 ++ bytesOf s.time 8 ++ List.replicate 40 0 ++ padTo 2592 b.publicKey

/-- ATTEST (R488): the report goes to BUF. -/
def execAttest (n : Pgh) (s : State) : Host.Outcome State Fault Refusal :=
  .next (s.command n 0x0A01 (fun s p =>
    let body := s.attestBody (p.plBytes 8 (p.pl 0 1))
    let sig := padTo 4627 (Config.mlSign s.boot.key (bytesOf (sha3 body).toNat 64))
    (s.hostPut p.buf (body ++ sig)).finishCmd n.val { data := bytesOf 0x1E33 4 }))

/-- GRADE_RECORD (R485): the presented grade record, if valid, and the helper record in use. -/
def execGradeRecord (n : Pgh) (s : State) : Host.Outcome State Fault Refusal :=
  .next (s.command n 0x0A02 (fun s p =>
    let rec_ := (if s.graded then padTo 5120 s.boot.gradeRec else []) ++ padTo 2048 s.boot.helper
    (s.hostPut p.buf rec_).finishCmd n.val { data := bytesOf rec_.length 4 }))

end Sys2Proof.Machine
end

