-- ==== Sys2Proof/Machine/TakeUp.lean ====
section
/-! DEFINITION. How firmware takes up posted commands and abandons them (R400, R401). -/

namespace Sys2Proof.Machine

/-- Posted commands in the order of a round that starts at a position (R400). -/
def State.posted (s : State) : List Nat :=
  ((List.range 64).map (fun k => (s.post.rr + k) % 64)).filter (fun n => (s.pghAt n).state == 1)

/-- COMMAND_TAKE_UP (R400, R407): the next posted command is copied and checked; it runs, or fails at once. The start page
of a program command is latched as it starts (R505). -/
def execCommandTakeUp (s : State) : Host.Outcome State Fault Refusal :=
  .next (
    if !s.post.firmware || s.post.switching || s.frm.halted then s
    else match s.posted with
      | [] => s
      | n :: _ =>
        let p := { s.pghAt n with copy := (s.pghAt n).cmd, state := 2, begun := false, wait := [] }
        let s := (s.setPgh n p).onPost (fun x => { x with rr := (n + 1) % 64 })
        let verdict := match p.old with
          | none => s.checkCmd n p
          | some t => { s with brt := { s.brt with live := t } }.checkCmd n p
        match verdict with
        | some a => s.respond n a
        | none => if p.op / 256 = 3 then s.cmdLatch 0 n p.op p.tag.toNat p.berth else s)

/-- One millisecond in qns, and the part of a bound that grows with a size: qns per GiB, or per TiB. -/
def ms : Nat := 4000000
def perGib (qns bytes : Nat) : Nat := (qns * bytes + 1073741823) / 1073741824
def perTib (qns bytes : Nat) : Nat := (qns * bytes + 1099511627775) / 1099511627776

/-- The bytes that the grants of a berth hold in LPDDR5X, and a namespace's bytes. -/
def State.lpBytes (s : State) (b : Nat) : Nat := ((lpRanges s.brt.live b).map (fun r => r.2 - r.1)).foldl (· + ·) 0
def State.nsBytes (s : State) (ns : Nat) : Nat := 65536 * ((tfind s.depot.ns ns).map (·.size)).getD 0

/-- Maximum completion times (R408-R417), in qns; none for an opcode that is unknown. -/
def State.maxTime (s : State) (p : PghSt) : Option Nat :=
  match p.op with
  | 0x0101 => some 400000
  | 0x0102 => some 400000
  | 0x0103 => some 800000
  | 0x0201 => some 400000
  | 0x0202 => some (50 * ms + perGib ms (s.lpBytes p.berth))
  | 0x0301 => some (2000 * ms)
  | 0x0302 => some (2000 * ms)
  | 0x0303 => some (10 * ms)
  | 0x0304 => some (if p.pl 0 1 = 0 && !p.force then 25 * ms else 80600)
  | 0x0305 => some (1000 * ms)
  | 0x0306 => some ms
  | 0x0307 => some 400000
  | 0x0308 => some (25 * ms)
  | 0x0401 => some ms
  | 0x0402 => some (10 * ms + perGib ms (p.pl 8 8))
  | 0x0403 => some (10 * ms + perGib ms (p.pl 16 8))
  | 0x0404 => some (10 * ms + perGib (2 * ms) (p.pl 24 8))
  | 0x0405 => some (ms + 16000 * p.pl 8 4)
  | 0x0501 => some 400000
  | 0x0502 => some (10000 * ms + perTib (60000 * ms) (32 * s.depot.lunsOf * Config.flashLunBytes))
  | 0x0503 => some (10 * ms)
  | 0x0504 => some (10 * ms + perTib (60000 * ms) (s.nsBytes (p.pl 0 1)))
  | 0x0505 => some ms
  | 0x0506 => some (10 * ms + perGib (100 * ms) (p.pl 24 8))
  | 0x0507 => some (10 * ms + perGib (100 * ms) (p.pl 24 8))
  | 0x0508 => some (10 * ms + perGib (200 * ms) (bytesIn (spacesOf p)))
  | 0x0509 => some (10 * ms + perGib (200 * ms) (bytesIn (((s.versionOf p).map (·.ranges)).getD [])))
  | 0x050A => some ms
  | 0x050B => some ms
  | 0x050C => some (10 * ms)
  | 0x0601 => some (1000 * ms)
  | 0x0602 => some 400000
  | 0x0701 => some 800000
  | 0x0702 => some 800000
  | 0x0703 => some ms
  | 0x0801 => some 400000
  | 0x0802 => some (100 * ms)
  | 0x0803 => some 400000
  | 0x0804 => some 400000
  | 0x0901 => some (50 * ms)
  | 0x0902 => some 400000
  | 0x0903 => some 400000
  | 0x0A01 => some (20 * ms)
  | 0x0A02 => some ms
  | _ => none

/-- The command that a pigeonhole holds, taken up or still posted. -/
def PghSt.held (p : PghSt) : PghSt := if p.state = 1 then { p with copy := p.cmd } else p

/-- A command is abandoned with an answer (R401). -/
def State.abandonCmd (s : State) (n : Nat) (a : Answer) : State :=
  let s := s.leave n
  let p := s.pghAt n
  if p.state = 1 then (s.setPgh n p.held).respond n a else s.finishCmd n a

/-- COMMAND_TIMEOUT (R401): a command that has not completed within its maximum time completes with TIMEOUT. -/
def execCommandTimeout (n : Pgh) (s : State) : Host.Outcome State Fault Refusal :=
  .next (
    let p := s.pghAt n.val
    if (p.state = 1 || p.state = 2) && !s.post.switching
        && (s.maxTime p.held).any (fun t => decide (p.ringAt + t ≤ s.time)) then
      s.abandonCmd n.val { status := 4 }
    else s)

/-- CANCEL (R396, R401): no effect on KILL, on a STOP with MODE 1, or on a command that is not posted or running. -/
def execCancel (n : Pgh) (s : State) : Host.Outcome State Fault Refusal :=
  .next (
    let p := s.pghAt n.val
    let q := p.held
    if (p.state = 1 || p.state = 2) && s.post.firmware && !s.frm.halted && q.op != 0x0202
        && !(q.op == 0x0304 && q.pl 0 1 == 1) then
      s.abandonCmd n.val { status := 5, detail := 2 }
    else s)

end Sys2Proof.Machine
end

