-- ==== Sys2Proof/Machine/RegWrite.lean ====
section
/-! DEFINITION. Writes of registers (R5, R8, R9, R396, R399, R461, R472, R479, R489, R500, R508-R510). -/

namespace Sys2Proof.Machine

/-! ### The logs and the leaves (R461, R472) -/

/-- One fault log changed. -/
def State.onLog (s : State) (n : Nat) (f : LogSt → LogSt) : State :=
  { s with flt := { s.flt with logs := tset s.flt.logs n (f (tget s.flt.logs n .reset)) } }

/-- LOG_ACK_FREE (R461): the oldest records go; a number above COUNT frees all. -/
def execLogAckFree (log : Fin 13) (n : BitVec 9) (s : State) : Host.Outcome State Fault Refusal :=
  .next (s.onLog log.val (fun l => { l with recs := l.recs.drop n.toNat }))

/-- CLR_SUPP (R461). -/
def execClrSupp (log : Fin 13) (s : State) : Host.Outcome State Fault Refusal :=
  .next (s.onLog log.val (fun l => { l with supp := 0 }))

/-- CLR_LOST (R461). -/
def execClrLost (log : Fin 13) (s : State) : Host.Outcome State Fault Refusal :=
  .next (s.onLog log.val (fun l => { l with lost := 0 }))

/-- LEAF_W1C_CLEAR (R9, R472): ones clear the bits of a leaf, or of `PGH.DONE0` and `PGH.DONE1`, but for those that the hardware
sets in the same clock cycle. -/
def execLeafW1cClear (off : BitVec 20) (val : Word) (s : State) : Host.Outcome State Fault Refusal :=
  .next (
    let k := off.toNat
    if isLeaf k then
      { s with flt := { s.flt with leaves := tset s.flt.leaves k (tget s.flt.leaves k 0 &&& ~~~(val &&& ~~~(s.flt.setAt s.time k))) } }
    else s)

/-! ### Registers without a row of their own (R5, R8, R379) -/

/-- A half of a 64-bit register written. -/
def withHalf (v : Nat) (hi : Bool) (w : Nat) : Nat := if hi then v % 2 ^ 32 + 2 ^ 32 * w else v / 2 ^ 32 * 2 ^ 32 + w

/-- The admin page (R479): the delivery registers. -/
def State.writeAdmin (s : State) (off w : Nat) : State :=
  let b := s.boot
  let addr (d : DWord) (hi : Bool) : DWord := BitVec.ofNat 64 (withHalf d.toNat hi w % 2 ^ 52)
  let len : Word := BitVec.ofNat 32 (w % 2 ^ 23)
  let put (b : BootSt) : State := { s with boot := b }
  match off with
  | 0x010 => put { b with fwAddr := addr b.fwAddr false }
  | 0x014 => put { b with fwAddr := addr b.fwAddr true }
  | 0x018 => put { b with fwLen := len }
  | 0x020 => put { b with grAddr := addr b.grAddr false }
  | 0x024 => put { b with grAddr := addr b.grAddr true }
  | 0x028 => put { b with grLen := len }
  | 0x030 => put { b with hrAddr := addr b.hrAddr false }
  | 0x034 => put { b with hrAddr := addr b.hrAddr true }
  | 0x038 => put { b with hrLen := len }
  | _ => s

/-- The masks of the interrupt tree (R472); every other register of the window is read-only or has a row of its own. -/
def State.writeTree (s : State) (off w : Nat) : State :=
  let k := off - 4
  if isLeaf off || isSummary off || !(isLeaf k || isSummary k) then s
  else { s with flt := { s.flt with masks := tset s.flt.masks k (BitVec.ofNat 32 (Nat.land w (treeBits k))) } }

/-- A pigeonhole's page (R395, R396, R399, R402): the command area in IDLE or DONE, and DROPPED, which a 1 clears unless a ring is dropped in
the same clock cycle (R9). -/
def State.writePgh (s : State) (n off w : Nat) : State :=
  let p := s.pghAt n
  if off = 0xFC8 then (if w.testBit 2 && p.dropAt != some s.time then s.setPgh n { p with dropped := false } else s)
  else if decide (off < 0x800) && (p.state == 0 || p.state == 3) && p.old.isNone then
    s.setPgh n { p with cmd := tabWrite p.cmd off w 4 }
  else s

/-- Four selections of a core written at once (R500, R501): while no program runs; a reserved code is dropped, and a
selection that is written clears its counter. -/
def State.writeSel (s : State) (p : Nat) (hi : Bool) (w : Nat) : State :=
  if s.runs then s
  else
    (List.range 4).foldl (fun (s : State) (k : Nat) =>
      let e := w / 2 ^ (8 * k) % 256
      let i := if hi then 4 + k else k
      let old := (tget s.cnt.sel p 0).toNat
      let new := old - old / 2 ^ (8 * i) % 256 * 2 ^ (8 * i) + e * 2 ^ (8 * i)
      if eventOk e then
        { s with cnt := { s.cnt with
            sel := tset s.cnt.sel p (BitVec.ofNat 64 new), val := tdel s.cnt.val (cntKey 8 p i)
            ovf := tdel s.cnt.ovf (cntKey 8 p i) } }
      else s) s

/-- The counter window (R509, R510): a value that a field does not take is dropped. -/
def State.writeCnt (s : State) (off w : Nat) : State :=
  let o := s.obs
  let addr (v : BitVec 48) (hi : Bool) : Option (BitVec 48) :=
    if !hi && w % 65536 != 0 then none else some (BitVec.ofNat 48 (withHalf v.toNat hi w))
  let size (hi : Bool) : Nat := withHalf o.traceSize hi w % 2 ^ 35
  let sizeOk (v : Nat) : Bool := v == 0 || (v % 65536 == 0 && within 262144 17179869184 v)
  let put (o : ObsSt) : State := { s with obs := o }
  if 0x81000 ≤ off && off < 0x81600 then s.writeSel ((off - 0x81000) / 8) (off % 8 == 4) w
  else match off with
    | 0x80000 => put { o with framePages := w.testBit 0, cmdPages := w.testBit 1 }
    | 0x80008 => put { o with pageBase := (addr o.pageBase false).getD o.pageBase }
    | 0x8000C => put { o with pageBase := (addr o.pageBase true).getD o.pageBase }
    | 0x80010 => let c := w % 8192
      if c = 0 || (c &&& (c - 1) == 0 && decide (c ≤ 4096)) then put { o with pageCount := c } else s
    | 0x80020 => let u := w % 1048576
      if within 1 1000000 u then put { o with bwPend := some u } else s
    | 0x80028 => put { o with traceBase := (addr o.traceBase false).getD o.traceBase }
    | 0x8002C => put { o with traceBase := (addr o.traceBase true).getD o.traceBase }
    | 0x80030 => if sizeOk (size false) then put { o with traceSize := size false } else s
    | 0x80034 => if sizeOk (size true) then put { o with traceSize := size true } else s
    | 0x80038 => put { o with exportReg := BitVec.ofNat 64 (Nat.land (withHalf o.exportReg.toNat false w) 0xFFFFFFFFD) }
    | 0x8003C => put { o with exportReg := BitVec.ofNat 64 (Nat.land (withHalf o.exportReg.toNat true w) 0xFFFFFFFFD) }
    | _ => s

/-- A write of `UCIE.CTO` (R392): a limit outside 1 to 1,000 ms is dropped. -/
def State.writeCto (s : State) (w : Nat) : State :=
  if within 1 1000 (w % 65536) then { s with host := { s.host with cto := BitVec.ofNat 16 w } } else s

/-- A 32-bit write at a BAR0 offset (R379), or of `UCIE.CTO` by the number past BAR0 that log entry 55 gives it: reserved offsets, read-only registers and those with a row of their own take
nothing. The shadow of the berth table takes admin writes only (R489). -/
def State.writeReg (s : State) (off w : Nat) (viaAdmin : Bool) : State :=
  if off % 4 ≠ 0 then s
  else if off < 0x1000 then s.writeAdmin off w
  else if 0x2000 ≤ off && off < 0x5C00 then
    (if viaAdmin then { s with brt := { s.brt with shadow := tabWrite s.brt.shadow (off - 0x2000) w 4 } } else s)
  else if 0x10000 ≤ off && off < 0x20000 then s.writeTree off w
  else if 0x40000 ≤ off && off < 0x80000 then s.writePgh ((off - 0x40000) / 0x1000) (off % 0x1000) w
  else if 0x80000 ≤ off && off < 0x100000 then s.writeCnt off w
  else if off = 0x100000 then s.writeCto w
  else s

/-- A 64-bit write of a register whose halves are taken together (R510): its low half decides where only it can offend, and
`CNT.TRACE_SIZE` is judged whole. -/
def State.writeWide (s : State) (off v : Nat) (viaAdmin : Bool) : State :=
  if off = 0x80030 then
    let b := v % 2 ^ 35
    if b = 0 || (b % 65536 == 0 && within 262144 17179869184 b) then { s with obs := { s.obs with traceSize := b } } else s
  else if (off = 0x80008 || off = 0x80028) && v % 65536 ≠ 0 then s
  else (s.writeReg off (v % 2 ^ 32) viaAdmin).writeReg (off + 4) (v / 2 ^ 32) viaAdmin

/-- REGISTER_WRITE (R5, R8). -/
def execRegisterWrite (off : BitVec 21) (val : DWord) (wide viaAdmin : Bool) (s : State) : Host.Outcome State Fault Refusal :=
  .next (
    if wide then (if off.toNat % 8 = 0 then s.writeWide off.toNat val.toNat viaAdmin else s)
    else s.writeReg off.toNat (val.toNat % 2 ^ 32) viaAdmin)

end Sys2Proof.Machine
end

