-- ==== Sys2Proof/Machine/Boot.lean ====
section
/-! DEFINITION. RESET_N, power-up, power-fail, the ROM flow and delivery (R2, R22-R32, R199, R216, R240-R243, R319,
R374-R377, R439, R478-R487, R520, R526-R528). -/

namespace Sys2Proof.Machine

def State.onBoot (s : State) (f : BootSt → BootSt) : State := { s with boot := f s.boot }

/-! ### RESET_N low, power-up and power-fail (R319, R446, R447, R466, R476, R520, R526-R528) -/

/-- The Depot after the loss of everything volatile (R320, R326, R527): what flash held at the last journal record. -/
def DepotSt.powerLoss (d : DepotSt) : DepotSt :=
  { d with
    state := 0, rebuild := false, flushed := false, torn := false, quiesced := false, quiescing := false
    flushing := false, wear := 0, data := d.durable, mapped := d.durable, bufs := [], journal := 0, found := []
    ns := d.ns.map (fun (e : Nat × DepotNs) => (e.1, { e.2 with owner := none }))
    chans := d.chans.map (fun (e : Nat × DepotChan) =>
      (e.1, { DepotChan.reset with failed := e.2.failed, retired := e.2.retired })) }

/-- Whether every thermal comparator reads below 110 °C (R445, R528): readings are in °C × 8. -/
def PowerSt.cool (p : PowerSt) : Bool := p.sensors.all (fun e => decide (e.2.toInt < 880))

/-- Every domain while RESET_N is low (R447, R466, R494, R520, R528): registers at their reset values, memories undefined;
what lies on VDD_AON and flash is kept, and so is the Depot during a flush. -/
def State.afterReset (s : State) : State :=
  let z := State.reset
  let e := s.epoch + 1
  { z with
    pending := s.pending, out := s.out, fresh := s.fresh, epoch := e
    nst := s.nst.forget e [], deck := s.deck.forget e [], lp := s.lp.forget e []
    flt := { z.flt with suspect := s.flt.suspect }
    pwr := { z.pwr with tripped := s.pwr.tripped }
    boot := { z.boot with number := s.boot.number }
    depot := if s.depot.flushing then s.depot else s.depot.powerLoss
    pins := { s.pins with
      resetN := false, pwrFailN := true
      thermtripN := s.pins.thermtripN || s.pwr.cool } }

/-- RESET_N_ASSERT (R476, R526): a pulse under 1 µs is ignored, and noticed after the next boot. -/
def execResetNAssert (lowNs : Nat) (s : State) : Host.Outcome State Fault Refusal :=
  .next (
    if !s.pins.resetN then s
    else if lowNs < 1000 then { s with pins := { s.pins with shortPulse := true } }
    else s.afterReset)

/-- VDD_AON_POWER_UP (R447, R466, R526): the rails come up with RESET_N low; what lies on VDD_AON is at its reset value. -/
def execVddAonPowerUp (s : State) : Host.Outcome State Fault Refusal :=
  .next (
    let t := { s with depot := s.depot.powerLoss }.afterReset
    { t with
      flt := { t.flt with suspect := [] }
      pwr := { t.pwr with tripped := false }
      pins := { PinSt.reset with resetN := false } })

/-- The domains off the hold-up rails are isolated and may lose power (R525, R527): cores, links, memory ports, Pontoon
ports and the UCIe adapter; no program runs any more. -/
def State.isolate (s : State) : State :=
  let e := s.epoch + 1
  let frm := { s.frm with
    phase := 0, prog := none, stopKind := .none, stopReq := false, divStop := false, drainFrom := none, heldTick := none, timerNext := none
    doneAt := none, stepOne := false, stopEnd := none }
  let host := { HostSt.reset with cto := s.host.cto }
  { s with
    epoch := e, nst := s.nst.forget e [], deck := s.deck.forget e [], lp := s.lp.forget e []
    nstBank := [], deckBank := [], bankUse := .reset, core := [], stop := [], ferryFly := [], meshFly := [], stk := [], ctx := [], queue := []
    clu := [], mport := [], frm := frm, host := host
    rtr := s.rtr.map (fun (r : Nat × RouterSt) => (r.1, { RouterSt.reset with ident := r.2.ident, gateShut := r.2.gateShut }))
    post := { s.post with retained := [] }
    pont := { s.pont with
      ports := s.pont.ports.map (fun (x : Nat × PontPort) => (x.1, x.2.off)), ops := [], windows := [], colls := [] } }

/-- PWR_FAIL_N_FALL (R319, R476, R527, R528): the Depot flushes where it was ready; else it halts. -/
def execPwrFailNFall (lowNs : Nat) (s : State) : Host.Outcome State Fault Refusal :=
  .next (
    if !s.pins.pwrFailN then s
    else if lowNs < 200 then (if s.pins.resetN then s.raise { code := 0x1704 } else s)
    else
      let ready := s.pins.resetN && (s.depot.state == 1 || s.depot.state == 2)
      let s := { s with pins := { s.pins with pwrFailN := false } }
      let s := if ready then s.onDepot (fun d => { d with flushing := true }) else s.onDepot (fun d => { d with state := 3 })
      if s.pins.resetN then s.isolate else s)

/-- DEPOT_FLUSH_COMPLETE (R319, R528): the flush-complete record is programmed; FLUSHED is set and the Depot halts. With
RESET_N low the Depot then resets with the rest. -/
def execDepotFlushComplete (s : State) : Host.Outcome State Fault Refusal :=
  .next (
    if s.depot.flushing then
      let s := s.onDepot (fun d => { d.flush with state := 3, flushed := true, flushing := false, quiescing := false })
      if s.pins.resetN then s.depotEvent 0x2E0B 0 0 else { s with depot := s.depot.powerLoss }
    else s)

/-! ### RESET_N high: steps 1 to 4 of the ROM flow (R216, R240-R243, R375, R478) -/

/-- How many of the nine banks of a die of a column fail (R216). -/
def dieFails (failed : BitVec 18) (d : Nat) : Nat := ((List.range 9).filter (fun b => failed.getLsbD (2 * b + d))).length

/-- Whether the spare bank of a die takes the place of a failing one (R216). -/
def spareBank (failed : BitVec 18) (d : Nat) : Bool :=
  !failed.getLsbD (16 + d) && (dieFails failed d == 1 || dieFails failed d == 2)

/-- A map of positions as bits. -/
def posMap (n : Nat) (q : Nat → Bool) : Nat := ((List.range n).filter q).foldl (fun v k => v + 2 ^ k) 0

/-- The memories of a position after the start-up march (R216, R240-R243): every bank on and zero, repaired or failed. -/
def marchedNst (f : BootFindings) (p : Nat) : BankSt :=
  let (b, found) := BankSt.marchAll { BankSt.resetNst with pwr := 0 } p false f.cells
  if found.any (fun m => m.2 == .unrepairable) then { b with status := b.status ||| 0x4000 } else b
def marchedDeck (f : BootFindings) (p : Nat) : BankSt :=
  let (b, found) := BankSt.marchAll { BankSt.resetDeck with pwr := 0 } p true f.cells
  let failed : BitVec 18 := found.foldl (fun v m => if m.2 = .unrepairable then v ||| (1#18 <<< m.1) else v) 0
  let bits := pack [(1, bitOf (spareBank failed 0)), (1, bitOf (spareBank failed 1)), (1, bitOf (dieFails failed 0 == 2)),
    (1, bitOf (dieFails failed 1 == 2))]
  { b with failed := failed, status := b.status ||| BitVec.ofNat 32 bits }

/-- Steps 1 and 2 (R25, R27, R216, R240-R243, R466, R478, R482). -/
def State.march (s : State) (f : BootFindings) : State :=
  let suspect := (List.range 192).any s.isSuspect
  let nst := (List.range 192).map (fun p => (p, marchedNst f p))
  let deckB := (List.range 192).map (fun p => (p, marchedDeck f p))
  let fails (p d : Nat) : Nat := dieFails (tget deckB p .resetDeck).failed d
  let bad := posMap 192 (fun p => f.badCores.any (fun q => q.val == p) || (tget nst p .resetNst).status.getLsbD 14
    || s.isSuspect p)
  let live := (List.range 192).find? (fun p => f.alwaysLive.any (fun q => q.val == p))
  let deck := (List.range 192).find? (fun p => decide (3 ≤ fails p 0) || decide (3 ≤ fails p 1))
  let pos := match live, deck with
    | some p, _ => p
    | none, some p => p
    | none, none => 0xFF
  let s := s.onBoot (fun b => { b with
    number := b.number + 1, trippedB := s.pwr.tripped, suspectB := suspect, failedPos := BitVec.ofNat 8 pos
    failedDeck := live.isNone && deck.isSome })
  { s with
    pwr := { s.pwr with tripped := false }
    flt := { s.flt with suspect := [] }
    nst := .empty 0, deck := .empty 1
    nstBank := nst, deckBank := deckB
    post := { s.post with spareUsed := f.pairFails }
    shape := { s.shape with
      bad := BitVec.ofNat 192 bad, loss := BitVec.ofNat 384 (posMap 384 (fun k => fails (k / 2) (k % 2) == 2))
      restricted := live.isSome || deck.isSome } }

/-- The modules in service (R374, R375): the widest width that the good modules allow. -/
def modulesOf (good : BitVec 4) : BitVec 4 :=
  if good = 0xF then 0xF
  else if good &&& 3 = 3 then 3
  else if good &&& 0xC = 0xC then 0xC
  else match (List.range 4).find? (fun k => good.getLsbD k) with
    | some k => 1#4 <<< k
    | none => 0

/-- Step 3 (R375, R377). -/
def State.trainLink (s : State) (f : BootFindings) : State :=
  let on := modulesOf f.modules
  let fixed := f.repaired &&& f.modules
  let s := s.onHost (fun h => { h with status := if on = 0 then 0 else 2, modules := on, repaired := fixed &&& on })
  let s := (List.range 4).foldl (fun (s : State) (k : Nat) => if fixed.getLsbD k then s.hostEvent 0x3101 k 0 else s) s
  (List.range 4).foldl (fun (s : State) (k : Nat) => if f.modules.getLsbD k then s else s.hostEvent 0x3102 k 0) s

/-- RESET_N_RELEASE (R476, R478): steps 1 to 3 of the ROM flow; the ROM then waits for a delivery. -/
def execResetNRelease (f : BootFindings) (s : State) : Host.Outcome State Fault Refusal :=
  .next (
    if s.boot.phase ≠ 0 then s
    else
      let short := s.pins.shortPulse
      let s := { s with pins := { s.pins with resetN := true, shortPulse := false } }
      let s := ((s.march f).trainLink f).onBoot (fun b => { b with phase := 1 })
      if short then s.raise { code := 0x1701 } else s)

/-! ### Step 5: identity, grade, fence map, shape (R2, R22, R28, R32, R199, R482-R485) -/

/-- A field of a list of bytes. -/
def fieldAt (bs : List Byte) (off n : Nat) : Nat := ofBytes ((bs.drop off).take n)
/-- Whether `n` bytes from `off` on are zero. -/
def zeroAt (bs : List Byte) (off n : Nat) : Bool := ((bs.drop off).take n).all (· == 0)

/-- The identity (R482-R484): of the helper record presented, or enrolled afresh with notice 0x32.03. -/
def State.takeIdentity (s : State) (host : HostView) : State :=
  let b := s.boot
  let keys (helper : List Byte) : BitVec 256 × List Byte × BitVec 512 :=
    let key := Config.identityKey b.number helper
    let pub := padTo 2592 (Config.publicKey key)
    (key, pub, sha3 pub)
  let r := viewBytes host b.hrAddr.toNat 2048
  let k := keys (r.drop 0x48)
  if b.hrLen = 2048 && fieldAt r 0 4 == 0x48504C52 && fieldAt r 4 2 == 1 && fieldAt r 6 2 == 0
      && fieldAt r 8 64 == k.2.2.toNat then
    s.onBoot (fun b => { b with key := k.1, publicKey := k.2.1, keyHash := k.2.2, helper := r })
  else
    let data := padTo 1976 (Config.helperRecord b.number)
    let k := keys data
    let rec_ := bytesOf 0x48504C52 4 ++ bytesOf 1 2 ++ bytesOf 0 2 ++ bytesOf k.2.2.toNat 64 ++ data
    let s := s.onBoot (fun b => { b with
      key := k.1, publicKey := k.2.1, keyHash := k.2.2, helper := rec_, ephemeral := true })
    (s.hostPut b.hrAddr.toNat rec_).raise { code := 0x3203, aux := 5 }

/-- Bad cores of a physical column. -/
def colBad (bad : BitVec 192) (x : Nat) : Nat := ((List.range 12).filter (fun y => bad.getLsbD (12 * x + y))).length

/-- Whether a grade record's fields hold the values of R485. -/
def gradeFormat (r : List Byte) : Bool :=
  let code := fieldAt r 6 1
  let map := BitVec.ofNat 192 (fieldAt r 0x48 24)
  fieldAt r 0 4 == 0x47524452 && fieldAt r 4 2 == 1 && decide (1 ≤ code) && decide (code ≤ 3) && fieldAt r 7 1 == 0
    && (List.range 16).all (fun x => decide (colBad map x ≤ code)) && zeroAt r 0x60 160 && zeroAt r 0x1313 237

/-- GR_RESULT of a grade record (R479, R485). -/
def BootSt.gradeCheck (b : BootSt) (r : List Byte) : Nat :=
  if b.grLen = 0 then 0
  else if b.grLen ≠ 5120 || !gradeFormat r then 2
  else if !Config.mlVerify 0 (sha3 (r.take 256)) ((r.drop 0x100).take 4627) then 3
  else if fieldAt r 8 64 ≠ b.keyHash.toNat then 4
  else 1

/-- The grade record (R2, R485). -/
def State.takeGrade (s : State) (host : HostView) : State :=
  let r := viewBytes host s.boot.grAddr.toNat 5120
  let res := s.boot.gradeCheck r
  let ok := res == 1
  let s := s.onBoot (fun b => { b with
    grResult := BitVec.ofNat 3 res, ungraded := !ok, gradeRec := if ok then r else [] })
  let s := { s with shape := { s.shape with
    grade := if ok then BitVec.ofNat 8 (fieldAt r 6 1) else 0x0F, valid := ok
    factory := if ok then BitVec.ofNat 192 (fieldAt r 0x48 24) else 0 } }
  if ok then s else s.raise { code := 0x3202, aux := 5 }

/-- The most bad cores of any column. -/
def worstCol (bad : BitVec 192) : Nat := (List.range 16).foldl (fun m x => max m (colBad bad x)) 0

/-- The spare cores of a column with L logical rows (R22): the northernmost good ones. -/
def spareRows (bad : BitVec 192) (l x : Nat) : List Nat :=
  (((List.range 12).reverse.map (fun y => 12 * x + y)).filter (fun p => !bad.getLsbD p)).take (12 - l - colBad bad x)

/-- The effective grade and the fence map (R22, R28, R32). -/
def ShapeSt.settle (x : ShapeSt) : ShapeSt :=
  let rec_ := if x.valid then 12 - x.grade.toNat else 9
  let l := min rec_ (12 - worstCol x.bad)
  if l < 9 then { x with rows := 0, fenced := x.bad, degraded := true, unusable := true, built := true }
  else
    let spares := (List.range 16).flatMap (spareRows x.bad l)
    { x with
      rows := l, fenced := x.bad ||| BitVec.ofNat 192 (posMap 192 spares.contains), unusable := false, built := true
      degraded := (x.valid && x.bad != x.factory) || decide (l < rec_) || x.loss != 0 }

/-- `MESH[i].IDENT` (R199). -/
def ShapeSt.identOf (x : ShapeSt) (p : Nat) : Nat :=
  let below := (List.range (p % 12)).map (fun y => 12 * (p / 12) + y)
  let fenced := x.fenced.getLsbD p
  let rank := (below.filter (fun q => x.fenced.getLsbD q == fenced)).length
  pack [(4, p / 12), (4, if fenced then 12 + rank else rank), (1, bitOf fenced), (1, bitOf (fenced && !x.bad.getLsbD p)),
        (1, bitOf fenced)]

/-- Step 5 (R15, R22, R28, R199, R478, R485): the gates of fenced cores close; a degraded result raises notice 0x32.06. -/
def State.settleShape (s : State) : State :=
  let x := s.shape.settle
  let s := { s with
    shape := x
    rtr := (List.range 192).map (fun p => (p, { s.rtrAt p with ident := BitVec.ofNat 32 (x.identOf p), gateShut := x.fenced.getLsbD p })) }
  let s := s.onBoot (fun b => { b with step5 := true, lEff := BitVec.ofNat 4 x.rows })
  if x.degraded then s.raise { code := 0x3206, aux := 5 } else s

/-! ### Step 6: the firmware (R265, R439, R478-R481) -/

/-- The digest of a firmware image: its header's first 256 bytes and its body (R480). -/
def fwDigestOf (r : List Byte) (body : Nat) : BitVec 512 := sha3 (r.take 256 ++ (r.drop 0x1400).take body)

/-- FW_RESULT of a firmware image of `len` bytes (R479, R480). -/
def fwCheck (r : List Byte) (len : Nat) : Nat :=
  let body := fieldAt r 0xC 4
  let load := fieldAt r 0x10 4
  let format := len == 5120 + body && fieldAt r 0 4 == 0x47574649 && fieldAt r 4 2 == 1 && fieldAt r 6 2 == 0
    && multiple 64 body && within 64 2097152 body && multiple 4096 load && decide (load + body ≤ 0x300000)
    && decide (fieldAt r 0x14 4 < body) && fieldAt r 0x1C 4 == 4627 && zeroAt r 0x20 224 && zeroAt r 0x1313 237
  if !format then 2
  else if Config.romVersion.toNat < fieldAt r 0x18 4 then 5
  else if !Config.mlVerify 0 (fwDigestOf r body) ((r.drop 0x100).take 4627) then 4
  else 1

/-- The voltage search (R27, R439), once a boot: VDD_CORE at the boot point, at most 0.850 V. -/
def State.voltageSearch (s : State) (v : VoltageFinding) : State :=
  if s.boot.searched then s
  else
    let s := s.onBoot (fun b => { b with searched := true })
    let put (s : State) (mv : Nat) : State := (s.onPwr (fun p => { p with bootMv := mv, setMv := BitVec.ofNat 10 mv })).emit (.avs mv)
    match v with
    | .warnAt mv => (s.onPwr (fun p => p.withTarget p.setMhz)) |> (fun s => put s (max 550 (min 850 (mv + 25))))
    | .slower mhz => put (s.onPwr (fun p => p.withTarget mhz)) 850
    | .persists =>
      let s := put (s.onPwr (fun p => p.withTarget 1850)) 850
      { s with shape := { s.shape with restricted := true } }

/-- Firmware starts (R265, R403, R439, R478): the memory ports train. -/
def State.startFirmware (s : State) (volt : VoltageFinding) : State :=
  let s := { s with mport := (List.range 16).map (fun i =>
    let m := s.mportAt i
    (i, if m.trained then m else
      { m with trained := true, step := BitVec.ofNat 3 s.pwr.memStep, pkg := Config.package36, lastUse := s.time })) }
  let s := if s.shape.unusable then s else s.voltageSearch volt
  let phase : BitVec 3 := if s.shape.unusable then 5 else if s.shape.restricted then 4 else 3
  (s.onPost (fun p => { p with firmware := true })).onBoot (fun b => { b with phase := phase })

/-- A delivery that fails (R479, R480). -/
def State.rejectDelivery (s : State) (res : Nat) : State :=
  (s.onBoot (fun b => { b with fwResult := BitVec.ofNat 3 res, phase := 1 })).raise { code := 0x3201, aux := 6 }

/-- DELIVER_GO (R478-R481): step 5 unless it has run since RESET_N, then step 6. Without a host link no read completes. -/
def execDeliverGo (host : HostView) (volt : VoltageFinding) (s : State) : Host.Outcome State Fault Refusal :=
  .next (
    if s.boot.phase ≠ 1 then s
    else if s.host.status ≠ 2 then s.rejectDelivery 3
    else
      let s := if s.boot.step5 then s else ((s.takeIdentity host).takeGrade host).settleShape
      let len := s.boot.fwLen.toNat
      let r := viewBytes host s.boot.fwAddr.toNat (max 5120 len)
      let res := fwCheck r len
      if res ≠ 1 then s.rejectDelivery res
      else
        (s.onBoot (fun b => { b with
          fwResult := 1, fwDigest := fwDigestOf r (fieldAt r 0xC 4), fwVersion := BitVec.ofNat 32 (fieldAt r 8 4)
          })).startFirmware volt)

/-- REENTER (R479, R487): the Postmaster returns to step 4. -/
def execReenter (s : State) : Host.Outcome State Fault Refusal :=
  .next (
    if s.boot.phase ≠ 3 || s.frm.prog.isSome || s.frm.halted then s
    else
      let s := s.running.foldl (fun (s : State) (n : Nat) => (s.leave n).finishCmd n { status := 5, detail := 1 }) s
      let s := (List.range 64).foldl (fun (s : State) (n : Nat) =>
        let p := s.pghAt n
        if p.state = 1 then s.setPgh n { p with state := 0, dropped := true } else s) s
      ((s.onPost (fun p => { p with firmware := false })).onBoot (fun b => { b with phase := 1 })).raise
        { code := 0x3207, aux := 4 })

end Sys2Proof.Machine
end

