-- ==== Sys2Proof/Machine/NetSlot.lean ====
section
/-! DEFINITION. The network slot (R119, R204): the core's side of the injection and ejection queues. -/

namespace Sys2Proof.Machine

/-- SEND (R119, R204): a row, or a nil where COND is 1 and s(sA) is 0, into the injection queue. -/
def execSend (p : Pos) (a sa : BitVec 4) (cond : Bool) (s : State) : Host.Outcome State Fault Refusal :=
  let row := rowOf (s.aReg p.val a.toNat)
  let bad := !cond && sa != 0
  let nil := cond && s.sReg p.val sa.toNat == 0
  .next (s.whenIssued p.val (.send p a sa cond) (wakeCause (!bad && !nil && s.rowsWake p.val row 1)) (fun s =>
    if bad then s.illegal p.val
    else if nil then ((s.pendOp p.val (.inject true) 1 3 0).useA p.val a.toNat 2).event p.val 0x32 1
    else
      let (s, r) := s.readRow p.val row
      ((s.pendOp p.val (.inject false) 1 3 (r.setWidth 2048)).useA p.val a.toNat 2).event p.val 0x30 1))

/-- The flit or nil a receive issued now pops, if the ejection queue holds one that may be popped (R119, R204). -/
def State.ejHead (s : State) (p : Nat) : Option Flit :=
  match (s.rtrAt p).ej with
  | (av, f) :: _ => if av ≤ s.tcyc p then some f else none
  | [] => none

/-- A receive `i`, `op` its opcode: pop the head, then do `k` with the flit unless it is nil (R119, R511). -/
def State.receive (s : State) (p : Nat) (i : Instr) (op : Nat) (a : Option Nat) (k : State → Flit → State) : State :=
  s.whenIssued p i none (fun s =>
    let s := match a with | some n => s.useA p n 2 | none => s
    match s.ejHead p with
    | none => s.seqFault p 0x2208
    | some f =>
      let s := (s.pendOp p .eject 1 3 0).arrivalRec p op f
      if f.side.getLsbD 0 then k (if op = 5 then s else s.event p 0x31 1) f else s)

/-- RECV (R119, R204): the row is written by tcyc t + 2. -/
def execRecv (p : Pos) (a : BitVec 4) (s : State) : Host.Outcome State Fault Refusal :=
  .next (s.receive p.val (.recv p a) 2 (some a.toNat) (fun s f =>
    s.pendOp p.val (.nst (rowOf (s.aReg p.val a.toNat)) 1) 3 3 (f.pay.setWidth 2048) (BitVec.ofNat 256 (2 ^ 64 - 1))))

/-- A receive that accumulates in tcyc t + 5 (R204, R224). -/
def State.receiveAdd (s : State) (p : Nat) (i : Instr) (a : BitVec 4) (fmt : BitVec 1) : State :=
  s.receive p i (3 + fmt.toNat) (some a.toNat) (fun s f =>
    s.pendOp p (.nstAdd (rowOf (s.aReg p a.toNat)) fmt 1) 6 3 (f.pay.setWidth 2048))

/-- RECVA (R119, R224): accumulate in FP32. -/
def execRecva (p : Pos) (a : BitVec 4) (s : State) : Host.Outcome State Fault Refusal :=
  .next (s.receiveAdd p.val (.recva p a) a 0)

/-- RECVA.B (R119, R224): accumulate in BF16. -/
def execRecvaB (p : Pos) (a : BitVec 4) (s : State) : Host.Outcome State Fault Refusal :=
  .next (s.receiveAdd p.val (.recvaB p a) a 1)

/-- DROP (R119). -/
def execDrop (p : Pos) (s : State) : Host.Outcome State Fault Refusal :=
  .next (s.receive p.val (.drop p) 5 none (fun s _ => s))

end Sys2Proof.Machine
end

