-- ==== Sys2Proof/Machine/Power.lean ====
section
/-! DEFINITION. Clocks, time and power (R423-R449, R468): stretching and the slow loop, lost clocks, time samples, the
regulator, the sustained limit, emergency limiting and temperature. -/

namespace Sys2Proof.Machine

/-- An event of a cluster's clock (R449, R458). -/
def State.cluEvent (s : State) (code : Code) (j : Nat) : State := s.raise { code := code, inst := j }
/-- An event of the stack's power with a reading. -/
def State.pwrEvent (s : State) (code : Code) (detail : Nat) : State := s.raise { code := code, detail := detail }
/-- Whether firmware acts: it runs, and no switch of the Postmaster pair is in progress (R469). -/
def State.firmwareActs (s : State) : Bool := s.post.firmware && !s.post.switching && !s.frm.halted

/-! ### Stretching and the slow loop (R426, R427, R502) -/

/-- DROOP_STRETCH (R426): the period in progress starts again, so that it lasts at most twice the nominal one. -/
def execDroopStretch (j : Clu) (s : State) : Host.Outcome State Fault Refusal :=
  .next ((s.onClu j.val (fun c => { c with
    phaseAcc := 0, lag := c.lag + c.phaseAcc, frameCnt := tset c.frameCnt 7 (tget c.frameCnt 7 0 + 1) })).count 6 j.val 9 1)

/-- SLOW_LOOP_WINDOW (R427): the loop makes up lost clk at up to 3 % of the target; a lag of more than 4 clk counts. -/
def execSlowLoopWindow (j : Clu) (s : State) : Host.Outcome State Fault Refusal :=
  .next (
    let lag := (s.cluAt j.val).lag
    let s := if 16000 < lag then s.count 6 j.val 10 1 else s
    s.onClu j.val (fun c => { c with boost := min (s.pwr.nowMhz * 3 / 100) ((lag + 3999) / 4000) }))

/-! ### Lost clocks (R432, R436, R465, R468) -/

/-- CLOCK_LOSS (R432): the clock has been absent for 32 ns; fault 0x15.01. -/
def execClockLoss (j : Clu) (s : State) : Host.Outcome State Fault Refusal :=
  .next (
    if (s.cluAt j.val).clockLost.isSome then s
    else (s.onClu j.val (fun c => { c with clockLost := some s.time })).cluEvent 0x1501 j.val)

/-- CLOCK_RESTORED (R432, R436): within 10 µs, the cluster continues; its time counter waits for the next sample. -/
def execClockRestored (j : Clu) (s : State) : Host.Outcome State Fault Refusal :=
  .next (
    let c := s.cluAt j.val
    match c.clockLost with
    | some t =>
      if s.time ≤ t + 40000 && !c.clockOut then
        s.setClu j.val { c with clockLost := none, timeLag := c.timeLag + (s.time - t) }
      else s
    | none => s)

/-- The invocation ends without retained regions, at the end of the stop in progress or of one asked for now (R468). -/
def State.endLost (s : State) : State :=
  if !s.runs then s
  else if s.frm.phase == 3 && s.frm.drainFrom.isNone then s.endInvocation false
  else
    let s := if s.frm.drainFrom.isSome && s.frm.stopKind == .immediate then s else s.immediate false
    (s.onFrm (fun f => { f with stopEnd := some false })).stopCheck

/-- CLOCK_RESTORE_TIMEOUT (R432, R465, R468): fault 0x15.02, an immediate stop that ends the invocation, four suspect
positions, no further run until RESET_N. -/
def execClockRestoreTimeout (j : Clu) (s : State) : Host.Outcome State Fault Refusal :=
  .next (
    let c := s.cluAt j.val
    match c.clockLost with
    | some t =>
      if t + 40000 ≤ s.time && !c.clockOut then
        let s := (s.setClu j.val { c with clockOut := true }).cluEvent 0x1502 j.val
        let s := (cluPos j.val).foldl (fun (s : State) (p : Nat) => if s.isSuspect p then s else s.markSuspect p) s
        (s.onPost (fun p => { p with noRun := true })).endLost
      else s
    | none => s)

/-- TIME_SAMPLE (R435, R436): a cluster whose clock had stopped jumps forward to device time: notice 0x15.0C, and the
next records of it and its cores carry the discontinuity flag. -/
def execTimeSample (s : State) : Host.Outcome State Fault Refusal :=
  .next ((List.range 48).foldl (fun (s : State) (j : Nat) =>
    let c := s.cluAt j
    if c.timeLag = 0 || c.clockLost.isSome then s
    else
      let s := s.setClu j { c with timeLag := 0 }
      let s := s.onObs (fun o => { o with
        discFlag := ((192 + j) :: cluPos j).foldl (fun t k => tset t k true) o.discFlag })
      s.cluEvent 0x150C j) s)

/-! ### The references (R424, R425) -/

/-- REFCLK_LOSS (R424): the holdover oscillator takes over until RESET_N: fault 0x15.05 and a stop at tick. -/
def execRefclkLoss (s : State) : Host.Outcome State Fault Refusal :=
  .next (
    if s.pwr.holdover then s
    else
      let s := (s.onPwr (fun p => { p with holdover := true })).pwrEvent 0x1505 0
      if s.frm.phase == 1 || s.frm.phase == 2 then (s.onFrm (fun f => { f with stopReq := true })).stopCheck else s)

/-- PONT_REFCLK_LOSS (R338, R425): every Pontoon port that is up goes down and retrains; fault 0x15.0D. -/
def execPontRefclkLoss (s : State) : Host.Outcome State Fault Refusal :=
  .next ((List.range 16).foldl (fun (s : State) (p : Nat) =>
    let x := s.pport p
    if x.state = 2 then (s.setPport p { x with state := 1, downFrom := some s.time }).linkEvent 0x2F05 p 0 else s)
    (s.pwrEvent 0x150D 0))

/-! ### Emergency limiting (R444) -/

/-- A trigger (R428, R444): the floor goes down one step, to 1,400 MHz at the lowest, and every target with it; notice
0x15.06. Triggers are 0 power, 1 thermal, 2 regulator, 3 margin. -/
def State.emergency (s : State) (which : Nat) : State :=
  let n := min 3 (s.pwr.emerg + 1)
  let s := s.onPwr (fun p => { p with
    emerg := n, nowMhz := floorMhz n, trigger := BitVec.ofNat 3 (which + 1), trigAt := some s.time })
  (s.onFrm (fun f => { f with floorNext := floorMhz n })).pwrEvent 0x1506 (which + 1)

/-- EMERGENCY_TRIGGER (R444): a trigger, and each 1 ms for which it persists. -/
def execEmergencyTrigger (which : Fin 4) (s : State) : Host.Outcome State Fault Refusal := .next (s.emergency which.val)

/-- EMERGENCY_FLOOR_RAISE (R66, R444): 10 ms without a trigger, the floor rises one step at the next frame start. -/
def execEmergencyFloorRaise (s : State) : Host.Outcome State Fault Refusal :=
  .next (
    match s.pwr.trigAt with
    | some t =>
      if t + 40000000 ≤ s.time && decide (s.frm.floorNext < 1850) then
        (s.onFrm (fun f => { f with floorNext := f.floorNext + 150 })).onPwr (fun p => { p with trigAt := some s.time })
      else s
    | none => s)

/-! ### Replica warnings and the sustained limit (R433, R439, R442) -/

/-- REPLICA_WARNING (R433, R444): it counts, raises notice 0x15.03, and firmware raises VDD_CORE, or lowers the target,
or it becomes an emergency trigger. -/
def execReplicaWarning (j : Clu) (s : State) : Host.Outcome State Fault Refusal :=
  .next (
    let s := (s.count 6 j.val 11 1).cluEvent 0x1503 j.val
    let s := s.onPwr (fun p => { p with warnedAt := s.time })
    if s.pwr.setMv.toNat < 850 && !s.pwr.avsFail then (if s.firmwareActs then s.raiseVdd 10 else s)
    else if floorMhz s.pwr.emerg < s.pwr.nowMhz then
      (if s.firmwareActs then s.askPower (fun p => { p with delta := p.delta - 25 }) else s)
    else s.emergency 3)

/-- VOLTAGE_LOWER_TIMER (R439): 10 s of a run without a warning. -/
def execVoltageLowerTimer (s : State) : Host.Outcome State Fault Refusal :=
  .next (
    if s.firmwareActs && s.runs && decide (s.pwr.warnedAt + tenSeconds ≤ s.time) then
      s.askPower (fun p => { p with lowerMv := 5, warnedAt := s.time })
    else s)

/-- POWER_LIMIT_CHECK (R442, R445, R447): the averages over the last 10 ms and the last 1 ms, in W; the target moves by
25 MHz at the next frame boundary. Below 95 °C again, it rises only after 10 ms below 90 °C. -/
def execPowerLimitCheck (avgW msW : Nat) (s : State) : Host.Outcome State Fault Refusal :=
  .next (
    let limit := s.pwr.limitW.toNat
    let under := decide (avgW + 50 ≤ limit)
    let from_ := s.pwr.underFrom.getD s.time
    let s := s.onPwr (fun p => { p with
      powerW := BitVec.ofNat 12 (min msW 4095), underFrom := if under then some from_ else none })
    if !s.firmwareActs then s
    else if limit < avgW then s.askPower (fun p => { p with delta := p.delta - 25 })
    else if under && decide (from_ + 40000000 ≤ s.time) && !s.pwr.hotHold then
      s.askPower (fun p => { p with delta := p.delta + 25 })
    else s)

/-! ### The regulator (R440) -/

/-- The third failure (R440): fault 0x15.07, VDD_CORE held, the target to the floor until a transaction succeeds. -/
def State.avsFailed (s : State) : State :=
  if s.pwr.avsFail then s
  else
    let s := s.pwrEvent 0x1507 s.pwr.readMv.toNat
    s.askPower (fun p => { p with avsFail := true, toFloor := true, lowerMv := 0 })

/-- AVS_TELEMETRY (R440): a sample of the regulator, in mV, mA and °C; one out of range is discarded with notice 0x15.08,
and three of them in a row are a failure. -/
def execAvsTelemetry (mv : Nat) (milliAmp tempC : Int) (s : State) : Host.Outcome State Fault Refusal :=
  .next (
    if !s.firmwareActs then s
    else
      let set_ := s.pwr.setMv.toNat
      let at_ (v : Int) : Nat := (BitVec.ofInt 64 v).toNat
      let bad := if set_ + 30 < mv || mv + 30 < set_ then some mv
        else if milliAmp < 0 || 2400000 < milliAmp then some (at_ milliAmp)
        else if tempC < -40 || 150 < tempC then some (at_ tempC)
        else none
      match bad with
      | some v =>
        let n := s.pwr.discards + 1
        let s := (s.onPwr (fun p => { p with discards := if n = 3 then 0 else n, tries := 0 })).pwrEvent 0x1508 v
        if n = 3 then s.avsFailed else s
      | none => s.onPwr (fun p => { p with
          readMv := BitVec.ofNat 10 mv, discards := 0, tries := 0, avsFail := false, toFloor := false }))

/-- AVS_RESPONSE_TIMEOUT (R440): 50 µs without a response; the third attempt fails the transaction. -/
def execAvsResponseTimeout (s : State) : Host.Outcome State Fault Refusal :=
  .next (
    if !s.firmwareActs then s
    else if s.pwr.tries < 2 then s.onPwr (fun p => { p with tries := p.tries + 1 })
    else (s.onPwr (fun p => { p with tries := 0 })).avsFailed)

/-! ### Temperature (R445, R446) -/

/-- The junction temperature in °C × 8: the highest reading of the sensors in service. -/
def junction (rs : List (BitVec 16)) (out : BitVec 56) : Int :=
  (rs.zipIdx.filter (fun x => !out.getLsbD x.2)).foldl (fun m x => max m x.1.toInt) (-32768)

/-- A sensor that differs by more than 15 °C from both neighbours goes out of service: fault 0x15.0E. -/
def State.dropSensor (s : State) (k reading : Nat) : State :=
  if s.pwr.out.getLsbD k then s
  else (s.onPwr (fun p => { p with out := p.out ||| (1#56 <<< k) })).raise { code := 0x150E, aux := k, detail := reading }

/-- THERMAL_SAMPLE (R445): 56 readings in °C × 8 and the sensors that both neighbours contradict. -/
def execThermalSample (readings : List (BitVec 16)) (disagree : List (Fin 56)) (s : State) : Host.Outcome State Fault Refusal :=
  if wfSensors readings then
    .next (
      let s := disagree.foldl (fun (s : State) (k : Fin 56) => s.dropSensor k.val (readings[k.val]?.getD 0).toNat) s
      let tj := junction readings s.pwr.out
      let hot := decide (760 ≤ tj)
      let cool := if tj < 720 then some (s.pwr.coolFrom.getD s.time) else none
      let calm := match cool with | some t => decide (t + 40000000 ≤ s.time) | none => false
      let due := hot && (!s.pwr.hotHold || decide (s.pwr.hotAt + 4000000 ≤ s.time))
      let was := s.pwr.hot
      let s := s.onPwr (fun p => { p with
        sensors := readings.zipIdx.map (fun x => (x.2, x.1)), tjC := BitVec.ofNat 8 (min 255 (tj / 8).toNat)
        hot := decide (800 < tj), coolFrom := cool, hotHold := hot || (p.hotHold && !calm)
        hotAt := if due then s.time else p.hotAt })
      let s := if s.pwr.hot && !was then s.pwrEvent 0x150A (BitVec.ofInt 64 tj).toNat else s
      if due && s.firmwareActs then s.askPower (fun p => { p with delta := p.delta - 25 }) else s)
  else .refused (.illFormed "THERMAL_SAMPLE")

/-- THERMTRIP (R446, R525): THERMTRIP_N low and every clock off VDD_AON stopped until RESET_N, so that no cluster clock comes
back; the tick root, the Courier network, the Postmaster and the Depot controller lie on VDD_AON and go on. -/
def execThermtrip (s : State) : Host.Outcome State Fault Refusal :=
  .next (
    let s := (List.range 48).foldl (fun (s : State) (j : Nat) =>
      s.onClu j (fun c => { c with clockLost := some (c.clockLost.getD s.time), clockOut := true })) s
    { s with pins := { s.pins with thermtripN := false } }.onPwr (fun p => { p with tripped := true }))

end Sys2Proof.Machine
end

