-- ==== Sys2Proof/Machine/Pins.lean ====
section
/-! DEFINITION. The tick rails, the Postmaster pairs and the checkers (R454, R465, R467, R469), and the management and
test ports (R476, R523, R524). -/

namespace Sys2Proof.Machine

/-! ### The tick rails (R467) -/

/-- TICK_RAIL_MISMATCH (R467): a rail did not follow the other within 2 ns: fault 0x16.01. The third frame in a row
retires the rail, with notice 0x16.02; a leaf on a single rail compares nothing. -/
def execTickRailMismatch (j : Clu) (rail : Fin 2) (s : State) : Host.Outcome State Fault Refusal :=
  .next (
    let c := s.cluAt j.val
    if c.railRetired ≠ 0 then s
    else
      let now := s.frm.frameNum.toNat
      let n := match c.railFail with
        | some (r, k, f) => if r = rail.val then (if f = now then k else if f + 1 = now then k + 1 else 1) else 1
        | none => 1
      let s := (s.setClu j.val { c with railFail := some (rail.val, n, now) }).raise { code := 0x1601, inst := j.val }
      if 3 ≤ n && s.firmwareActs then
        (s.onClu j.val (fun c => { c with railRetired := 1#2 <<< rail.val })).raise { code := 0x1602, inst := j.val }
      else s)

/-! ### The Postmaster pairs (R469) -/

/-- Fault 0x10.03, a state from which only RESET_N leads: a device of a system sends FAILED for itself (R369, R469). -/
def State.failSelf (s : State) : State :=
  let s := s.raise { code := 0x1003 }
  if s.pont.ndim = 0 then s
  else s.toPorts (fun dst => s.plainPkt 0x13 1 dst (bytesOf s.pont.devId.toNat 4)) (fun _ => true)

/-- POSTMASTER_MISMATCH (R469): fault 0x10.01, and the spare pair starts; without a healthy spare fault 0x10.03, and the
device halts until RESET_N. -/
def execPostmasterMismatch (s : State) : Host.Outcome State Fault Refusal :=
  .next (
    if s.frm.halted then s
    else if s.post.spareUsed then s.failSelf.onFrm (fun f => { f with halted := true })
    else
      ((s.raise { code := 0x1001 }).onFrm (fun f => { f with spoilEach := true })).onPost
        (fun p => { p with spareUsed := true, switching := true }))

/-- SPARE_PAIR_IN_SERVICE (R469): firmware runs again: RUNNING commands fail, POSTED ones stay; notice 0x10.02. -/
def execSparePairInService (s : State) : Host.Outcome State Fault Refusal :=
  .next (
    if s.post.switching && !s.frm.halted then
      let s := s.running.foldl (fun (s : State) (n : Nat) => (s.leave n).finishCmd n { status := 5, detail := 3 }) s
      let s := (s.onFrm (fun f => { f with spoilEach := false })).onPost (fun p => { p with switching := false })
      s.raise { code := 0x1002 }
    else s)

/-! ### Checkers (R453, R454, R465) -/

/-- FIRMWARE_CHECKER_TEST (R454): every 10 s; a checker outside the clusters that fails to trip raises fault 0x10.05. -/
def execFirmwareCheckerTest (failedTrips : Bool) (s : State) : Host.Outcome State Fault Refusal :=
  .next (if s.firmwareActs && failedTrips then s.raise { code := 0x1005 } else s)

/-- IDLE_CHECKER_EXERCISE (R454): while no program runs; a live core's checker that fails to trip raises fault 0x12.02,
which makes the position suspect. -/
def execIdleCheckerExercise (j : Clu) (failing : List Pos) (s : State) : Host.Outcome State Fault Refusal :=
  .next (
    if s.runs then s
    else
      let s := s.onClu j.val (fun c => { c with checker := c.checker + 1 })
      failing.foldl (fun (s : State) (p : Pos) =>
        if posClu p.val = j.val && s.isLive p.val then s.raise { code := 0x1202, pos := p.val } else s) s)

/-! ### The management port (R476, R523) -/

/-- What a management transfer reads (R523). -/
def State.i3cReg (s : State) (off : Nat) : Nat :=
  let sensor (k : Nat) : Nat := (tget s.pwr.sensors k 0).toNat
  match off with
  | 0x0000 => s.bootStatus
  | 0x0004 => Config.romVersion.toNat
  | 0x0008 => s.pwrStatus
  | 0x000C => s.pwrAvs
  | 0x0010 => s.ucieStatus
  | 0x0014 => (s.tree 0x10000).toNat
  | 0x0018 => s.depotStatus
  | _ =>
    if 0x100 ≤ off && off < 0x170 && off % 4 = 0 then
      sensor ((off - 0x100) / 2) + 65536 * sensor ((off - 0x100) / 2 + 1)
    else 0

/-- I3C_READ (R520, R523): the interface is in reset while RESET_N is low. -/
def execI3cRead (off : BitVec 16) (s : State) : Host.Outcome State Fault Refusal :=
  .next (if s.pins.resetN then s.emit (.i3c (BitVec.ofNat 64 (s.i3cReg off.toNat))) else s)

/-- I3C_BUS_HELD (R476): SCL held low for more than 10 ms resets the interface; notice 0x17.02. -/
def execI3cBusHeld (s : State) : Host.Outcome State Fault Refusal :=
  .next (if s.pins.resetN then s.raise { code := 0x1702 } else s)

/-- I3C_TRANSACTION_TIMEOUT (R476): a transaction open for more than 25 ms is abandoned; notice 0x17.03. -/
def execI3cTransactionTimeout (s : State) : Host.Outcome State Fault Refusal :=
  .next (if s.pins.resetN then s.raise { code := 0x1703 } else s)

/-! ### The test port (R476, R524) -/

def State.setJtag (s : State) (i : JtagIr) : State := { s with pins := { s.pins with jtag := i } }

/-- BYPASS (R524). -/
def execBypass (s : State) : Host.Outcome State Fault Refusal := .next (s.setJtag .bypass)

/-- IDCODE (R524): stepping B0. -/
def execIdcode (s : State) : Host.Outcome State Fault Refusal := .next ((s.setJtag .idcode).emit (.jtag 0x16A17A5B))

/-- SAMPLE_PRELOAD (R524): the pins of the SIDEBAND and ONFI groups; the spec does not give the order of the boundary
cells, so what shifts out is free (log entry 9). -/
def execSamplePreload (s : State) : Host.Outcome State Fault Refusal :=
  .next (((s.setJtag .sample).emit (.jtag ((Config.choice s.fresh).setWidth 32))).tickFresh)

/-- EXTEST (R524): only while RESET_N is low; else BYPASS takes its place. -/
def execExtest (s : State) : Host.Outcome State Fault Refusal :=
  .next (s.setJtag (if s.pins.resetN then .bypass else .extest))

/-- TRST_N_ASSERT (R476): a pulse under 1 µs is ignored; else the test port is reset (log entry 27). -/
def execTrstNAssert (lowNs : Nat) (s : State) : Host.Outcome State Fault Refusal :=
  .next (if lowNs < 1000 then s else s.setJtag .idcode)

end Sys2Proof.Machine
end

