-- ==== Sys2Proof/Machine/Dispatch.lean ====
section
/-! DEFINITION. One arm per command: a direct call of its meaning. -/

namespace Sys2Proof.Machine

def exec (i : Instr) (s : State) : Host.Outcome State Fault Refusal :=
  match i with
  | .ring n => Sys2Proof.Machine.execRing n s
  | .cancel n => Sys2Proof.Machine.execCancel n s
  | .commandTakeUp => Sys2Proof.Machine.execCommandTakeUp s
  | .commandTimeout n => Sys2Proof.Machine.execCommandTimeout n s
  | .ownerChangeDiscard n => Sys2Proof.Machine.execOwnerChangeDiscard n s
  | .identify n => Sys2Proof.Machine.execIdentify n s
  | .status n => Sys2Proof.Machine.execStatus n s
  | .faultLog n => Sys2Proof.Machine.execFaultLog n s
  | .berthState n => Sys2Proof.Machine.execBerthState n s
  | .kill n => Sys2Proof.Machine.execKill n s
  | .load n img => Sys2Proof.Machine.execLoad n img s
  | .bindCheck n img => Sys2Proof.Machine.execBindCheck n img s
  | .run n => Sys2Proof.Machine.execRun n s
  | .stop n => Sys2Proof.Machine.execStop n s
  | .stepCmd n => Sys2Proof.Machine.execStepCmd n s
  | .resume n => Sys2Proof.Machine.execResume n s
  | .setPolicy n => Sys2Proof.Machine.execSetPolicy n s
  | .lrOverride n => Sys2Proof.Machine.execLrOverride n s
  | .alloc n => Sys2Proof.Machine.execAlloc n s
  | .free n => Sys2Proof.Machine.execFree n s
  | .scrub n => Sys2Proof.Machine.execScrub n s
  | .copy n host => Sys2Proof.Machine.execCopy n host s
  | .biasFlip n => Sys2Proof.Machine.execBiasFlip n s
  | .depotStatus n => Sys2Proof.Machine.execDepotStatus n s
  | .format n defects => Sys2Proof.Machine.execFormat n defects s
  | .nsCreate n => Sys2Proof.Machine.execNsCreate n s
  | .nsDelete n => Sys2Proof.Machine.execNsDelete n s
  | .nsRelease n => Sys2Proof.Machine.execNsRelease n s
  | .nsRead n => Sys2Proof.Machine.execNsRead n s
  | .nsWrite n host => Sys2Proof.Machine.execNsWrite n host s
  | .checkpoint n => Sys2Proof.Machine.execCheckpoint n s
  | .restore n => Sys2Proof.Machine.execRestore n s
  | .versions n => Sys2Proof.Machine.execVersions n s
  | .deadLetter n => Sys2Proof.Machine.execDeadLetter n s
  | .depotQuiesce n => Sys2Proof.Machine.execDepotQuiesce n s
  | .configure n linkUp roundTripNs peers => Sys2Proof.Machine.execConfigure n linkUp roundTripNs peers s
  | .pontStatus n => Sys2Proof.Machine.execPontStatus n s
  | .counters n => Sys2Proof.Machine.execCounters n s
  | .contextCnt n => Sys2Proof.Machine.execContextCnt n s
  | .trace n => Sys2Proof.Machine.execTrace n s
  | .setFrame n => Sys2Proof.Machine.execSetFrame n s
  | .setClock n => Sys2Proof.Machine.execSetClock n s
  | .powerLimit n => Sys2Proof.Machine.execPowerLimit n s
  | .thermal n => Sys2Proof.Machine.execThermal n s
  | .march n nstCells deckCells => Sys2Proof.Machine.execMarch n nstCells deckCells s
  | .bgt n => Sys2Proof.Machine.execBgt n s
  | .inject n => Sys2Proof.Machine.execInject n s
  | .attest n => Sys2Proof.Machine.execAttest n s
  | .gradeRecord n => Sys2Proof.Machine.execGradeRecord n s
  | .tickDoorbellStrike viaAdmin host => Sys2Proof.Machine.execTickDoorbellStrike viaAdmin host s
  | .brtCommitGo viaAdmin => Sys2Proof.Machine.execBrtCommitGo viaAdmin s
  | .brtCommitRevert => Sys2Proof.Machine.execBrtCommitRevert s
  | .deliverGo host volt => Sys2Proof.Machine.execDeliverGo host volt s
  | .reenter => Sys2Proof.Machine.execReenter s
  | .cntLatch => Sys2Proof.Machine.execCntLatch s
  | .logAckFree log n => Sys2Proof.Machine.execLogAckFree log n s
  | .clrSupp log => Sys2Proof.Machine.execClrSupp log s
  | .clrLost log => Sys2Proof.Machine.execClrLost log s
  | .leafW1cClear off val => Sys2Proof.Machine.execLeafW1cClear off val s
  | .hostIdxWrite b which val => Sys2Proof.Machine.execHostIdxWrite b which val s
  | .registerWrite off val wide viaAdmin => Sys2Proof.Machine.execRegisterWrite off val wide viaAdmin s
  | .resetNRelease f => Sys2Proof.Machine.execResetNRelease f s
  | .resetNAssert lowNs => Sys2Proof.Machine.execResetNAssert lowNs s
  | .pwrFailNFall lowNs => Sys2Proof.Machine.execPwrFailNFall lowNs s
  | .depotFlushComplete => Sys2Proof.Machine.execDepotFlushComplete s
  | .depotBringUp uids => Sys2Proof.Machine.execDepotBringUp uids s
  | .internalTick host => Sys2Proof.Machine.execInternalTick host s
  | .ftickInEdge highNs host => Sys2Proof.Machine.execFtickInEdge highNs host s
  | .systemTickDelivery host => Sys2Proof.Machine.execSystemTickDelivery host s
  | .tickLoss host => Sys2Proof.Machine.execTickLoss host s
  | .endMarkReached j => Sys2Proof.Machine.execEndMarkReached j s
  | .frameDone host => Sys2Proof.Machine.execFrameDone host s
  | .bankWakeComplete p deck bank => Sys2Proof.Machine.execBankWakeComplete p deck bank s
  | .stopDrainTimeout => Sys2Proof.Machine.execStopDrainTimeout s
  | .immediateStop j => Sys2Proof.Machine.execImmediateStop j s
  | .release j => Sys2Proof.Machine.execRelease j s
  | .stopReached j => Sys2Proof.Machine.execStopReached j s
  | .commit j frame => Sys2Proof.Machine.execCommit j frame s
  | .spoil code inClkOfDone => Sys2Proof.Machine.execSpoil code inClkOfDone s
  | .gateDecision dupAgrees => Sys2Proof.Machine.execGateDecision dupAgrees s
  | .gate j frame isOpen => Sys2Proof.Machine.execGate j frame isOpen s
  | .ack src dst cls pay => Sys2Proof.Machine.execAck src dst cls pay s
  | .notify src code spoils => Sys2Proof.Machine.execNotify src code spoils s
  | .courierCounterLatch node => Sys2Proof.Machine.execCourierCounterLatch node s
  | .closeInjectionGate p => Sys2Proof.Machine.execCloseInjectionGate p s
  | .bgtStepStart p deck => Sys2Proof.Machine.execBgtStepStart p deck s
  | .reservedClassPacket pkt => Sys2Proof.Machine.execReservedClassPacket pkt s
  | .courierCrcMismatch hop => Sys2Proof.Machine.execCourierCrcMismatch hop s
  | .courierResendTimer src => Sys2Proof.Machine.execCourierResendTimer src s
  | .gateHoldTimeout j => Sys2Proof.Machine.execGateHoldTimeout j s
  | .waitc p target => Sys2Proof.Machine.execWaitc p target s
  | .waits p sa => Sys2Proof.Machine.execWaits p sa s
  | .rpt p n => Sys2Proof.Machine.execRpt p n s
  | .loop p level count len => Sys2Proof.Machine.execLoop p level count len s
  | .loops p level sa len => Sys2Proof.Machine.execLoops p level sa len s
  | .jmp p addr => Sys2Proof.Machine.execJmp p addr s
  | .bnz p sa addr => Sys2Proof.Machine.execBnz p sa addr s
  | .page p slot code => Sys2Proof.Machine.execPage p slot code s
  | .setl p sd imm => Sys2Proof.Machine.execSetl p sd imm s
  | .seth p sd imm => Sys2Proof.Machine.execSeth p sd imm s
  | .salu p sd sa sb func => Sys2Proof.Machine.execSalu p sd sa sb func s
  | .movx p sa target => Sys2Proof.Machine.execMovx p sa target s
  | .mark p val => Sys2Proof.Machine.execMark p val s
  | .endOp p => Sys2Proof.Machine.execEnd p s
  | .ld p v a w => Sys2Proof.Machine.execLd p v a w s
  | .st p v a w pm => Sys2Proof.Machine.execSt p v a w pm s
  | .sta p v a fmt => Sys2Proof.Machine.execSta p v a fmt s
  | .psd p a arr entry => Sys2Proof.Machine.execPsd p a arr entry s
  | .dkrd p a dp => Sys2Proof.Machine.execDkrd p a dp s
  | .dkwr p a dp => Sys2Proof.Machine.execDkwr p a dp s
  | .ldl p a dp d => Sys2Proof.Machine.execLdl p a dp d s
  | .stl p a dp d => Sys2Proof.Machine.execStl p a dp d s
  | .dkrt p a dp dest => Sys2Proof.Machine.execDkrt p a dp dest s
  | .push p a => Sys2Proof.Machine.execPush p a s
  | .pop p a => Sys2Proof.Machine.execPop p a s
  | .feed p arr acc field => Sys2Proof.Machine.execFeed p arr acc field s
  | .cfg p arr field => Sys2Proof.Machine.execCfg p arr field s
  | .swap p arr => Sys2Proof.Machine.execSwap p arr s
  | .latch p arr => Sys2Proof.Machine.execLatch p arr s
  | .vadd p o => Sys2Proof.Machine.execVadd p o s
  | .vsub p o => Sys2Proof.Machine.execVsub p o s
  | .vmul p o => Sys2Proof.Machine.execVmul p o s
  | .vfma p o => Sys2Proof.Machine.execVfma p o s
  | .vmax p o => Sys2Proof.Machine.execVmax p o s
  | .vmin p o => Sys2Proof.Machine.execVmin p o s
  | .vabs p o => Sys2Proof.Machine.execVabs p o s
  | .vneg p o => Sys2Proof.Machine.execVneg p o s
  | .vcmp p o => Sys2Proof.Machine.execVcmp p o s
  | .vsel p o => Sys2Proof.Machine.execVsel p o s
  | .vmov p o => Sys2Proof.Machine.execVmov p o s
  | .vbc p o => Sys2Proof.Machine.execVbc p o s
  | .vrdp p o => Sys2Proof.Machine.execVrdp p o s
  | .vlane p o => Sys2Proof.Machine.execVlane p o s
  | .vrcp p o => Sys2Proof.Machine.execVrcp p o s
  | .vsqrt p o => Sys2Proof.Machine.execVsqrt p o s
  | .vrsqrt p o => Sys2Proof.Machine.execVrsqrt p o s
  | .vdiv p o => Sys2Proof.Machine.execVdiv p o s
  | .vexp2 p o => Sys2Proof.Machine.execVexp2 p o s
  | .vlog2 p o => Sys2Proof.Machine.execVlog2 p o s
  | .vtanh p o => Sys2Proof.Machine.execVtanh p o s
  | .vsigm p o => Sys2Proof.Machine.execVsigm p o s
  | .verf p o => Sys2Proof.Machine.execVerf p o s
  | .vsin p o => Sys2Proof.Machine.execVsin p o s
  | .vcos p o => Sys2Proof.Machine.execVcos p o s
  | .vrsum p o => Sys2Proof.Machine.execVrsum p o s
  | .vrmax p o => Sys2Proof.Machine.execVrmax p o s
  | .vrmin p o => Sys2Proof.Machine.execVrmin p o s
  | .vrdot p o => Sys2Proof.Machine.execVrdot p o s
  | .viadd p o => Sys2Proof.Machine.execViadd p o s
  | .visub p o => Sys2Proof.Machine.execVisub p o s
  | .vand p o => Sys2Proof.Machine.execVand p o s
  | .vor p o => Sys2Proof.Machine.execVor p o s
  | .vxor p o => Sys2Proof.Machine.execVxor p o s
  | .vshl p o => Sys2Proof.Machine.execVshl p o s
  | .vshr p o => Sys2Proof.Machine.execVshr p o s
  | .dadd p o => Sys2Proof.Machine.execDadd p o s
  | .dmul p o => Sys2Proof.Machine.execDmul p o s
  | .dfma p o => Sys2Proof.Machine.execDfma p o s
  | .drsum p o => Sys2Proof.Machine.execDrsum p o s
  | .dcvt p o => Sys2Proof.Machine.execDcvt p o s
  | .vcvf p o => Sys2Proof.Machine.execVcvf p o s
  | .vcvm p o => Sys2Proof.Machine.execVcvm p o s
  | .vcvb p o => Sys2Proof.Machine.execVcvb p o s
  | .vcvi p o => Sys2Proof.Machine.execVcvi p o s
  | .update p o => Sys2Proof.Machine.execUpdate p o s
  | .send p a sa cond => Sys2Proof.Machine.execSend p a sa cond s
  | .recv p a => Sys2Proof.Machine.execRecv p a s
  | .recva p a => Sys2Proof.Machine.execRecva p a s
  | .recvaB p a => Sys2Proof.Machine.execRecvaB p a s
  | .drop p => Sys2Proof.Machine.execDrop p s
  | .pass p arr e iv => Sys2Proof.Machine.execPass p arr e iv s
  | .take p arr e iv => Sys2Proof.Machine.execTake p arr e iv s
  | .sink p arr e iv => Sys2Proof.Machine.execSink p arr e iv s
  | .ferrySend p arr e iv => Sys2Proof.Machine.execFerrySend p arr e iv s
  | .fetch p arr e => Sys2Proof.Machine.execFetch p arr e s
  | .accept p arr e => Sys2Proof.Machine.execAccept p arr e s
  | .trainTableLoad p arr e => Sys2Proof.Machine.execTrainTableLoad p arr e s
  | .fwd p e iv => Sys2Proof.Machine.execFwd p e iv s
  | .merge32 p e1 e2 => Sys2Proof.Machine.execMerge32 p e1 e2 s
  | .merge16 p e1 e2 => Sys2Proof.Machine.execMerge16 p e1 e2 s
  | .poolrd p e => Sys2Proof.Machine.execPoolrd p e s
  | .slotTableLoad p e => Sys2Proof.Machine.execSlotTableLoad p e s
  | .zombieFlit p => Sys2Proof.Machine.execZombieFlit p s
  | .waybillEnd c => Sys2Proof.Machine.execWaybillEnd c s
  | .setb c reg val => Sys2Proof.Machine.execSetb c reg val s
  | .waybillLoop c level count fs ns => Sys2Proof.Machine.execWaybillLoop c level count fs ns s
  | .endl c level => Sys2Proof.Machine.execEndl c level s
  | .xfer c len foff noff => Sys2Proof.Machine.execXfer c len foff noff s
  | .gather c len scale noff x => Sys2Proof.Machine.execGather c len scale noff x s
  | .scatter c len scale noff x => Sys2Proof.Machine.execScatter c len scale noff x s
  | .pred c cond level arg => Sys2Proof.Machine.execPred c cond level arg s
  | .waybillMark c => Sys2Proof.Machine.execWaybillMark c s
  | .fence c => Sys2Proof.Machine.execFence c s
  | .granulePublish c => Sys2Proof.Machine.execGranulePublish c s
  | .waybillWaitLimit c => Sys2Proof.Machine.execWaybillWaitLimit c s
  | .stackSpillStart p => Sys2Proof.Machine.execStackSpillStart p s
  | .stackFillStart p => Sys2Proof.Machine.execStackFillStart p s
  | .stackChunkComplete p => Sys2Proof.Machine.execStackChunkComplete p s
  | .memoryPortRequest iv => Sys2Proof.Machine.execMemoryPortRequest iv s
  | .remoteAccumulate space addr vals zero poison adderAgrees => Sys2Proof.Machine.execRemoteAccumulate space addr vals zero poison adderAgrees s
  | .lpddr5xRequestTimeout iv id => Sys2Proof.Machine.execLpddr5xRequestTimeout iv id s
  | .refresh iv chan bank => Sys2Proof.Machine.execRefresh iv chan bank s
  | .mr4Poll iv mult => Sys2Proof.Machine.execMr4Poll iv mult s
  | .wckOscillatorRead iv chan drifted => Sys2Proof.Machine.execWckOscillatorRead iv chan drifted s
  | .portFullRetrain iv => Sys2Proof.Machine.execPortFullRetrain iv s
  | .lpddr5xPatrol iv line => Sys2Proof.Machine.execLpddr5xPatrol iv line s
  | .bgtGroupStart p deck cells => Sys2Proof.Machine.execBgtGroupStart p deck cells s
  | .killScrubComplete b => Sys2Proof.Machine.execKillScrubComplete b s
  | .depotWriteRequest ch => Sys2Proof.Machine.execDepotWriteRequest ch s
  | .unitCloseTimeout ns unit => Sys2Proof.Machine.execUnitCloseTimeout ns unit s
  | .depotReadRequest ch recovery => Sys2Proof.Machine.execDepotReadRequest ch recovery s
  | .journalProgram => Sys2Proof.Machine.execJournalProgram s
  | .blockRetire b reason => Sys2Proof.Machine.execBlockRetire b reason s
  | .onfiTimeout ch target lun => Sys2Proof.Machine.execOnfiTimeout ch target lun s
  | .lunFailed ch target lun => Sys2Proof.Machine.execLunFailed ch target lun s
  | .depotRequestTimeout ch id => Sys2Proof.Machine.execDepotRequestTimeout ch id s
  | .depotPatrol b bitsCorrected => Sys2Proof.Machine.execDepotPatrol b bitsCorrected s
  | .depotRefresh b => Sys2Proof.Machine.execDepotRefresh b s
  | .garbageCollection ns unit => Sys2Proof.Machine.execGarbageCollection ns unit s
  | .wearLevelling ch => Sys2Proof.Machine.execWearLevelling ch s
  | .depotChannelRetrain ch => Sys2Proof.Machine.execDepotChannelRetrain ch s
  | .laneFailure p lane => Sys2Proof.Machine.execLaneFailure p lane s
  | .spareLaneTrained p => Sys2Proof.Machine.execSpareLaneTrained p s
  | .pontFlitReceive p hdr body rsFixed rsBad => Sys2Proof.Machine.execPontFlitReceive p hdr body rsFixed rsBad s
  | .nak p expected => Sys2Proof.Machine.execNak p expected s
  | .ackTimer p => Sys2Proof.Machine.execAckTimer p s
  | .linkDown p => Sys2Proof.Machine.execLinkDown p s
  | .linkRetrainComplete p ok => Sys2Proof.Machine.execLinkRetrainComplete p ok s
  | .write p pkt => Sys2Proof.Machine.execWrite p pkt s
  | .read p pkt => Sys2Proof.Machine.execRead p pkt s
  | .readResp p pkt => Sys2Proof.Machine.execReadResp p pkt s
  | .raccF32 p pkt => Sys2Proof.Machine.execRaccF32 p pkt s
  | .raccAs8 p pkt => Sys2Proof.Machine.execRaccAs8 p pkt s
  | .rmax8 p pkt => Sys2Proof.Machine.execRmax8 p pkt s
  | .completion p pkt => Sys2Proof.Machine.execCompletion p pkt s
  | .done p pkt => Sys2Proof.Machine.execDone p pkt s
  | .decide p pkt => Sys2Proof.Machine.execDecide p pkt s
  | .time p pkt sysTime fromNewMaster => Sys2Proof.Machine.execTime p pkt sysTime fromNewMaster s
  | .tick p sv inst period => Sys2Proof.Machine.execTick p sv inst period s
  | .heartbeat p => Sys2Proof.Machine.execHeartbeat p s
  | .failed p dev => Sys2Proof.Machine.execFailed p dev s
  | .reservedOpcPacket p pkt => Sys2Proof.Machine.execReservedOpcPacket p pkt s
  | .unreachablePacket p pkt => Sys2Proof.Machine.execUnreachablePacket p pkt s
  | .remoteOpTimeout id => Sys2Proof.Machine.execRemoteOpTimeout id s
  | .collectiveDeadline coll => Sys2Proof.Machine.execCollectiveDeadline coll s
  | .decisionWaitExpiry coll => Sys2Proof.Machine.execDecisionWaitExpiry coll s
  | .heartbeatTimer => Sys2Proof.Machine.execHeartbeatTimer s
  | .neighbourFailure p => Sys2Proof.Machine.execNeighbourFailure p s
  | .timeDistribution => Sys2Proof.Machine.execTimeDistribution s
  | .linkDelayMeasurement p t1 t2 t3 t4 => Sys2Proof.Machine.execLinkDelayMeasurement p t1 t2 t3 t4 s
  | .tickFlood => Sys2Proof.Machine.execTickFlood s
  | .lockLoss => Sys2Proof.Machine.execLockLoss s
  | .ucieLinkError => Sys2Proof.Machine.execUcieLinkError s
  | .hostMemAccess write da data => Sys2Proof.Machine.execHostMemAccess write da data s
  | .bar2Access write off data len => Sys2Proof.Machine.execBar2Access write off data len s
  | .hostSnoop hpa => Sys2Proof.Machine.execHostSnoop hpa s
  | .unsupportedRequest hpa => Sys2Proof.Machine.execUnsupportedRequest hpa s
  | .deviceRequestTimeout id => Sys2Proof.Machine.execDeviceRequestTimeout id s
  | .droopStretch j => Sys2Proof.Machine.execDroopStretch j s
  | .slowLoopWindow j => Sys2Proof.Machine.execSlowLoopWindow j s
  | .clockLoss j => Sys2Proof.Machine.execClockLoss j s
  | .clockRestored j => Sys2Proof.Machine.execClockRestored j s
  | .clockRestoreTimeout j => Sys2Proof.Machine.execClockRestoreTimeout j s
  | .replicaWarning j => Sys2Proof.Machine.execReplicaWarning j s
  | .timeSample => Sys2Proof.Machine.execTimeSample s
  | .refclkLoss => Sys2Proof.Machine.execRefclkLoss s
  | .pontRefclkLoss => Sys2Proof.Machine.execPontRefclkLoss s
  | .avsTelemetry mv milliAmp tempC => Sys2Proof.Machine.execAvsTelemetry mv milliAmp tempC s
  | .avsResponseTimeout => Sys2Proof.Machine.execAvsResponseTimeout s
  | .voltageLowerTimer => Sys2Proof.Machine.execVoltageLowerTimer s
  | .powerLimitCheck avgW msW => Sys2Proof.Machine.execPowerLimitCheck avgW msW s
  | .emergencyTrigger which => Sys2Proof.Machine.execEmergencyTrigger which s
  | .emergencyFloorRaise => Sys2Proof.Machine.execEmergencyFloorRaise s
  | .thermalSample readings disagree => Sys2Proof.Machine.execThermalSample readings disagree s
  | .thermtrip => Sys2Proof.Machine.execThermtrip s
  | .tickRailMismatch j rail => Sys2Proof.Machine.execTickRailMismatch j rail s
  | .postmasterMismatch => Sys2Proof.Machine.execPostmasterMismatch s
  | .firmwareCheckerTest failedTrips => Sys2Proof.Machine.execFirmwareCheckerTest failedTrips s
  | .counterParityError c => Sys2Proof.Machine.execCounterParityError c s
  | .counterPageWrite => Sys2Proof.Machine.execCounterPageWrite s
  | .bwWindowBoundary => Sys2Proof.Machine.execBwWindowBoundary s
  | .traceControlUpdate region => Sys2Proof.Machine.execTraceControlUpdate region s
  | .traceRecordWrite => Sys2Proof.Machine.execTraceRecordWrite s
  | .i3cRead off => Sys2Proof.Machine.execI3cRead off s
  | .i3cBusHeld => Sys2Proof.Machine.execI3cBusHeld s
  | .i3cTransactionTimeout => Sys2Proof.Machine.execI3cTransactionTimeout s
  | .bypass => Sys2Proof.Machine.execBypass s
  | .idcode => Sys2Proof.Machine.execIdcode s
  | .samplePreload => Sys2Proof.Machine.execSamplePreload s
  | .extest => Sys2Proof.Machine.execExtest s
  | .trstNAssert lowNs => Sys2Proof.Machine.execTrstNAssert lowNs s
  | .deviceRequestCompletion id data poison => Sys2Proof.Machine.execDeviceRequestCompletion id data poison s
  | .onfiStatusPoll ch opFailed => Sys2Proof.Machine.execOnfiStatusPoll ch opFailed s
  | .selfRefreshEntry iv => Sys2Proof.Machine.execSelfRefreshEntry iv s
  | .depotChannelStandby ch => Sys2Proof.Machine.execDepotChannelStandby ch s
  | .ucieRetrainComplete ok => Sys2Proof.Machine.execUcieRetrainComplete ok s
  | .sparePairInService => Sys2Proof.Machine.execSparePairInService s
  | .idleCheckerExercise j failing => Sys2Proof.Machine.execIdleCheckerExercise j failing s
  | .vddAonPowerUp => Sys2Proof.Machine.execVddAonPowerUp s
  | .portFlitBoundary p => Sys2Proof.Machine.execPortFlitBoundary p s

end Sys2Proof.Machine
end

