-- ==== Sys2Proof/Machine/Bundle.lean ====
section
/-! DEFINITION. The issue of a bundle in a tcyc (R104, R105, R112). -/

namespace Sys2Proof.Machine

/-! ### Issue (R105, R112) -/

/-- The state a command that never stops leads to. -/
def State.after (s : State) (o : Host.Outcome State Fault Refusal) : State :=
  match o with
  | .next t => t
  | _ => s

/-- The state after a command that the machine itself gives. -/
def State.again (s : State) (i : Instr) : State := s.after (exec i s)

/-- The operation of a bundle that makes it a NOP by what it reads (R105, R108, R121), if there is one. -/
def State.breaks (s : State) (p : Nat) (ops : List Instr) : Option Instr :=
  ops.find? (fun i => ((s.again i).coreAt p).nopAt == some (s.tcyc p))

/-- What a bundle does whose word the instruction store delivers: its operations act or wait; with a reserved encoding or a
broken constraint it is a NOP (R105). -/
def State.issueWord (s : State) (p : Pos) (b : BitVec 128) : State :=
  match bundleOps p b with
  | none => if s.holds (posClu p.val) then s else s.illegal p.val
  | some ops =>
    match s.breaks p.val ops with
    | some i => s.again i
    | none => ops.foldl State.again s

/-- The core at `p` issues the bundle at its program counter in this tcyc (R105), as the instruction store delivers it
(R112): a corrected error is a notice; with an uncorrectable one, or where the duplicated sequencer disagrees, the core stops
issuing (R130, R452). -/
def State.issueBundle (s : State) (p : Pos) : State :=
  if s.issuing p.val then
    let pc := (s.coreAt p.val).pc.toNat
    let halt (code : Code) : State := if s.holds (posClu p.val) then s
      else (s.seqFault p.val code).onCore p.val (fun c => { c with noIssue := true })
    if s.upset .sequencer p.val 0 != .good then halt 0x2210
    else
    match s.upset .bundle p.val pc with
    | .good => s.issueWord p (tget (s.coreAt p.val).istore pc 0)
    | .corrected => (s.seqFault p.val 0x220E).issueWord p (tget (s.coreAt p.val).istore pc 0)
    | _ => halt 0x220F
  else s

end Sys2Proof.Machine
end

