-- ==== Sys2Proof/Machine/Landing.lean ====
section
/-! DEFINITION. The end of a tcyc in a core, its stops and its near memories: results land (R105, R106), address registers
advance (R103), latches and transposed reads go on (R146, R233-R235), slots become free (R143), samples (R511). -/

namespace Sys2Proof.Machine

/-! ### Transposed reads (R149, R235) -/

/-- Byte `b` of the tile that a transposed read has gathered. -/
def CoreSt.turnByte (c : CoreSt) (b : Nat) : Nat := (tget c.turnBuf (b / 256) 0).toNat / 256 ^ (b % 256) % 256

/-- A row from its 64 bytes. -/
def rowOfBytes (f : Nat → Nat) : Row := BitVec.ofNat 512 (ofBytes ((List.range 64).map (fun k => BitVec.ofNat 8 (f k))))

/-- Result row `k` of a transposed read into the near store (R235). -/
def CoreSt.turnedRow (c : CoreSt) (k : Nat) (bf16 : Bool) : Row :=
  if bf16 then rowOfBytes (fun b => c.turnByte (64 * (32 * (k % 2) + b / 2) + 2 * (k / 2) + b % 2))
  else rowOfBytes (fun b => c.turnByte (64 * b + k))

/-- Flit `k` of a transposed read into a stop's slot: values, then the scales of R149; beyond them zero (R148, R235). -/
def CoreSt.turnedFlit (c : CoreSt) (k : Nat) (bf16 : Bool) : Row :=
  if bf16 then (if k < 64 then rowOfBytes (fun b => c.turnByte (128 * (b / 2) + 2 * k + b % 2)) else 0)
  else if k < 64 then rowOfBytes (fun b => c.turnByte (64 * b + k))
  else if k < 66 then rowOfBytes (fun b => c.turnByte (4096 + 64 * (b / 32) + 32 * (k - 64)))
  else 0

/-! ### Reads that a stop, a router or the sequencer has under way -/

/-- The stop's slot holds all its flits. -/
def State.fillSlot (s : State) (p : Nat) (arr : Arr) (slot len t : Nat) (f : Nat → Row) : State :=
  (s.heal .stopBuf (2 * p + arr.val) (flitWord slot 0) 1088).onSlot (2 * p + arr.val) slot (fun x => { x with
    filling := false
    flits := (List.range len).map (fun i => { idx := i, avail := t, pay := f i, poison := false }) })

/-- A transposed read into a stop's slot is complete: before a later one uses the corner-turn buffer (R148, R234). -/
def State.landTurn (s : State) (p : Nat) (x : Pend) : State :=
  match x.dst with
  | .turnStop arr slot len bf16 =>
    let c := s.coreAt p
    s.fillSlot p arr slot len (x.due + 1) (fun k => c.turnedFlit k bf16)
  | .zeroStop arr slot len => s.fillSlot p arr slot len (x.due + 1) (fun _ => 0)
  | _ => s

/-- The entries of a table granule. -/
def granEntries (k : Nat) (v : Vec) : List (Nat × BitVec 128) :=
  (List.range 16).map (fun i => (16 * k + i, BitVec.ofNat 128 (v.toNat / 2 ^ (128 * i))))
def putEntries (t : Tab (BitVec 128)) (es : List (Nat × BitVec 128)) : Tab (BitVec 128) :=
  es.foldl (fun t e => tset t e.1 e.2) t

/-- The memory accesses of this tcyc that read: they see memory as it stood at the tcyc's start (R221). A table LOAD replaces
the entries that its granules hold and no other entry of the bank (DESIGN CHOICE, log entry 87). -/
def State.landRead (s : State) (p t : Nat) (x : Pend) : State :=
  match x.dst with
  | .turn k g =>
    let (s, v) := s.readGran p g
    s.onCore p (fun c => { c with turnBuf := tset c.turnBuf k v })
  | .page slot k g =>
    let (s, v) := s.readGran p g
    (s.heal .bundle p (512 * slot + 16 * k) 16).onCore p (fun c => { c with
      istore := putEntries c.istore ((granEntries k v).map (fun e => (512 * slot + e.1, e.2)))
      valid := if k = 0 then c.valid &&& ~~~(1#16 <<< slot) else c.valid })
  | .fetched arr slot k g len drop =>
    let (s, v) := s.readGran p g
    if drop then s
    else (s.heal .stopBuf (2 * p + arr.val) (flitWord slot (4 * k)) 32).onSlot (2 * p + arr.val) slot (fun y => { y with
      filling := y.filling && decide (4 * k + 4 < len)
      flits := y.flits ++ ((List.range (min 4 (len - 4 * k))).map (fun i =>
        { idx := 4 * k + i, avail := t + 4, pay := BitVec.ofNat 512 (v.toNat / 2 ^ (512 * i)), poison := false })) })
  | .trainLoad arr k g =>
    let (s, v) := s.readGran p g
    let y := s.stopAt (2 * p + arr.val)
    let put (b : Tab (BitVec 128)) : Tab (BitVec 128) := putEntries b (granEntries k v)
    (s.heal .stopTable (2 * p + arr.val) (bankWord (!y.cur) (16 * k)) 16).setStop (2 * p + arr.val) (if y.cur then { y with bank0 := put y.bank0 } else { y with bank1 := put y.bank1 })
  | .slotLoad k g =>
    let (s, v) := s.readGran p g
    (s.heal .rtrTable p (bankWord (!(s.rtrAt p).cur) (16 * k)) 16).onRtr p (fun r =>
      let put (b : Tab (BitVec 128)) : Tab (BitVec 128) := putEntries b (granEntries k v)
      if r.cur then { r with bank0 := put r.bank0 } else { r with bank1 := put r.bank1 })
  | .poolRead row tag =>
    let idx := x.val.toNat
    if t < (s.rtrAt p).poolBusy then s.meshFault p 0x2710 idx 5 tag
    else
      let (s, v) := (s.onRtr p (fun r => { r with poolBusy := t + 1 })).readPool p row idx
      let n := ((List.range (p % 12)).filter (fun y => s.isFenced (12 * (p / 12) + y))).length
      { s with meshFly := s.meshFly ++ [{ dst := p, port := 5, due := t + 4
                                          flit := meshFlit true 0 false (p / 12) (12 + n) tag false v }] }
  | _ => s

/-! ### Results of a core (R105, R106) -/

/-- The register in which a result lands, for R106. -/
def Dst.reg : Dst → Option Nat
  | .s n => some n
  | .a n => some (16 + n)
  | .dp n => some (32 + n)
  | .v n => some (64 + n)
  | .m n => some (96 + n)
  | .seed n => some (100 + n)
  | .idx n => some (104 + n)
  | .idxAdd n => some (104 + n)
  | _ => none

/-- Lanes of `v` where the mask has a 1, of `old` elsewhere. -/
def mergeLanes (old v : Vec) (mask : BitVec 256) : Vec :=
  ofLanes ((List.range 64).map (fun i => if mask.getLsbD i then lane v i else lane old i))

/-- A lane-wise FP32 sum rounded to nearest even (R80). -/
def addLanes (a b : Vec) : Vec :=
  ofLanes ((List.range 64).map (fun i =>
    BitVec.ofNat 32 (fp32.enc .rne (FpVal.add (fp32.dec (lane a i).toNat) (fp32.dec (lane b i).toNat)))))

/-- The lanes of a vector register that a mask writes are good again (R124). -/
def State.healLanes (s : State) (p n : Nat) (mask : BitVec 256) : State :=
  { s with upsets := s.upsets.filter (fun u =>
      !(u.place == .vreg && u.unit == p && u.word / 64 == n % 32 && mask.getLsbD (u.word % 64))) }

/-- A granule that an STL has produced, or an LDL has used once more, changes its state (R249-R251). -/
def State.granStep (s : State) (k g : Nat) (produced : Bool) : State :=
  let y := s.ctxAt k
  if produced then s.setCtx k (y.setGran g (.produced 0))
  else match tget y.grans g .free with
    | .published n => s.setCtx k (y.setGran g (if n ≤ 1 then .free else .published (n - 1)))
    | _ => s

/-- A result lands in a register or a partial-sum entry, or an event of its tcyc happens. -/
def State.landReg (s : State) (p : Nat) (x : Pend) : State :=
  let w : Word := x.val.setWidth 32
  let d : DWord := x.val.setWidth 64
  match x.dst with
  | .s n => s.onCore p (fun c => { c with s := tset c.s (n % 16) w })
  | .a n => s.onCore p (fun c => { c with a := tset c.a (n % 16) w })
  | .dp n => s.onCore p (fun c => { c with dp := tset c.dp (n % 8) w })
  | .v n =>
    let v := mergeLanes (s.vReg p n) x.val x.mask
    (s.healLanes p n x.mask).onCore p (fun c => { c with v := tset c.v (n % 32) v })
  | .m n =>
    let k : DWord := x.mask.setWidth 64
    let v := (s.mReg p n &&& ~~~k) ||| (d &&& k)
    (s.heal .mask p (n % 4) 1).onCore p (fun c => { c with m := tset c.m (n % 4) v })
  | .seed n => s.onCore p (fun c => { c with seed := tset c.seed (n % 4) d })
  | .idx n => s.onCore p (fun c => { c with idx := tset c.idx (n % 4) d })
  | .idxAdd n =>
    let v := s.idxReg p n + d
    s.onCore p (fun c => { c with idx := tset c.idx (n % 4) v })
  | .cfg arr => s.onCore p (fun c => c.setArr arr { c.arr arr with
      cfg := some w, entp := some (w.toNat / 64 % 128), sclp := some ((x.val >>> 32).setWidth 32), sclUsed := 0, sclRow := none })
  | .psum arr e add =>
    let old := s.psum p arr e
    let s := if add then s.readPsum p arr e else s
    let s := s.heal .psum (2 * p + arr.val) (e % 128) 1
    let v := mergeLanes old (if add then addLanes old x.val else x.val) x.mask
    s.onCore p (fun c => c.setArr arr { c.arr arr with psum := tset (c.arr arr).psum (e % 128) v })
  | .feeder arr entp sclp used row => s.onCore p (fun c => c.setArr arr { c.arr arr with
      entp := some entp, sclp := some sclp, sclUsed := used, sclRow := row })
  | .produced d g => s.onClu (posClu p) (fun c => { c with nextGran := c.nextGran ++ [(ctxKey 0 p d, g, true)] })
  | .used d g => s.onClu (posClu p) (fun c => { c with nextGran := c.nextGran ++ [(ctxKey 0 p d, g, false)] })
  | .depth d =>
    let k := s.stkAt p
    s.setStk p { k with
      depth := d, bad := k.bad.filter (fun g => decide (g < d))
      spilling := k.spilling && (match k.desc with | some x => decide (x.low < d - k.rb) | none => false) }
  | .event code unit aux detail =>
    s.raise { code := code, pos := p, unit := unit, tt := some x.issue, aux := aux.toNat, detail := detail.toNat }
  | .swap arr =>
    match ((s.coreAt p).arr arr).shadow with
    | .full t => s.onCore p (fun c => c.setArr arr { c.arr arr with active := t, shadow := .none })
    | _ => s
  | .latch arr slot =>
    match (if slot < 2 then some slot else (s.stopAt (2 * p + arr.val)).latchSlot x.due) with
    | none => s.latchFault p arr none
    | some slot =>
    (s.onSlot (2 * p + arr.val) slot (fun y => { y with latching := true })).onCore p (fun c =>
      c.setArr arr { c.arr arr with shadow := .latching x.issue slot [] })
  | .pageValid slot => s.onCore p (fun c => { c with valid := c.valid ||| (1#16 <<< slot) })
  | .trainDone arr =>
    let y := s.stopAt (2 * p + arr.val)
    s.setStop (2 * p + arr.val) { y with loadDone := true, loadBusy := none }
  | .slotDone => s.onRtr p (fun r => { r with loadDone := true, loadBusy := none })
  | .eject => s.onRtr p (fun r => { r with ej := r.ej.drop 1 })
  | _ => s

/-- A SEND's flit enters the injection queue (R119, R130, R202, R204). -/
def State.inject (s : State) (p t : Nat) (x : Pend) (nil sample : Bool) : State :=
  let r := s.rtrAt p
  if r.gateShut then s.zombie p
  else if 8 ≤ r.inj.length then s.seqFault p 0x2207
  else
    let f := meshFlit (!nil) 0 false 0 0 0 sample (if nil then 0 else x.val.setWidth 512)
    s.setRtr p { r with inj := r.inj ++ [(t + 2, f)] }

/-- The registers in which two or more results land (R106). -/
def contested : List Pend → List Nat
  | [] => []
  | x :: r =>
    match x.dst.reg with
    | none => contested r
    | some n => if r.any (fun y => y.dst.reg == some n) && !(contested r).contains n then n :: contested r else contested r

/-- The order of R106: by issue, in one tcyc C before M before V. -/
def Pend.before (a b : Pend) : Bool := decide (a.issue < b.issue) || (a.issue == b.issue && decide (a.rank ≤ b.rank))

/-! ### Memory writes of a tcyc (R219, R221, R285) -/

/-- A timetabled near-store write of this tcyc: its tier and agent rank, its row. -/
def Dst.row (c : Dst) : Option (Nat × Nat) :=
  match c with
  | .nst row tier => some (tier, row)
  | .nstAdd row _ tier => some (tier, row)
  | .turned _ row _ => some (2, row)
  | _ => none

/-- The place of a near-store write in the service order: tier, and in tier 1 the network slot before STA (R219). -/
def Pend.service (x : Pend) : Nat :=
  match x.dst.row with
  | some (tier, _) => 8 * tier + (if x.rank = 3 then 0 else 1)
  | none => 64

/-- The row of STEP_ROW at a position (R285). -/
def State.stepRowAt (s : State) (p : Nat) : Option Nat :=
  s.frm.prog.bind (fun g => (g.image.cores.find? (fun c => s.physOf c.lx c.ly == some p)).map (fun c => c.stepRow % 32768))

/-- The near-store writes of a tcyc in service order; a second one to a row, or one to STEP_ROW, is discarded with 0x29.03
(R221, R285). -/
def State.landRows (s : State) (p : Nat) (step : Option Nat) (seen : List Nat) : List Pend → State
  | [] => s
  | x :: r =>
    match x.dst.row with
    | none => s.landRows p step seen r
    | some (_, row) =>
      if seen.contains row || step == some row then
        let s := (s.accessRow p row).raiseAt 0x2903 p 8 (s.coreAt p).pc.toNat row
        s.landRows p step seen r
      else
        let s := match x.dst with
          | .nst row _ => s.writeRow p row (x.val.setWidth 512) (x.mask.setWidth 64)
          | .nstAdd row fmt _ => s.accRow p row (x.val.setWidth 512) fmt.toNat
          | .turned k row bf16 => s.writeRow p row ((s.coreAt p).turnedRow k bf16) (BitVec.allOnes 64)
          | _ => s
        s.landRows p step (row :: seen) r

/-- The deck writes of a tcyc; a second one to a granule is discarded with 0x2A.03 (R221). -/
def State.landGrans (s : State) (p : Nat) (seen : List Nat) : List Pend → State
  | [] => s
  | x :: r =>
    match x.dst with
    | .gran g =>
      if seen.contains (g % 262144) then
        ((s.accessGran p g).raiseAt 0x2A03 p 0xC (s.coreAt p).pc.toNat (g % 262144)).landGrans p seen r
      else (s.writeGran p g x.val).landGrans p (g % 262144 :: seen) r
    | _ => s.landGrans p seen r

/-! ### Address registers (R103) -/

/-- The registers that the bundle's slots named advance once for each slot (R103). -/
def State.advance (s : State) (p : Nat) : State :=
  let c := s.coreAt p
  let times (l : List (Nat × Nat)) (n : Nat) : Nat := (l.filter (fun e => e.1 == n)).length
  let s := (List.range 16).foldl (fun (s : State) (n : Nat) =>
    let k := times c.advA n
    if k = 0 then s
    else
      let w := advRow (s.aReg p n) k
      s.onCore p (fun c => { c with a := tset c.a n w })) s
  let s := (List.range 8).foldl (fun (s : State) (n : Nat) =>
    let k := times c.advD n
    if k = 0 then s
    else
      let w := advGran (s.dpReg p n) k
      s.onCore p (fun c => { c with dp := tset c.dp n w })) s
  s.onCore p (fun c => { c with advA := [], advD := [] })

/-! ### Latches and slots (R93, R98, R138, R143, R146, R147) -/

/-- One tcyc of a latch in progress: the next flit, passed straight through where it has just arrived. Invalid nibbles of a tile
raise one record, when its last flit latches (DESIGN CHOICE, log entry 86). -/
def State.latchFlit (s : State) (p t : Nat) (arr : Arr) : State :=
  match ((s.coreAt p).arr arr).shadow with
  | .latching t0 slot got =>
    let x := (s.stopAt (2 * p + arr.val)).slotAt slot
    let i := t - t0
    let f := x.flitAt i t
    let s := if x.marker || f.isSome then s else s.latchFault p arr (some slot)
    let (s, un) := if x.marker || f.isNone then (s, false) else s.readSlotFlit p arr slot i x.entryAt x.entry
    let bad := if x.marker then i == 0 && x.markBad else (f.map (·.poison)).getD false || un
    let s := if bad then s.arrFault p arr 0x2105 else s
    let s := if !x.marker then s.event p 0x34 1 else if i = 0 then s.event p 0x35 1 else s
    let got := got ++ [((f.map (·.pay)).getD 0, bad)]
    if i + 1 < x.len then s.onCore p (fun c => c.setArr arr { c.arr arr with shadow := .latching t0 slot got })
    else
      let tile : Tile := { mode := x.mode, wfmt := x.wfmt, empty := x.marker, anyMode := false
                           flits := if x.marker then [] else got.map (·.1), sums := [] }
      let s := if !tile.empty && tile.badNibble then s.arrFault p arr 0x2103 else s
      (s.onSlot (2 * p + arr.val) slot (fun y => { y with latching := false, latched := true })).onCore p (fun c =>
        c.setArr arr { c.arr arr with shadow := .full tile.withSums })
  | _ => s

/-- Whether the table names slot `b` in a SEND after the fill of tcyc `t0`, before the next fill of it (R143). -/
def StopSt.sendAfter (x : StopSt) (b t0 : Nat) : Bool :=
  match x.walk.find? (fun w => decide (t0 < w.2.2) && enBuf w.2.1 == b && decide (2 ≤ enOp w.2.1) && decide (enOp w.2.1 ≤ 6)) with
  | some w => enOp w.2.1 == 4
  | none => false

/-- The slots that become free in the next tcyc (R143). -/
def StopSt.freeSlots (x : StopSt) : StopSt :=
  let done (b : Nat) : Bool :=
    let y := x.slotAt b
    let send := y.sent || x.sendAfter b y.fillT
    y.used && !y.filling && y.sending.isNone && !y.latching && (y.latchIt || send) && (!y.latchIt || y.latched)
      && (!send || y.sent)
  let x := if done 0 then { x with slot0 := .free } else x
  if done 1 then { x with slot1 := .free } else x

/-- Arrivals at a stop that no entry covers (R138, R140, R142), and an ACCEPT that no DKRT matched (R145). -/
def State.stopLeft (s : State) (p t : Nat) (arr : Arr) : State :=
  let k := 2 * p + arr.val
  let here (l : LinkFlit) : Bool := l.dst == k && l.due == t
  let s := (s.ferryFly.filter here).foldl (fun (s : State) (l : LinkFlit) =>
    let d := l.port + 2 * fld l.flit.side 34 19
    let s := if l.flit.ferryOk then s else s.raiseAt 0x2501 p (5 + arr.val) 0 d
    s.raiseAt 0x2502 p (5 + arr.val) 0 d) s
  let s := { s with ferryFly := s.ferryFly.filter (fun l => !here l) }
  match (s.stopAt k).wantDkrt with
  | some (_, e) => (s.setStop k { s.stopAt k with wantDkrt := none }).stopFault p arr 0x250A e
  | none => s

/-! ### Sampling (R511, R516) -/

/-- The sampling register after one bundle. -/
def nextS (v : Word) : Word := if v.getLsbD 0 then (v >>> 1) ^^^ 0x80200003 else v >>> 1

/-- The array of a result, for a sample. -/
def Dst.arrOf (d : Dst) : Option Nat :=
  match d with
  | .cfg arr => some arr.val
  | .psum arr _ _ => some arr.val
  | .feeder arr _ _ _ _ => some arr.val
  | .swap arr => some arr.val
  | .latch arr _ => some arr.val
  | _ => none

/-- The bundle that the core issues advances S; whether it is tagged. A tagged one starts a sample record, its landings as
offsets from the issue tcyc (log entry 33). -/
def State.sampleBundle (s : State) (p t : Nat) : State × Bool :=
  let v := nextS (tget s.obs.sreg p 0)
  let s := { s with obs := { s.obs with sreg := tset s.obs.sreg p v } }
  let n := match s.coreBerth p with | some b => (s.region b).expo | none => 0
  if n = 0 || v.toNat % 2 ^ n ≠ 0 then (s, false)
  else
    let c := s.coreAt p
    let own := c.pend.filter (fun x => x.issue == t && x.rank != 4)
    let last (f : Pend → Bool) : Nat := ((own.filter f).map (fun x => x.due - t)).foldl max 0
    let x : Sample := {
      issue := t, bundle := tget c.istore c.pc.toNat 0, pc := c.pc.toNat, held := 0, last := last (fun _ => true)
      a0 := last (fun x => x.dst.arrOf == some 0), a1 := last (fun x => x.dst.arrOf == some 1)
      v := last (fun x => x.rank == 2), m := last (fun x => x.rank == 1), c := last (fun x => x.rank == 0), pop := 0
      sends := own.any (fun x => match x.dst with | .inject _ => true | _ => false) }
    ({ s with obs := { s.obs with samples := tset s.obs.samples p (tget s.obs.samples p [] ++ [x]) } }.event p 0x39 1, true)

/-- Samples whose last result has landed and whose SEND has been popped are written (R511, R516). -/
def State.sampleOut (s : State) (p t : Nat) : State :=
  let all := tget s.obs.samples p []
  let ready (x : Sample) : Bool := !x.sends && decide (x.issue + x.last ≤ t)
  if all.isEmpty then s
  else
    let s := { s with obs := { s.obs with samples := tset s.obs.samples p (all.filter (fun x => !ready x)) } }
    let w (n : Nat) : List Byte := bytesOf (min n 65535) 2
    (all.filter ready).foldl (fun (s : State) (x : Sample) =>
      s.coreRec p 1 x.issue (bytesOf x.bundle.toNat 16 ++ w x.pc ++ w x.held ++ w x.a0 ++ w x.a1 ++ w x.v ++ w x.m
        ++ w x.pop ++ w x.c)) s

/-! ### The end of a tcyc at a position -/

/-- The DKRT of this tcyc meets its ACCEPT before the reads of the tcyc are made (R145). -/
def State.meetDkrt (s : State) (p t : Nat) : State :=
  ((s.coreAt p).pend.filter (fun x => x.due == t)).foldl (fun (s : State) (x : Pend) =>
    match x.dst with | .toStop g => s.turnToStop p g | _ => s) s

/-- Everything due at a position at the end of tcyc t. -/
def State.land (s : State) (p t : Nat) (tagged : Bool) : State :=
  let s := s.meetDkrt p t
  let due := (s.coreAt p).pend.filter (fun x => x.due == t)
  let s := s.onCore p (fun c => { c with pend := c.pend.filter (fun x => x.due != t) })
  let s := due.foldl (fun (s : State) (x : Pend) => s.landTurn p x) s
  let s := due.foldl (fun (s : State) (x : Pend) => s.landRead p t x) s
  let s := s.advance p
  let res := due.mergeSort Pend.before
  let s := (contested res).foldl (fun (s : State) (_ : Nat) => s.seqFault p 0x220D) s
  let s := res.foldl (fun (s : State) (x : Pend) => s.landReg p x) s
  let s := due.foldl (fun (s : State) (x : Pend) =>
    match x.dst with | .inject nil => s.inject p t x nil tagged | _ => s) s
  let s := s.landRows p (s.stepRowAt p) [] (due.mergeSort (fun a b => decide (a.service ≤ b.service)))
  s.landGrans p [] due

/-- The end of tcyc t at a live position: what its core issued, what lands, its sequencer, its stops. -/
def State.endTcyc (s : State) (p t : Nat) : State :=
  if s.isLive p then
    let c := s.coreAt p
    let issued := !c.ended && !c.noIssue && decide (c.waitTo ≤ t)
    let s := s.event p 0x02 1
    let (s, tagged) := if issued then (s.event p 0x01 1).sampleBundle p t else (s, false)
    let s := s.land p t tagged
    let s := ((s.latchFlit p t 0).latchFlit p t 1)
    let s := (s.stopLeft p t 0).stopLeft p t 1
    let s := [2 * p, 2 * p + 1].foldl (fun (s : State) (k : Nat) => s.setStop k (s.stopAt k).freeSlots) s
    let s := if issued then s.onCore p CoreSt.sequence else s
    s.sampleOut p t
  else s.land p t false

end Sys2Proof.Machine
end

