-- ==== Sys2Proof/Machine/Tick.lean ====
section
/-! DEFINITION. The clock (R49-R54, R426, R427): what one qns of device time does when no command waits. Every cluster
whose phase completes has one clk, in which it executes a tcyc of its timetable or holds. -/

namespace Sys2Proof.Machine

/-! ### What a cluster executes in a tcyc (R49) -/

/-- A number as a position. -/
def asPos (p : Nat) : Pos := ⟨p % 192, Nat.mod_lt _ (by decide)⟩

/-- An entry of a table bank is met in its first tcyc (R152, R206): an upset that its code corrects is a notice, another one
makes it act as END. -/
def State.meetStop (s : State) (p : Nat) (arr : Arr) (idx : Nat) (e : BitVec 128) : State × Bool :=
  let k := 2 * p + arr.val
  let (co, un) := s.upsetIn .stopTable k (bankWord (s.stopAt k).cur idx) 1
  if un then (s.stopEnd p arr 0x250C e, false)
  else
    let s := if co then s.stopRec p arr 0x250B idx e else s
    if badTrain e then (s.badStop p arr e, false) else (s, true)

/-- Entry `e` of a stop's table in its tcyc `i` (R140). -/
def State.stopEntry (s : State) (p : Pos) (arr : Arr) (idx : Nat) (e : BitVec 128) (i : Nat) : State :=
  let (s, works) := if i = 0 then s.meetStop p.val arr idx e else (s, true)
  if !works then s
  else
    match enOp e with
    | 1 => s.again (.pass p arr e (BitVec.ofNat 8 i))
    | 2 => s.again (.take p arr e (BitVec.ofNat 8 i))
    | 3 => s.again (.sink p arr e (BitVec.ofNat 8 i))
    | 4 => s.again (.ferrySend p arr e (BitVec.ofNat 8 i))
    | 5 => if i = 0 then s.again (.fetch p arr e) else s
    | 6 => if i = 0 then s.again (.accept p arr e) else s
    | 7 => if i = 0 then s.again (.trainTableLoad p arr e) else s
    | _ => s

/-- The entries of a walk that cover tcyc `t`, in the table's order: index, entry, tcyc of it. -/
def covering (len : BitVec 128 → Nat) (t : Nat) (walk : List (Nat × BitVec 128 × Nat)) : List (Nat × BitVec 128 × Nat) :=
  (walk.filter (fun w => decide (w.2.2 ≤ t) && decide (t < w.2.2 + len w.2.1))).map (fun w => (w.1, w.2.1, t - w.2.2))

/-- What a stop's table does in this tcyc (R140). -/
def State.runStop (s : State) (p : Pos) (arr : Arr) : State :=
  if s.isLive p.val then
    (covering enLen (s.tcyc p.val) (s.stopAt (2 * p.val + arr.val)).walk).foldl (fun (s : State) (w : Nat × BitVec 128 × Nat) =>
      s.stopEntry p arr w.1 w.2.1 w.2.2) s
  else s

/-- As `meetStop`, for an entry of a router's table (R206). -/
def State.meetSlot (s : State) (p idx : Nat) (e : BitVec 128) : State × Bool :=
  let (co, un) := s.upsetIn .rtrTable p (bankWord (s.rtrAt p).cur idx) 1
  if un then (s.entryEnd p 0x270E e, false)
  else
    let s := if co then s.entryFault p 0x270D e (seMain e).inp (seMain e).tag else s
    if badSlot e then (s.badEntry p e, false) else (s, true)

/-- Entry `e` of a router's table in its tcyc `i`, but for a merge (R185). -/
def State.slotEntry (s : State) (p : Pos) (idx : Nat) (e : BitVec 128) (i : Nat) : State :=
  let (s, works) := if i = 0 then s.meetSlot p.val idx e else (s, true)
  if !works then s
  else
    match enOp e with
    | 1 => s.again (.fwd p e (BitVec.ofNat 8 i))
    | 4 => if i = 0 then s.again (.poolrd p e) else s
    | 5 => if i = 0 then s.again (.slotTableLoad p e) else s
    | _ => s

/-- The merge entries of a tcyc: the first two of one operation with identical OUT masks are a pair (R193); the others are
none. -/
def State.runMerges (s : State) (p : Pos) : List (BitVec 128) → Nat → State
  | [], _ => s
  | _, 0 => s
  | e :: r, n + 1 =>
    match r.find? (fun f => enOp f == enOp e && seOut f == seOut e) with
    | some f => (s.again (if enOp e = 2 then .merge32 p e f else .merge16 p e f)).runMerges p (r.erase f) n
    | none => (s.mergeAlone p.val e (enOp e - 2)).runMerges p r n

/-- What a router's table does in this tcyc (R188, R205). -/
def State.runRouter (s : State) (p : Pos) : State :=
  let ws := covering seLen (s.tcyc p.val) (s.rtrAt p.val).walk
  let s := ws.foldl (fun (s : State) (w : Nat × BitVec 128 × Nat) => s.slotEntry p w.1 w.2.1 w.2.2) s
  let live := covering seLen (s.tcyc p.val) (s.rtrAt p.val).walk
  let ms := (live.filter (fun w => enOp w.2.1 == 2 || enOp w.2.1 == 3)).map (fun w => w.2.1)
  s.runMerges p ms ms.length

/-- The operations of the tcyc that cluster `j` is about to execute: its stops in bypass, its stops' and routers' tables and its
cores' bundles. What cannot act in this clk waits, and the cluster holds (R49, R50, R135). -/
def State.tcycOps (s : State) (j : Nat) : State :=
  let ps := (cluPos j).map asPos
  let s := s.ferryBypass j
  let s := ps.foldl (fun (s : State) (p : Pos) => (s.runStop p 0).runStop p 1) s
  let s := ps.foldl State.runRouter s
  ps.foldl State.issueBundle s

/-! ### Why a cluster holds (R50, R51, R54, R228) -/

/-- The commands on which cluster `j` held are tried again. -/
def State.retryHeld (s : State) (j : Nat) : State :=
  let c := s.cluAt j
  c.held.foldl State.again (s.setClu j { c with held := [], cause := none })

/-- The clusters that lag 8 tcyc behind, over whose crossings cluster `j` holds; `slots` are the slot counters at the start
of the clk (R54). -/
def crossedAt (slots : List Nat) (j : Nat) : Bool :=
  (List.range 48).any (fun k => cluAdj j k && decide (slots.getD k 0 + 8 ≤ slots.getD j 0))

/-- The highest cause for which cluster `j` holds in this clk (R51). -/
def State.holdCause (s : State) (slots : List Nat) (j : Nat) : Option HoldCause :=
  let a := if crossedAt slots j then some HoldCause.crossing else none
  let a := if s.gateHeld j then some (HoldCause.join .gate a) else a
  let a := if s.wakesNow j then some (HoldCause.join .bank a) else a
  match (s.cluAt j).cause with
  | some x => some (x.join a)
  | none => a

/-- The context on whose buffer a held command waits (R117, R259). -/
def State.lateCtx (s : State) (i : Instr) : Option Nat :=
  let late (p d : Nat) (offset : Nat) (fill : Bool) : Option Nat :=
    let k := ctxKey 0 p d
    let x := s.ctxAt k
    match tget x.grans (offset % max x.size 1) .free with
    | .published _ => if fill then none else some k
    | .free => if fill then some k else none
    | _ => some k
  match i with
  | .ldl p _ dp d => late p.val d.toNat (granOf (s.dpReg p.val dp.toNat)) true
  | .stl p _ dp d => late p.val d.toNat (granOf (s.dpReg p.val dp.toNat)) false
  | _ => none

/-- One held clk of a cluster: its counters, those of its live cores, of the contexts for which the operations `held` wait and
of the samples under way (R51, R259, R500, R501, R502, R516). -/
def State.heldClk (s : State) (j : Nat) (cause : HoldCause) (held : List Instr) : State :=
  let r := cause.rank
  let s := (s.onClu j (fun c => { c with frameCnt := tset c.frameCnt r (tget c.frameCnt r 0 + 1) })).count 6 j (2 + r) 1
  let s := ((cluPos j).filter s.isLive).foldl (fun (s : State) (p : Nat) =>
    let s := ((s.count 8 p 10 1).event p 0x03 1).event p (4 + r) 1
    let l := tget s.obs.samples p []
    if l.isEmpty then s
    else { s with obs := { s.obs with samples := tset s.obs.samples p (l.map (fun x => { x with held := x.held + 1 })) } }) s
  let s := if s.gateHeld j then
      s.onClu j (fun c => { c with gateWait := some (c.gateWait.getD s.time) }) else s
  (held.filterMap s.lateCtx).foldl (fun (s : State) (k : Nat) =>
    s.setCtx k { s.ctxAt k with held := (s.ctxAt k).held + 1 }) s

/-! ### A clk of a cluster (R49, R60, R68, R220, R259) -/

/-- The slot counter advances: the cluster begins its next tcyc, whose bundles its cores fetch (R49, R112). -/
def State.nextTcyc (s : State) (j : Nat) : State :=
  let s := s.onClu j (fun c => { c with slot := c.slot + 1 })
  (cluPos j).foldl State.fetchCheck s

/-- The most accesses that one bank has among some (R220), of position `p` or, with 192, of any. -/
def mostAccesses (acc : List (Nat × Nat)) (p : Nat) : Nat :=
  (acc.map (fun a => if a.2 = p || p = 192 then (acc.filter (fun b => b.1 == a.1)).length else 0)).foldl max 0

/-- The position and the cluster of a bank key. -/
def bankPos (k : Nat) : Nat := if k < 100000 then k / 16 else (k - 100000) / 32
def bankClu (k : Nat) : Nat := posClu (bankPos k)

/-- A clk of cluster `j` begins (R220, R222, R251): the banks have served one access each of those that they owe; what lost a bank in
the clk that ends has lost one clk more; granules change their state. -/
def State.openClk (s : State) (j : Nat) : State :=
  let mine (k : Nat) : Bool := bankClu k == j
  let u := s.bankUse
  let c := s.cluAt j
  let lost := (u.lost.filter (fun e => !mine e.1 || u.lostNow.contains e.1))
  let lost := (u.lostNow.filter mine).foldl (fun (t : Tab Nat) k => tset t k (tget t k 0 + 1)) lost
  let left := if c.bankHold = 0 then [] else (c.serve.eraseDups.filter (fun k => !c.owed.contains k)).foldl (fun l k => l.erase k) c.serve
  let s := { s with bankUse := { u with taken := u.taken.filter (fun k => !mine k), lost := lost, lostNow := u.lostNow.filter (fun k => !mine k) } }
  let s := c.nextGran.foldl (fun (s : State) (e : Nat × Nat × Bool) => s.granStep e.1 e.2.1 e.2.2) s
  s.onClu j (fun c => { c with serve := left, owed := [], nextGran := [] })

/-- The testers of cluster `j` in one clk (R236). -/
def State.testClks (s : State) (j : Nat) : State :=
  (cluPos j).foldl (fun (s : State) (p : Nat) => (s.testClk p false).testClk p true) s

/-- The cluster completes the tcyc of its slot counter (R49, R220). -/
def State.finishTcyc (s : State) (j : Nat) : State :=
  let t := (s.cluAt j).slot
  let ps := cluPos j
  let s := s.count 6 j 1 1
  let s := ps.foldl (fun (s : State) (p : Nat) => s.endTcyc p t) s
  let s := ps.foldl State.flushRouter s
  let owed := (s.bankUse.lost.filter (fun e => bankClu e.1 == j && decide (64 ≤ e.2))).map (·.1)
  let acc := (s.cluAt j).acc
  let all := acc ++ (owed.filter (fun k => acc.any (fun a => a.1 == k))).map (fun k => (k, bankPos k))
  let n := mostAccesses all 192
  let s := s.onClu j (fun c => { c with acc := [], serve := acc.map (·.1), owed := owed, bankHold := n - 1 })
  if 1 < n then
    ps.foldl (fun (s : State) (p : Nat) =>
      let m := mostAccesses all p
      if 1 < m then s.event p 0x21 (m - 1) else s) s
  else s.nextTcyc j

/-- A cluster that has executed tcyc C + 16 of a commit frame reports, once each of its SPOILs is acknowledged (R60, R209);
a tcyc that waits only for a bank has executed. -/
def State.report (s : State) (j : Nat) : State :=
  match s.hdr with
  | some h =>
    let c := s.cluAt j
    let done := c.slot + (if 0 < c.bankHold then 1 else 0)
    if h.last && !c.reported && decide (h.c + 16 < done)
        && !s.cour.open_.any (fun o => o.src == j && o.cls == 2) then
      (s.setClu j { c with reported := true }).sendPkt j 52 3 (0#1 ++ s.frm.frameNum.setWidth 16)
    else s
  | none => s

/-- The chunks of stacks that have completed by the start of a clk are seen in it (R162). -/
def State.seeChunks (s : State) (p : Nat) : State :=
  let k := s.stkAt p
  if k.rbSeen = k.rb then s else s.setStk p { k with rbSeen := k.rb }

/-- The waits of the contexts of a cluster's cores (R259). -/
def State.waitedClk (s : State) (mine : Nat → Bool) : State :=
  if s.ctx.any (fun e => mine e.1 && e.2.waitFrom.isSome) then
    { s with ctx := s.ctx.map (fun (e : Nat × CtxSt) =>
        if mine e.1 && e.2.waitFrom.isSome then (e.1, { e.2 with waited := e.2.waited + 1 }) else e) }
  else s

/-- One clk of a cluster that has a tcyc to execute: it executes it or holds. An immediate stop that has arrived waits for the
tcyc under way and for no hold (R49, R68, R220). -/
def State.runClk (s : State) (slots : List Nat) (j : Nat) : State :=
  let c := s.cluAt j
  let ended (s : State) : State := if c.stopping then s.stopNow j else s
  if 0 < c.bankHold then
    let s := (s.heldClk j .bank []).onClu j (fun c => { c with bankHold := c.bankHold - 1 })
    if c.bankHold = 1 then ended (s.nextTcyc j) else s
  else
    let s := s.retryHeld j
    let t := s.tcycOps j
    match t.holdCause slots j with
    | none =>
      let t := t.finishTcyc j
      if (t.cluAt j).bankHold = 0 then ended t else t
    | some cause =>
      if c.stopping then s.stopNow j
      else
        (s.onClu j (fun d => { d with cause := (t.cluAt j).cause })).heldClk j cause (t.cluAt j).held

/-- One clk of cluster `j`. -/
def State.cluClk (s : State) (slots : List Nat) (j : Nat) : State :=
  let s := (s.openClk j).count 6 j 0 1
  let s := (cluPos j).foldl State.seeChunks s
  let s := s.waitedClk (fun k => ctxBlk k == 0 && posClu (ctxUnit k) == j)
  let c := s.cluAt j
  let s :=
    if c.stopped then s.count 6 j 12 1
    else if s.frm.phase != 1 || !c.running || c.atEnd || decide (s.endMark ≤ c.slot) then s
    else ((s.onClu j (fun c => { c with clkCount := c.clkCount + 1 })).runClk slots j).report j
  s.testClks j

/-- The phase of a cluster's oscillator after one qns, in 1/4,000 of a clk, and whether a clk ends (R426, R427). -/
def State.phase (s : State) (slots : List Nat) (j : Nat) : State :=
  let c := s.cluAt j
  if c.clockLost.isSome then s
  else
    let b := min c.boost c.lag
    let a := c.phaseAcc + s.pwr.nowMhz + b
    if a < 4000 then s.setClu j { c with phaseAcc := a, lag := c.lag - b }
    else (s.setClu j { c with phaseAcc := a - 4000, lag := c.lag - b }).cluClk slots j

/-! ### One qns (R364, R434) -/

/-- Device time goes on by one qns; a joined device slews toward system time at up to 500 ppm, one that is ahead and not
locked at 1,000 ppm (R364). -/
def State.timeOn (s : State) : State :=
  let d := s.pont
  if !d.joined || d.master || d.diff = 0 then { s with time := s.time + 1 }
  else
    let every := if d.diff < 0 && !d.locked then 1000 else 2000
    if d.slew + 1 < every then { s with time := s.time + 1, pont := { d with slew := d.slew + 1 } }
    else if d.diff < 0 then { s with pont := { d with slew := 0, diff := d.diff + 1 } }
    else { s with time := s.time + 2, pont := { d with slew := 0, diff := d.diff - 1 } }

/-- A spoil that is due reaches the root by now (R211, R462, R463). -/
def State.spoilNow (s : State) (d : SpoilDue) : State :=
  if s.frm.phase == 2 && s.inClkOfDone s.time then
    ({ s with flt := { s.flt with dues := s.flt.dues.filter (fun x => x != d) } }).spoilDone d.step
  else s.spoilArrives d

/-- Whether a clock of `quarter` / 4 MHz ends a clk in this qns. -/
def State.clkEnds (s : State) (quarter : Nat) : Bool := s.time * quarter / 16000 != (s.time - 1) * quarter / 16000

/-- The controller clocks of the memory ports and of the Depot in their steps, in quarters of a MHz (R264, R295). -/
def portClock (step : Nat) : Nat := match step with | 0 => 5332 | 1 => 4800 | 2 => 4268 | 3 => 3752 | _ => 3200
def depotClock (step : Nat) : Nat := match step with | 0 => 3600 | 1 => 3200 | 2 => 2400 | _ => 1600

/-- Whether the clocks off VDD_AON run (R446, R527). -/
def State.clocked (s : State) : Bool := s.pins.thermtripN && s.pins.pwrFailN

/-- The clk of the memory ports, the Depot and Pontoon count the waits of their contexts, and those of any context on a
memory port's full queue (R259, R430, R502). -/
def State.blockClks (s : State) : State :=
  let s := if s.clocked && s.clkEnds (portClock s.pwr.memStep) then
      (let s := s.waitedClk (fun k => ctxBlk k == 1)
       let full := s.ctx.filterMap (fun (e : Nat × CtxSt) => if e.2.waitFrom.isSome then e.2.full else none)
       (List.range 16).foldl (fun (s : State) (i : Nat) => if full.contains i then s.count 3 i 5 1 else s) s)
    else s
  let s := if s.clkEnds (depotClock s.pwr.depotStep) then s.waitedClk (fun k => ctxBlk k == 2) else s
  if s.clocked && s.clkEnds 3125 then s.waitedClk (fun k => ctxBlk k == 3) else s

/-- The commands that wait for a bank try again, those of tier 3 before those of the host (R219, R220). -/
def State.retryBanks (s : State) : State :=
  let host (i : Instr) : Bool := match i with | .bar2Access _ _ _ _ => true | _ => false
  let w := s.bankUse.waiting
  (w.filter (fun i => !host i) ++ w.filter host).foldl State.again { s with bankUse := { s.bankUse with waiting := [] } }

/-- What happens outside the clusters as time goes on: spoils and step sizes arrive, the UCIe modules send, waiting host
accesses and commands go on, ports close, stops complete. -/
def State.unitsOn (s : State) : State :=
  let s := (s.flt.dues.filter (fun d => decide (d.latest ≤ s.time))).foldl State.spoilNow s
  let s := if s.frm.phase == 1 && !s.upd.arrived && decide (s.frm.started + 4000 ≤ s.time) then
      s.onUpd (fun u => { u with arrived := true }) else s
  let s := if s.clocked then ((List.range 4).foldl State.ucieSend s).retryBanks else s
  let s := s.rootReads.resumeWaiting
  let s := (s.waiting 0x0405).foldl State.flipNext s
  let s := (s.waiting 0x050C).foldl State.quiesceNext s
  let s := s.blockClks
  s.closePorts.stopCheck

/-- One qns of the part. Nothing goes on while RESET_N is low; after a trip or a power failure only what lies on VDD_AON does
(R446, R525, R527). -/
def State.tick (s : State) : State :=
  if !s.pins.resetN then s
  else
    let s := s.timeOn
    let s := if s.clocked then
        (let slots := (List.range 48).map (fun j => (s.cluAt j).slot)
         let s := (List.range 48).foldl (fun (s : State) (j : Nat) => s.phase slots j) s
         (List.range 48).foldl State.meshArrive s)
      else s
    s.unitsOn

end Sys2Proof.Machine
end

