-- ==== Sys2Proof/Safety.lean ====
section
/-! DEFINITION. What counts as a safe run, and the terms in which the statements speak: a slot that is free, a result that
pends, what a command leaves as it was. -/

namespace Sys2Proof.Machine

/-- A step that answers a next state. -/
def completes (s : State) : Prop := ∃ t, step s = .next t

/-- Every byte of the near stores, the deck and LPDDR5X reads in `t` as it did in `s`. -/
def State.sameMem (s t : State) : Prop := ∀ a : Nat, t.nst.get a = s.nst.get a ∧ t.deck.get a = s.deck.get a ∧ t.lp.get a = s.lp.get a

/-- Every register of every core (R102) reads in `t` as it did in `s`. -/
def State.sameRegs (s t : State) : Prop :=
  ∀ p n : Nat, t.sReg p n = s.sReg p n ∧ t.aReg p n = s.aReg p n ∧ t.dpReg p n = s.dpReg p n ∧
    t.vReg p n = s.vReg p n ∧ t.mReg p n = s.mReg p n ∧ t.seedReg p n = s.seedReg p n ∧ t.idxReg p n = s.idxReg p n ∧
    ∀ arr : Arr, t.cfgReg p arr = s.cfgReg p arr ∧ t.entReg p arr = s.entReg p arr ∧ t.sclReg p arr = s.sclReg p arr ∧
      t.psum p arr n = s.psum p arr n

/-- The memories hold their canonical form. -/
def State.memWf (s : State) : Prop := s.nst.wf = true ∧ s.deck.wf = true ∧ s.lp.wf = true

/-- The core at `p` issues in this tcyc and its vector slot is free (R105, R123). -/
def State.vecFree (s : State) (p : Pos) : Prop := s.issues p.val = true ∧ (s.coreAt p.val).vBusy ≤ s.tcyc p.val

/-- The core at `p` issues in this tcyc, its memory slot is free and no UPDATE issued with it (R105, R129). -/
def State.memFree (s : State) (p : Pos) : Prop :=
  s.issues p.val = true ∧ (s.coreAt p.val).updAt ≠ some (s.tcyc p.val) ∧ (s.coreAt p.val).mBusy ≤ s.tcyc p.val

/-- The deck port of `p` is free (R116). -/
def State.portFree (s : State) (p : Pos) : Prop := (s.coreAt p.val).portBusy ≤ s.tcyc p.val

/-- The near-store rows from `row` on are powered and under no kill scrub (R226, R232). -/
def State.rowsOn (s : State) (p : Pos) (row n : Nat) : Prop :=
  ∀ k < n, s.nstState p.val (row + k) = 0 ∧ s.underScrub 0 (nstAddr p.val (row + k)) = false

/-- The deck granule is present, powered and under no kill scrub (R216, R226, R232). -/
def State.granOn (s : State) (p : Pos) (g : Nat) : Prop :=
  s.deckPresent p.val g = true ∧ s.deckState p.val g = 0 ∧ s.underScrub 1 (deckAddr p.val g) = false

/-- Command `i` answers a next state in which the results `rs`, and no others, have begun on their way at `p`. -/
def State.begins (s : State) (p : Pos) (i : Instr) (rs : List Pend) : Prop :=
  ∃ t, exec i s = .next t ∧ (t.coreAt p.val).pend = (s.coreAt p.val).pend ++ rs

/-- A result of a slot issued now: it lands at the end of tcyc t + lat − 1 (R105). -/
def State.result (s : State) (p : Pos) (dst : Dst) (lat rank : Nat) (val : Vec) (mask : BitVec 256) : Pend :=
  { dst := dst, due := s.tcyc p.val + lat - 1, issue := s.tcyc p.val, rank := rank, val := val, mask := mask }

/-- Vector operation `i` begins a result of latency `lat` into vd under its predicate, lane k of it `f k` (R123), and
after it the results `more`. -/
def State.vecDoes (s : State) (p : Pos) (o : VOp) (lat : Nat) (i : Instr) (f : Nat → Word) (more : List Pend := []) : Prop :=
  ∃ v : Vec, (∀ k < 64, lane v k = f k) ∧
    s.begins p i (s.result p (.v o.vd.toNat) lat 2 v (s.vMask p.val o) :: more)

/-- The advance of IDX by a stochastic draw (R128). -/
def State.drawn (s : State) (p : Pos) (o : VOp) : List Pend :=
  if o.rnd = 1 then
    [s.result p (.idx (o.imm / 16)) 1 2 ((s.idxReg p.val (o.imm / 16) + 64).setWidth 2048) fullMask]
  else []

/-- Pigeonhole `n` holds command `op` taken up and not begun, under the live berth table, and no pair switches (R399). -/
def State.ready (s : State) (n : Pgh) (op : Nat) : Prop :=
  (s.pghAt n.val).state = 2 ∧ (s.pghAt n.val).begun = false ∧ (s.pghAt n.val).op = op ∧ (s.pghAt n.val).old = none ∧
    s.post.switching = false

/-- Command `c` answers a next state in which pigeonhole `n` is DONE with STATUS `status`, and which meets `P`. -/
def State.replies (s : State) (n : Pgh) (c : Instr) (status : Nat) (P : State → Prop) : Prop :=
  ∃ t, exec c s = .next t ∧ (t.pghAt n.val).state = 3 ∧ tabRead (t.pghAt n.val).resp 4 1 = status ∧ P t

/-- The leaf bit of an event of a core's unit whose leaf its position and class alone name (R456, R474). -/
def State.leafBit (s : State) (p : Pos) (code : Code) : Bool :=
  (tget s.flt.leaves (leafOff { code := code, pos := p.val }) 0).getLsbD (code.toNat % 256)

/-- A command of a core's slots, of a Ferry stop or of a router (R107-R129, R139-R148, R184-R202). -/
def isCoreCommand (i : Instr) : Bool :=
  match i with
  | .waitc .. | .waits .. | .rpt .. | .loop .. | .loops .. | .jmp .. | .bnz .. | .page .. | .setl .. | .seth ..
  | .salu .. | .movx .. | .endOp .. | .ld .. | .st .. | .sta .. | .psd .. | .dkrd .. | .dkwr .. | .ldl ..
  | .stl .. | .dkrt .. | .push .. | .pop .. | .feed .. | .cfg .. | .swap .. | .latch .. | .vadd .. | .vsub ..
  | .vmul .. | .vfma .. | .vmax .. | .vmin .. | .vabs .. | .vneg .. | .vcmp .. | .vsel .. | .vmov .. | .vbc ..
  | .vrdp .. | .vlane .. | .vrcp .. | .vsqrt .. | .vrsqrt .. | .vdiv .. | .vexp2 .. | .vlog2 .. | .vtanh ..
  | .vsigm .. | .verf .. | .vsin .. | .vcos .. | .vrsum .. | .vrmax .. | .vrmin .. | .vrdot .. | .viadd ..
  | .visub .. | .vand .. | .vor .. | .vxor .. | .vshl .. | .vshr .. | .dadd .. | .dmul .. | .dfma .. | .drsum ..
  | .dcvt .. | .vcvf .. | .vcvm .. | .vcvb .. | .vcvi .. | .update .. | .send .. | .recv .. | .recva ..
  | .recvaB .. | .drop .. | .mark .. | .pass .. | .take .. | .sink .. | .ferrySend .. | .fetch .. | .accept ..
  | .trainTableLoad .. | .fwd .. | .merge32 .. | .merge16 .. | .poolrd .. | .slotTableLoad .. | .zombieFlit .. => true
  | _ => false


end Sys2Proof.Machine
end

