-- ==== Sys2Proof/Certificates/Slice0/Obligations.lean ====
section
/-! DEFINITION. The statements about the part. -/

open Sys2Proof Sys2Proof.Machine

/-! ### The queue, reset, and the machine as a whole -/

/-- A step with a command at the front of the queue is `exec` of that command on the state with the queue's rest. -/
def Obligations.StepRunsFrontCommand : Prop :=
  ∀ (c : Instr) (rest : List Instr) (s : State), step { s with pending := c :: rest } = exec c { s with pending := rest }

/-- Every command whose operands lie within their fields answers a next state and leaves the waiting commands alone; a
command whose operands no field can carry is refused. -/
def Obligations.WellFormedCommandsComplete : Prop :=
  ∀ (c : Instr) (s : State),
    (wellFormed c = true → ∃ t, exec c s = .next t ∧ t.pending = s.pending) ∧
    (wellFormed c = false → ∃ m, exec c s = .refused (.illFormed m))

/-- Every step keeps the three memories in their canonical form: addresses strictly rising, no entry equal to what its
address reads as when it is not listed. -/
def Obligations.StepKeepsMemoriesCanonical : Prop := ∀ s t : State, s.memWf → step s = .next t → t.memWf

/-- The part after RESET_N rises on a fresh power-up: its memories in canonical form, and the named registers at the reset
values that their tables give (R37, R40, R42, R55, R73, R226, R238, R284, R289, R377, R429, R440, R442, R461, R479, R490, R510,
R523); the test port's IDCODE is the model's choice (log entry 27). -/
def Obligations.ResetState : Prop :=
  let r := State.reset
  r.memWf ∧ r.pending = [] ∧ r.time = 0 ∧
  r.tickSrc = 0b1000 ∧ r.framePeriod = 0x61A80 ∧ r.ftickWin = 0x20E6 ∧ r.overrunPolicy = 0 ∧ r.frameStatus = 0 ∧
  r.frm.frameNum = 0 ∧ r.frm.stepNum = 0 ∧ r.frm.lateLast = 0 ∧
  (∀ p < 192, r.bgtReg p false = 0x01F40001 ∧ r.bgtReg p true = 0x003C0001 ∧ r.bgtStat p false = 0 ∧ r.bgtStat p true = 0 ∧
    ∀ k < 16, r.nstState p k = 2 ∧ r.deckState p (16384 * k) = 2) ∧
  r.updStatus = 0 ∧ r.lrOverride = 0 ∧ r.ucieStatus = 0 ∧ r.clkAdapt = 2100 + 65536 * 2100 ∧
  r.pwrAvs = 0x0352 ∧ r.pwrCtl = 0x640 ∧ r.pwrStatus = 0 ∧ r.brtStatus = 0 ∧
  (∀ n < 13, r.logStat n = 0) ∧ (∀ n < 64, r.pghState n / 65536 = 0 ∧ r.pghState n % 256 = 0) ∧
  r.pins.jtag = .idcode ∧ r.pins.pwrFailN = true ∧ r.pins.thermtripN = true ∧
  (r.readReg 0x80000 = 2 ∧ r.readReg 0x80020 = 1000 ∧ r.readReg 0x10000 = 0 ∧ r.readReg 0x1F00C = 0x4BC)

/-! ### The control slot -/

/-- The sequencer's operations (R107-R111) change the sequencer alone. A loop opens at the level after the active loops with
a body that ends within the innermost: the LEN + 1 bundles that follow, run COUNT + 1 or s(A)[23:0] times. A wait for a tcyc
that is not later than the current one is a schedule fault 0x22.02 and no wait. -/
def Obligations.SequencerOperations : Prop :=
  ∀ (p : Pos) (s : State), s.issues p.val = true →
    (∀ g : BitVec 20, s.tcyc p.val < g.toNat →
      exec (.waitc p g) s = .next (s.onCore p.val (fun c => { c with waitNew := some g.toNat }))) ∧
    (∀ a : BitVec 4, s.tcyc p.val < (s.sReg p.val a.toNat).toNat →
      exec (.waits p a) s = .next (s.onCore p.val (fun c => { c with waitNew := some (s.sReg p.val a.toNat).toNat }))) ∧
    (∀ n : BitVec 16, (s.coreAt p.val).rptOn = false →
      exec (.rpt p n) s = .next (s.onCore p.val (fun c => { c with rpt := n.toNat }))) ∧
    (∀ g : BitVec 13, exec (.jmp p g) s = .next (s.onCore p.val (fun c => { c with jump := some g }))) ∧
    (∀ (a : BitVec 4) (g : BitVec 13), exec (.bnz p a g) s =
      .next (if s.sReg p.val a.toNat = 0 then s else s.onCore p.val (fun c => { c with jump := some g }))) ∧
    exec (.endOp p) s = .next (s.onCore p.val (fun c => { c with endNew := true })) ∧
    (∀ (level : BitVec 2) (len : BitVec 8), level.toNat = (s.coreAt p.val).loops.length →
      (∀ l ∈ (s.coreAt p.val).loops, ((s.coreAt p.val).pc + BitVec.ofNat 13 (len.toNat + 1) - l.first).toNat < l.len) →
      let opens (n : Nat) : State := s.onCore p.val (fun c =>
        { c with loopNew := some { first := c.pc + 1, len := len.toNat + 1, left := n } })
      (∀ count : BitVec 10, exec (.loop p level count len) s = .next (opens (count.toNat + 1))) ∧
      (∀ a : BitVec 4, exec (.loops p level a len) s = .next (opens ((s.sReg p.val a.toNat).toNat % 2 ^ 24)))) ∧
    (∀ g : BitVec 20, g.toNat ≤ s.tcyc p.val → exec (.waitc p g) s = .next (s.seqFault p.val 0x2202)) ∧
    (∀ a : BitVec 4, (s.sReg p.val a.toNat).toNat ≤ s.tcyc p.val →
      exec (.waits p a) s = .next (s.seqFault p.val 0x2202))

/-- After RPT with field n the bundle stays at the pc for n more tcyc, and the next one leaves it (R107): the bundle
issues n + 1 times. A loop of `left` iterations over a body of `len` bundles (R108), none of which opens a loop or
branches: after `left * len` bundles the pc stands behind the body and the loop is closed. END ends the core's program
for the frame and closes its loops; a branch goes to its address and closes the loops whose body does not hold it; a
wait begins with the next bundle (R107-R111). -/
def Obligations.SequencerRuns : Prop :=
  (∀ (c : CoreSt) (n : Nat), c.endNew = false → c.rpt = n →
    (∀ k ≤ n, (Nat.repeat CoreSt.sequence k c).pc = c.pc ∧ (Nat.repeat CoreSt.sequence k c).rpt = n - k) ∧
    (c.jump = none → c.loopNew = none → c.loops = [] → (Nat.repeat CoreSt.sequence (n + 1) c).pc = c.pc + 1)) ∧
  (∀ (c : CoreSt) (len left : Nat), 0 < len → len ≤ 256 → 0 < left → c.endNew = false → c.rpt = 0 → c.jump = none → c.loopNew = none →
    c.loops = [{ first := c.pc, len := len, left := left }] →
    (∀ k < left * len, (Nat.repeat CoreSt.sequence k c).pc = c.pc + BitVec.ofNat 13 (k % len)) ∧
    (Nat.repeat CoreSt.sequence (left * len) c).pc = c.pc + BitVec.ofNat 13 len ∧
    (Nat.repeat CoreSt.sequence (left * len) c).loops = []) ∧
  (∀ c : CoreSt,
    (c.endNew = true → c.sequence.ended = true ∧ c.sequence.loops = [] ∧ c.sequence.pc = c.pc) ∧
    (c.endNew = false → c.rpt = 0 → ∀ g, c.jump = some g →
      c.sequence.pc = g ∧ (∀ l ∈ c.sequence.loops, l ∈ c.loops ∧ l.holds g = true)) ∧
    (c.endNew = false → c.rpt = 0 → c.jump = none → c.loopNew = none → c.loops = [] → c.sequence.pc = c.pc + 1) ∧
    (c.endNew = false → c.rpt = 0 → ∀ w, c.waitNew = some w → c.sequence.waitTo = w))

/-- The scalar operations (R107) begin one result each, which lands at the end of the tcyc; PAGE (R113) on a free deck
port begins the fill of its page slot: granule k of the page at the end of tcyc t + k, the slot valid with the last.
MARK (R107, R513): with no log region that takes user marks nothing happens; else the position's free holding register
takes a record of type 2. -/
def Obligations.ControlSlotWrites : Prop :=
  (∀ (p : Pos) (s : State), s.issues p.val = true →
    let r (d : Dst) (w : Vec) : List Pend := [s.result p d 1 0 w fullMask]
    (∀ (d : BitVec 4) (x : BitVec 16), s.begins p (.setl p d x) (r (.s d.toNat) (x.setWidth 2048))) ∧
    (∀ (d : BitVec 4) (x : BitVec 16), s.begins p (.seth p d x)
      (r (.s d.toNat) ((x ++ (s.sReg p.val d.toNat).setWidth 16 : Word).setWidth 2048))) ∧
    (∀ (d a b f : BitVec 4), f.toNat < 8 → s.begins p (.salu p d a b f)
      (let x := s.sReg p.val a.toNat
       let y := s.sReg p.val b.toNat
       r (.s d.toNat) ((([x + y, x - y, x &&& y, x ||| y, x ^^^ y, x <<< (y.toNat % 32), x >>> (y.toNat % 32),
         x * y] : List Word).getD f.toNat 0).setWidth 2048))) ∧
    (∀ (a : BitVec 4) (d : BitVec 5), d.toNat < 24 → s.begins p (.movx p a d)
      (r (if d.toNat < 16 then .a d.toNat else .dp (d.toNat - 16)) ((s.sReg p.val a.toNat).setWidth 2048))) ∧
    (∀ (a : BitVec 4) (d : BitVec 5), 24 ≤ d.toNat → a.toNat % 2 = 0 → s.begins p (.movx p a d)
      (r (if d.toNat < 28 then .seed (d.toNat - 24) else .idx (d.toNat - 28))
        ((s.sReg p.val (a.toNat + 1) ++ s.sReg p.val a.toNat : DWord).setWidth 2048))) ∧
    (∀ (slot : BitVec 4) (code : BitVec 12), s.portFree p →
      let g := ((s.coreAt p.val).codeBase + 8192 * code.toNat) / 256
      s.begins p (.page p slot code) ((List.range 32).map (fun k =>
        s.result p (.page slot.toNat k (g + k)) (k + 1) 0 0 fullMask) ++ [s.result p (.pageValid slot.toNat) 32 0 0 fullMask]))) ∧
  (∀ (p : Pos) (val : BitVec 16) (s : State), s.issues p.val = true →
    let rs := s.recRegions 2 ((s.coreBerth p.val).getD 0xFF)
    (rs = [] → exec (.mark p val) s = .next s) ∧
    (rs ≠ [] → (s.rtrAt p.val).trace = none →
      ∃ t f, exec (.mark p val) s = .next t ∧ (t.rtrAt p.val).trace = some f ∧ f.pay.toNat % 256 = 2))

/-- A reserved scalar function, an odd register of a pair and a reserved vector format make the whole bundle act as NOP
with schedule fault 0x22.01 (R105): no result that this tcyc's bundle began stays on its way. -/
def Obligations.IllegalBundleIsNop : Prop :=
  ∀ (p : Pos) (s : State), s.issues p.val = true →
    let nop (i : Instr) : Prop := exec i s = .next (s.bundleNop p.val 0x2201)
    (∀ d a b f : BitVec 4, 8 ≤ f.toNat → nop (.salu p d a b f)) ∧
    (∀ (a : BitVec 4) (d : BitVec 5), 24 ≤ d.toNat → a.toNat % 2 = 1 → nop (.movx p a d)) ∧
    (∀ o : VOp, o.fmt = 3 → nop (.vadd p o) ∧ nop (.vmov p o) ∧ nop (.vrsum p o) ∧ nop (.dadd p o) ∧ nop (.vcvb p o)) ∧
    (∀ r ∈ ((s.bundleNop p.val 0x2201).coreAt p.val).pend, r.issue ≠ s.tcyc p.val ∨ r.rank = 4)

/-! ### The vector slot -/

/-- INT32 and bitwise operations, moves, selection and lane numbers (R123): lane by lane, latency 1. -/
def Obligations.VectorIntegerLanes : Prop :=
  ∀ (p : Pos) (o : VOp) (s : State), s.vecFree p → modOk o .none = true →
    let a := lane (s.vReg p.val o.va.toNat)
    let b := lane (s.vReg p.val o.vb.toNat)
    s.vecDoes p o 1 (.viadd p o) (fun k => a k + b k) ∧
    s.vecDoes p o 1 (.visub p o) (fun k => a k - b k) ∧
    s.vecDoes p o 1 (.vand p o) (fun k => a k &&& b k) ∧
    s.vecDoes p o 1 (.vor p o) (fun k => a k ||| b k) ∧
    s.vecDoes p o 1 (.vxor p o) (fun k => a k ^^^ b k) ∧
    s.vecDoes p o 1 (.vshl p o) (fun k => a k <<< ((b k).toNat % 32)) ∧
    s.vecDoes p o 1 (.vshr p o) (fun k => a k >>> ((b k).toNat % 32)) ∧
    s.vecDoes p o 1 (.vmov p o) a ∧
    s.vecDoes p o 1 (.vbc p o) (fun _ => s.sReg p.val (o.va.toNat % 16)) ∧
    s.vecDoes p o 1 (.vlane p o) (fun k => BitVec.ofNat 32 k) ∧
    s.vecDoes p o 1 (.vsel p o) (fun k => if (s.mReg p.val (o.imm % 4)).getLsbD k then a k else b k)

/-- VADD, VSUB, VMUL and VFMA (R122, R123): exact and rounded once as MOD says in FMT 0 and 1, modulo 2³² in FMT 2;
latency 4; a stochastic rounding advances IDX by 64. -/
def Obligations.VectorArithmeticLanes : Prop :=
  ∀ (p : Pos) (o : VOp) (s : State), s.vecFree p →
    modOk o (if o.fmt = 1 then .sr else if o.fmt = 0 then .noSr else .none) = true →
    let a := lane (s.vReg p.val o.va.toNat)
    let b := lane (s.vReg p.val o.vb.toNat)
    let c := lane (s.vReg p.val o.vc.toNat)
    let x (w : Word) : FpVal := laneNum o.fmt w
    let does (i : Instr) (f : Nat → FpVal) (g : Nat → Word) : Prop :=
      s.vecDoes p o 4 i (fun k => if o.fmt = 2 then g k else laneCode o.fmt (s.rndOf p.val o k) (f k))
        (if o.fmt = 1 then s.drawn p o else [])
    does (.vadd p o) (fun k => FpVal.add (x (a k)) (x (b k))) (fun k => a k + b k) ∧
    does (.vsub p o) (fun k => FpVal.add (x (a k)) (x (b k)).neg) (fun k => a k - b k) ∧
    does (.vmul p o) (fun k => FpVal.mul (x (a k)) (x (b k))) (fun k => a k * b k) ∧
    does (.vfma p o) (fun k => FpVal.add (FpVal.mul (x (a k)) (x (b k))) (x (c k))) (fun k => a k * b k + c k)

/-- VMAX, VMIN, VABS and VNEG (R122, R123): latency 1; INT32 lanes as signed numbers. VCMP writes bit k of its mask from
lane k; VRDP reads a partial-sum entry (R80). -/
def Obligations.VectorCompareLanes : Prop :=
  ∀ (p : Pos) (o : VOp) (s : State), s.vecFree p → modOk o .none = true →
    let a := lane (s.vReg p.val o.va.toNat)
    let b := lane (s.vReg p.val o.vb.toNat)
    let x (w : Word) : FpVal := laneNum o.fmt w
    s.vecDoes p o 1 (.vmax p o) (fun k =>
      if o.fmt = 2 then (if (a k).slt (b k) then b k else a k) else laneCode o.fmt .rne (FpVal.max (x (a k)) (x (b k)))) ∧
    s.vecDoes p o 1 (.vmin p o) (fun k =>
      if o.fmt = 2 then (if (a k).slt (b k) then a k else b k) else laneCode o.fmt .rne (FpVal.min (x (a k)) (x (b k)))) ∧
    s.vecDoes p o 1 (.vabs p o) (fun k =>
      if o.fmt = 0 then a k &&& 0x7FFFFFFF else if o.fmt = 1 then a k &&& 0x7FFF0000
      else if (a k).slt 0 then 0 - a k else a k) ∧
    s.vecDoes p o 1 (.vneg p o) (fun k =>
      if o.fmt = 0 then a k ^^^ 0x80000000 else if o.fmt = 1 then (a k ^^^ 0x80000000) &&& 0xFFFF0000 else 0 - a k) ∧
    (o.imm / 4 % 8 ≠ 7 → ∃ m : Vec, (∀ k < 64, m.getLsbD k = cmpCond o.fmt (o.imm / 4 % 8) (a k) (b k)) ∧
      s.begins p (.vcmp p o) [s.result p (.m (o.imm % 4)) 2 2 m (s.vMask p.val o)]) ∧
    s.vecDoes p o 2 (.vrdp p o) (lane (s.psum p.val (if o.imm % 2 = 0 then 0 else 1)
      ((s.sReg p.val (o.va.toNat % 16)).toNat % 128)))

/-- The transcendental operations (R126): an FP32 function of each lane, rounded to BF16 in FMT 1. Which bits a function
has where the spec gives none is free (log entry 6). -/
def Obligations.TranscendentalLanes : Prop :=
  ∀ (p : Pos) (o : VOp) (s : State), s.vecFree p → modOk o (if o.fmt = 1 then .sr else .none) = true → o.fmt ≠ 2 →
    let cut (w : Word) : Word := if o.fmt = 1 then w &&& 0xFFFF0000 else w
    let a (k : Nat) : Word := cut (lane (s.vReg p.val o.va.toNat) k)
    let b (k : Nat) : Word := cut (lane (s.vReg p.val o.vb.toNat) k)
    let does (i : Instr) (lat : Nat) (f : Nat → Word) : Prop :=
      s.vecDoes p o lat i (fun k => if o.fmt = 1 then laneCode 1 (s.rndOf p.val o k) (fp32.dec (f k).toNat) else f k)
        (if o.fmt = 1 then s.drawn p o else [])
    does (.vrcp p o) 8 (fun k => f32 (FpVal.div (.fin false 1 0) (fp32.dec (a k).toNat))) ∧
    does (.vsqrt p o) 8 (fun k => f32 (FpVal.sqrt (fp32.dec (a k).toNat))) ∧
    does (.vdiv p o) 12 (fun k => f32 (FpVal.div (fp32.dec (a k).toNat) (fp32.dec (b k).toNat))) ∧
    does (.vrsqrt p o) 8 (fun k => rsqrtOf (a k)) ∧
    does (.vexp2 p o) 10 (fun k => exp2Of (a k)) ∧
    does (.vlog2 p o) 10 (fun k => log2Of (a k)) ∧
    does (.vtanh p o) 14 (fun k => withInf 0x16 0xBF800000 0x3F800000 (a k)) ∧
    does (.vsigm p o) 14 (fun k => withInf 0x17 0 0x3F800000 (a k)) ∧
    does (.verf p o) 14 (fun k => withInf 0x18 0xBF800000 0x3F800000 (a k)) ∧
    does (.vsin p o) 14 (fun k => withInf 0x19 0x7FC00000 0x7FC00000 (a k)) ∧
    does (.vcos p o) 14 (fun k => withInf 0x1A 0x7FC00000 0x7FC00000 (a k))

/-- The row reductions (R125): the fixed tree over the lanes left by the predicate, its result in every lane of vd and,
with IMM[4], in s(IMM[3:0]). -/
def Obligations.RowReductions : Prop :=
  ∀ (p : Pos) (o : VOp) (s : State), s.vecFree p → modOk o .none = true →
    let m := s.predicate p.val o.pm
    let a := lane (s.vReg p.val o.va.toNat)
    let b := lane (s.vReg p.val o.vb.toNat)
    let num (f : FpVal → FpVal → FpVal) (g : Word → Word → Word) (x y : Word) : Word :=
      if o.fmt = 2 then g x y else laneCode o.fmt .rne (f (laneNum o.fmt x) (laneNum o.fmt y))
    let does (i : Instr) (lat : Nat) (f : Word → Word → Word) (xs : Nat → Word) : Prop :=
      ∃ (w : Word) (v : Vec), w = rowReduce f ((List.range 64).map xs) 0 ∧ (∀ k < 64, lane v k = w) ∧
        s.begins p i (s.result p (.v o.vd.toNat) lat 2 v fullMask ::
          (if o.imm / 16 % 2 = 1 then [s.result p (.s (o.imm % 16)) lat 2 (w.setWidth 2048) fullMask] else []))
    does (.vrsum p o) 8 (num FpVal.add (fun x y => x + y)) (fun k => if m.getLsbD k then a k else 0) ∧
    does (.vrmax p o) 8 (num FpVal.max (fun x y => if x.slt y then y else x))
      (fun k => if m.getLsbD k then a k else if o.fmt = 2 then 0x80000000 else 0xFF800000) ∧
    does (.vrmin p o) 8 (num FpVal.min (fun x y => if x.slt y then x else y))
      (fun k => if m.getLsbD k then a k else if o.fmt = 2 then 0x7FFFFFFF else 0x7F800000) ∧
    does (.vrdot p o) 10 (num FpVal.add (fun x y => x + y))
      (fun k => if m.getLsbD k then num FpVal.mul (fun x y => x * y) (a k) (b k) else 0)

/-- The FP64 operations on register pairs (R127): low words in the even register, latency 8 or 12. -/
def Obligations.DoubleOperations : Prop :=
  ∀ (p : Pos) (o : VOp) (s : State), s.vecFree p → modOk o .none = true →
    let d (r : BitVec 5) (k : Nat) : FpVal := fp64.dec (s.pairAt p.val r.toNat k)
    let does (i : Instr) (lat : Nat) (mask : BitVec 256) (f : Nat → Nat) : Prop :=
      ∃ lo hi : Vec, (∀ k < 64, lane lo k = BitVec.ofNat 32 (f k) ∧ lane hi k = BitVec.ofNat 32 (f k / 2 ^ 32)) ∧
        s.begins p i [s.result p (.v o.vd.toNat) lat 2 lo mask, s.result p (.v (o.vd.toNat + 1)) lat 2 hi mask]
    (evenReg o.vd = true → evenReg o.va = true → evenReg o.vb = true →
      does (.dadd p o) 8 (s.vMask p.val o) (fun k => fp64.enc .rne (FpVal.add (d o.va k) (d o.vb k))) ∧
      does (.dmul p o) 8 (s.vMask p.val o) (fun k => fp64.enc .rne (FpVal.mul (d o.va k) (d o.vb k)))) ∧
    (evenReg o.vd = true → evenReg o.va = true → evenReg o.vb = true → evenReg o.vc = true →
      does (.dfma p o) 8 (s.vMask p.val o) (fun k => fp64.enc .rne (FpVal.add (FpVal.mul (d o.va k) (d o.vb k)) (d o.vc k)))) ∧
    (evenReg o.vd = true → evenReg o.va = true →
      does (.drsum p o) 12 fullMask (fun _ => rowReduce (fun x y => fp64.enc .rne (FpVal.add (fp64.dec x) (fp64.dec y)))
        ((List.range 64).map (fun k => if (s.predicate p.val o.pm).getLsbD k then s.pairAt p.val o.va.toNat k else 0)) 0)) ∧
    (o.imm % 2 = 0 → evenReg o.vd = true →
      does (.dcvt p o) 8 (s.vMask p.val o) (fun k => fp64.enc .rne (fp32.dec (lane (s.vReg p.val o.va.toNat) k).toNat))) ∧
    (o.imm % 2 = 1 → evenReg o.va = true → s.vecDoes p o 8 (.dcvt p o) (fun k => f32 (d o.va k)))

/-- The conversions (R91, R123, R128): each of latency 4. -/
def Obligations.ConversionLanes : Prop :=
  ∀ (p : Pos) (o : VOp) (s : State), s.vecFree p →
    let a := s.vReg p.val o.va.toNat
    let b := s.vReg p.val o.vb.toNat
    (modOk o .none = true → ∀ f, elemOf (o.imm % 16) = some f → s.vecDoes p o 4 (.vcvf p o) (fun k =>
      let sc := (lane b (k / 32)).toNat % 256
      if sc = 0xFF then 0x7FC00000 else f32 ((f.dec (packedCode f a k)).scale ((sc : Int) - 127)))) ∧
    (modOk o .sr = true → ∀ f, elemOf (o.imm % 16) = some f →
      let vs := (lanesOf a).map (fun w => fp32.dec w.toNat)
      let x := convBlock f (fun i => s.rndOf p.val o i) (vs.take 32)
      let y := convBlock f (fun i => s.rndOf p.val o (32 + i)) (vs.drop 32)
      s.begins p (.vcvm p o) ([s.result p (.v o.vd.toNat) 4 2
          (BitVec.ofNat 2048 (((x.1 ++ y.1).zipIdx.map (fun c => c.1 * 2 ^ (f.bits * c.2))).foldl (· + ·) 0)) (s.vMask p.val o),
        s.result p (.v o.vc.toNat) 4 2 (BitVec.ofNat 2048 (x.2.1 + 2 ^ 32 * y.2.1)) 3] ++ s.drawn p o)) ∧
    (modOk o .sr = true → s.vecDoes p o 4 (.vcvb p o)
      (fun k => laneCode 1 (s.rndOf p.val o k) (fp32.dec (lane a k).toNat)) (s.drawn p o)) ∧
    (o.imm % 2 = 0 → modOk o .noSr = true → s.vecDoes p o 4 (.vcvi p o)
      (fun k => toInt32 (if o.rnd = 2 then .rz else .rne) (fp32.dec (lane a k).toNat))) ∧
    (o.imm % 2 = 1 → modOk o .none = true → s.vecDoes p o 4 (.vcvi p o) (fun k => f32 (.ofInt (lane a k).toInt 0)))

/-- UPDATE (R129, R275-R279) when its constants have arrived in the commit phase: the four address registers advance and
IDX3 by 64, both slots are taken for 4 tcyc; a frozen block or a gate that is shut writes nothing, a live block begins
the writes of its parameters, moments and variances that land at t + 11. -/
def Obligations.UpdateIssues : Prop :=
  ∀ (p : Pos) (o : VOp) (s : State) (h : FrameHdr) (g : Bool), s.vecFree p → s.memFree p →
    updateOk o = true → (s.coreAt p.val).mAt ≠ some (s.tcyc p.val) →
    s.hdr = some h → h.last = true → h.c + h.g ≤ s.tcyc p.val → s.upd.arrived = true →
    (s.cluAt (posClu p.val)).gate = some g → (tfind s.upd.groups o.imm).isSome = true → s.updateWakes p.val o = false →
    let idx := s.result p (.idxAdd 3) 1 2 64 fullMask
    let frozen := (s.sReg p.val o.vd.toNat).getLsbD o.vb.toNat
    (g = false ∨ frozen = true → s.begins p (.update p o) [idx]) ∧
    (g = true → frozen = false → ∃ ws, s.begins p (.update p o) (idx :: ws) ∧
      ws.length = (if o.fmt = 0 then 4 else 2) + 2 + 2 ∧
      ∀ w ∈ ws, w.due = s.tcyc p.val + 11 ∧ ∃ row tier, w.dst = .nst row tier)

/-! ### The memory slot -/

/-- LD (R115): latency 3; FP32 words, BF16 values in bits [31:16], bytes zero-extended, or one row into lanes 0 to 15. -/
def Obligations.LoadLanes : Prop :=
  ∀ (p : Pos) (v : BitVec 5) (a : BitVec 4) (w : BitVec 2) (s : State), s.memFree p →
    let row := rowOf (s.aReg p.val a.toNat)
    s.rowsOn p row (widthRows w.toNat) →
    let at_ (b n : Nat) : Nat := s.nst.read (nstAddr p.val (row + b / 64) + b % 64) n
    ∃ x : Vec, s.begins p (.ld p v a w) [s.result p (.v v.toNat) 3 1 x fullMask] ∧
      ∀ k < 64, lane x k =
        (match w.toNat with
         | 0 => BitVec.ofNat 32 (at_ (4 * k) 4)
         | 1 => BitVec.ofNat 32 (65536 * at_ (2 * k) 2)
         | 2 => BitVec.ofNat 32 (at_ k 1)
         | _ => if k < 16 then BitVec.ofNat 32 (at_ (4 * k) 4) else 0)

/-- ST under its predicate, STA and PSD (R115, R224) begin the writes of their rows, modulo 32,768, and name their address
register, which advances at the end of the tcyc. DKRD and DKWR (R115): 256 B between a powered deck granule and four
near-store rows, over the deck port. -/
def Obligations.StoresAndCopies : Prop :=
  (∀ (p : Pos) (v : BitVec 5) (a : BitVec 4) (s : State), s.memFree p →
    let row := rowOf (s.aReg p.val a.toNat)
    let part (x k : Nat) : Vec := BitVec.ofNat 2048 (x / 2 ^ (512 * k) % 2 ^ 512)
    let rows (lat n x mask : Nat) : List Pend := (List.range n).map (fun k =>
      s.result p (.nst ((row + k) % 32768) 2) lat 1 (part x k) (BitVec.ofNat 256 (mask / 2 ^ (64 * k) % 2 ^ 64)))
    let does (i : Instr) (rs : List Pend) : Prop :=
      ∃ t, exec i s = .next t ∧ (t.coreAt p.val).pend = (s.coreAt p.val).pend ++ rs ∧
        (t.coreAt p.val).advA = (s.coreAt p.val).advA ++ [(a.toNat, 1)]
    (∀ w pm : BitVec 2, let x := storeValue w.toNat (s.vReg p.val v.toNat) (s.predicate p.val pm.toNat)
      does (.st p v a w pm) (rows 1 (widthRows w.toNat) x.1 x.2)) ∧
    does (.sta p v a 0) ((List.range 4).map (fun k =>
      s.result p (.nstAdd ((row + k) % 32768) 0 1) 1 1 (part (s.vReg p.val v.toNat).toNat k) fullMask)) ∧
    does (.sta p v a 1) ((List.range 2).map (fun k => s.result p (.nstAdd ((row + k) % 32768) 1 1) 1 1
      (part (storeValue 1 (s.vReg p.val v.toNat) (BitVec.allOnes 64)).1 k) fullMask)) ∧
    (∀ (arr : Arr) (e : BitVec 7), does (.psd p a arr e) (rows 2 4
      ((s.psum p.val arr e.toNat).toNat % (if s.isBf16 p.val arr then 2 ^ 1024 else 2 ^ 2048)) (2 ^ 256 - 1)))) ∧
  (∀ (p : Pos) (a : BitVec 4) (dp : BitVec 3) (s : State), s.memFree p → s.portFree p →
    let g := granOf (s.dpReg p.val dp.toNat)
    let row := rowOf (s.aReg p.val a.toNat)
    (s.granOn p g → s.begins p (.dkrd p a dp) ((List.range 4).map (fun k =>
      s.result p (.nst ((row + k) % 32768) 2) 3 1 (BitVec.ofNat 2048 (s.deck.read (deckAddr p.val g + 64 * k) 64))
        (BitVec.ofNat 256 (2 ^ 64 - 1))))) ∧
    (s.rowsOn p row 4 → ∃ x : Vec, s.begins p (.dkwr p a dp) [s.result p (.gran g) 3 1 x fullMask] ∧
      ∀ k < 4, x.toNat / 2 ^ (512 * k) % 2 ^ 512 = s.nst.read (nstAddr p.val (row + k)) 64))

/-- LDL takes a published granule of an inbound landing buffer and spends one use of it; STL fills a free granule of an
outbound one, produced when its bytes are there (R117, R249-R251). On any other granule they hold the cluster and begin
nothing (R50). -/
def Obligations.LandingBufferAccess : Prop :=
  ∀ (p : Pos) (a : BitVec 4) (dp : BitVec 3) (d : BitVec 6) (b : BufDesc) (s : State), s.memFree p → s.portFree p →
    let x := s.ctxAt (ctxKey 0 p.val d.toNat)
    let row := rowOf (s.aReg p.val a.toNat)
    let o := granOf (s.dpReg p.val dp.toNat) % max b.size 1
    x.desc = some b → x.status ≠ .unused → x.status ≠ .aborted →
    (∀ n, b.kind = 1 → tget x.grans o .free = .published n → s.granOn p (b.base + o) →
      s.begins p (.ldl p a dp d) (s.result p (.used d.toNat o) 1 1 0 fullMask :: (List.range 4).map (fun k =>
        s.result p (.nst ((row + k) % 32768) 2) 3 1 (BitVec.ofNat 2048 (s.deck.read (deckAddr p.val (b.base + o) + 64 * k) 64))
          (BitVec.ofNat 256 (2 ^ 64 - 1))))) ∧
    (b.kind = 2 ∨ b.kind = 3 → tget x.grans o .free = .free → s.rowsOn p row 4 →
      ∃ v : Vec, s.begins p (.stl p a dp d) [s.result p (.gran (b.base + o)) 3 1 v fullMask,
        s.result p (.produced d.toNat o) 3 1 0 fullMask] ∧
      ∀ k < 4, v.toNat / 2 ^ (512 * k) % 2 ^ 512 = s.nst.read (nstAddr p.val (row + k)) 64) ∧
    (let holds (i : Instr) : Prop := ∃ t c, exec i s = .next t ∧
       (t.cluAt (posClu p.val)).held = (s.cluAt (posClu p.val)).held ++ [i] ∧
       (t.cluAt (posClu p.val)).cause = some c ∧ (t.coreAt p.val).pend = (s.coreAt p.val).pend
     (b.kind = 1 → (∀ n, tget x.grans o .free ≠ .published n) → holds (.ldl p a dp d)) ∧
     (b.kind = 2 ∨ b.kind = 3 → tget x.grans o .free ≠ .free → holds (.stl p a dp d)))

/-- DKRT (R115, R145, R233): 16 tcyc of the deck port; toward a stop it hands over its granule. -/
def Obligations.TransposedReads : Prop :=
  ∀ (p : Pos) (a : BitVec 4) (dp : BitVec 3) (s : State), s.memFree p → s.portFree p →
    let g := granOf (s.dpReg p.val dp.toNat)
    let row := rowOf (s.aReg p.val a.toNat)
    s.granWake p.val g = false →
    s.begins p (.dkrt p a dp 1) [s.result p (.toStop g) 1 3 0 fullMask] ∧
    ((s.cfgReg p.val 0).toNat % 16 = 8 ∨ (s.cfgReg p.val 0).toNat % 16 = 9 → g % 16 = 0 → s.begins p (.dkrt p a dp 0)
      ((List.range 16).map (fun k => s.result p (.turn k (g + k)) (k / 2 + 1) 3 0 fullMask) ++
       (List.range 64).map (fun k => s.result p (.turned k ((row + k) % 32768) true) (9 + k / 8) 3 0 fullMask))) ∧
    ((s.cfgReg p.val 0).toNat % 16 = 0 ∨ (s.cfgReg p.val 0).toNat % 16 = 2 → g % 16 = 0 → g % 16384 ≠ 16368 → s.begins p (.dkrt p a dp 0)
      ((List.range 16).map (fun k => s.result p (.turn k (g + k)) (k / 2 + 1) 3 0 fullMask) ++
       [s.result p (.turn 16 (g + 16)) 9 3 0 fullMask] ++
       (List.range 64).map (fun k => s.result p (.turned k ((row + k) % 32768) false) (9 + k / 8) 3 0 fullMask)))

/-- PUSH and POP of an activation stack with room and with a resident top by the counts from before this clk (R118, R160-R162). PUSH on a full stack is a
schedule fault 0x22.0C and POP on an empty one 0x22.0B (R160): nothing is pushed or popped. -/
def Obligations.StackPushPop : Prop :=
  ∀ (p : Pos) (a : BitVec 4) (d : StackDesc) (s : State), s.memFree p → s.portFree p →
    let k := s.stkAt p.val
    let row := rowOf (s.aReg p.val a.toNat)
    k.desc = some d →
    (k.depth < d.size + d.spillSize → k.depth - k.rbSeen < d.size → s.rowsOn p row 4 →
      ∃ v : Vec, s.begins p (.push p a) [s.result p (.gran (d.base + k.depth % max d.size 1)) 3 1 v fullMask,
        s.result p (.depth (k.depth + 1)) 1 1 0 fullMask] ∧
      ∀ j < 4, v.toNat / 2 ^ (512 * j) % 2 ^ 512 = s.nst.read (nstAddr p.val (row + j)) 64) ∧
    (let g := d.base + (k.depth - 1) % max d.size 1
     k.rbSeen < k.depth → s.granOn p g →
      s.begins p (.pop p a) ((List.range 4).map (fun j =>
        s.result p (.nst ((row + j) % 32768) 2) 3 1 (BitVec.ofNat 2048 (s.deck.read (deckAddr p.val g + 64 * j) 64))
          (BitVec.ofNat 256 (2 ^ 64 - 1))) ++ [s.result p (.depth (k.depth - 1)) 1 1 0 fullMask])) ∧
    (k.depth = d.size + d.spillSize →
      s.begins p (.push p a) [] ∧ ∃ t, exec (.push p a) s = .next t ∧ t.leafBit p 0x220C = true) ∧
    (k.depth = 0 → s.begins p (.pop p a) [] ∧ ∃ t, exec (.pop p a) s = .next t ∧ t.leafBit p 0x220B = true)

/-! ### The array slot -/

/-- FEED in a defined mode whose rows are in no waking bank (R79, R80, R121): its result lands at the end of tcyc t + 14
on the columns of the mode, the entry pointer moves on and the address register is named; an array without a configured
mode writes NaN to all lanes (the model's choice, log entry 86). CFG of a word that keeps R121, SWAP of a whole
shadow tile and LATCH of a tile that qualifies (R77, R120, R146). -/
def Obligations.ArraySlotOperations : Prop :=
  (∀ (p : Pos) (arr : Arr) (acc : Bool) (f : BitVec 4) (s : State), s.issues p.val = true →
    let m := (s.cfgReg p.val arr).toNat % 16
    let e := s.entReg p.val arr
    let enters (P : List Pend → Prop) : Prop :=
      ∃ t rs, exec (.feed p arr acc f) s = .next t ∧ (t.coreAt p.val).pend = (s.coreAt p.val).pend ++ rs ∧ P rs ∧
        (∃ sp u r, s.result p (.feeder arr (nextEntry (s.cfgReg p.val arr) e) sp u r) 1 3 0 fullMask ∈ rs) ∧
        (t.coreAt p.val).advA = (s.coreAt p.val).advA ++ [(f.toNat, 3)]
    (modeInfo m = none → enters (fun rs =>
      s.result p (.psum arr e acc) 15 3 (ofLanes (List.replicate 64 0x7FC00000)) fullMask ∈ rs)) ∧
    (∀ i, modeInfo m = some i → s.feedWakes p.val arr f.toNat = false →
      enters (fun rs => ∃ v, s.result p (.psum arr e acc) 15 3 v (colMask i.cols) ∈ rs))) ∧
  (∀ (p : Pos) (arr : Arr) (s : State), s.issues p.val = true →
    (∀ f : BitVec 4, f.toNat % 2 = 0 → badCfg (s.sReg p.val f.toNat) (s.sReg p.val (f.toNat + 1)) = false →
      s.begins p (.cfg p arr f) [s.result p (.cfg arr) 1 3
        ((s.sReg p.val f.toNat).setWidth 2048 ||| ((s.sReg p.val (f.toNat + 1)).setWidth 2048 <<< 32)) fullMask]) ∧
    (∀ tile, ((s.coreAt p.val).arr arr).shadow = .full tile → s.begins p (.swap p arr) [s.result p (.swap arr) 1 3 0 fullMask]) ∧
    (let x := s.stopAt (2 * p.val + arr.val)
     let r0 := x.slot0.ready (s.tcyc p.val)
     let r1 := x.slot1.ready (s.tcyc p.val)
     ((s.coreAt p.val).arr arr).isLatching = false → r0 || r1 →
      s.begins p (.latch p arr) [s.result p (.latch arr
        (if r0 && (!r1 || decide (x.slot0.order ≤ x.slot1.order)) then 0 else 1)) 1 5 0 fullMask]))

/-! ### The network slot -/

/-- SEND reads a powered row, or sends a nil where COND finds 0; RECV, RECVA, RECVA.B and DROP pop the head of the ejection
queue, and the first three begin the write of a flit that is no nil (R119, R204). -/
def Obligations.NetworkSlot : Prop :=
  ∀ (p : Pos) (a sa : BitVec 4) (s : State), s.issues p.val = true →
    let row := rowOf (s.aReg p.val a.toNat)
    (∀ cond : Bool, s.rowsOn p row 1 → (if cond then s.sReg p.val sa.toNat ≠ 0 else sa = 0) → s.begins p (.send p a sa cond)
      [s.result p (.inject false) 1 3 (BitVec.ofNat 2048 (s.nst.read (nstAddr p.val row) 64)) fullMask]) ∧
    (s.sReg p.val sa.toNat = 0 → s.begins p (.send p a sa true) [s.result p (.inject true) 1 3 0 fullMask]) ∧
    (∀ f, s.ejHead p.val = some f →
      let pop := s.result p .eject 1 3 0 fullMask
      let more (r : Pend) : List Pend := if f.side.getLsbD 0 then [pop, r] else [pop]
      s.begins p (.recv p a) (more (s.result p (.nst row 1) 3 3 (f.pay.setWidth 2048) (BitVec.ofNat 256 (2 ^ 64 - 1)))) ∧
      s.begins p (.recva p a) (more (s.result p (.nstAdd row 0 1) 6 3 (f.pay.setWidth 2048) fullMask)) ∧
      s.begins p (.recvaB p a) (more (s.result p (.nstAdd row 1 1) 6 3 (f.pay.setWidth 2048) fullMask)) ∧
      s.begins p (.drop p) [pop])

/-! ### What a command of a core, a stop or a router leaves as it was -/

/-- No command of a core's slots, of a Ferry stop or of a router changes a register of a core or a byte of memory when it
is issued: its results land at the end of their tcyc, with the clock (R105). -/
def Obligations.IssueLeavesRegistersAndMemory : Prop :=
  ∀ (i : Instr) (s t : State), isCoreCommand i = true → exec i s = .next t → s.sameRegs t ∧ s.sameMem t

/-- A result that lands is what its register then reads (R102, R105): a scalar whole, a vector on the lanes of its mask
(R123); a SWAP makes the shadow tile the active one (R77), a configuration sets the word and the entry pointer (R121).
The other registers of every core and every byte of memory read as before. A named address register advances by its
STRIDE once for each slot that named it, ROW modulo 32,768 (R103), the registers that no slot named stay. -/
def Obligations.LandingAndAdvance : Prop :=
  (∀ (p : Pos) (n : Nat) (arr : Arr) (x : Pend) (s : State),
    let t := s.landReg p.val x
    s.sameMem t ∧
    (n < 16 → x.dst = .s n → t.sReg p.val n = x.val.setWidth 32 ∧
      (∀ q m, m < 16 → (q, m) ≠ (p.val, n) → t.sReg q m = s.sReg q m) ∧
      (∀ q m, t.aReg q m = s.aReg q m ∧ t.dpReg q m = s.dpReg q m ∧ t.vReg q m = s.vReg q m ∧ t.mReg q m = s.mReg q m ∧
        t.seedReg q m = s.seedReg q m ∧ t.idxReg q m = s.idxReg q m)) ∧
    (n < 32 → x.dst = .v n →
      (∀ k < 64, lane (t.vReg p.val n) k = if x.mask.getLsbD k then lane x.val k else lane (s.vReg p.val n) k) ∧
      (∀ q m, m < 32 → (q, m) ≠ (p.val, n) → t.vReg q m = s.vReg q m) ∧ (∀ q m, t.sReg q m = s.sReg q m)) ∧
    (x.dst = .swap arr → ∀ tile, ((s.coreAt p.val).arr arr).shadow = .full tile →
      ((t.coreAt p.val).arr arr).active = tile ∧ ((t.coreAt p.val).arr arr).shadow = .none) ∧
    (x.dst = .cfg arr → t.cfgReg p.val arr = x.val.setWidth 32 ∧
      t.entReg p.val arr = (x.val.setWidth 32 : Word).toNat / 64 % 128)) ∧
  (∀ (p : Pos) (n : Nat) (s : State), n < 16 →
    (s.advance p.val).aReg p.val n = advRow (s.aReg p.val n) ((s.coreAt p.val).advA.filter (fun e => e.1 == n)).length ∧
    (∀ w k, rowOf (advRow w k) < 32768 ∧ (advRow w k).extractLsb' 15 17 = w.extractLsb' 15 17))

/-! ### Near store and deck -/

/-- A masked write of a powered near-store row (R217): byte k becomes the value's where bit k of the mask is set; a write
of a powered deck granule that is present: its 256 bytes. Every other byte of every memory reads as before. An access
to a near-store bank in retention or off reads zero or writes nothing (R228). -/
def Obligations.TimetabledAccess : Prop :=
  (∀ (p : Pos) (s : State),
    (∀ (row : Nat) (v : Row) (mask : BitVec 64), s.nstState p.val row = 0 → s.underScrub 0 (nstAddr p.val row) = false →
    let t := s.writeRow p.val row v mask
    (∀ k < 64, t.nst.get (nstAddr p.val row + k) =
      if mask.getLsbD k then BitVec.ofNat 8 (v.toNat / 256 ^ k) else s.nst.get (nstAddr p.val row + k)) ∧
    (∀ a, a < nstAddr p.val row ∨ nstAddr p.val row + 64 ≤ a → t.nst.get a = s.nst.get a) ∧
    (∀ a, t.deck.get a = s.deck.get a ∧ t.lp.get a = s.lp.get a)) ∧
    (∀ (g : Nat) (v : Vec), s.granOn p g →
    let t := s.writeGran p.val g v
    (∀ k < 256, t.deck.get (deckAddr p.val g + k) = BitVec.ofNat 8 (v.toNat / 256 ^ k)) ∧
    (∀ a, a < deckAddr p.val g ∨ deckAddr p.val g + 256 ≤ a → t.deck.get a = s.deck.get a) ∧
    (∀ a, t.nst.get a = s.nst.get a ∧ t.lp.get a = s.lp.get a))) ∧
  (∀ (p : Pos) (row : Nat) (v : Row) (mask : BitVec 64) (s : State), s.nstState p.val row ≠ 0 →
    s.underScrub 0 (nstAddr p.val row) = false →
    (s.readRow p.val row).2 = 0 ∧ s.sameMem (s.readRow p.val row).1 ∧ s.sameMem (s.writeRow p.val row v mask))

/-! ### The Ferry ring and the mesh -/

/-- PASS forwards the flit that arrives as its entry says, SINK stores it, TAKE does both (R140, R142); where none arrives SINK
and TAKE store zero bytes. A SEND of the train table sends flit i of its slot with the entry's fields, its first one takes the
slot and its last one ends it, and a tile of zeros goes as an empty-tile marker (R140, R143, R146, R147). An entry with a reserved
encoding acts as END: the stop's table works no more from there in this frame (R139, R152). -/
def Obligations.FerryLanes : Prop :=
  ∀ (p : Pos) (arr : Arr) (e : BitVec 128) (i : BitVec 8) (s : State), s.stopRuns p.val arr e i.toNat = true →
    let k := 2 * p.val + arr.val
    let t := s.tcyc p.val
    (badTrain e = true → ∀ c : Instr, (enOp e = 1 ∧ c = .pass p arr e i) ∨ (enOp e = 2 ∧ c = .take p arr e i) ∨
        (enOp e = 3 ∧ c = .sink p arr e i) ∨ (enOp e = 4 ∧ c = .ferrySend p arr e i) →
      ∃ u, exec c s = .next u ∧ (u.stopAt k).tableEnd.isSome = true ∧ u.ferryFly = s.ferryFly) ∧
    (badTrain e = false → ∀ (u : State) (f : Option Flit), s.checkArrival p.val arr e i.toNat = (u, f) →
      let on (w : State) : State := match f with | some g => w.sendLane p.val arr (enLane e) g | none => w
      (enOp e = 1 → exec (.pass p arr e i) s = .next (on u)) ∧
      (enOp e = 3 → exec (.sink p arr e i) s = .next (u.storeFlit p.val arr e i.toNat f)) ∧
      (enOp e = 2 → exec (.take p arr e i) s = .next (on (u.storeFlit p.val arr e i.toNat f)))) ∧
    (badTrain e = false → enOp e = 4 →
      s.ferryFly.find? (fun l => l.dst == k && l.port == enLane e && l.due == t) = none →
      let x := (s.stopAt k).slotAt (enBuf e)
      let sends (w : State) (f : Flit) : Prop := exec (.ferrySend p arr e i) s = .next (
        let v := w.sendLane p.val arr (enLane e) f
        if i.toNat + 1 = enLen e then v.onSlot k (enBuf e) (fun x => { x with sending := none, sent := true }) else v)
      let flit (g : SlotFlit) : Flit := ferryFlit false g.poison (enMode e) (enWfmt e) (enKind e) i.toNat (enTag e) g.pay
      let good := s.upsetIn .stopBuf k (flitWord (enBuf e) i.toNat) 8 = (false, false)
      let taken := s.onSlot k (enBuf e) (fun x => { x with sending := some (t, e) })
      x.used = true →
      (i = 0 → x.sent = false → x.sending = none →
        (x.emptyTile t = false → good → ∀ g, x.flitAt 0 t = some g → sends taken (flit g)) ∧
        (x.emptyTile t = true → sends (taken.setStop k ((taken.stopAt k).setMk (enLane e) (t + enLen e - 1)))
          (ferryFlit true x.markBad (enMode e) (enWfmt e) (enKind e) 0 (enTag e) 0))) ∧
      (i ≠ 0 → x.sending = some (t - i.toNat, e) → (s.stopAt k).mkUntil (enLane e) < t → good →
        ∀ g, x.flitAt i.toNat t = some g → sends s (flit g)))

/-- FETCH and the LOAD of a train table begin their deck reads on a free port; ACCEPT leaves the stop waiting for a DKRT
(R141, R143, R144, R145, R148). A FETCH into an occupied slot reads and stores nothing. -/
def Obligations.FerryDeckOperations : Prop :=
  ∀ (p : Pos) (arr : Arr) (e : BitVec 128) (s : State), s.stopRuns p.val arr e 0 = true → badTrain e = false →
    let mk (d : Dst) (lat : Nat) : Pend :=
      { dst := d, due := s.tcyc p.val + lat, issue := s.tcyc p.val, rank := 4, val := 0, mask := 0 }
    let occupied := ((s.stopAt (2 * p.val + arr.val)).slotAt (enBuf e)).used
    (enOp e = 5 → s.portFree p → e.getLsbD 35 = false →
      s.begins p (.fetch p arr e) ((List.range ((enLen e + 3) / 4)).map (fun j =>
        mk (.fetched arr (enBuf e) j (enGran e + j) (enLen e) occupied) j))) ∧
    (enOp e = 5 → s.portFree p → e.getLsbD 35 = true → occupied = false →
      (enMode e = 8 → enGran e % 16 = 0 → s.begins p (.fetch p arr e)
        ((List.range 16).map (fun k => mk (.turn k (enGran e + k)) (k / 2)) ++ [mk (.turnStop arr (enBuf e) (enLen e) true) 16])) ∧
      (enMode e = 0 ∨ enMode e = 2 → enGran e % 16 = 0 → enGran e % 16384 ≠ 16368 → s.begins p (.fetch p arr e)
        ((List.range 16).map (fun k => mk (.turn k (enGran e + k)) (k / 2)) ++
        [mk (.turn 16 (enGran e + 16)) 8, mk (.turnStop arr (enBuf e) (enLen e) false) 16])) ∧
      (enMode e ≠ 0 → enMode e ≠ 2 → enMode e ≠ 8 →
        s.begins p (.fetch p arr e) [mk (.zeroStop arr (enBuf e) (enLen e)) 16])) ∧
    (enOp e = 7 → s.portFree p → s.begins p (.trainTableLoad p arr e)
      ((List.range (enLen e)).map (fun j => mk (.trainLoad arr j (enGran e + j)) j) ++ [mk (.trainDone arr) (enLen e)])) ∧
    (enOp e = 6 → exec (.accept p arr e) s = .next (s.setStop (2 * p.val + arr.val)
      { s.stopAt (2 * p.val + arr.val) with wantDkrt := some (enBuf e, e) }))

/-- A router's FWD sends the flit it pops on every output of its mask, or does what its standby entry says; a merge pair with
one mask sends the sum of its two flits where its adders agree (R185, R188, R193, R194, R196, R197). POOLRD at a fenced position
reads its rows one a tcyc, at a live one it has no port and does nothing; the LOAD of a slot table reads its granules through the
free port; a flit at a closed gate is counted and dropped (R186, R187, R201, R202). -/
def Obligations.RouterOperations : Prop :=
  (∀ (p : Pos) (e : BitVec 128) (i : BitVec 8) (s : State), s.rtrRuns p.val e i.toNat = true → badSlot e = false → enOp e = 1 →
    let idx := (s.rtrAt p.val).entryIdx e (s.tcyc p.val)
    let row := (seRow e + i.toNat) % 2 ^ 20
    (seStandby e = false → ∀ (u : State) (f : Flit), s.popIn p.val e (seMain e) true none = (u, f) →
      exec (.fwd p e i) s = .next (u.sendOuts p.val (seMain e).inp idx (seOut e) row f)) ∧
    (seStandby e = true → exec (.fwd p e i) s = .next (s.standby p.val e idx row))) ∧
  (∀ (p : Pos) (e e2 : BitVec 128) (s : State),
    let r := s.rtrAt p.val
    let t := s.tcyc p.val
    s.rtrRuns p.val e (r.entryStep e t) = true → s.rtrRuns p.val e2 (r.entryStep e2 t) = true → badSlot e = false →
    badSlot e2 = false → fld e 34 32 < fld e2 34 32 → seOut e = seOut e2 →
    ∀ fmt < 2, enOp e = 2 + fmt → enOp e2 = 2 + fmt → ∀ (u w : State) (f g : Flit),
      s.popIn p.val e (seMain e) true (some (fmt + 1)) = (u, f) → u.popIn p.val e2 (seMain e2) true (some (fmt + 1)) = (w, g) →
      w.upset .adder p.val 0 = .good → ∀ c ∈ (if fmt = 0 then [Instr.merge32 p e e2, .merge32 p e2 e] else [.merge16 p e e2, .merge16 p e2 e]),
      exec c s = .next (w.sendOuts p.val (seMain e).inp (r.entryIdx e t) (seOut e) ((seRow e + r.entryStep e t) % 2 ^ 20)
        (mergeFlits fmt f g ((Config.choice w.fresh).getLsbD 0))).tickFresh) ∧
  (∀ (p : Pos) (e : BitVec 128) (s : State), s.rtrRuns p.val e 0 = true → badSlot e = false →
    let mk (d : Dst) (lat v : Nat) : Pend :=
      { dst := d, due := s.tcyc p.val + lat, issue := s.tcyc p.val, rank := 4, val := BitVec.ofNat 2048 v, mask := 0 }
    (enOp e = 4 → s.isFenced p.val = true → s.begins p (.poolrd p e) ((List.range (seLen e)).map (fun k =>
      mk (.poolRead ((seRow e + k) % 2 ^ 20) (seMain e).tag) k ((s.rtrAt p.val).entryIdx e (s.tcyc p.val))))) ∧
    (enOp e = 4 → s.isFenced p.val = false → exec (.poolrd p e) s = .next s) ∧
    (enOp e = 5 → (if s.isFenced p.val then (s.rtrAt p.val).poolBusy ≤ s.tcyc p.val ∧
        ∀ x ∈ (s.coreAt p.val).pend, x.due = s.tcyc p.val → ∀ r g, x.dst ≠ .poolRead r g
      else s.portFree p) → s.begins p (.slotTableLoad p e)
      ((List.range (seLen e)).map (fun j => mk (.slotLoad j (fld e 122 105 + j)) j 0) ++ [mk .slotDone (seLen e) 0]))) ∧
  (∀ (p : Pos) (s : State), s.isFenced p.val = true ∨ (s.rtrAt p.val).gateShut = true →
    exec (.zombieFlit p) s = .next (s.zombie p.val))

/-! ### Waybills -/

/-- The instructions of a running waybill at the word where it stands, not its last (R253, R254): SETB, LOOP, ENDL, PRED, MARK,
FENCE and END on its context; XFER, GATHER and SCATTER are the transfer of LEN + 1 units at their far and near offsets, a null
index of SCATTER moving nothing. A skipped instruction only moves on; a word that its store cannot correct aborts the context
(R273). -/
def Obligations.WaybillInstructions : Prop :=
  ∀ (c : CtxId) (b : BufDesc) (s : State),
    let k := idKey c
    let x := s.ctxAt k
    let stands (i : Instr) : Prop := x.word.bind (decodeWaybill c) = some i
    let moves (i : Instr) (y : CtxSt) : Prop := stands i → ∃ t, exec i s = .next t ∧
      t.ctxAt k = { y with pc := x.pc + 1, unit := 0, index := none, waitFrom := none }
    x.status = .running → s.streamsRun = true → x.desc = some b → x.pc + 1 < b.prog.length →
    ((s.upsetIn .context k x.pc 1).2 = true → ∀ i, stands i → ∃ t, exec i s = .next t ∧ (t.ctxAt k).status = .aborted) ∧
    (s.upsetIn .context k x.pc 1 = (false, false) →
     (x.skip = true → ∀ i, moves i { x with skip := false }) ∧
     (x.skip = false →
      (∀ v, moves (.setb c 0 v) { x with fbase := v } ∧ moves (.setb c 1 v) { x with nbase := v.setWidth 32 } ∧
        moves (.setb c 2 v) { x with idxPos := v.toNat, idxSet := v.toNat }) ∧
      (∀ level count fs ns, moves (.waybillLoop c level count fs ns) { x with loops :=
        { level := level.toNat, count := count.toNat + 1, idx := 0, fs := fs.toInt, ns := ns.toInt, body := x.pc + 1 } :: x.loops }) ∧
      (∀ (level : BitVec 3) l r, x.loops = l :: r → l.level = level.toNat →
        (l.idx + 1 < l.count → stands (.endl c level) → ∃ t, exec (.endl c level) s = .next t ∧
          t.ctxAt k = { x with loops := { l with idx := l.idx + 1 } :: r, pc := l.body }) ∧
        (l.count ≤ l.idx + 1 → moves (.endl c level) { x with loops := r })) ∧
      (∀ (level : BitVec 3) (arg : BitVec 20),
        let i := ((x.loops.find? (fun l => l.level == level.toNat)).map (·.idx)).getD 0
        moves (.pred c 0 level arg) { x with skip := x.lastIdx == 0xFFFFFFFF } ∧
        moves (.pred c 1 level arg) { x with skip := !decide (i < arg.toNat) } ∧
        moves (.pred c 2 level arg) { x with skip := !(i == arg.toNat) } ∧
        moves (.pred c 3 level arg) { x with skip := !(s.frm.index.toNat == arg.toNat % 65536) }) ∧
      (stands (.waybillMark c) → ∃ t, exec (.waybillMark c) s = .next t ∧ (t.ctxAt k).toPub = x.toPub ++ x.written ∧
        (t.ctxAt k).written = [] ∧ (t.ctxAt k).pc = x.pc + 1) ∧
      (x.open_ = 0 → moves (.fence c) x) ∧
      (x.open_ ≠ 0 → stands (.fence c) → ∃ t, exec (.fence c) s = .next t ∧ t.ctxAt k = x) ∧
      (stands (.waybillEnd c) → ∃ t, exec (.waybillEnd c) s = .next t ∧
        (t.ctxAt k).status = (if x.queued then .running else .done) ∧ (x.queued = true → (t.ctxAt k).pc = 0)) ∧
      (∀ (len : BitVec 7) (fo : BitVec 24) (no : BitVec 16), stands (.xfer c len fo no) →
        exec (.xfer c len fo no) s = .next (s.wbTransfer k fo.toInt no.toInt (len.toNat + 1) false)) ∧
      (∀ (len : BitVec 7) (sc no : BitVec 16) (n : BitVec 6) (i : Word), x.index = some i →
        (stands (.gather c len sc no n) → exec (.gather c len sc no n) s =
          .next (s.wbTransfer k ((i.toNat : Int) * sc.toNat) no.toInt (len.toNat + 1) (i == 0xFFFFFFFF))) ∧
        (i ≠ 0xFFFFFFFF → stands (.scatter c len sc no n) → exec (.scatter c len sc no n) s =
          .next (s.wbTransfer k ((i.toNat : Int) * sc.toNat) no.toInt (len.toNat + 1) false)) ∧
        (i = 0xFFFFFFFF → moves (.scatter c len sc no n) x))))

/-- A marked granule to which no write is open is published with its uses, the others stay to be published (R249). A wait
past `WB.WAIT_LIMIT` frame periods aborts its context (R261). -/
def Obligations.WaybillPublicationAndLimit : Prop :=
  ∀ (c : CtxId) (b : BufDesc) (s : State),
    let k := idKey c
    let x := s.ctxAt k
    (x.desc = some b → 0 < b.uses → ∃ t, exec (.granulePublish c) s = .next t ∧
      (∀ g, g ∈ (t.ctxAt k).toPub ↔ g ∈ x.toPub ∧ s.openTouch k g = true) ∧
      ∀ g ∈ x.toPub, s.openTouch k g = false → tget (t.ctxAt k).grans g .free = .published b.uses) ∧
    (∀ t0, x.waitFrom = some t0 → x.status = .running → s.streamsRun = true →
      t0 + s.waitLimit.toNat * s.frm.period < s.time →
      ∃ t, exec (.waybillWaitLimit c) s = .next t ∧ (t.ctxAt k).status = .aborted ∧ (t.ctxAt k).waitFrom = none)

/-! ### Stacks and memory ports -/

/-- A stack over HIGH begins to spill its 64 lowest resident granules, one under AHEAD with spilled granules to fill 64; a
chunk whose 256 units have moved moves the boundary by 64 granules (R161). -/
def Obligations.StackChunks : Prop :=
  ∀ (p : Pos) (d : StackDesc) (s : State),
    let k := s.stkAt p.val
    k.desc = some d → d.spillSize ≠ 0 → s.streamsRun = true →
    (k.chunk = none → d.high < k.depth - k.rb → s.chunkRoom d.spillBase (4 * k.rb) = true →
      ∃ t, exec (.stackSpillStart p) s = .next t ∧ (t.stkAt p.val).chunk = some (true, k.rb, 0) ∧
        (t.stkAt p.val).spilling = true ∧ t.reqNo = s.reqNo + 256) ∧
    (k.chunk = none → k.depth - k.rb < d.ahead → 0 < k.rb → s.chunkRoom d.spillBase (4 * (k.rb - 64)) = true →
      ∃ t, exec (.stackFillStart p) s = .next t ∧ (t.stkAt p.val).chunk = some (false, k.rb - 64, 0) ∧
        (t.stkAt p.val).spilling = false ∧ t.reqNo = s.reqNo + 256) ∧
    (∀ (spill : Bool) (u : Nat), k.chunk = some (spill, u, 256) → ∃ t, exec (.stackChunkComplete p) s = .next t ∧
      (t.stkAt p.val).chunk = none ∧ (t.stkAt p.val).rb = (if spill then k.rb + 64 else k.rb - 64) ∧
      (t.stkAt p.val).depth = k.depth)

/-- A memory port serves the request that its queue picks among those that are the first of their row (R258, R271): a row is
written to LPDDR5X, read from it into the near side, or added to (R270), and the request leaves the queue; one that has waited
1 ms leaves it with fault 0x2C.05 (R269). -/
def Obligations.MemoryPortServes : Prop :=
  ∀ (i : Port) (r : Req) (s : State),
    let qk := queueKey 0 i.val
    let q := s.queueAt qk
    let m := s.mportAt i.val
    let serves (w : State) : Prop := ∃ t, exec (.memoryPortRequest i) s = .next t ∧ (∀ x ∈ (t.queueAt qk).reqs, x.id ≠ r.id) ∧
      t.lp = w.lp ∧ t.deck = w.deck ∧ t.nst = w.nst
    (q.pick (fun r => m.trained && !m.blockedAt s.time (bankOf r.addr) && q.firstOfRow r) = some r →
      (∀ v po, r.kind = .acc v po → serves (s.accLp r.addr v po true)) ∧
      ((∀ v po, r.kind ≠ .acc v po) → r.isWrite = true → ∀ (u : State) (v : Row) (po : Bool),
        s.sourceRow r true = (u, v, po, .ok) → serves (u.lpWriteAny r.addr v po)) ∧
      ((∀ v po, r.kind ≠ .acc v po) → r.isWrite = false → ∀ (u w : State) (v : Row) (po : Bool),
        s.lpReadAny r.addr = (u, v, po) → u.sinkRow r v po true = (w, .ok) → serves w)) ∧
    (∀ id, q.reqs.find? (fun r => r.id == id && decide (r.issued + 4000000 ≤ s.time)) = some r →
      ∃ t, exec (.lpddr5xRequestTimeout i id) s = .next t ∧ ∀ x ∈ (t.queueAt qk).reqs, x.id ≠ r.id)

/-- The upkeep of a memory port (R265, R266, R269, R448): a refresh blocks its bank for 280 ns, an oscillator read its
channel for 1 µs and with drift 4 µs more, a full retrain the port for 20 µs; MR4 sets the multiplier; a patrol of clean
lines only counts; an idle port enters self-refresh. -/
def Obligations.MemoryPortUpkeep : Prop :=
  ∀ (i : Port) (s : State),
    let blocks (c : Instr) (key until_ : Nat) : Prop := ∃ t, exec c s = .next t ∧ (key, until_) ∈ (t.mportAt i.val).blocked
    (∀ (ch : Fin 4) (bank : Fin 16), blocks (.refresh i ch bank) (16 * ch.val + bank.val) (s.time + 1120)) ∧
    (∀ ch : Fin 4, blocks (.wckOscillatorRead i ch false) (64 + ch.val) (s.time + 4000) ∧
      blocks (.wckOscillatorRead i ch true) (64 + ch.val) (s.time + 20000)) ∧
    blocks (.portFullRetrain i) 100 (s.time + 80000) ∧
    (∀ m : BitVec 2, m ≠ 3 → ∃ t, exec (.mr4Poll i m) s = .next t ∧ (t.mportAt i.val).refmult = m) ∧
    (s.lp.marks = [] → ∀ line, exec (.lpddr5xPatrol i line) s = .next (s.count 3 i.val 10 1)) ∧
    (s.frm.phase = 0 → (s.mportAt i.val).trained = true → (s.mportAt i.val).lastUse + 40000000 ≤ s.time →
      ∃ t, exec (.selfRefreshEntry i) s = .next t ∧ (t.mportAt i.val).selfRef = true)

/-- A remote accumulate adds its sixteen FP32 values to the row it names, in LPDDR5X in device bias or in a deck granule that is
on and whose half-bank is free to take, and changes no other byte of any memory; a zero marker touches nothing (R270, R271). -/
def Obligations.RemoteAccumulateAdds : Prop :=
  ∀ (a : Nat) (v : Row) (s : State), a % 64 = 0 → a < 2 ^ 56 →
    let adds (space : Fin 2) (mem : State → Mem) (others : State → Prop) : Prop :=
      ∃ t, exec (.remoteAccumulate space a v false false true) s = .next t ∧ others t ∧
        (mem t).read a 64 = (addRows 0 (BitVec.ofNat 512 ((mem s).read a 64)) v).toNat ∧
        ∀ b, b < a ∨ a + 64 ≤ b → (mem t).get b = (mem s).get b
    (∀ (space : Fin 2) (po ag : Bool), exec (.remoteAccumulate space a v true po ag) s = .next s) ∧
    (a < s.lpCap → s.underScrub 2 a = false → inPages s.host.devBias (a / 4096) = true →
      (∀ r ∈ (s.queueAt (queueKey 0 (portOf a))).reqs, sameRow r.addr a = false) →
      adds 0 (·.lp) (fun t => ∀ b, t.nst.get b = s.nst.get b ∧ t.deck.get b = s.deck.get b)) ∧
    (∀ p : Pos, a / 67108864 = p.val →
      let g := a % 67108864 / 256
      s.granOn p g → s.granSaved p.val g = true ∨ (s.takeBank p.val (deckBankKey p.val g)).2 = .ok →
      adds 1 (·.deck) (fun t => ∀ b, t.nst.get b = s.nst.get b ∧ t.lp.get b = s.lp.get b))

/-- A bank that wakes is on when its time has passed: from off it is zero, from retention it keeps its bytes (R227). A tester that
is enabled starts its next group when it is due, or at a step; the group of a bank that is not on is skipped, and one that is due
while another runs is owed to the tester (R236, R238). A closed injection gate stays closed (R202). -/
def Obligations.BanksAndTesters : Prop :=
  ∀ (p : Pos) (deck : Bool) (s : State),
    let b := s.bankAt p.val deck
    (∀ (bank : Fin 16) (due : Nat) (fromOff : Bool), tfind b.wakeAt bank.val = some (due, fromOff) → due ≤ s.time →
      ∃ t, exec (.bankWakeComplete p deck bank) s = .next t ∧ (t.bankAt p.val deck).stateOf bank.val = 0 ∧
        (fromOff = false → b.lost.getLsbD bank.val = false → s.sameMem t) ∧
        (fromOff = true → deck = true → ∀ a, 67108864 * p.val + 4194304 * bank.val ≤ a →
          a < 67108864 * p.val + 4194304 * (bank.val + 1) → t.deck.get a = 0) ∧
        (fromOff = true → deck = false → ∀ r < 2048, ∀ k < 64, t.nst.get (2097152 * p.val + 64 * (16 * r + bank.val) + k) = 0)) ∧
    (s.tests p.val deck = true →
      let starts (i : Instr) (due : Nat) : Prop := ∃ t, exec i s = .next t ∧ s.sameMem t ∧ (t.bankAt p.val deck).due = due ∧
        (b.groupOn deck b.group = true → (t.bankAt p.val deck).group = b.group ∧
          ∃ r, (t.bankAt p.val deck).test = some r ∧ r.group = b.group ∧ r.done = 0) ∧
        (b.groupOn deck b.group = false → (t.bankAt p.val deck).test = none ∧
          (t.bankAt p.val deck).group = (b.group + 1) % (if deck then 4608 else 512))
      (b.test = none → starts (.bgtStepStart p deck) b.due) ∧
      (∀ cells, b.due ≤ s.time →
        (b.test = none → starts (.bgtGroupStart p deck cells) (s.time + 400000 * b.bgtPace.toNat)) ∧
        (b.test.isSome = true → ∃ t, exec (.bgtGroupStart p deck cells) s = .next t ∧ (t.bankAt p.val deck).owed = some cells ∧
          (t.bankAt p.val deck).test = b.test ∧ s.sameMem t))) ∧
    (∃ t, exec (.closeInjectionGate p) s = .next t ∧ (t.rtrAt p.val).gateShut = true)

/-! ### Frames, stops and the commit gate -/

/-- A tick of the selected source, and only of it, strikes the tick root (R36, R37, R40, R43, R365). A struck root starts
a frame when it is between frames and no stop is asked for, and discards the tick when no program runs or it stands
stopped (R39, R70). Ticks of an external source that stay away for LATE sixteenths of a period raise notice 0x14.04;
with FALLBACK the timer takes over (R41). -/
def Obligations.TicksAndTheirLoss : Prop :=
  (∀ (host : HostView) (s : State),
    (∀ t0, s.frm.src = 0 → s.frm.timerNext = some t0 → t0 ≤ s.time → exec (.internalTick host) s =
      .next ((s.onFrm (fun f => { f with timerNext := some (t0 + max f.period 1) })).strike host)) ∧
    (s.frm.src = 1 → exec (.tickDoorbellStrike true host) s = .next (s.strike host)) ∧
    (s.frm.src ≠ 1 → exec (.tickDoorbellStrike true host) s = .next s) ∧
    (∀ ns, 20 ≤ ns → s.frm.src = 2 → s.frm.accepted = none → exec (.ftickInEdge ns host) s = .next (s.strike host)) ∧
    (∀ ns t0, 20 ≤ ns → s.frm.src = 2 → s.frm.accepted = some t0 → exec (.ftickInEdge ns host) s = .next
      (if (s.time - t0) * 256 < s.frm.period * s.frm.early.toNat then s.frmEvent 0x1403 else s.strike host)) ∧
    (∀ ns, s.frm.src ≠ 2 ∨ ns < 20 → exec (.ftickInEdge ns host) s = .next s) ∧
    (∀ n inst k r, s.pont.tickDue = (n, inst, k) :: r → inst ≤ s.sysTime → s.frm.src = 3 →
      exec (.systemTickDelivery host) s = .next
        (((s.onPont (fun d => { d with tickDue := r })).onFrm (fun f => { f with sysTick := (n, inst) })).strike host)) ∧
    (s.frm.phase = 0 ∨ s.frm.phase = 3 ∨ s.frm.stopKind ≠ .none ∨ s.frm.halted = true → s.strike host = s) ∧
    (s.frm.halted = false → s.frm.phase = 2 → s.frm.stopKind = .none → s.frm.stopReq = false → s.inClkOfDone s.time = false →
      s.strike host = (s.onFrm (fun f => { f with accepted := some s.time, silence := s.time, lossDone := false })).startFrame host)) ∧
  (∀ (host : HostView) (s : State), s.frm.phase = 1 ∨ s.frm.phase = 2 → s.frm.src = 2 ∨ s.frm.src = 3 → s.frm.late ≠ 0 →
    s.frm.lossDone = false → s.frm.silence + s.frm.period * s.frm.late.toNat / 16 ≤ s.time →
    (s.frm.fallback = false → exec (.tickLoss host) s =
      .next ((s.frmEvent 0x1404).onFrm (fun f => { f with lossDone := true }))) ∧
    (s.frm.fallback = true → exec (.tickLoss host) s = .next
      (((s.frmEvent 0x1404).onFrm (fun f => { f with src := 0, timerNext := some ((s.frmEvent 0x1404).time + f.period) })).strike host)))

/-- A running cluster whose slot counter has reached the end mark stands at it (R48); when all 48 do, the frame is done (R39).
An immediate stop reaches a cluster once: one that executes a tcyc completes it first, any other stops and answers; the root
records its slot counter; RELEASE lets it go on (R68, R69, R71); 20 µs after a stop it is checked once more (R67). -/
def Obligations.FrameEndsAndStops : Prop :=
  ∀ (j : Clu) (host : HostView) (h : FrameHdr) (s : State),
    let c := s.cluAt j.val
    (s.hdr = some h → s.frm.phase = 1 → c.running = true → c.atEnd = false → c.stopped = false → c.clockLost = none →
      h.endMark ≤ c.slot → ∃ t, exec (.endMarkReached j) s = .next t ∧ (t.cluAt j.val).atEnd = true) ∧
    (s.frm.phase = 1 → (∀ k < 48, (s.cluAt k).atEnd = true) → s.frm.doneAt = none →
      exec (.frameDone host) s = .next (s.frameDone host)) ∧
    (s.frm.stopKind = .immediate → s.frm.drainFrom.isSome = true → c.clockLost = none →
      (c.stopped = false → ∃ t, exec (.immediateStop j) s = .next t ∧ (t.cluAt j.val).slot = c.slot ∧
        (if s.executes j.val = true ∨ (s.inTcyc j.val = true ∧ 0 < c.bankHold) then
          (t.cluAt j.val).stopping = true ∧ (t.cluAt j.val).stopped = false
        else (t.cluAt j.val).stopped = true ∧ courierMsg j.val 52 0 2 ∈ t.out)) ∧
      (c.stopped = true → s.frm.stopSlots.any (fun e => e.1 == j.val) = false → exec (.stopReached j) s =
        .next (((s.ackPkt 52 j.val 0 2).onFrm (fun f => { f with stopSlots := f.stopSlots ++ [(j.val, c.slot)] })).stopCheck))) ∧
    (c.stopped = true → s.frm.stopKind = .none → ∃ t, exec (.release j) s = .next t ∧ (t.cluAt j.val).stopped = false ∧
      (t.cluAt j.val).slot = c.slot) ∧
    (∀ t0, s.frm.drainFrom = some t0 → t0 + 80000 ≤ s.time → exec .stopDrainTimeout s = .next s.stopCheck)

/-- In a commit frame with the reports of all 48 clusters the root decides: the gate opens when the step is not spoiled and
the duplicate agrees, and then the step counter is the next step; a shut gate leaves it (R60-R63). -/
def Obligations.GateDecides : Prop :=
  ∀ (dup : Bool) (s : State), s.runs = true → s.isCommitFrame = true → s.frm.decision = none → s.frm.reports.length = 48 →
    ∃ t, exec (.gateDecision dup) s = .next t ∧ t.frm.decision = some (dup && !s.frm.stepSpoiled) ∧
      t.frm.stepNum = (if dup && !s.frm.stepSpoiled then s.frm.frameStep + 1 else s.frm.stepNum)

/-- A cluster's report is counted once, after the spoils that the cluster sent; the decision reaches each cluster; a cluster
without one for 20 µs raises 0x28.04 and stops the program (R60, R209, R212). A spoil that reaches the root in a frame
spoils it; one in the root's clk of an open decision shuts the gate again, and one that comes later damages the commit (R61,
R289, R463). -/
def Obligations.GateTraffic : Prop :=
  ∀ (j : Clu) (s : State),
    ((s.cluAt j.val).reported = true → s.frm.reports.contains j.val = false →
      exec (.commit j (s.frm.frameNum.setWidth 16)) s =
        .next (((s.spoilsOf j.val).ackPkt 52 j.val 3 (0#1 ++ s.frm.frameNum.setWidth 16)).onFrm
          (fun f => { f with reports := f.reports ++ [j.val] }))) ∧
    (∀ g, s.frm.decision = some g → (s.cluAt j.val).gate = none → ∃ t, exec (.gate j (s.frm.frameNum.setWidth 16) g) s = .next t ∧
      (t.cluAt j.val).gate = some g) ∧
    (∀ t0, (s.cluAt j.val).gateWait = some t0 → t0 + 80000 ≤ s.time → s.frm.stopKind = .none →
      ∃ t, exec (.gateHoldTimeout j) s = .next t ∧ t.frm.stopKind = .immediate ∧ t.upd.damaged = true) ∧
    (∀ d, s.flt.dues.find? (fun x => x.code == d.code) = some d → s.frm.phase = 1 → s.frm.decision ≠ some true →
      ∃ t, exec (.spoil d.code false) s = .next t ∧ t.frm.stepSpoiled = true ∧ (d.step = false → t.frm.spoiled = true)) ∧
    (∀ d, s.flt.dues.find? (fun x => x.code == d.code) = some d → s.frm.phase = 1 → s.frm.decision = some true →
      ((∀ x, s.frm.decided = some x → sameRootClk x.1 s.time = false) →
        ∃ t, exec (.spoil d.code false) s = .next t ∧ t.upd.damaged = true) ∧
      (∀ x, s.frm.decided = some x → sameRootClk x.1 s.time = true →
        ∃ t, exec (.spoil d.code false) s = .next t ∧ t.frm.decision = some false ∧ t.frm.stepSpoiled = true ∧
          t.frm.stepNum = s.frm.frameStep))

/-! ### The Courier network -/

/-- Courier traffic (R209, R210, R213): an ACK retires the packet it names; a notification is kept for the Postmaster; a
packet of the reserved class is dropped and counted; a bad CRC counts against the packet on its hop, the fourth switches the link set; a
packet 1 µs without ACK goes again, after 8 resends it is given up. -/
def Obligations.CourierTraffic : Prop :=
  ∀ (src dst : Fin 64) (cls : BitVec 3) (pay : BitVec 14) (s : State),
    (∃ t, exec (.ack src dst cls pay) s = .next t ∧ ∀ o, o ∈ t.cour.open_ ↔ o ∈ s.cour.open_ ∧
      ¬ (o.src = dst.val ∧ o.dst = src.val ∧ o.cls = cls ∧ o.pay.setWidth 14 = pay)) ∧
    (∀ code sp, ∃ t, exec (.notify src code sp) s = .next t ∧
      tget t.cour.notified src.val 0 = code.setWidth 17 + (if sp then 0x10000 else 0)) ∧
    (∀ w : Word, w.toNat % 8 = 7 → ∃ t, exec (.reservedClassPacket w) s = .next t ∧ t.cour.dropped = s.cour.dropped + 1) ∧
    (∀ hop : Fin 128, s.cour.failsOf hop.val < 3 → ∃ t, exec (.courierCrcMismatch hop) s = .next t ∧
      tget t.cour.hopFail hop.val 0 = s.cour.failsOf hop.val + 1 ∧ tget t.cour.hopHead hop.val none = s.cour.headOf hop.val) ∧
    (∀ hop : Fin 128, 3 ≤ s.cour.failsOf hop.val → ∃ t, exec (.courierCrcMismatch hop) s = .next t ∧
      tget t.cour.hopFail hop.val 0 = 0 ∧ tget t.cour.hopSetB hop.val false = !tget s.cour.hopSetB hop.val false) ∧
    (∀ o, s.cour.open_ = [o] → o.src = src.val → o.sentAt + 4000 ≤ s.time →
      (o.resends < 8 → ∃ t, exec (.courierResendTimer src) s = .next t ∧
        t.cour.open_ = [{ o with sentAt := s.time, resends := o.resends + 1 }]) ∧
      (8 ≤ o.resends → ∃ t, exec (.courierResendTimer src) s = .next t ∧ t.cour.open_ = []))

/-! ### Pigeonholes and the Postmaster's commands -/

/-- A ring that is accepted posts its command (R399), one that is not is dropped and says so; the next posted command is
taken up and copied (R400); a command past its maximum time completes with TIMEOUT, a cancelled one with FAULT and detail 2
(R401); the page of a former owner is discarded once its response stands (R402). -/
def Obligations.PigeonholeProtocol : Prop :=
  ∀ (n : Pgh) (s : State),
    let p := s.pghAt n.val
    (s.ringOk n.val = true → ∃ t, exec (.ring n) s = .next t ∧ (t.pghAt n.val).state = 1 ∧ (t.pghAt n.val).ringAt = s.time ∧
      (t.pghAt n.val).cmd = p.cmd) ∧
    (s.ringOk n.val = false → ∃ t, exec (.ring n) s = .next t ∧ (t.pghAt n.val).state = p.state ∧
      (t.pghAt n.val).dropped = true) ∧
    (∀ r, s.post.firmware = true → s.post.switching = false → s.frm.halted = false → s.posted = n.val :: r →
      ∃ t, exec .commandTakeUp s = .next t ∧ (t.pghAt n.val).state ≠ 1 ∧ (t.pghAt n.val).copy = p.cmd ∧
        t.post.rr = (n.val + 1) % 64) ∧
    (∀ m, p.state = 1 ∨ p.state = 2 → s.post.switching = false → s.maxTime p.held = some m → p.ringAt + m ≤ s.time →
      exec (.commandTimeout n) s = .next (s.abandonCmd n.val { status := 4 })) ∧
    (p.state = 1 ∨ p.state = 2 → s.post.firmware = true → s.frm.halted = false → p.held.op ≠ 0x0202 →
      (p.held.op = 0x0304 → p.held.pl 0 1 ≠ 1) →
      exec (.cancel n) s = .next (s.abandonCmd n.val { status := 5, detail := 2 })) ∧
    (p.old.isSome = true → p.state = 3 → ∃ t, exec (.ownerChangeDiscard n) s = .next t ∧ t.pghAt n.val = .reset)

/-- A command that completes leaves its pigeonhole DONE, and the 64-byte header of R405 with its data behind in the response
area: OPCODE and TAG echoed, STATUS, DETAIL, RLEN, ELAPSED in µs from the acceptance of the RING, FRAME, FAULT and FIELD, the
reserved bytes 0. No register, no byte of memory and no other pigeonhole changes. -/
def Obligations.ResponseArea : Prop :=
  ∀ (n : Pgh) (a : Answer) (s : State), (s.pghAt n.val).state = 2 → a.data.length ≤ 1920 →
    let p := s.pghAt n.val
    let t := s.finishCmd n.val a
    let r (off size : Nat) : Nat := tabRead (t.pghAt n.val).resp off size
    (t.pghAt n.val).state = 3 ∧ (t.pghAt n.val).begun = false ∧
    r 0x00 2 = tabRead p.copy 0 2 ∧ r 0x02 2 = tabRead p.copy 2 2 ∧ r 0x04 1 = a.status % 256 ∧ r 0x05 1 = 0 ∧
    r 0x06 2 = a.detail % 65536 ∧ r 0x08 4 = a.data.length ∧ r 0x0C 4 = min 0xFFFFFFFF ((s.time - p.ringAt) / 4000) ∧
    r 0x10 6 = s.frm.frameNum.toNat ∧ r 0x16 2 = a.fault % 65536 ∧ r 0x18 2 = a.field % 65536 ∧ r 0x1A 38 = 0 ∧
    tabBytes (t.pghAt n.val).resp 0x40 a.data.length = a.data ∧
    s.sameMem t ∧ s.sameRegs t ∧ ∀ m < 64, m ≠ n.val → t.pghAt m = s.pghAt m

/-- The commands that only report (R408-R417, R485, R488): each completes with OK; no register, no byte of memory and no
program changes. -/
def Obligations.ReportCommands : Prop :=
  ∀ (n : Pgh) (s : State),
    let p := s.pghAt n.val
    let keeps (t : State) : Prop := s.sameMem t ∧ s.sameRegs t ∧ t.frm.prog = s.frm.prog ∧ t.frm.phase = s.frm.phase
    (s.ready n 0x0101 → s.replies n (.identify n) 0 (fun t => keeps t ∧
      tabBytes (t.pghAt n.val).resp 0x40 4 = bytesOf Config.romVersion.toNat 4)) ∧
    (s.ready n 0x0102 → s.replies n (.status n) 0 (fun t => keeps t ∧
      tabRead (t.pghAt n.val).resp 0x44 8 = s.frm.frameNum.toNat)) ∧
    (s.ready n 0x0103 → s.replies n (.faultLog n) 0 keeps) ∧
    (s.ready n 0x0201 → s.replies n (.berthState n) 0 keeps) ∧
    (s.ready n 0x0501 → s.replies n (.depotStatus n) 0 keeps) ∧
    (s.ready n 0x050A → s.replies n (.versions n) 0 keeps) ∧
    (s.ready n 0x050B → s.replies n (.deadLetter n) 0 keeps) ∧
    (s.ready n 0x0602 → s.replies n (.pontStatus n) 0 keeps) ∧
    (s.ready n 0x0702 → ∀ i, s.physOf (p.pl 0 1) (p.pl 1 1) = some i → s.replies n (.contextCnt n) 0 keeps) ∧
    (s.ready n 0x0804 → s.replies n (.thermal n) 0 (fun t => keeps t ∧
      tabRead (t.pghAt n.val).resp 0x40 2 = (tget s.pwr.sensors 0 0).toNat)) ∧
    (s.ready n 0x0A01 → s.replies n (.attest n) 0 (fun t => keeps t ∧ ∃ bs, OutMsg.hostWrite 0 p.buf bs false ∈ t.out)) ∧
    (s.ready n 0x0A02 → s.replies n (.gradeRecord n) 0 (fun t => keeps t ∧ ∃ bs, OutMsg.hostWrite 0 p.buf bs false ∈ t.out)) ∧
    (s.ready n 0x0302 → ∀ img, s.imageStatus p.berth img = 0 → s.replies n (.bindCheck n img) 0 keeps) ∧
    (s.ready n 0x0701 → ∃ t, exec (.counters n) s = .next t ∧ (t.pghAt n.val).begun = true ∧ keeps t)

/-- The commands of a program (R409-R412, R418): LOAD of a valid image, RUN of a loaded one of this shape, STOP, STEP and
RESUME, which wait for the recorded chunks of the activation stacks (R163), SET_POLICY and LR_OVERRIDE; KILL and the end of its
scrub (R495). -/
def Obligations.ProgramCommands : Prop :=
  ∀ (n : Pgh) (s : State),
    let p := s.pghAt n.val
    let waits (c : Instr) (P : State → Prop) : Prop := ∃ t, exec c s = .next t ∧ (t.pghAt n.val).begun = true ∧ P t
    (s.ready n 0x0301 → ∀ img, s.imageStatus p.berth img = 0 → s.replies n (.load n img) 0 (fun t =>
      ∃ g, t.frm.prog = some g ∧ g.image = img ∧ g.berth = p.berth)) ∧
    (s.ready n 0x0303 →
      (s.frm.prog = none → s.replies n (.run n) 3 (fun t => t.frm.phase = s.frm.phase)) ∧
      (∀ g, s.frm.prog = some g → g.image.shapeHash = s.shapeHash → s.replies n (.run n) 0 (fun t =>
        t.frm.phase = 2 ∧ t.frm.firstFrame = true ∧ t.epoch = s.epoch + 1 ∧ t.frm.stepNum = BitVec.ofNat 32 (p.pl 4 4)))) ∧
    (s.ready n 0x0304 →
      (s.frm.phase = 0 → s.replies n (.stop n) 0 (fun t => t.frm.phase = 0)) ∧
      (s.frm.phase = 1 → s.frm.drainFrom = none → p.force = false → p.pl 0 1 = 0 → p.pl 1 1 = 0 →
        waits (.stop n) (fun t => t.frm.stopReq = true ∧ t.frm.phase = 1))) ∧
    (s.ready n 0x0305 →
      (s.frm.phase = 3 → s.frm.drainFrom = none → waits (.stepCmd n) (fun t =>
        if s.chunksOpen then t.frm.phase = 3 else t.frm.stepOne = true ∧ t.frm.phase ≠ 3)) ∧
      (s.frm.phase ≠ 3 → s.replies n (.stepCmd n) 3 (fun t => t.frm.stepOne = s.frm.stepOne))) ∧
    (s.ready n 0x0306 →
      (s.frm.phase = 3 → s.frm.drainFrom = none →
        (s.chunksOpen = false → s.replies n (.resume n) 0 (fun t => t.frm.stopKind = .none ∧ t.frm.phase ≠ 3)) ∧
        (s.chunksOpen = true → waits (.resume n) (fun t => t.frm.phase = 3))) ∧
      (s.frm.phase ≠ 3 → s.replies n (.resume n) 3 (fun t => t.frm.phase = s.frm.phase))) ∧
    (s.ready n 0x0307 → p.pl 12 1 = 1 → s.replies n (.setPolicy n) 0 (fun t =>
      t.frm.policy = (p.pl 0 4).testBit 0 ∧ t.frm.stopOnSpoil = (p.pl 0 4).testBit 1)) ∧
    (s.ready n 0x0308 → s.frm.phase ≠ 0 → waits (.lrOverride n) (fun t =>
      ∃ m, t.upd.ovrPend = some (BitVec.ofNat 32 (p.pl 0 4), m))) ∧
    (s.ready n 0x0202 → s.post.killing.contains p.berth = false → waits (.kill n) (fun t =>
      p.berth ∈ t.post.killing ∧ ∀ r ∈ t.post.retained, r.berth ≠ p.berth)) ∧
    (∀ (b : Port) k, s.post.killInfo.find? (fun k => k.1 == b.val) = some k → ∃ t, exec (.killScrubComplete b) s = .next t ∧
      b.val ∉ t.post.killing ∧ (∀ x ∈ t.post.scrubs, x.1 ≠ b.val) ∧
      ∀ x ∈ s.post.scrubs, x.1 = b.val → x.2.1 = 0 → ∀ a, x.2.2.1 ≤ a → a < x.2.2.2 → t.nst.get a = 0)

/-- The commands on memory (R413, R414, R417): ALLOC grants the lowest free range through a commit of the berth table and answers
its address, and refuses a size that no free range has; FREE takes a granted range back and zeros it; SCRUB leaves zeros in a
range and touches nothing beside it; COPY moves bytes and writes nothing outside its destination; a command that meets an
absent window answers FAULT; BIAS_FLIP to host bias is done at once, to device bias asks the host for the lines of its first
page; a destructive MARCH leaves zeros and a preserving one every byte; BGT sets the testers of the positions it names; INJECT
puts one correctable or one uncorrectable error into the word it names. -/
def Obligations.MemoryCommands : Prop :=
  ∀ (n : Pgh) (s : State),
    let p := s.pghAt n.val
    let slot (k : Nat) : Bool := (brtLp s.brt.live p.berth k).2.1 == 0
    let grant (x : Nat) : Bool := decide (0 < (brtLp s.brt.live (x / 16) (x % 16)).2.1) &&
      (brtLp s.brt.live (x / 16) (x % 16)).1 == p.pl 0 8 && (brtLp s.brt.live (x / 16) (x % 16)).2.1 == p.pl 8 8
    (s.ready n 0x0401 →
      (∀ a k, s.findFree (p.pl 0 8) = some a → (List.range 16).find? slot = some k →
        let w := setLp s.brt.shadow p.berth k a (p.pl 0 8) (p.pl 8 1 == 1)
        s.tableErr w = none → s.replies n (.alloc n) 0 (fun t => t.brt.live = w ∧ t.brt.shadow = w ∧
          tabBytes (t.pghAt n.val).resp 0x40 8 = bytesOf a 8)) ∧
      (s.findFree (p.pl 0 8) = none → s.replies n (.alloc n) 2 (fun t => t.brt = s.brt))) ∧
    (s.ready n 0x0402 →
      (∀ x, (List.range 256).find? grant = some x →
        let w := setLp s.brt.shadow (x / 16) (x % 16) 0 0 false
        s.tableErr w = none → s.replies n (.free n) 0 (fun t => t.brt.live = w ∧ t.brt.shadow = w ∧
          (∀ a, p.pl 0 8 ≤ a → a < p.pl 0 8 + p.pl 8 8 → t.lp.get a = 0) ∧
          ∀ a, a < p.pl 0 8 ∨ p.pl 0 8 + p.pl 8 8 ≤ a → t.lp.get a = s.lp.get a)) ∧
      ((List.range 256).find? grant = none → s.replies n (.free n) 2 (fun t => t.brt = s.brt ∧ s.sameMem t))) ∧
    (s.ready n 0x0403 →
      let lo := p.pl 8 8
      let hi := lo + p.pl 16 8
      (p.pl 0 1 = 0 → s.replies n (.scrub n) 0 (fun t =>
        (∀ a, lo ≤ a → a < hi → t.lp.get a = 0) ∧ (∀ a, a < lo ∨ hi ≤ a → t.lp.get a = s.lp.get a) ∧
        ∀ a, t.nst.get a = s.nst.get a ∧ t.deck.get a = s.deck.get a)) ∧
      (p.pl 0 1 = 1 → s.absent [(1, lo, p.pl 16 8)] = false → s.replies n (.scrub n) 0 (fun t =>
        (∀ a, lo ≤ a → a < hi → t.deck.get a = 0) ∧ ∀ a, t.nst.get a = s.nst.get a ∧ t.lp.get a = s.lp.get a)) ∧
      (p.pl 0 1 = 1 → s.absent [(1, lo, p.pl 16 8)] = true → s.replies n (.scrub n) 5 (fun t =>
        tabRead (t.pghAt n.val).resp 0x16 2 = 0x2A05)) ∧
      (p.pl 0 1 = 2 → s.replies n (.scrub n) 0 (fun t =>
        (∀ a, lo ≤ a → a < hi → t.nst.get a = 0) ∧ ∀ a, t.deck.get a = s.deck.get a ∧ t.lp.get a = s.lp.get a))) ∧
    (s.ready n 0x0404 → ∀ host,
      let src := p.pl 8 8
      let dst := p.pl 16 8
      let len := p.pl 24 8
      let rs := [(p.pl 0 1, src, len), (p.pl 1 1, dst, len)]
      (s.absent rs = false → s.replies n (.copy n host) 0 (fun t =>
        (p.pl 1 1 ≠ 0 → ∀ a, t.lp.get a = s.lp.get a) ∧
        (p.pl 1 1 = 0 → ∀ a, a < dst ∨ dst + len ≤ a → t.lp.get a = s.lp.get a) ∧
        (p.pl 0 1 = 0 → p.pl 1 1 = 0 → src % 64 = 0 → dst % 64 = 0 → src + len ≤ dst ∨ dst + len ≤ src →
          src + len ≤ s.lpCap → dst + len ≤ s.lpCap → s.post.scrubs = [] →
          ∀ k < len, t.lp.get (dst + k) = s.lp.get (src + k)))) ∧
      (s.absent rs = true → s.replies n (.copy n host) 5 (fun t => tabRead (t.pghAt n.val).resp 0x16 2 = 0x2A05))) ∧
    (s.ready n 0x0405 →
      let first := p.pl 0 8 / 4096
      (p.pl 12 1 = 0 → s.replies n (.biasFlip n) 0 (fun t => s.sameMem t ∧
        ∀ g, first ≤ g → g < first + p.pl 8 4 → inPages t.host.devBias g = false)) ∧
      (p.pl 12 1 ≠ 0 → 0 < p.pl 8 4 → s.flipOpen n.val = false →
        s.room (queueKey 3 (s.moduleFor (Config.hdmBase + 4096 * first))) 64 = true →
        ∃ t, exec (.biasFlip n) s = .next t ∧ s.sameMem t ∧ (t.pghAt n.val).begun = true ∧
          (t.pghAt n.val).wait = [first + 1, first + p.pl 8 4] ∧ t.reqNo = s.reqNo + 64 ∧ t.host = s.host)) ∧
    (s.ready n 0x0901 → ∀ nstCells deckCells, s.replies n (.march n nstCells deckCells) 0 (fun t =>
      (p.pl 0 1 = 1 → s.sameMem t) ∧
      (p.pl 0 1 ≠ 1 → ∀ i ∈ maskAt p 8,
        ((p.pl 1 1).testBit 1 = true → ∀ k < 67108864, t.deck.get (67108864 * i + k) = 0) ∧
        ((p.pl 1 1).testBit 0 = true → s.isLive i = true → ∀ k < 2097152, t.nst.get (2097152 * i + k) = 0)) ∧
      ∀ a, t.lp.get a = s.lp.get a)) ∧
    (s.ready n 0x0902 → s.replies n (.bgt n) 0 (fun t => s.sameMem t ∧ ∀ i ∈ maskAt p 8,
      (t.nstB i).bgtEn = (p.pl 0 1 == 1) ∧ (t.deckB i).bgtEn = (p.pl 0 1 == 1) ∧
      (t.nstB i).bgtPace = BitVec.ofNat 16 (p.pl 2 2) ∧ (t.deckB i).bgtPace = BitVec.ofNat 16 (p.pl 4 2))) ∧
    (s.ready n 0x0903 →
      let a := p.pl 8 8
      let near (P : Mem → Prop) (t : State) : Prop := P t.nst ∧ ∀ b, t.deck.get b = s.deck.get b ∧ t.lp.get b = s.lp.get b
      let deckOf (P : Mem → Prop) (t : State) : Prop := P t.deck ∧ ∀ b, t.nst.get b = s.nst.get b ∧ t.lp.get b = s.lp.get b
      let one (m m' : Mem) : Prop := tget m'.marks (a / 8) .good = .corrected ∧ ∀ b, m'.get b = m.get b
      let two (m m' : Mem) : Prop := tget m'.marks (a / 8) .good = .uncorrectable ∧ ∀ b, b / 8 ≠ a / 8 → m'.get b = m.get b
      (p.pl 0 1 = 0 → tget s.nst.marks (a / 8) .good = .good →
        (p.pl 1 1 = 1 → s.replies n (.inject n) 0 (near (one s.nst))) ∧
        (p.pl 1 1 = 2 → s.replies n (.inject n) 0 (near (two s.nst)))) ∧
      (p.pl 0 1 = 1 → tget s.deck.marks (a / 8) .good = .good →
        (p.pl 1 1 = 1 → s.replies n (.inject n) 0 (deckOf (one s.deck))) ∧
        (p.pl 1 1 = 2 → s.replies n (.inject n) 0 (deckOf (two s.deck)))) ∧
      (p.pl 0 1 = 2 → p.pl 1 1 = 1 → tget s.lp.marks (a / 64 * 64 / 8) .good = .good →
        s.replies n (.inject n) 0 (fun t => s.sameMem t ∧ tget t.lp.marks (a / 64 * 64 / 8) .good = .corrected)) ∧
      (3 ≤ p.pl 0 1 → s.replies n (.inject n) 0 (fun t => s.sameMem t)))

/-- The commands on the Depot's namespaces (R303-R308, R322-R325, R415): what FORMAT, NS_CREATE, NS_DELETE and NS_RELEASE leave;
NS_READ brings the bytes of the namespace and writes nothing beside its destination; NS_WRITE keeps the size and moves the
append point of an archive; CHECKPOINT seals a version and RESTORE ends the damage; a Depot that takes no writes answers FAULT. -/
def Obligations.DepotCommands : Prop :=
  ∀ (n : Pgh) (s : State),
    let p := s.pghAt n.val
    let ns := p.pl 0 1
    (s.ready n 0x0502 → ∀ ds, s.replies n (.format n ds) 0 (fun t => s.sameMem t ∧ t.depot.ns = [] ∧ t.depot.formatted = true)) ∧
    (s.ready n 0x0503 → s.replies n (.nsCreate n) 0 (fun t => s.sameMem t ∧ ∃ x, tfind t.depot.ns ns = some x ∧
      x.kind = p.pl 1 1 ∧ x.size = p.pl 8 8 ∧ x.ring = (p.pl 2 1 == 1) ∧ x.keep = (if p.pl 3 1 = 0 then 2 else p.pl 3 1) ∧
      x.append = 0 ∧ x.locked = false ∧ x.versions = [])) ∧
    (s.ready n 0x0504 → s.replies n (.nsDelete n) 0 (fun t => s.sameMem t ∧ tfind t.depot.ns ns = none)) ∧
    (s.ready n 0x0505 → s.replies n (.nsRelease n) 0 (fun t => s.sameMem t ∧
      ∀ x, tfind t.depot.ns ns = some x → x.locked = false)) ∧
    (s.ready n 0x0506 →
      let dst := p.pl 16 8
      s.replies n (.nsRead n) 0 (fun t => t.depot.ns = s.depot.ns ∧
        (p.pl 1 1 ≠ 0 → ∀ a, t.lp.get a = s.lp.get a) ∧
        (p.pl 1 1 = 0 → ∀ a, a < dst ∨ dst + p.pl 24 8 ≤ a → t.lp.get a = s.lp.get a) ∧
        (p.pl 1 1 = 0 → p.pl 24 8 = 64 → dst % 64 = 0 → dst + 64 ≤ s.lpCap → s.post.scrubs = [] →
          t.lp.read dst 64 = (s.nsGet ns (p.pl 8 8)).2.1.toNat))) ∧
    (s.ready n 0x0507 → ∀ host x, tfind s.depot.ns ns = some x →
      (s.depot.state ≠ 2 → s.replies n (.nsWrite n host) 0 (fun t => ∃ y, tfind t.depot.ns ns = some y ∧ y.size = x.size ∧
        y.kind = x.kind ∧ y.append =
          (if x.kind = 2 then (if x.ring then (p.pl 8 8 + p.pl 24 8) % max (65536 * x.size) 1 else p.pl 8 8 + p.pl 24 8)
           else x.append))) ∧
      (s.depot.state = 2 → s.replies n (.nsWrite n host) 5 (fun t => s.sameMem t ∧ t.depot.ns = s.depot.ns ∧
        tabRead (t.pghAt n.val).resp 0x16 2 = 0x2E0A))) ∧
    (s.ready n 0x0508 → ∀ x, tfind s.depot.ns ns = some x →
      (∀ u, s.depot.state ≠ 2 → s.absent (spacesOf p) = false →
        (s.spacesOn (spacesOf p)).saveRanges ns (versionBase x.nextVer) (spacesOf p) = (u, false) →
        s.replies n (.checkpoint n) 0 (fun t => ∃ y v, tfind t.depot.ns ns = some y ∧ y.nextVer = x.nextVer + 1 ∧
          (0 < x.keep → v ∈ y.versions) ∧ v.num = x.nextVer ∧ v.ranges = spacesOf p ∧ v.shape = s.shapeHash)) ∧
      (s.depot.state = 2 → s.replies n (.checkpoint n) 5 (fun t => s.sameMem t ∧ t.depot.ns = s.depot.ns))) ∧
    (s.ready n 0x0509 →
      (∀ v, s.versionOf p = some v → v.shape = s.shapeHash →
        s.absent (if (spacesOf p).isEmpty then v.ranges else spacesOf p) = false →
        s.replies n (.restore n) 0 (fun t => t.upd.damaged = false ∧
          tabBytes (t.pghAt n.val).resp 0x40 4 = bytesOf v.step.toNat 4)) ∧
      (∀ v, s.versionOf p = some v → v.shape ≠ s.shapeHash → v.ranges.any (fun r => r.1 == 1) = true →
        s.replies n (.restore n) 6 (fun t => s.sameMem t ∧ t.upd = s.upd)) ∧
      (s.versionOf p = none → s.replies n (.restore n) 2 (fun t => s.sameMem t ∧ t.upd = s.upd))) ∧
    (s.ready n 0x050C → ∃ t, exec (.depotQuiesce n) s = .next t ∧ (t.pghAt n.val).begun = true ∧ t.depot.quiescing = true ∧
      s.sameMem t)

/-- The commands that set up the part (R416, R417): CONFIGURE sets the device's place and the home of each spare, brings enabled
ports up and takes idle ones that it disables down; TRACE places a berth's log region, at once or at the next frame start;
SET_FRAME sets the tick window, the source and the period; SET_CLOCK takes effect where no program runs and else waits;
POWER_LIMIT sets its register. -/
def Obligations.SetupCommands : Prop :=
  ∀ (n : Pgh) (s : State),
    let p := s.pghAt n.val
    (s.ready n 0x0601 → ∀ up rt peers, rt.length = 16 → peers.length = 16 → s.replies n (.configure n up rt peers) 0 (fun t =>
      let d := (s.configurePont p).pont
      let on (q : Nat) : Bool := (p.pl 0x12 2).testBit q && d.uses q
      t.pont.devId = BitVec.ofNat 18 (p.pl 0 4) ∧ t.pont.ndim = BitVec.ofNat 3 (p.pl 4 1) ∧ s.sameMem t ∧
      ∀ q < 16,
        (t.pport q).home = ((p.pl 0x10 1).testBit (q / 2) == (q % 2 == 1)) ∧
        (on q = true → (s.pport q).state = 2 → (t.pport q).state = 2) ∧
        (on q = true → (s.pport q).state ≠ 2 → (s.pport q).state ≠ 3 ∨ (p.pl 0x14 2).testBit q = true →
          up.getLsbD q = true → rt[q]?.getD 0 ≤ 15000 → (peers[q]?.getD 0).toNat = d.cabled q →
          (t.pport q).state = 2 ∧ (t.pport q).peer = peers[q]?.getD 0) ∧
        (on q = false → (s.pport q).state ≠ 2 ∨ ((s.pport q).replay = [] ∧ (s.pport q).txq = []) ∨ p.force = true →
          (t.pport q).state = 0))) ∧
    (s.ready n 0x0703 → p.berth < 16 →
      (s.frm.phase = 0 → s.replies n (.trace n) 0 (fun t => (t.region p.berth).base = p.pl 8 8 ∧
        (t.region p.berth).size = p.pl 16 8 ∧ (t.region p.berth).enable = BitVec.ofNat 8 (p.pl 0 1))) ∧
      (s.frm.phase ≠ 0 → s.replies n (.trace n) 0 (fun t => t.region p.berth = s.region p.berth ∧
        ∃ x, tfind t.obs.regPend p.berth = some x ∧ x.base = p.pl 8 8 ∧ x.size = p.pl 16 8 ∧
          x.enable = BitVec.ofNat 8 (p.pl 0 1)))) ∧
    (s.ready n 0x0801 → s.replies n (.setFrame n) 0 (fun t =>
      let m := p.pl 12 1
      (t.frm.early = (if m.testBit 2 then BitVec.ofNat 8 (p.pl 8 1) else s.frm.early)) ∧
      (t.frm.late = (if m.testBit 2 then BitVec.ofNat 8 (p.pl 9 1) else s.frm.late)) ∧
      (m.testBit 0 = false → m.testBit 1 = false → t.frm.src = s.frm.src ∧ t.frm.period = s.frm.period) ∧
      (m.testBit 0 = true → s.frm.phase = 0 → t.frm.src = BitVec.ofNat 2 (p.pl 0 4)) ∧
      (m.testBit 0 = true → s.frm.phase ≠ 0 → t.frm.src = s.frm.src ∧ t.frm.pendSrc = some (BitVec.ofNat 4 (p.pl 0 4))) ∧
      (m.testBit 1 = true → 200000 ≤ p.pl 4 4 → p.pl 4 4 ≤ 40000000 → s.frm.phase = 0 → t.frm.period = p.pl 4 4) ∧
      (m.testBit 1 = true → p.pl 4 4 < 200000 ∨ 40000000 < p.pl 4 4 →
        tabBytes (t.pghAt n.val).resp 0x40 1 = bytesOf 2 1))) ∧
    (s.ready n 0x0802 →
      (s.between = false → ∃ t, exec (.setClock n) s = .next t ∧ (t.pghAt n.val).begun = true ∧
        t.pwr.clkReq = some (p.pl 0 2, p.pl 2 1, p.pl 3 1) ∧ t.pwr.setMhz = s.pwr.setMhz) ∧
      (s.frm.phase = 0 → s.replies n (.setClock n) 0 (fun t => t.pwr.setMhz = p.pl 0 2 ∧ t.pwr.memStep = p.pl 2 1 ∧
        t.pwr.depotStep = p.pl 3 1 ∧ t.pwr.clkReq = none))) ∧
    (s.ready n 0x0803 → s.replies n (.powerLimit n) 0 (fun t => t.pwr.limitW = BitVec.ofNat 12 (p.pl 0 2) ∧ s.sameMem t))

/-! ### The Depot -/

/-- A channel serves the write or the read that its queue picks, unless its near side must wait for a bank; a write that a
read-only Depot gets is dropped, and a request 10 ms old completes without its far side (R307-R313, R327): each leaves the
queue. A unit 1 ms after its last write is closed (R307), a journal program makes the mapping durable (R311), a program that
has ended well maps its unit, and one that failed retires its block (R296, R314). -/
def Obligations.DepotRequests : Prop :=
  ∀ (ch : Chan) (s : State),
    let qk := queueKey 1 ch.val
    let leaves (c : Instr) (r : Req) (P : State → Prop) : Prop :=
      ∃ t, exec c s = .next t ∧ (∀ x ∈ (t.queueAt qk).reqs, x.id ≠ r.id) ∧ P t
    (∀ r : Req, (s.chanPick ch.val).filter (fun r => r.isWrite) = some r →
      let a := flashAddr (r.addr / 1125899906842624) (r.addr % 1125899906842624)
      (s.depot.state = 2 → leaves (.depotWriteRequest ch) r (fun t => ∀ b, t.depot.data.get b = s.depot.data.get b)) ∧
      (s.depot.state ≠ 2 → ∀ u v po acc, s.sourceRow r true = (u, v, po, acc) →
        (acc = .ok → leaves (.depotWriteRequest ch) r (fun t =>
          (∀ k < 64, t.depot.data.get (a + k) = BitVec.ofNat 8 (v.toNat / 256 ^ k)) ∧
          ∀ b, b < a ∨ a + 64 ≤ b → t.depot.data.get b = s.depot.data.get b)) ∧
        (acc = .refused → leaves (.depotWriteRequest ch) r (fun t => ∀ b, t.depot.data.get b = s.depot.data.get b)) ∧
        (acc = .wait → exec (.depotWriteRequest ch) s = .next (s.waitBank u (.depotWriteRequest ch))))) ∧
    (∀ (r : Req) (u w : State) (v : Row) (po : Bool) (acc : Access) (rec_ : Fin 6),
      (s.chanPick ch.val).filter (fun r => !r.isWrite) = some r →
      s.depotRead ch.val (r.addr / 1125899906842624) (r.addr % 1125899906842624) rec_.val = (u, v, po) →
      u.sinkRow r v po true = (w, acc) →
      (acc ≠ .wait → leaves (.depotReadRequest ch rec_) r (fun t => ∀ b, t.depot.data.get b = s.depot.data.get b)) ∧
      (acc = .wait → exec (.depotReadRequest ch rec_) s = .next (s.waitBank w (.depotReadRequest ch rec_)))) ∧
    (∀ (r : Req) (id : Nat),
      (s.queueAt qk).reqs.find? (fun r => r.id == id && decide (r.issued + 40000000 ≤ s.time)) = some r →
      leaves (.depotRequestTimeout ch id) r (fun t => ∀ b, t.depot.data.get b = s.depot.data.get b)) ∧
    (∀ (ns : Fin 64) (unit : Nat), exec (.unitCloseTimeout ns unit) s = .next (s.onDepot (fun d => d.closeUnits (fun u =>
      u.ns == ns.val && u.unit == unit && decide (u.lastWrite + 4000000 ≤ s.time))))) ∧
    (s.depot.journal ≠ 0 → s.depot.readable = true → ∃ t, exec .journalProgram s = .next t ∧
      t.depot.durable = s.depot.mapped ∧ t.depot.journal = 0) ∧
    (∀ u, s.depot.oldestClosed ch.val = some u → s.depot.state = 1 ∨ s.depot.state = 2 → s.depot.flushing = false →
      (∃ t, exec (.onfiStatusPoll ch false) s = .next t ∧
        tfind t.depot.map (unitKey u.ns u.unit) = some (u.chan, u.stripe)) ∧
      (∃ t, exec (.onfiStatusPoll ch true) s = .next t ∧ t.depot.mapped = s.depot.mapped ∧
        (tget t.depot.blocks (blockKey (s.depot.blockOf u.chan u.stripe)) .reset).retired = true))

/-- The upkeep of the Depot (R294-R298, R311-R317, R320, R448): retirement, failed LUNs, patrol and refresh, moves, retrains,
standby, bring-up of the recorded targets, and the end of a flush. -/
def Obligations.DepotUpkeep : Prop :=
  ∀ (ch : Chan) (tg lun : Fin 8) (b : BlockId) (s : State),
    let k := blockKey b
    let x := tget s.depot.blocks k .reset
    (s.depot.readable = true → ∀ r : Fin 5, exec (.blockRetire b r) s = .next (s.retireBlock b r.val)) ∧
    (x.retired = false → ∀ r, (tget (s.retireBlock b r).depot.blocks k .reset).retired = true) ∧
    (∃ t, exec (.lunFailed ch tg lun) s = .next t ∧ tget t.depot.lunDead (lunKey ch.val tg.val lun.val) false = true) ∧
    (∃ t, exec (.onfiTimeout ch tg lun) s = .next t ∧ OutMsg.onfi ch.val 0xFF (lunKey ch.val tg.val lun.val) ∈ t.out ∧
      (1 ≤ tget s.depot.lunFails (lunKey ch.val tg.val lun.val) 0 →
        tget t.depot.lunDead (lunKey ch.val tg.val lun.val) false = true)) ∧
    (s.depot.readable = true → x.retired = false → s.depot.map.any (fun e => s.depot.inBlock b e.2) = true →
      ∀ bits, 180 < bits → ∃ t, exec (.depotPatrol b bits) s = .next t ∧ (tget t.depot.blocks k .reset).refresh = true) ∧
    (s.depot.mayMove = true → x.refresh = true → x.retired = false → ∃ t, exec (.depotRefresh b) s = .next t ∧
      (tget t.depot.blocks k .reset).refresh = false ∧ (tget t.depot.blocks k .reset).erases = x.erases + 1) ∧
    (s.depot.mayMove = true → ∀ (ns : Fin 64) (unit : Nat), exec (.garbageCollection ns unit) s =
      .next (s.onDepot (fun d => d.moveUnits (fun key _ => key == unitKey ns.val unit)))) ∧
    (s.depot.mayMove = true → ∃ f, exec (.wearLevelling ch) s = .next (s.onDepot (fun d => d.moveUnits f)) ∧
      ∀ key loc, f key loc = true → loc.1 = ch.val) ∧
    (∃ t, exec (.depotChannelRetrain ch) s = .next t ∧ (t.depot.chanAt ch.val).blocked = s.time + 400000) ∧
    ((s.queueAt (queueKey 1 ch.val)).reqs = [] → (s.depot.chanAt ch.val).lastUse + 4000000 ≤ s.time →
      ∃ t, exec (.depotChannelStandby ch) s = .next t ∧ (t.depot.chanAt ch.val).standby = true) ∧
    (∀ uids, uids.length ≤ 2048 → s.depot.state = 0 → s.depot.found = [] → s.post.firmware = true →
      s.depot.uids ≠ [] → s.depot.uids ≠ uids → ∃ t, exec (.depotBringUp uids) s = .next t ∧ t.depot.state = 0) ∧
    (∀ uids, uids.length ≤ 2048 → s.depot.state = 0 → s.depot.found = [] → s.post.firmware = true →
      s.depot.uids = [] ∨ s.depot.uids = uids → ∃ t, exec (.depotBringUp uids) s = .next t ∧
        (t.depot.state = 1 ∨ t.depot.state = 2) ∧ t.depot.uids = uids) ∧
    (s.depot.flushing = true → s.pins.resetN = true → ∃ t, exec .depotFlushComplete s = .next t ∧ t.depot.state = 3 ∧
      t.depot.flushed = true)

/-! ### Pontoon -/

/-- The state of a port's link (R329-R337): lanes fail and the spare takes over, a port without a lane is down, a link without
progress for 50 µs or with 16 NAKs goes down and retrains, a third failed retraining in a row closes the port; an overdue
acknowledgement is sent; a flit whose words Reed-Solomon cannot correct asks once for a replay and gives no packet, a good one
in sequence is taken. -/
def Obligations.PontoonLinks : Prop :=
  ∀ (p : Port) (s : State),
    let x := s.pport p.val
    (∀ l : Fin 4, x.state = 2 → x.laneFail.getLsbD l.val = false → ∃ t, exec (.laneFailure p l) s = .next t ∧
      (t.pport p.val).laneFail.getLsbD l.val = true ∧ (t.pport p.val).width = x.width - 1 ∧
      (t.pport p.val).state = (if x.width = 1 ∨ x.width = 0 then 0 else 2)) ∧
    (x.home = true → x.spare = false → x.laneFail ≠ 0 → x.state ≠ 3 → ∃ t, exec (.spareLaneTrained p) s = .next t ∧
      (t.pport p.val).spare = true ∧ (t.pport p.val).state = 2) ∧
    (x.state = 2 → (x.replay ≠ [] ∧ x.progress + 200000 ≤ s.time) ∨ 16 ≤ x.naks → ∃ t, exec (.linkDown p) s = .next t ∧
      (t.pport p.val).state = 1) ∧
    (x.state = 1 → (∃ t, exec (.linkRetrainComplete p true) s = .next t ∧ (t.pport p.val).state = 2) ∧
      (x.fails < 2 → ∃ t, exec (.linkRetrainComplete p false) s = .next t ∧ (t.pport p.val).fails = x.fails + 1) ∧
      (2 ≤ x.fails → ∃ t, exec (.linkRetrainComplete p false) s = .next t ∧ (t.pport p.val).state = 3)) ∧
    (0 < x.unacked → x.ackFrom + 4000 ≤ s.time → ∃ t, exec (.ackTimer p) s = .next t ∧ (t.pport p.val).ctlDue = true) ∧
    (x.state = 2 → ∀ n, exec (.nak p n) s = .next (s.takeNak p.val n.toNat)) ∧
    (x.state = 2 → exec (.portFlitBoundary p) s = .next ((s.formPacket p.val).flitBoundary p.val)) ∧
    (∀ hdr body n, x.state = 2 → hdr.toNat / 2 ^ 18 % 4 = 1 ∨ hdr.toNat / 2 ^ 18 % 4 = 2 →
      (∃ t, exec (.pontFlitReceive p hdr body n true) s = .next t ∧
        (t.pport p.val).nakOut = true ∧ (t.pport p.val).rxSeq = x.rxSeq) ∧
      (hdr.toNat / 2 ^ 32 = (crc32 (bytesOf (hdr.toNat % 2 ^ 32) 4 ++ bytesOf body.toNat 248)).toNat →
        hdr.toNat % 16384 = x.rxSeq → ∃ t, exec (.pontFlitReceive p hdr body n false) s = .next t ∧
          (t.pport p.val).nakOut = false ∧ (t.pport p.val).rxSeq = (x.rxSeq + 1) % 16384))

/-- Packets (R339-R345, R349-R359): one for another device is routed on; one for this device that its range and its
collective allow takes effect and is answered, one that they do not allow is refused; responses end the operation they answer;
a decision from the leader is passed on by the deputy; a reserved opcode is dropped and counted (R373). -/
def Obligations.PontoonPackets : Prop :=
  ∀ (p : Port) (k : Packet) (s : State),
    let c := k.coll.toNat
    let w := s.takeRx p.val k
    let u := w.trigger c (w.pont.frameOf k.sfn.toNat)
    let other : Bool := (w.pont.coll c).any (fun x => x.active && x.sfn.setWidth 16 != k.sfn)
    let poisoned (t : State) : State := if k.poison then t.pktEvent 0x3006 k else t
    let ends (t : State) : State := ((poisoned t).complete k (if k.poison then 2 else 0)).collGot c
    let outcome := ((k.data[0]?).getD 0).toNat
    let clipped := ((k.data[1]?).getD 0).getLsbD 0
    let total := ofBytes ((k.data.drop 4).take 4)
    (k.dst ≠ s.pont.devId → ∀ i ∈ [Instr.write p k, .read p k, .readResp p k, .raccF32 p k, .raccAs8 p k, .rmax8 p k,
      .completion p k, .done p k, .decide p k], exec i s = .next (w.route k (some (p.val, 0)))) ∧
    (exec (.unreachablePacket p k) s = .next (w.route k (some (p.val, 0)))) ∧
    (exec (.reservedOpcPacket p k) s =
      .next ((w.onPont (fun d => { d with dropped := d.dropped + 1 })).pktEvent 0x300D k)) ∧
    (k.dst = s.pont.devId → s.rangeWakes (pktSpace k) (pktAddr k) (pktSpan k) = false → s.accFull k = false →
      s.rangeBusy (pktSpace k) (pktAddr k) (pktSpan k) = [] →
      (w.accepts k = false → other = false → ∀ i ∈ [Instr.write p k, .read p k, .raccF32 p k, .raccAs8 p k, .rmax8 p k],
        exec i s = .next ((w.pktEvent 0x3001 k).complete k 1)) ∧
      (w.accepts k = true → other = false →
        (k.opc ≠ 2 →
          exec (.write p k) s = .next (ends (u.putBytes (pktSpace k) (pktAddr k) (k.data.take k.len.toNat) k.poison)) ∧
          exec (.raccF32 p k) s = .next (ends (u.accRows (pktSpace k) (pktAddr k) k.data k.poison)) ∧
          (as8Blocks k = [] → exec (.raccAs8 p k) s = .next (ends u)) ∧
          (∀ b codes, as8Blocks k = [(b, codes)] → exec (.raccAs8 p k) s = .next (ends
            (let a := pktAddr k + 1024 * b
             let sc := match u.pont.coll c with
               | some x => u.scaleOf x.desc ((a - x.desc.target % 2 ^ 48) / 16384)
               | none => 127
             u.accRows (pktSpace k) a (codes.flatMap (fun e => bytesOf (as8Decode e.toNat sc) 4)) k.poison))) ∧
          (∃ v, exec (.raccAs8 p k) s = .next (ends v)) ∧
          (∀ v old po, u.getBytes (pktSpace k) (pktAddr k) k.len.toNat = (v, old, po) → exec (.rmax8 p k) s =
            .next (ends (v.putBytes (pktSpace k) (pktAddr k)
              ((old.zip (k.data.take k.len.toNat)).map (fun x => if x.1.toNat < x.2.toNat then x.2 else x.1)) (po || k.poison))))) ∧
        (k.opc = 2 → ∀ v bs po, u.getBytes (pktSpace k) (pktAddr k) k.len.toNat = (v, bs, po) →
          ∃ vc, exec (.read p k) s = .next ((poisoned (v.tickFresh.route { k with
            opc := 3, poison := po, dst := k.src, src := v.pont.devId, data := bs, vc := vc } none)).collGot c)))) ∧
    (k.dst = s.pont.devId → ∀ o, w.pont.opFor k (fun o => o == 2) = some o → k.poison = false →
      exec (.readResp p k) s = .next (w.endOp o (fun n => BitVec.ofNat 512 (ofBytes ((k.data.drop (64 * n)).take 64))) false)) ∧
    (k.dst = s.pont.devId → k.data = [0] → ∀ o, w.pont.opFor k (fun o => o != 2) = some o → o.opc ≠ 9 →
      exec (.completion p k) s = .next (w.endOp o (fun _ => 0) true)) ∧
    (k.dst = s.pont.devId → k.data = [1] → ∀ o, w.pont.opFor k (fun _ => true) = some o → o.opc ≠ 9 → o.reqs ≠ [] →
      exec (.completion p k) s = .next ((w.pktEvent 0x3001 k).noRow.1.endOp o (fun _ => (w.pktEvent 0x3001 k).noRow.2) true)) ∧
    (k.dst = s.pont.devId → (u.pont.coll c).any (fun x => x.sfn.setWidth 16 == k.sfn) = true →
      exec (.done p k) s = .next (u.holdDone c k.src (ofBytes (k.data.take 4)))) ∧
    (k.dst = s.pont.devId → ∀ x, w.pont.coll c = some x → x.sfn.setWidth 16 = k.sfn →
      (w.pont.devId ≠ x.desc.deputy ∨ k.src ≠ x.desc.leader ∨ x.told = true →
        exec (.decide p k) s = .next (w.actOn c outcome clipped total)) ∧
      (w.pont.devId = x.desc.deputy → k.src = x.desc.leader → x.told = false → exec (.decide p k) s =
        .next (((w.complete k 0).setColl { x with decision := some (outcome, clipped, total) }).broadcast c)))

/-- Time, ticks, heartbeats and failures on Pontoon (R346, R360-R372): a TIME packet sets the offset of a device that has joined,
with the delay of its link added, and takes one far behind forward; ticks reach the queue of known ones in order; a neighbour
whose ports are all down or silent is failed; operations and collectives that outlast their bounds end. -/
def Obligations.PontoonTimeAndFailures : Prop :=
  ∀ (p : Port) (s : State),
    let delay := (s.pport p.val).delay
    (∀ (k : Packet) (now : Nat), s.pont.master = false →
      (s.pont.joined = true ∨ (now : Int) + delay ≤ s.time + 4000 → ∃ t, exec (.time p k now false) s = .next t ∧
        t.pont.joined = true ∧ t.time = s.time ∧ t.pont.offset = satNs ((s.time : Int) - ((now + delay : Nat) : Int))) ∧
      (s.pont.joined = false → (s.time : Int) + 4000 < now + delay → ∃ t, exec (.time p k now false) s = .next t ∧
        t.pont.joined = true ∧ t.time = now + delay ∧ t.pont.jumped = true)) ∧
    (∀ n inst period, period < 2 ^ 32 → s.pont.master = false → s.pont.lastTick = none → s.sysTime + 4000 ≤ inst →
      s.frm.phase = 0 → exec (.tick p n inst period) s = .next (s.knowTick n.toNat inst period (some p.val))) ∧
    (∃ t, exec (.heartbeat p) s = .next t ∧ (t.pport p.val).heard = s.time) ∧
    (∀ dev, (s.pport p.val).state = 2 → exec (.failed p dev) s = .next (s.addFailed dev)) ∧
    ((∀ q < 16, (s.pport q).peer = (s.pport p.val).peer →
        ((s.pport q).state = 2 ∧ (s.pport q).heard + 400000 ≤ s.time) ∨ ∃ t, (s.pport q).downFrom = some t ∧ t + 400000 ≤ s.time) →
      s.pont.ndim ≠ 0 → exec (.neighbourFailure p) s = .next (s.addFailed (s.pport p.val).peer)) ∧
    (s.pont.ndim ≠ 0 → s.pont.sentBeat + 40000 ≤ s.time → exec .heartbeatTimer s = .next
      ((s.onPont (fun d => { d with sentBeat := s.time })).toPorts (fun dst => s.plainPkt 0x12 0 dst []) (fun _ => true))) ∧
    (s.pont.master = true → s.pont.sentTime + 40000 ≤ s.time → exec .timeDistribution s = .next
      ((s.onPont (fun d => { d with sentTime := s.time })).sendTime s.pont.devId s.sysTime)) ∧
    (∀ t1 t2 t3 t4, ∃ t, exec (.linkDelayMeasurement p t1 t2 t3 t4) s = .next t ∧
      (t.pport p.val).delays.getLast? = some (((t4 - t1) - (t3 - t2)) / 2) ∧ (t.pport p.val).delays.length ≤ 8) ∧
    (∀ f inst period, s.pont.master = true → s.pont.nextTick = some (f, inst, period) → inst ≤ s.sysTime + s.pont.lead →
      exec .tickFlood s = .next ((s.onPont (fun d => { d with
        nextTick := some ((f + 1) % 2 ^ 48, inst + period, period) })).knowTick f inst period none)) ∧
    (∀ t0, s.pont.lostFrom = some t0 → t0 + 4000000 ≤ s.time → ∃ t, exec .lockLoss s = .next t ∧ t.pont.lostFrom = none) ∧
    (∀ o, s.pont.ops.find? (fun x => x.id == o.id && decide (x.issued + 4000000 ≤ s.time)) = some o → o.reqs ≠ [] →
      exec (.remoteOpTimeout o.id) s = .next ((s.pktEvent 0x3002
        { s.plainPkt o.opc 1 o.dst [] with coll := o.coll, sfn := o.sfn, addr := o.addr }).endOp o (fun _ => 0) true)) ∧
    (∀ (c : BitVec 16) x, s.pont.coll c.toNat = some x → x.active = true → x.desc.gated = true →
      (x.decision = none → s.pont.devId = x.desc.leader → x.deadline ≤ s.sysTime →
        exec (.collectiveDeadline c) s = .next (s.decideColl c.toNat 1)) ∧
      (x.decision = none → s.pont.devId ≠ x.desc.leader → s.pont.decides x = true → x.deadline + 200000 ≤ s.sysTime →
        exec (.collectiveDeadline c) s =
          .next (s.decideColl c.toNat (if x.desc.members ≤ x.dones.length then 0 else 1))) ∧
      (x.decided = none → x.deadline + s.pont.wait ≤ s.sysTime →
        exec (.decisionWaitExpiry c) s = .next (s.actOn c.toNat 2 false 0)))

/-! ### The host link -/

/-- The host link (R376, R378, R381-R385, R392): an error retrains it, the third failed retrain in a row takes it down; a
host write of a 64 B line in host bias stores it and a read returns it, a line in device bias returns all ones and stores
nothing; a BAR2 write of a deck column that is on stores its bytes and a read returns them, either waits for a bank that
another access has (R220); an answer to a request that was sent, or its limit, ends the request; the limit of a bias flip ends
the flip of its page. -/
def Obligations.HostLink : Prop :=
  ∀ s : State,
    (s.host.status = 2 → s.host.retrain = false → ∃ t, exec .ucieLinkError s = .next t ∧ t.host.retrain = true) ∧
    (s.host.retrain = true →
      (∃ t, exec (.ucieRetrainComplete true) s = .next t ∧ t.host.retrain = false ∧ t.host.fails = 0 ∧
        t.host.status = s.host.status) ∧
      (s.host.fails < 2 → exec (.ucieRetrainComplete false) s = .next (s.onHost (fun h => { h with fails := h.fails + 1 }))) ∧
      (2 ≤ s.host.fails → ∃ t, exec (.ucieRetrainComplete false) s = .next t ∧ t.host.status = 3)) ∧
    (∀ hpa, exec (.hostSnoop hpa) s = .next (s.emit (.snoopResp hpa))) ∧
    (∀ hpa, ∃ t, exec (.unsupportedRequest hpa) s = .next t ∧ OutMsg.hostUR ∈ t.out ∧ s.sameMem t) ∧
    (∀ (da : Nat) (v : Row), da % 64 = 0 → da < 2 ^ 48 → da < s.hdmSize → da < s.lpCap → s.underScrub 2 da = false →
      (inPages s.host.devBias (da / 4096) = false → s.flipping (da / 4096) = false → s.hostLp da = true →
        (∃ t, exec (.hostMemAccess true da v) s = .next t ∧
          (∀ k < 64, t.lp.get (da + k) = BitVec.ofNat 8 (v.toNat / 256 ^ k)) ∧
          (∀ a, a < da ∨ da + 64 ≤ a → t.lp.get a = s.lp.get a) ∧ ∀ a, t.nst.get a = s.nst.get a ∧ t.deck.get a = s.deck.get a) ∧
        (s.lp.marks = [] → ∃ t, exec (.hostMemAccess false da v) s = .next t ∧ s.sameMem t ∧
          t.out = s.out ++ [.hostData (bytesOf (s.lp.read da 64) 64) false])) ∧
      (inPages s.host.devBias (da / 4096) = true →
        (∃ t, exec (.hostMemAccess true da v) s = .next t ∧ s.sameMem t) ∧
        (∃ t, exec (.hostMemAccess false da v) s = .next t ∧ s.sameMem t ∧
          OutMsg.hostData (List.replicate 64 0xFF) false ∈ t.out))) ∧
    (∀ (off : Nat) (data : List Byte), off < 12884901888 → wfBar2 true off data data.length = true →
      let p := off / 67108864
      let g := off % 67108864 / 256
      s.deckPresent p g = true → s.hostDeck p g = true → s.underScrub 1 off = false → s.deckState p g = 0 →
      s.granSaved p g = false →
      ((s.takeBank p (deckBankKey p g)).2 = .ok →
        (∃ t, exec (.bar2Access true off data data.length) s = .next t ∧
          (∀ k < data.length, t.deck.get (off + k) = data.getD k 0) ∧
          (∀ a, a < off ∨ off + data.length ≤ a → t.deck.get a = s.deck.get a) ∧
          ∀ a, t.nst.get a = s.nst.get a ∧ t.lp.get a = s.lp.get a) ∧
        (∃ t, exec (.bar2Access false off data data.length) s = .next t ∧ s.sameMem t ∧
          OutMsg.hostData (s.deck.bytes off data.length) false ∈ t.out)) ∧
      ((s.takeBank p (deckBankKey p g)).2 = .wait → ∀ w, ∃ t, exec (.bar2Access w off data data.length) s = .next t ∧
        s.sameMem t ∧ t.out = s.out ∧ Instr.bar2Access w off data data.length ∈ t.bankUse.waiting)) ∧
    (∀ id m r, s.findHostReq id = some (m, r) →
      let gone (c : Instr) : Prop := ∃ t, exec c s = .next t ∧ ∀ x ∈ (t.queueAt (queueKey 3 m)).reqs, x.id ≠ id
      (∀ data po, r.sent = true → r.isWrite = true → data.length ≤ 64 → gone (.deviceRequestCompletion id data po)) ∧
      (∀ data u acc, r.sent = true → r.isWrite = false → data.length ≤ 64 →
        s.sinkRow r (BitVec.ofNat 512 (ofBytes data)) false true = (u, acc) → acc ≠ .wait →
        gone (.deviceRequestCompletion id data false)) ∧
      (∀ q page, r.kind = .flip q page → r.issued + 16000 ≤ s.time → ∃ t, exec (.deviceRequestTimeout id) s = .next t ∧
        t.flipping page = false ∧ t.host.devBias = s.host.devBias) ∧
      ((∀ q g, r.kind ≠ .flip q g) → r.issued + 4000000 * s.host.cto.toNat ≤ s.time → gone (.deviceRequestTimeout id)))

/-! ### Clocks and power -/

/-- Clocks, the regulator, the limits and the temperature (R424-R427, R432-R436, R439-R446): what each event sets. A
stretch restarts the period; a lost clock stops its cluster, which goes on when it comes back within 10 µs and else ends
the program; a time sample sets a cluster's counter forward; a reference lost is held over; an emergency trigger lowers
floor and target by one step of 150 MHz; telemetry, the sustained limit and thermal samples set their readings. -/
def Obligations.ClocksAndPower : Prop :=
  ∀ (j : Clu) (s : State),
    let c := s.cluAt j.val
    (∃ t, exec (.droopStretch j) s = .next t ∧ (t.cluAt j.val).phaseAcc = 0 ∧ (t.cluAt j.val).slot = c.slot) ∧
    (∃ t, exec (.slowLoopWindow j) s = .next t ∧ (t.cluAt j.val).boost = min (s.pwr.nowMhz * 3 / 100) ((c.lag + 3999) / 4000)) ∧
    (c.clockLost = none → ∃ t, exec (.clockLoss j) s = .next t ∧ (t.cluAt j.val).clockLost = some s.time) ∧
    (∀ t0, c.clockLost = some t0 → c.clockOut = false →
      (s.time ≤ t0 + 40000 → ∃ t, exec (.clockRestored j) s = .next t ∧ (t.cluAt j.val).clockLost = none ∧
        (t.cluAt j.val).timeLag = c.timeLag + (s.time - t0)) ∧
      (t0 + 40000 ≤ s.time → ∃ t, exec (.clockRestoreTimeout j) s = .next t ∧ t.post.noRun = true ∧
        ∀ p, posClu p = j.val → p < 192 → t.isSuspect p = true)) ∧
    (∃ t, exec .timeSample s = .next t ∧ (c.clockLost = none → (t.cluAt j.val).timeLag = 0)) ∧
    (s.pwr.holdover = false → ∃ t, exec .refclkLoss s = .next t ∧ t.pwr.holdover = true ∧
      (s.frm.phase = 1 → s.frm.drainFrom = none → t.frm.stopReq = true)) ∧
    (∀ p : Port, ∃ t, exec .pontRefclkLoss s = .next t ∧
      (t.pport p.val).state = (if (s.pport p.val).state = 2 then 1 else (s.pport p.val).state)) ∧
    (∀ which : Fin 4, ∃ t, exec (.emergencyTrigger which) s = .next t ∧ t.pwr.emerg = min 3 (s.pwr.emerg + 1) ∧
      t.pwr.nowMhz = 1850 - 150 * min 3 (s.pwr.emerg + 1) ∧ t.frm.floorNext = t.pwr.nowMhz ∧
      t.pwr.trigger.toNat = which.val + 1) ∧
    (∀ t0, s.pwr.trigAt = some t0 → t0 + 40000000 ≤ s.time → s.frm.floorNext < 1850 →
      ∃ t, exec .emergencyFloorRaise s = .next t ∧ t.frm.floorNext = s.frm.floorNext + 150) ∧
    (∃ t, exec (.replicaWarning j) s = .next t ∧ t.pwr.warnedAt = s.time) ∧
    (s.firmwareActs = true →
      (∀ (mv : Nat) (ma tc : Int), s.pwr.setMv.toNat ≤ mv + 30 → mv ≤ s.pwr.setMv.toNat + 30 → 0 ≤ ma → ma ≤ 2400000 → -40 ≤ tc →
        tc ≤ 150 → ∃ t, exec (.avsTelemetry mv ma tc) s = .next t ∧ t.pwr.readMv = BitVec.ofNat 10 mv ∧ t.pwr.avsFail = false) ∧
      (s.pwr.tries < 2 → ∃ t, exec .avsResponseTimeout s = .next t ∧ t.pwr.tries = s.pwr.tries + 1) ∧
      (s.runs = true → s.pwr.warnedAt + 40000000000 ≤ s.time → s.between = false →
        ∃ t, exec .voltageLowerTimer s = .next t ∧ t.pwr.lowerMv = 5) ∧
      (∀ avg ms : Nat, s.between = false → s.pwr.limitW.toNat < avg →
        ∃ t, exec (.powerLimitCheck avg ms) s = .next t ∧ t.pwr.delta = s.pwr.delta - 25)) ∧
    (∀ avg ms : Nat, ms < 4096 → ∃ t, exec (.powerLimitCheck avg ms) s = .next t ∧ t.pwr.powerW.toNat = ms) ∧
    (∀ rs ds, rs.length = 56 → ∃ t, exec (.thermalSample rs ds) s = .next t ∧
      ∀ k < 56, tget t.pwr.sensors k 0 = rs.getD k 0) ∧
    (∃ t, exec .thermtrip s = .next t ∧ t.pins.thermtripN = false ∧ t.pwr.tripped = true)

/-! ### Pins, boot and the management ports -/

/-- RESET_N, the rails and the delivery (R447, R466, R476, R478-R480, R487, R494, R527). RESET_N low for 1 µs puts every domain
at its reset values, and what lies on VDD_AON stays; its rise marches the memories to zero and waits for a delivery; a
delivery without a host link, or of an image that does not verify, is rejected; REENTER waits for the next one. -/
def Obligations.PinsAndBoot : Prop :=
  ∀ s : State,
    (∀ ns, s.pins.resetN = true → ns < 1000 → ∃ t, exec (.resetNAssert ns) s = .next t ∧ t.pins.shortPulse = true ∧ s.sameRegs t ∧
      s.sameMem t) ∧
    (∀ ns, s.pins.resetN = true → 1000 ≤ ns → ∃ t, exec (.resetNAssert ns) s = .next t ∧ t.pins.resetN = false ∧
      State.reset.sameRegs t ∧ t.frm = State.reset.frm ∧ t.flt.suspect = s.flt.suspect ∧ t.pwr.tripped = s.pwr.tripped ∧
      t.boot.phase = 0) ∧
    (∃ t, exec .vddAonPowerUp s = .next t ∧ t.flt.suspect = [] ∧ t.pwr.tripped = false ∧ t.pins.resetN = false) ∧
    (∀ f, s.boot.phase = 0 → ∃ t, exec (.resetNRelease f) s = .next t ∧ t.pins.resetN = true ∧ t.boot.phase = 1 ∧
      (∀ a, t.nst.get a = 0 ∧ t.deck.get a = 0)) ∧
    (∀ ns, s.pins.pwrFailN = true → 200 ≤ ns → ∃ t, exec (.pwrFailNFall ns) s = .next t ∧ t.pins.pwrFailN = false ∧
      (s.pins.resetN = true → s.depot.state = 1 ∨ s.depot.state = 2 → t.depot.flushing = true) ∧
      (s.depot.state = 0 → t.depot.state = 3)) ∧
    (∀ ns, ns < 200 → ∃ t, exec (.pwrFailNFall ns) s = .next t ∧ t.depot = s.depot ∧ s.sameMem t ∧ s.sameRegs t) ∧
    (∀ host volt, s.boot.phase = 1 → s.host.status ≠ 2 → ∃ t, exec (.deliverGo host volt) s = .next t ∧ t.boot.phase = 1 ∧
      t.boot.fwResult = 3) ∧
    (∀ host volt, s.boot.phase = 1 → s.host.status = 2 → s.boot.step5 = true →
      let r := viewBytes host s.boot.fwAddr.toNat (max 5120 s.boot.fwLen.toNat)
      (fwCheck r s.boot.fwLen.toNat ≠ 1 → ∃ t, exec (.deliverGo host volt) s = .next t ∧ t.boot.phase = 1) ∧
      (fwCheck r s.boot.fwLen.toNat = 1 → s.shape.unusable = false → ∃ t, exec (.deliverGo host volt) s = .next t ∧
        t.post.firmware = true ∧ t.boot.fwResult = 1 ∧ ∀ i < 16, (t.mportAt i).trained = true)) ∧
    (∀ host volt, s.boot.phase = 1 → s.host.status = 2 → s.boot.step5 = false → ∃ t, exec (.deliverGo host volt) s = .next t ∧
      t.boot.step5 = true ∧ t.shape.built = true ∧ s.sameMem t) ∧
    (s.boot.phase = 3 → s.frm.prog = none → s.frm.halted = false → ∃ t, exec .reenter s = .next t ∧ t.boot.phase = 1 ∧
      t.post.firmware = false ∧ (s.running = [] → s.sameMem t) ∧ ∀ n < 64, (t.pghAt n).state = 0 ∨ (t.pghAt n).state = 3)

/-- The berth table is volatile (R494): RESET_N clears the shadow and the live table to zero, so that no berth is enabled and
no pigeonhole from 4 to 63 has an owner; a REENTER keeps both. -/
def Obligations.BerthTableVolatile : Prop :=
  ∀ s : State,
    (∀ ns, s.pins.resetN = true → 1000 ≤ ns → ∃ t, exec (.resetNAssert ns) s = .next t ∧
      (∀ off n, tabRead t.brt.shadow off n = 0 ∧ tabRead t.brt.live off n = 0) ∧
      (∀ b < 16, brtEnabled t.brt.live b = false) ∧ ∀ n, 4 ≤ n → n < 64 → t.owner n = 0x1F) ∧
    (∃ t, exec .reenter s = .next t ∧ t.brt.shadow = s.brt.shadow ∧ t.brt.live = s.brt.live)

/-- The tick rails, the Postmaster pairs, the checkers, the management port and the test port (R454, R467, R469, R476, R523,
R524): a rail that fails three frames in a row is retired; the first mismatch of a pair brings the spare into service, one
without a spare halts the device; the test port's four instructions, EXTEST only while RESET_N is low. -/
def Obligations.PortsPairsAndCheckers : Prop :=
  ∀ s : State,
    (∀ (j : Clu) (rail : Fin 2), (s.cluAt j.val).railRetired = 0 → (s.cluAt j.val).railFail = none →
      ∃ t, exec (.tickRailMismatch j rail) s = .next t ∧ (t.cluAt j.val).railFail = some (rail.val, 1, s.frm.frameNum.toNat)) ∧
    (∀ (j : Clu) (rail : Fin 2) f, (s.cluAt j.val).railRetired = 0 → (s.cluAt j.val).railFail = some (rail.val, 2, f) →
      f + 1 = s.frm.frameNum.toNat → s.firmwareActs = true → ∃ t, exec (.tickRailMismatch j rail) s = .next t ∧
        (t.cluAt j.val).railRetired = 1#2 <<< rail.val) ∧
    (s.frm.halted = false →
      (s.post.spareUsed = false → ∃ t, exec .postmasterMismatch s = .next t ∧ t.post.spareUsed = true ∧ t.post.switching = true) ∧
      (s.post.spareUsed = true → ∃ t, exec .postmasterMismatch s = .next t ∧ t.frm.halted = true) ∧
      (s.post.switching = true → ∃ t, exec .sparePairInService s = .next t ∧ t.post.switching = false ∧
        ∀ n < 64, (s.pghAt n).state = 1 → (t.pghAt n).state = 1)) ∧
    (exec (.firmwareCheckerTest false) s = .next s) ∧
    (s.firmwareActs = true → exec (.firmwareCheckerTest true) s = .next (s.raise { code := 0x1005 })) ∧
    (∀ j : Clu, s.frm.phase = 0 → ∃ t, exec (.idleCheckerExercise j []) s = .next t ∧
      (t.cluAt j.val).checker = (s.cluAt j.val).checker + 1) ∧
    (∀ (j : Clu) (p : Pos), s.frm.phase = 0 → posClu p.val = j.val → s.isLive p.val = true →
      ∃ t, exec (.idleCheckerExercise j [p]) s = .next t ∧ t.isSuspect p.val = true) ∧
    (s.pins.resetN = true →
      (exec (.i3cRead 0) s = .next (s.emit (.i3c (BitVec.ofNat 64 s.bootStatus)))) ∧
      (exec (.i3cRead 0x14) s = .next (s.emit (.i3c (BitVec.ofNat 64 (s.tree 0x10000).toNat)))) ∧
      (exec .i3cBusHeld s = .next (s.raise { code := 0x1702 })) ∧
      (exec .i3cTransactionTimeout s = .next (s.raise { code := 0x1703 })) ∧
      ∃ t, exec .extest s = .next t ∧ t.pins.jtag = .bypass) ∧
    (s.pins.resetN = false → ∃ t, exec .extest s = .next t ∧ t.pins.jtag = .extest) ∧
    (∃ t, exec .bypass s = .next t ∧ t.pins.jtag = .bypass ∧ t.out = s.out) ∧
    (∃ t, exec .idcode s = .next t ∧ t.pins.jtag = .idcode ∧ t.out = s.out ++ [.jtag 0x16A17A5B]) ∧
    (∃ t w, exec .samplePreload s = .next t ∧ t.pins.jtag = .sample ∧ t.out = s.out ++ [.jtag w]) ∧
    (∀ ns, ns < 1000 → exec (.trstNAssert ns) s = .next s) ∧
    (∀ ns, 1000 ≤ ns → ∃ t, exec (.trstNAssert ns) s = .next t ∧ t.pins.jtag = .idcode)

/-! ### Counters, trace and registers -/

/-- A parity error of a counter clears it, sets its OVF bit and raises fault 0x33.03, which spoils nothing (R499). -/
def Obligations.CounterParityErrors : Prop :=
  ∀ (c : CounterId) (s : State), ∃ t, exec (.counterParityError c) s = .next t ∧
    let k := cntKey c.blk.val c.unit.val c.idx.val
    (∀ m : CounterId, cntKey m.blk.val m.unit.val m.idx.val = k ∨ (c.blk.val = 8 ∧ m.blk.val = 8 ∧ m.unit = c.unit ∧ m.idx.val = 11) ∨
      tget t.cnt.val (cntKey m.blk.val m.unit.val m.idx.val) 0 = tget s.cnt.val (cntKey m.blk.val m.unit.val m.idx.val) 0) ∧
    tget t.cnt.val k 0 = (if c.blk.val = 8 ∧ c.idx.val = 11 ∧ s.isLive c.unit.val = true then 1 else 0) ∧ tget t.cnt.ovf k false = true ∧
    (tget t.flt.leaves 0x1E308 0).getLsbD 3 = true ∧ t.frm = s.frm ∧ t.flt.dues = s.flt.dues ∧ t.upd = s.upd

/-- Latches, bandwidth windows, trace regions and the registers (R461, R472, R490, R499-R512, R386): a node latches the counters that
it keeps; a window's end shows its rates; ACK frees the oldest records, and the CLR bits clear their counts; ones clear
bits of a leaf; a good berth table commits, REVERT takes the live one back; an index of the host that goes forward within
the ring is taken, one that goes backward is not; register writes act where their field takes the value. -/
def Obligations.CountersTraceAndRegisters : Prop :=
  ∀ s : State,
    (exec .cntLatch s = .next s.adminLatch ∧ ∃ j, s.adminLatch.obs.jobs = s.obs.jobs ++ [j] ∧ j.trigger = 3 ∧ j.time = s.time) ∧
    (∀ j node, s.obs.jobs = [j] → j.trigger ≠ 2 → s.time ≤ j.time + 600 → ∃ t j', exec (.courierCounterLatch node) s = .next t ∧
      t.obs.jobs = [j'] ∧ ∀ k, nodeKeeps node.val k = false → tfind j'.val k = tfind j.val k) ∧
    (s.obs.bwFrom + 4000 * s.obs.bwUs ≤ s.time → ∃ t, exec .bwWindowBoundary s = .next t ∧
      t.obs.bwFrom = s.obs.bwFrom + 4000 * s.obs.bwUs ∧ t.obs.bwUs = s.obs.bwPend.getD s.obs.bwUs) ∧
    (s.obs.jobs = [] → exec .counterPageWrite s = .next s) ∧
    (∀ j r u, s.obs.jobs = j :: r → j.berth = none → s.ringBlocked = false → s.takeShare 1024 = some u →
      ∃ t, exec .counterPageWrite s = .next t ∧ t.obs.jobs = r ∧ t.obs.pageIdx = s.obs.pageIdx + 1 ∧ t.obs.mirror = some j) ∧
    (s.obs.sinkIn = [] → s.obs.queue = [] → exec .traceRecordWrite s = .next s) ∧
    (∀ x q u, s.obs.sinkIn = [] → s.obs.queue = x :: q → (s.region x.region).size ≠ 0 → (s.region x.region).unsaid = 0 →
      x.region ≠ 16 → (s.onObs (fun o => { o with queue := q })).takeShare 1 = some u →
      exec .traceRecordWrite s = .next (u.putRec x.region x.body)) ∧
    (∀ r : Fin 17, ((s.region r.val).size = 0 → exec (.traceControlUpdate r) s = .next s) ∧
      ((s.region r.val).size ≠ 0 → exec (.traceControlUpdate r) s = .next (s.lpWriteBytes (s.region r.val).base
        (bytesOf (s.region r.val).written 8 ++ bytesOf (s.region r.val).lost 8 ++ bytesOf (s.region r.val).cap 4 ++
          List.replicate 4076 0) false))) ∧
    (∀ (log : Fin 13) (n : BitVec 9),
      let l (t : State) : LogSt := tget t.flt.logs log.val .reset
      (∃ t, exec (.logAckFree log n) s = .next t ∧ l t = { l s with recs := (l s).recs.drop n.toNat }) ∧
      (∃ t, exec (.clrSupp log) s = .next t ∧ l t = { l s with supp := 0 }) ∧
      (∃ t, exec (.clrLost log) s = .next t ∧ l t = { l s with lost := 0 })) ∧
    (∀ (off : BitVec 20) (v : Word), isLeaf off.toNat = true → ∃ t, exec (.leafW1cClear off v) s = .next t ∧
      tget t.flt.leaves off.toNat 0 = tget s.flt.leaves off.toNat 0 &&& ~~~(v &&& ~~~(s.flt.setAt s.time off.toNat)) ∧
      ∀ k, k ≠ off.toNat → tget t.flt.leaves k 0 = tget s.flt.leaves k 0) ∧
    (∃ t, exec .brtCommitRevert s = .next t ∧ t.brt.shadow = s.brt.live ∧ t.brt.live = s.brt.live) ∧
    (exec (.brtCommitGo false) s = .next s) ∧
    (s.tableErr s.brt.shadow = none → ∃ t, exec (.brtCommitGo true) s = .next t ∧ t.brt.live = s.brt.shadow ∧ t.brt.err = 0) ∧
    (∀ off err, s.tableErr s.brt.shadow = some (off, err) → ∃ t, exec (.brtCommitGo true) s = .next t ∧ t.brt.live = s.brt.live ∧
      t.brt.err = BitVec.ofNat 3 err ∧ t.brt.errOffset = BitVec.ofNat 14 off) ∧
    (∀ (b : Port) (w : Fin 3) (r : RingDesc) (v : Word), w ≠ 2 → tfind s.host.rings (4 * b.val + w.val) = some r →
      let k := 4 * b.val + w.val
      (0 ≤ (v - tget s.host.idx k 0).toInt → (v - tget s.host.dev k 0).toInt ≤ r.count →
        ∃ t, exec (.hostIdxWrite b w v) s = .next t ∧ tget t.host.idx k 0 = v) ∧
      ((v - tget s.host.idx k 0).toInt < 0 → ∃ t, exec (.hostIdxWrite b w v) s = .next t ∧
        tget t.host.idx k 0 = tget s.host.idx k 0)) ∧
    (∀ v : DWord, ∃ t, exec (.registerWrite 0x18 v false true) s = .next t ∧ t.boot.fwLen.toNat = v.toNat % 2 ^ 23) ∧
    (∀ v : DWord, ∃ t, exec (.registerWrite 0x80000 v false false) s = .next t ∧ t.obs.framePages = v.getLsbD 0 ∧
      t.obs.cmdPages = v.getLsbD 1) ∧
    (∀ v : DWord, 1 ≤ v.toNat % 65536 → v.toNat % 65536 ≤ 1000 → ∃ t, exec (.registerWrite 0x100000 v false false) s = .next t ∧
      t.host.cto = v.setWidth 16) ∧
    (∀ v : DWord, exec (.registerWrite 0x2000 v false false) s = .next s)
end

