-- ==== Sys2Proof/Laws/Tab.lean ====
section
/-! SUPPORT. Tables: what a set, a deletion and a map of values leave to be read. -/

namespace Sys2Proof.Machine

theorem tfind_tset_same (t : Tab α) (k : Nat) (v : α) : tfind (tset t k v) k = some v := by
  induction t with
  | nil => simp [tset, tfind]
  | cons e r ih =>
    obtain ⟨k', v'⟩ := e
    simp only [tset]
    split
    · simp [tfind]
    · split
      · simp [tfind]
      · rename_i h; simp [tfind, h, ih]

theorem tfind_tset_ne (t : Tab α) {k m : Nat} (v : α) (h : m ≠ k) : tfind (tset t k v) m = tfind t m := by
  induction t with
  | nil => simp [tset, tfind, h]
  | cons e r ih =>
    obtain ⟨k', v'⟩ := e
    simp only [tset]
    split
    · simp [tfind, h]
    · split
      · rename_i h2; subst h2; simp [tfind, h]
      · simp [tfind, ih]

/-- A table read with a default is the lookup with that default. -/
theorem tget_eq (t : Tab α) (k : Nat) (d : α) : tget t k d = (tfind t k).getD d := by
  induction t with
  | nil => rfl
  | cons e r ih =>
    obtain ⟨k', v'⟩ := e
    simp only [tget, tfind]
    split
    · rfl
    · exact ih

@[simp] theorem tget_tset_same (t : Tab α) (k : Nat) (v d : α) : tget (tset t k v) k d = v := by
  rw [tget_eq, tfind_tset_same, Option.getD_some]

theorem tget_tset_ne (t : Tab α) {k m : Nat} (v d : α) (h : m ≠ k) : tget (tset t k v) m d = tget t m d := by
  rw [tget_eq, tget_eq, tfind_tset_ne t v h]

/-- A read after a set, at any key. -/
theorem tget_tset (t : Tab α) (k m : Nat) (v d : α) : tget (tset t k v) m d = if m = k then v else tget t m d := by
  split
  · rename_i h; subst h; exact tget_tset_same t m v d
  · rename_i h; exact tget_tset_ne t v d h

theorem tfind_tdel_same (t : Tab α) (k : Nat) : tfind (tdel t k) k = none := by
  induction t with
  | nil => rfl
  | cons e r ih =>
    obtain ⟨k', v'⟩ := e
    simp only [tdel, List.filter_cons] at ih ⊢
    split
    · rename_i h
      have : k ≠ k' := fun hk => by simp [hk] at h
      simpa [tfind, this] using ih
    · exact ih

theorem tfind_tdel_ne (t : Tab α) {k m : Nat} (h : m ≠ k) : tfind (tdel t k) m = tfind t m := by
  induction t with
  | nil => rfl
  | cons e r ih =>
    obtain ⟨k', v'⟩ := e
    simp only [tdel, List.filter_cons] at ih ⊢
    split
    · simp [tfind, ih]
    · rename_i h2
      have h2 : k' = k := by simpa using h2
      subst h2
      simpa [tfind, h] using ih

@[simp] theorem tget_tdel_same (t : Tab α) (k : Nat) (d : α) : tget (tdel t k) k d = d := by
  rw [tget_eq, tfind_tdel_same, Option.getD_none]

theorem tget_tdel_ne (t : Tab α) {k m : Nat} (d : α) (h : m ≠ k) : tget (tdel t k) m d = tget t m d := by
  rw [tget_eq, tget_eq, tfind_tdel_ne t h]

/-- A table whose values a function changes: what it reads at a listed key. -/
theorem tfind_map (t : Tab α) (f : Nat → α → β) (k : Nat) :
    tfind (t.map (fun e => (e.1, f e.1 e.2))) k = (tfind t k).map (f k) := by
  induction t with
  | nil => rfl
  | cons e r ih =>
    obtain ⟨k', v'⟩ := e
    simp only [List.map_cons, tfind]
    split
    · rename_i h; subst h; rfl
    · exact ih

/-- A table listed over a range of keys. -/
theorem tget_range (n k : Nat) (f : Nat → α) (d : α) (h : k < n) :
    tget ((List.range n).map (fun i => (i, f i))) k d = f k := by
  have : ∀ (l : List Nat), k ∈ l → tget (l.map (fun i => (i, f i))) k d = f k := by
    intro l
    induction l with
    | nil => intro hk; cases hk
    | cons a r ih =>
      intro hk
      simp only [List.map_cons, tget]
      split
      · rename_i h2; rw [h2]
      · rename_i h2
        exact ih (by simpa [h2] using hk)
  exact this _ (List.mem_range.mpr h)

theorem tset_keys (t : Tab α) (k : Nat) (v : α) : ∀ e ∈ tset t k v, e = (k, v) ∨ e ∈ t := by
  induction t with
  | nil => simp [tset]
  | cons e r ih =>
    obtain ⟨k', v'⟩ := e
    intro x hx
    simp only [tset] at hx
    split at hx
    · simpa using hx
    · split at hx
      · rcases List.mem_cons.mp hx with h | h
        · exact .inl h
        · exact .inr (List.mem_cons_of_mem _ h)
      · rcases List.mem_cons.mp hx with h | h
        · exact .inr (by simp [h])
        · rcases ih x h with h | h
          · exact .inl h
          · exact .inr (List.mem_cons_of_mem _ h)

end Sys2Proof.Machine
end

