-- ==== Sys2Proof/Laws/Mem.lean ====
section
/-! SUPPORT. Memories: what each operation leaves to be read, and that each keeps the canonical form. -/

namespace Sys2Proof.Machine

/-! ### Reads -/

/-- A byte read after a byte written (R4). -/
theorem Mem.get_set (m : Mem) (a b : Nat) (v : Byte) : (m.set a v).get b = if b = a then v else m.get b := by
  have hd : (m.set a v).dflt b = m.dflt b := by unfold Mem.set; split <;> rfl
  unfold Mem.get
  rw [hd]
  by_cases h : v = m.dflt a
  · simp only [Mem.set, h, if_true]
    split
    · rename_i hb; subst hb; simp
    · rename_i hb; exact tget_tdel_ne _ _ hb
  · simp only [Mem.set, h, if_false]
    exact tget_tset _ _ _ _ _

@[simp] theorem Mem.get_set_same (m : Mem) (a : Nat) (v : Byte) : (m.set a v).get a = v := by simp [Mem.get_set]
theorem Mem.get_set_ne (m : Mem) {a b : Nat} (v : Byte) (h : b ≠ a) : (m.set a v).get b = m.get b := by simp [Mem.get_set, h]

/-- A write of `n` bytes under a mask leaves every address outside them as it was. -/
theorem Mem.get_write_out (m : Mem) (a v mask n b : Nat) (h : b < a ∨ a + n ≤ b) : (m.write a v mask n).get b = m.get b := by
  induction n generalizing m a v mask with
  | zero => rfl
  | succ n ih =>
    simp only [Mem.write]
    rw [ih _ _ _ _ (by omega)]
    split
    · exact Mem.get_set_ne _ _ (by omega)
    · rfl

/-- Byte k of the bytes written, where bit k of the mask is set. -/
theorem Mem.get_write_in (m : Mem) (a v mask n k : Nat) (h : k < n) :
    (m.write a v mask n).get (a + k) = if mask.testBit k then BitVec.ofNat 8 (v / 256 ^ k) else m.get (a + k) := by
  induction n generalizing m a v mask k with
  | zero => omega
  | succ n ih =>
    simp only [Mem.write]
    cases k with
    | zero =>
      rw [Mem.get_write_out _ _ _ _ _ _ (by omega)]
      by_cases hb : mask % 2 = 1
      · simp [hb, Nat.testBit_zero]
      · simp [hb, Nat.testBit_zero]
    | succ k =>
      have e : a + (k + 1) = a + 1 + k := by omega
      rw [e, ih _ _ _ _ _ (by omega), Nat.testBit_succ, Nat.div_div_eq_div_mul, Nat.pow_succ, Nat.mul_comm 256]
      have hs : ∀ x : Mem, (if mask % 2 = 1 then m.set a (BitVec.ofNat 8 v) else m) = x → x.get (a + 1 + k) = m.get (a + 1 + k) := by
        intro x hx
        subst hx
        split
        · exact Mem.get_set_ne _ _ (by omega)
        · rfl
      rw [hs _ rfl]

/-- A list of bytes stored leaves every address outside it as it was. -/
theorem Mem.get_store_out (m : Mem) (a : Nat) (bs : List Byte) (b : Nat) (h : b < a ∨ a + bs.length ≤ b) :
    (m.store a bs).get b = m.get b := by
  induction bs generalizing m a with
  | nil => rfl
  | cons x r ih =>
    simp only [List.length_cons] at h
    simp only [Mem.store]
    rw [ih _ _ (by omega), Mem.get_set_ne _ _ (by omega)]

/-- Byte k of a list of bytes stored. -/
theorem Mem.get_store_in (m : Mem) (a : Nat) (bs : List Byte) (k : Nat) (h : k < bs.length) :
    (m.store a bs).get (a + k) = bs[k] := by
  induction bs generalizing m a k with
  | nil => simp at h
  | cons x r ih =>
    simp only [Mem.store]
    cases k with
    | zero =>
      rw [Mem.get_store_out _ _ _ _ (by omega)]
      simp
    | succ k =>
      have e : a + (k + 1) = a + 1 + k := by omega
      rw [e, ih _ _ _ (by simpa using h)]
      simp

/-- A read of bytes below `m.get` of which none changed. -/
theorem Mem.read_congr (m m' : Mem) (a n : Nat) (h : ∀ k < n, m'.get (a + k) = m.get (a + k)) : m'.read a n = m.read a n := by
  induction n generalizing a with
  | zero => rfl
  | succ n ih =>
    simp only [Mem.read]
    have h0 := h 0 (by omega)
    simp only [Nat.add_zero] at h0
    rw [h0, ih (a + 1) (fun k hk => by have := h (k + 1) (by omega); rwa [show a + (k + 1) = a + 1 + k from by omega] at this)]

@[simp] theorem Mem.get_cleanWords (m : Mem) (a n b : Nat) : (m.cleanWords a n).get b = m.get b := rfl
@[simp] theorem Mem.get_mergeWords (m : Mem) (a n b : Nat) : (m.mergeWords a n).get b = m.get b := rfl
@[simp] theorem Mem.get_mergeAt (m : Mem) (ws : List Nat) (b : Nat) : (m.mergeAt ws).get b = m.get b := rfl
@[simp] theorem Mem.get_setPoison (m : Mem) (a : Nat) (on : Bool) (b : Nat) : (m.setPoison a on).get b = m.get b := rfl

theorem tget_filter_out (cells : Tab α) (p : Nat × α → Bool) (b : Nat) (d : α) (h : ∀ v, p (b, v) = false) :
    tget (cells.filter p) b d = d := by
  induction cells with
  | nil => rfl
  | cons e r ih =>
    obtain ⟨k, v⟩ := e
    simp only [List.filter_cons]
    split
    · rename_i hp
      have : b ≠ k := fun hb => by subst hb; simp [h] at hp
      simp [tget, this, ih]
    · exact ih

theorem tget_filter_in (cells : Tab α) (p : Nat × α → Bool) (b : Nat) (d : α) (h : ∀ v, p (b, v) = true) :
    tget (cells.filter p) b d = tget cells b d := by
  induction cells with
  | nil => rfl
  | cons e r ih =>
    obtain ⟨k, v⟩ := e
    simp only [List.filter_cons]
    split
    · simp [tget, ih]
    · rename_i hp
      have : b ≠ k := fun hb => by subst hb; simp [h] at hp
      simp [tget, this, ih]

/-- Zeroed addresses read 0 (R227, R231). -/
theorem Mem.get_zero_in (m : Mem) (lo hi b : Nat) (h1 : lo ≤ b) (h2 : b < hi) : (m.zero lo hi).get b = 0 := by
  unfold Mem.get
  have hd : (m.zero lo hi).dflt b = 0 := by simp [Mem.dflt, Mem.base, Mem.zero, h1, h2]
  rw [hd]
  exact tget_filter_out _ _ _ _ (fun v => by simp; omega)

/-- The others read as before. -/
theorem Mem.get_zero_out (m : Mem) (lo hi b : Nat) (h : b < lo ∨ hi ≤ b) : (m.zero lo hi).get b = m.get b := by
  unfold Mem.get
  have hb : ¬ (lo ≤ b ∧ b < hi) := by omega
  have hd : (m.zero lo hi).dflt b = m.dflt b := by
    have : (m.zero lo hi).base b = m.base b := by
      unfold Mem.base Mem.zero
      simp only [List.find?_cons]
      have : (decide (lo ≤ b) && decide (b < hi)) = false := by
        rw [Bool.and_eq_false_iff]; simp only [decide_eq_false_iff_not]; omega
      simp [this]
    unfold Mem.dflt
    rw [this]
    rfl
  rw [hd]
  exact tget_filter_in _ _ _ _ (fun v => by simp; omega)

@[simp] theorem Mem.get_empty (tag a : Nat) : (Mem.empty tag).get a = 0 := rfl

/-! ### The canonical form -/

theorem risingFrom_mono {lo lo' : Nat} {t : List (Nat × Byte)} (h : risingFrom lo t = true) (hl : lo' ≤ lo) :
    risingFrom lo' t = true := by
  cases t with
  | nil => rfl
  | cons e r =>
    obtain ⟨k, v⟩ := e
    simp only [risingFrom, Bool.and_eq_true, decide_eq_true_eq] at h ⊢
    exact ⟨by omega, h.2⟩

theorem risingFrom_filter {lo : Nat} {t : List (Nat × Byte)} (p : Nat × Byte → Bool) (h : risingFrom lo t = true) :
    risingFrom lo (t.filter p) = true := by
  induction t generalizing lo with
  | nil => rfl
  | cons e r ih =>
    obtain ⟨k, v⟩ := e
    simp only [risingFrom, Bool.and_eq_true, decide_eq_true_eq] at h
    simp only [List.filter_cons]
    split
    · simp only [risingFrom, Bool.and_eq_true, decide_eq_true_eq]
      exact ⟨h.1, ih h.2⟩
    · exact risingFrom_mono (ih h.2) (by omega)

theorem risingFrom_tset {lo : Nat} {t : List (Nat × Byte)} (k : Nat) (v : Byte) (hk : lo ≤ k) (h : risingFrom lo t = true) :
    risingFrom lo (tset t k v) = true := by
  induction t generalizing lo with
  | nil => simp [tset, risingFrom, hk]
  | cons e r ih =>
    obtain ⟨k', v'⟩ := e
    simp only [risingFrom, Bool.and_eq_true, decide_eq_true_eq] at h
    simp only [tset]
    split
    · simp only [risingFrom, Bool.and_eq_true, decide_eq_true_eq]
      exact ⟨hk, by omega, h.2⟩
    · split
      · rename_i h2
        subst h2
        simp only [risingFrom, Bool.and_eq_true, decide_eq_true_eq]
        exact ⟨hk, h.2⟩
      · simp only [risingFrom, Bool.and_eq_true, decide_eq_true_eq]
        exact ⟨h.1, ih (by omega) h.2⟩

/-- The canonical form in words. -/
theorem Mem.wf_iff (m : Mem) : m.wf = true ↔ risingFrom 0 m.cells = true ∧ ∀ c ∈ m.cells, c.2 ≠ m.dflt c.1 := by
  simp [Mem.wf, List.all_eq_true]

theorem Mem.wf_set {m : Mem} (a : Nat) (v : Byte) (h : m.wf = true) : (m.set a v).wf = true := by
  rw [Mem.wf_iff] at h ⊢
  have hd : ∀ b, (m.set a v).dflt b = m.dflt b := by intro b; unfold Mem.set; split <;> rfl
  constructor
  · unfold Mem.set
    by_cases hv : v = m.dflt a
    · simp only [hv, if_true]; exact risingFrom_filter _ h.1
    · simp only [hv, if_false]; exact risingFrom_tset _ _ (Nat.zero_le _) h.1
  · intro c hc
    rw [hd]
    unfold Mem.set at hc
    by_cases hv : v = m.dflt a
    · simp only [hv, if_true, tdel, List.mem_filter] at hc
      exact h.2 c hc.1
    · simp only [hv, if_false] at hc
      rcases tset_keys _ _ _ c hc with h2 | h2
      · subst h2; exact hv
      · exact h.2 c h2

theorem Mem.wf_write {m : Mem} (a v mask n : Nat) (h : m.wf = true) : (m.write a v mask n).wf = true := by
  induction n generalizing m a v mask with
  | zero => exact h
  | succ n ih =>
    simp only [Mem.write]
    apply ih
    split
    · exact Mem.wf_set _ _ h
    · exact h

theorem Mem.wf_store {m : Mem} (a : Nat) (bs : List Byte) (h : m.wf = true) : (m.store a bs).wf = true := by
  induction bs generalizing m a with
  | nil => exact h
  | cons b r ih => exact ih _ (Mem.wf_set _ _ h)

@[simp] theorem Mem.wf_cleanWords (m : Mem) (a n : Nat) : (m.cleanWords a n).wf = m.wf := rfl
@[simp] theorem Mem.wf_mergeWords (m : Mem) (a n : Nat) : (m.mergeWords a n).wf = m.wf := rfl
@[simp] theorem Mem.wf_mergeAt (m : Mem) (ws : List Nat) : (m.mergeAt ws).wf = m.wf := rfl
@[simp] theorem Mem.wf_setPoison (m : Mem) (a : Nat) (on : Bool) : (m.setPoison a on).wf = m.wf := rfl
@[simp] theorem Mem.wf_empty (tag : Nat) : (Mem.empty tag).wf = true := rfl

/-- Zeroing keeps the canonical form: the entries left lie outside the range, where nothing reads otherwise. -/
theorem Mem.wf_zero {m : Mem} (lo hi : Nat) (h : m.wf = true) : (m.zero lo hi).wf = true := by
  rw [Mem.wf_iff] at h ⊢
  constructor
  · exact risingFrom_filter _ h.1
  · intro c hc
    have hc : c ∈ m.cells ∧ (c.1 < lo ∨ hi ≤ c.1) := by simpa [Mem.zero] using hc
    have hd : (m.zero lo hi).dflt c.1 = m.dflt c.1 := by
      have : (m.zero lo hi).base c.1 = m.base c.1 := by
        unfold Mem.base Mem.zero
        simp only [List.find?_cons]
        have : (decide (lo ≤ c.1) && decide (c.1 < hi)) = false := by
          rw [Bool.and_eq_false_iff]; simp only [decide_eq_false_iff_not]; omega
        simp [this]
      unfold Mem.dflt
      rw [this]
      rfl
    rw [hd]
    exact h.2 c hc.1

/-- What the ranges kept across an invocation's start read as when unlisted: as before (R230). -/
theorem Mem.dflt_forget (m : Mem) (e : Nat) (keep : List (Nat × Nat)) (a : Nat) (h : inRanges keep a = true) :
    (m.forget e keep).dflt a = m.dflt a := by
  have hclip : ∀ r : Nat × Nat, (r.1 ≤ a ∧ a < r.2) →
      (m.clip r).find? (fun b => decide (b.1 ≤ a) && decide (a < b.2.1)) =
        some ((m.bases.find? (fun b => decide (b.1 ≤ a) && decide (a < b.2.1))).elim (r.1, r.2, m.epoch)
          (fun b => (max b.1 r.1, min b.2.1 r.2, b.2.2))) := by
    intro r hr
    unfold Mem.clip
    generalize m.bases = bs
    induction bs with
    | nil => simp [hr]
    | cons b t ih =>
      by_cases hb : b.1 ≤ a ∧ a < b.2.1
      · have h1 : max b.1 r.1 < min b.2.1 r.2 := by omega
        have h2 : max b.1 r.1 ≤ a ∧ a < min b.2.1 r.2 := by omega
        have e1 : (decide (b.1 ≤ a) && decide (a < b.2.1)) = true := by simp [hb]
        simp only [List.map_cons, List.filter_cons, h1, decide_true, if_true, List.cons_append, List.find?_cons, e1,
          h2.1, h2.2, Bool.and_self, Option.elim_some]
      · have e1 : (decide (b.1 ≤ a) && decide (a < b.2.1)) = false := by
          rw [Bool.and_eq_false_iff]; simp only [decide_eq_false_iff_not]; omega
        have e2 : (decide (max b.1 r.1 ≤ a) && decide (a < min b.2.1 r.2)) = false := by
          rw [Bool.and_eq_false_iff]; simp only [decide_eq_false_iff_not]; omega
        simp only [List.map_cons, List.filter_cons, List.find?_cons, e1]
        split
        · simp only [List.cons_append, List.find?_cons, e2]
          exact ih
        · exact ih
  have hout : ∀ r : Nat × Nat, ¬ (r.1 ≤ a ∧ a < r.2) →
      (m.clip r).find? (fun b => decide (b.1 ≤ a) && decide (a < b.2.1)) = none := by
    intro r hr
    rw [List.find?_eq_none]
    intro b hb
    unfold Mem.clip at hb
    simp only [List.mem_append, List.mem_filter, List.mem_map, List.mem_singleton] at hb
    rcases hb with ⟨⟨c, _, rfl⟩, _⟩ | rfl
    · simp only [Bool.and_eq_true, decide_eq_true_eq]; omega
    · simp only [Bool.and_eq_true, decide_eq_true_eq]; omega
  have hbase : (m.forget e keep).base a = m.base a := by
    unfold Mem.base Mem.forget
    dsimp only
    induction keep with
    | nil => simp [inRanges] at h
    | cons r t ih =>
      simp only [List.flatMap_cons, List.find?_append]
      by_cases hr : r.1 ≤ a ∧ a < r.2
      · rw [hclip r hr]
        cases m.bases.find? (fun b => decide (b.1 ≤ a) && decide (a < b.2.1)) <;> rfl
      · rw [hout r hr]
        have h' : inRanges t a = true := by
          simp only [inRanges, List.any_cons, Bool.or_eq_true, Bool.and_eq_true, decide_eq_true_eq] at h ⊢
          rcases h with h | h
          · exact absurd h hr
          · exact h
        exact ih h'
  unfold Mem.dflt
  rw [hbase]
  rfl

/-- The start of an invocation keeps the canonical form. -/
theorem Mem.wf_forget {m : Mem} (e : Nat) (keep : List (Nat × Nat)) (h : m.wf = true) : (m.forget e keep).wf = true := by
  rw [Mem.wf_iff] at h ⊢
  constructor
  · exact risingFrom_filter _ h.1
  · intro c hc
    have hc : c ∈ m.cells ∧ inRanges keep c.1 = true := by simpa [Mem.forget] using hc
    rw [Mem.dflt_forget _ _ _ _ hc.2]
    exact h.2 c hc.1

/-- The ranges kept read as before. -/
theorem Mem.get_forget (m : Mem) (e : Nat) (keep : List (Nat × Nat)) (a : Nat) (h : inRanges keep a = true) :
    (m.forget e keep).get a = m.get a := by
  unfold Mem.get
  rw [Mem.dflt_forget _ _ _ _ h]
  exact tget_filter_in _ _ _ _ (fun v => h)

end Sys2Proof.Machine
end

