-- ==== Sys2Proof/Laws/MemMore.lean ====
section
/-! SUPPORT. The memory operations of single commands: each keeps the canonical form, and what it leaves to be read. -/

namespace Sys2Proof.Machine

/-- A range that an abandoned command leaves open: the canonical form stays. -/
theorem Mem.wf_open_ {m : Mem} (lo hi e : Nat) (h : m.wf = true) : (m.open_ lo hi e).wf = true := by
  rw [Mem.wf_iff] at h ⊢
  constructor
  · exact risingFrom_filter _ h.1
  · intro c hc
    have hc : c ∈ m.cells ∧ (c.1 < lo ∨ hi ≤ c.1) := by simpa [Mem.open_] using hc
    have hd : (m.open_ lo hi e).dflt c.1 = m.dflt c.1 := by
      have : (m.open_ lo hi e).base c.1 = m.base c.1 := by
        unfold Mem.base Mem.open_
        simp only [List.find?_cons]
        have : (decide (lo ≤ c.1) && decide (c.1 < hi)) = false := by
          rw [Bool.and_eq_false_iff]; simp only [decide_eq_false_iff_not]; omega
        simp [this]
      unfold Mem.dflt
      rw [this]
      rfl
    rw [hd]
    exact h.2 c hc.1

/-- Outside the range every byte reads as before. -/
theorem Mem.get_open_out (m : Mem) (lo hi e b : Nat) (h : b < lo ∨ hi ≤ b) : (m.open_ lo hi e).get b = m.get b := by
  have hb : (decide (lo ≤ b) && decide (b < hi)) = false := by
    rw [Bool.and_eq_false_iff]; simp only [decide_eq_false_iff_not]; omega
  have hd : (m.open_ lo hi e).dflt b = m.dflt b := by
    unfold Mem.dflt Mem.base Mem.open_
    simp [hb]
  unfold Mem.get
  rw [hd]
  refine tget_filter_in _ _ _ _ (fun v => ?_)
  simpa using h

theorem Mem.wf_flipBit {m : Mem} (a k bits : Nat) (h : m.wf = true) : (m.flipBit a k bits).wf = true := by
  unfold Mem.flipBit
  split
  · exact Mem.wf_set _ _ h
  · exact h

/-- Marks are no part of the canonical form. -/
theorem Mem.wf_marks {m : Mem} (k : Tab Ecc) (h : m.wf = true) : { m with marks := k }.wf = true := h

/-- INJECT into a near store or the deck (R218, R417): the canonical form stays. -/
theorem Mem.wf_injectWord {m : Mem} (a flips fresh : Nat) (h : m.wf = true) : (m.injectWord a flips fresh).wf = true := by
  unfold Mem.injectWord
  dsimp only
  have h2 (b i j n : Nat) : ((m.flipBit b i n).flipBit b j n).wf = true := Mem.wf_flipBit _ _ _ (Mem.wf_flipBit _ _ _ h)
  split
  · split
    · exact h
    · exact Mem.wf_marks _ (h2 _ _ _ _)
  · apply Mem.wf_marks
    split
    · exact h2 _ _ _ _
    · exact Mem.wf_flipBit _ _ _ (h2 _ _ _ _)
  · exact h

/-- INJECT into LPDDR5X (R267, R417): the canonical form stays. -/
theorem Mem.wf_injectBlock {m : Mem} (a flips fresh : Nat) (h : m.wf = true) : (m.injectBlock a flips fresh).wf = true := by
  unfold Mem.injectBlock
  dsimp only
  have h2 (b i j n : Nat) : ((m.flipBit b i n).flipBit b j n).wf = true := Mem.wf_flipBit _ _ _ (Mem.wf_flipBit _ _ _ h)
  split
  · split
    · exact h
    · exact Mem.wf_marks _ (h2 _ _ _ _)
  · apply Mem.wf_marks
    split
    · exact h2 _ _ _ _
    · exact Mem.wf_flipBit _ _ _ (h2 _ _ _ _)
  · exact h

/-- A range without its contents: the canonical form stays. -/
theorem Mem.wf_clear {m : Mem} (lo hi : Nat) (h : m.wf = true) : (m.clear lo hi).wf = true := by
  rw [Mem.wf_iff] at h ⊢
  exact ⟨risingFrom_filter _ h.1, fun c hc => h.2 c (List.mem_filter.1 hc).1⟩

/-- Rising keys below a bound, followed by rising keys from it on. -/
theorem risingFrom_append {lo mid : Nat} {t u : List (Nat × Byte)} (ht : risingFrom lo t = true) (hb : ∀ c ∈ t, c.1 < mid)
    (hu : risingFrom mid u = true) (hl : lo ≤ mid) : risingFrom lo (t ++ u) = true := by
  induction t generalizing lo with
  | nil => exact risingFrom_mono hu hl
  | cons c r ih =>
    simp only [risingFrom, List.cons_append, Bool.and_eq_true, decide_eq_true_eq] at ht ⊢
    exact ⟨ht.1, ih ht.2 (fun d hd => hb d (List.mem_cons_of_mem _ hd)) (hb c List.mem_cons_self)⟩

/-- Rising keys that all lie from a bound on rise from it. -/
theorem risingFrom_bound {lo b : Nat} {t : List (Nat × Byte)} (ht : risingFrom lo t = true) (hb : ∀ c ∈ t, b ≤ c.1) :
    risingFrom b t = true := by
  cases t with
  | nil => rfl
  | cons c r =>
    simp only [risingFrom, Bool.and_eq_true, decide_eq_true_eq] at ht ⊢
    exact ⟨hb c List.mem_cons_self, ht.2⟩

/-- A range copied between memories that read alike where nothing is listed: the canonical form stays. -/
theorem Mem.wf_copyRange {m src : Mem} (lo hi : Nat) (hr : lo ≤ hi) (hd : ∀ a, src.dflt a = m.dflt a) (h : m.wf = true)
    (h' : src.wf = true) : (m.copyRange src lo hi).wf = true := by
  rw [Mem.wf_iff] at h h' ⊢
  constructor
  · have h3 : risingFrom hi (m.cells.filter (fun c => decide (hi ≤ c.1))) = true :=
      risingFrom_bound (risingFrom_filter _ h.1) (fun c hc => by simpa using (List.mem_filter.1 hc).2)
    have h2 : risingFrom lo (src.cells.filter (fun c => decide (lo ≤ c.1) && decide (c.1 < hi))) = true :=
      risingFrom_bound (risingFrom_filter _ h'.1) (fun c hc => by
        have := (List.mem_filter.1 hc).2
        simp only [Bool.and_eq_true, decide_eq_true_eq] at this
        exact this.1)
    have h1 : risingFrom 0 (m.cells.filter (fun c => decide (c.1 < lo))) = true := risingFrom_filter _ h.1
    have h12 := risingFrom_append h1 (fun c hc => by simpa using (List.mem_filter.1 hc).2) h2 (Nat.zero_le _)
    refine risingFrom_append h12 (fun c hc => ?_) h3 (Nat.zero_le _)
    simp only [List.mem_append, List.mem_filter, Bool.and_eq_true, decide_eq_true_eq] at hc
    omega
  · intro c hc
    have hc : c ∈ m.cells ∨ c ∈ src.cells := by
      simp only [Mem.copyRange, List.mem_append, List.mem_filter] at hc
      rcases hc with (hc | hc) | hc
      · exact .inl hc.1
      · exact .inr hc.1
      · exact .inl hc.1
    have hm : (m.copyRange src lo hi).dflt c.1 = m.dflt c.1 := rfl
    rw [hm]
    rcases hc with hc | hc
    · exact h.2 c hc
    · have := h'.2 c hc
      rwa [hd] at this

end Sys2Proof.Machine
end

