-- ==== Sys2Proof/Laws/State.lean ====
section
/-! SUPPORT. One lemma per field and update of the state: what each update leaves in each field, and what each table reads
after it. -/

namespace Sys2Proof.Machine

variable (s : State)

/-! ### `setClu` -/

@[simp] theorem State.setClu_pending (j : Nat) (c : CluSt) : (s.setClu j c).pending = s.pending := rfl
@[simp] theorem State.setClu_time (j : Nat) (c : CluSt) : (s.setClu j c).time = s.time := rfl
@[simp] theorem State.setClu_epoch (j : Nat) (c : CluSt) : (s.setClu j c).epoch = s.epoch := rfl
@[simp] theorem State.setClu_fresh (j : Nat) (c : CluSt) : (s.setClu j c).fresh = s.fresh := rfl
@[simp] theorem State.setClu_frm (j : Nat) (c : CluSt) : (s.setClu j c).frm = s.frm := rfl
@[simp] theorem State.setClu_clu (j : Nat) (c : CluSt) : (s.setClu j c).clu = tset s.clu j c := rfl
@[simp] theorem State.setClu_flt (j : Nat) (c : CluSt) : (s.setClu j c).flt = s.flt := rfl
@[simp] theorem State.setClu_nst (j : Nat) (c : CluSt) : (s.setClu j c).nst = s.nst := rfl
@[simp] theorem State.setClu_deck (j : Nat) (c : CluSt) : (s.setClu j c).deck = s.deck := rfl
@[simp] theorem State.setClu_lp (j : Nat) (c : CluSt) : (s.setClu j c).lp = s.lp := rfl
@[simp] theorem State.setClu_nstBank (j : Nat) (c : CluSt) : (s.setClu j c).nstBank = s.nstBank := rfl
@[simp] theorem State.setClu_deckBank (j : Nat) (c : CluSt) : (s.setClu j c).deckBank = s.deckBank := rfl
@[simp] theorem State.setClu_bankUse (j : Nat) (c : CluSt) : (s.setClu j c).bankUse = s.bankUse := rfl
@[simp] theorem State.setClu_core (j : Nat) (c : CluSt) : (s.setClu j c).core = s.core := rfl
@[simp] theorem State.setClu_stop (j : Nat) (c : CluSt) : (s.setClu j c).stop = s.stop := rfl
@[simp] theorem State.setClu_ferryFly (j : Nat) (c : CluSt) : (s.setClu j c).ferryFly = s.ferryFly := rfl
@[simp] theorem State.setClu_splice (j : Nat) (c : CluSt) : (s.setClu j c).splice = s.splice := rfl
@[simp] theorem State.setClu_rtr (j : Nat) (c : CluSt) : (s.setClu j c).rtr = s.rtr := rfl
@[simp] theorem State.setClu_meshFly (j : Nat) (c : CluSt) : (s.setClu j c).meshFly = s.meshFly := rfl
@[simp] theorem State.setClu_cour (j : Nat) (c : CluSt) : (s.setClu j c).cour = s.cour := rfl
@[simp] theorem State.setClu_upd (j : Nat) (c : CluSt) : (s.setClu j c).upd = s.upd := rfl
@[simp] theorem State.setClu_shape (j : Nat) (c : CluSt) : (s.setClu j c).shape = s.shape := rfl
@[simp] theorem State.setClu_cnt (j : Nat) (c : CluSt) : (s.setClu j c).cnt = s.cnt := rfl
@[simp] theorem State.setClu_stk (j : Nat) (c : CluSt) : (s.setClu j c).stk = s.stk := rfl
@[simp] theorem State.setClu_ctx (j : Nat) (c : CluSt) : (s.setClu j c).ctx = s.ctx := rfl
@[simp] theorem State.setClu_queue (j : Nat) (c : CluSt) : (s.setClu j c).queue = s.queue := rfl
@[simp] theorem State.setClu_reqNo (j : Nat) (c : CluSt) : (s.setClu j c).reqNo = s.reqNo := rfl
@[simp] theorem State.setClu_waitLimit (j : Nat) (c : CluSt) : (s.setClu j c).waitLimit = s.waitLimit := rfl
@[simp] theorem State.setClu_mport (j : Nat) (c : CluSt) : (s.setClu j c).mport = s.mport := rfl
@[simp] theorem State.setClu_depot (j : Nat) (c : CluSt) : (s.setClu j c).depot = s.depot := rfl
@[simp] theorem State.setClu_pont (j : Nat) (c : CluSt) : (s.setClu j c).pont = s.pont := rfl
@[simp] theorem State.setClu_obs (j : Nat) (c : CluSt) : (s.setClu j c).obs = s.obs := rfl
@[simp] theorem State.setClu_post (j : Nat) (c : CluSt) : (s.setClu j c).post = s.post := rfl
@[simp] theorem State.setClu_boot (j : Nat) (c : CluSt) : (s.setClu j c).boot = s.boot := rfl
@[simp] theorem State.setClu_brt (j : Nat) (c : CluSt) : (s.setClu j c).brt = s.brt := rfl
@[simp] theorem State.setClu_host (j : Nat) (c : CluSt) : (s.setClu j c).host = s.host := rfl
@[simp] theorem State.setClu_pwr (j : Nat) (c : CluSt) : (s.setClu j c).pwr = s.pwr := rfl
@[simp] theorem State.setClu_pins (j : Nat) (c : CluSt) : (s.setClu j c).pins = s.pins := rfl
@[simp] theorem State.setClu_out (j : Nat) (c : CluSt) : (s.setClu j c).out = s.out := rfl
@[simp] theorem State.setClu_upsets (j : Nat) (c : CluSt) : (s.setClu j c).upsets = s.upsets := rfl

/-! ### `setCore` -/

@[simp] theorem State.setCore_pending (i : Nat) (c : CoreSt) : (s.setCore i c).pending = s.pending := rfl
@[simp] theorem State.setCore_time (i : Nat) (c : CoreSt) : (s.setCore i c).time = s.time := rfl
@[simp] theorem State.setCore_epoch (i : Nat) (c : CoreSt) : (s.setCore i c).epoch = s.epoch := rfl
@[simp] theorem State.setCore_fresh (i : Nat) (c : CoreSt) : (s.setCore i c).fresh = s.fresh := rfl
@[simp] theorem State.setCore_frm (i : Nat) (c : CoreSt) : (s.setCore i c).frm = s.frm := rfl
@[simp] theorem State.setCore_clu (i : Nat) (c : CoreSt) : (s.setCore i c).clu = s.clu := rfl
@[simp] theorem State.setCore_flt (i : Nat) (c : CoreSt) : (s.setCore i c).flt = s.flt := rfl
@[simp] theorem State.setCore_nst (i : Nat) (c : CoreSt) : (s.setCore i c).nst = s.nst := rfl
@[simp] theorem State.setCore_deck (i : Nat) (c : CoreSt) : (s.setCore i c).deck = s.deck := rfl
@[simp] theorem State.setCore_lp (i : Nat) (c : CoreSt) : (s.setCore i c).lp = s.lp := rfl
@[simp] theorem State.setCore_nstBank (i : Nat) (c : CoreSt) : (s.setCore i c).nstBank = s.nstBank := rfl
@[simp] theorem State.setCore_deckBank (i : Nat) (c : CoreSt) : (s.setCore i c).deckBank = s.deckBank := rfl
@[simp] theorem State.setCore_bankUse (i : Nat) (c : CoreSt) : (s.setCore i c).bankUse = s.bankUse := rfl
@[simp] theorem State.setCore_core (i : Nat) (c : CoreSt) : (s.setCore i c).core = tset s.core i c := rfl
@[simp] theorem State.setCore_stop (i : Nat) (c : CoreSt) : (s.setCore i c).stop = s.stop := rfl
@[simp] theorem State.setCore_ferryFly (i : Nat) (c : CoreSt) : (s.setCore i c).ferryFly = s.ferryFly := rfl
@[simp] theorem State.setCore_splice (i : Nat) (c : CoreSt) : (s.setCore i c).splice = s.splice := rfl
@[simp] theorem State.setCore_rtr (i : Nat) (c : CoreSt) : (s.setCore i c).rtr = s.rtr := rfl
@[simp] theorem State.setCore_meshFly (i : Nat) (c : CoreSt) : (s.setCore i c).meshFly = s.meshFly := rfl
@[simp] theorem State.setCore_cour (i : Nat) (c : CoreSt) : (s.setCore i c).cour = s.cour := rfl
@[simp] theorem State.setCore_upd (i : Nat) (c : CoreSt) : (s.setCore i c).upd = s.upd := rfl
@[simp] theorem State.setCore_shape (i : Nat) (c : CoreSt) : (s.setCore i c).shape = s.shape := rfl
@[simp] theorem State.setCore_cnt (i : Nat) (c : CoreSt) : (s.setCore i c).cnt = s.cnt := rfl
@[simp] theorem State.setCore_stk (i : Nat) (c : CoreSt) : (s.setCore i c).stk = s.stk := rfl
@[simp] theorem State.setCore_ctx (i : Nat) (c : CoreSt) : (s.setCore i c).ctx = s.ctx := rfl
@[simp] theorem State.setCore_queue (i : Nat) (c : CoreSt) : (s.setCore i c).queue = s.queue := rfl
@[simp] theorem State.setCore_reqNo (i : Nat) (c : CoreSt) : (s.setCore i c).reqNo = s.reqNo := rfl
@[simp] theorem State.setCore_waitLimit (i : Nat) (c : CoreSt) : (s.setCore i c).waitLimit = s.waitLimit := rfl
@[simp] theorem State.setCore_mport (i : Nat) (c : CoreSt) : (s.setCore i c).mport = s.mport := rfl
@[simp] theorem State.setCore_depot (i : Nat) (c : CoreSt) : (s.setCore i c).depot = s.depot := rfl
@[simp] theorem State.setCore_pont (i : Nat) (c : CoreSt) : (s.setCore i c).pont = s.pont := rfl
@[simp] theorem State.setCore_obs (i : Nat) (c : CoreSt) : (s.setCore i c).obs = s.obs := rfl
@[simp] theorem State.setCore_post (i : Nat) (c : CoreSt) : (s.setCore i c).post = s.post := rfl
@[simp] theorem State.setCore_boot (i : Nat) (c : CoreSt) : (s.setCore i c).boot = s.boot := rfl
@[simp] theorem State.setCore_brt (i : Nat) (c : CoreSt) : (s.setCore i c).brt = s.brt := rfl
@[simp] theorem State.setCore_host (i : Nat) (c : CoreSt) : (s.setCore i c).host = s.host := rfl
@[simp] theorem State.setCore_pwr (i : Nat) (c : CoreSt) : (s.setCore i c).pwr = s.pwr := rfl
@[simp] theorem State.setCore_pins (i : Nat) (c : CoreSt) : (s.setCore i c).pins = s.pins := rfl
@[simp] theorem State.setCore_out (i : Nat) (c : CoreSt) : (s.setCore i c).out = s.out := rfl
@[simp] theorem State.setCore_upsets (i : Nat) (c : CoreSt) : (s.setCore i c).upsets = s.upsets := rfl

/-! ### `setStop` -/

@[simp] theorem State.setStop_pending (k : Nat) (x : StopSt) : (s.setStop k x).pending = s.pending := rfl
@[simp] theorem State.setStop_time (k : Nat) (x : StopSt) : (s.setStop k x).time = s.time := rfl
@[simp] theorem State.setStop_epoch (k : Nat) (x : StopSt) : (s.setStop k x).epoch = s.epoch := rfl
@[simp] theorem State.setStop_fresh (k : Nat) (x : StopSt) : (s.setStop k x).fresh = s.fresh := rfl
@[simp] theorem State.setStop_frm (k : Nat) (x : StopSt) : (s.setStop k x).frm = s.frm := rfl
@[simp] theorem State.setStop_clu (k : Nat) (x : StopSt) : (s.setStop k x).clu = s.clu := rfl
@[simp] theorem State.setStop_flt (k : Nat) (x : StopSt) : (s.setStop k x).flt = s.flt := rfl
@[simp] theorem State.setStop_nst (k : Nat) (x : StopSt) : (s.setStop k x).nst = s.nst := rfl
@[simp] theorem State.setStop_deck (k : Nat) (x : StopSt) : (s.setStop k x).deck = s.deck := rfl
@[simp] theorem State.setStop_lp (k : Nat) (x : StopSt) : (s.setStop k x).lp = s.lp := rfl
@[simp] theorem State.setStop_nstBank (k : Nat) (x : StopSt) : (s.setStop k x).nstBank = s.nstBank := rfl
@[simp] theorem State.setStop_deckBank (k : Nat) (x : StopSt) : (s.setStop k x).deckBank = s.deckBank := rfl
@[simp] theorem State.setStop_bankUse (k : Nat) (x : StopSt) : (s.setStop k x).bankUse = s.bankUse := rfl
@[simp] theorem State.setStop_core (k : Nat) (x : StopSt) : (s.setStop k x).core = s.core := rfl
@[simp] theorem State.setStop_stop (k : Nat) (x : StopSt) : (s.setStop k x).stop = tset s.stop k x := rfl
@[simp] theorem State.setStop_ferryFly (k : Nat) (x : StopSt) : (s.setStop k x).ferryFly = s.ferryFly := rfl
@[simp] theorem State.setStop_splice (k : Nat) (x : StopSt) : (s.setStop k x).splice = s.splice := rfl
@[simp] theorem State.setStop_rtr (k : Nat) (x : StopSt) : (s.setStop k x).rtr = s.rtr := rfl
@[simp] theorem State.setStop_meshFly (k : Nat) (x : StopSt) : (s.setStop k x).meshFly = s.meshFly := rfl
@[simp] theorem State.setStop_cour (k : Nat) (x : StopSt) : (s.setStop k x).cour = s.cour := rfl
@[simp] theorem State.setStop_upd (k : Nat) (x : StopSt) : (s.setStop k x).upd = s.upd := rfl
@[simp] theorem State.setStop_shape (k : Nat) (x : StopSt) : (s.setStop k x).shape = s.shape := rfl
@[simp] theorem State.setStop_cnt (k : Nat) (x : StopSt) : (s.setStop k x).cnt = s.cnt := rfl
@[simp] theorem State.setStop_stk (k : Nat) (x : StopSt) : (s.setStop k x).stk = s.stk := rfl
@[simp] theorem State.setStop_ctx (k : Nat) (x : StopSt) : (s.setStop k x).ctx = s.ctx := rfl
@[simp] theorem State.setStop_queue (k : Nat) (x : StopSt) : (s.setStop k x).queue = s.queue := rfl
@[simp] theorem State.setStop_reqNo (k : Nat) (x : StopSt) : (s.setStop k x).reqNo = s.reqNo := rfl
@[simp] theorem State.setStop_waitLimit (k : Nat) (x : StopSt) : (s.setStop k x).waitLimit = s.waitLimit := rfl
@[simp] theorem State.setStop_mport (k : Nat) (x : StopSt) : (s.setStop k x).mport = s.mport := rfl
@[simp] theorem State.setStop_depot (k : Nat) (x : StopSt) : (s.setStop k x).depot = s.depot := rfl
@[simp] theorem State.setStop_pont (k : Nat) (x : StopSt) : (s.setStop k x).pont = s.pont := rfl
@[simp] theorem State.setStop_obs (k : Nat) (x : StopSt) : (s.setStop k x).obs = s.obs := rfl
@[simp] theorem State.setStop_post (k : Nat) (x : StopSt) : (s.setStop k x).post = s.post := rfl
@[simp] theorem State.setStop_boot (k : Nat) (x : StopSt) : (s.setStop k x).boot = s.boot := rfl
@[simp] theorem State.setStop_brt (k : Nat) (x : StopSt) : (s.setStop k x).brt = s.brt := rfl
@[simp] theorem State.setStop_host (k : Nat) (x : StopSt) : (s.setStop k x).host = s.host := rfl
@[simp] theorem State.setStop_pwr (k : Nat) (x : StopSt) : (s.setStop k x).pwr = s.pwr := rfl
@[simp] theorem State.setStop_pins (k : Nat) (x : StopSt) : (s.setStop k x).pins = s.pins := rfl
@[simp] theorem State.setStop_out (k : Nat) (x : StopSt) : (s.setStop k x).out = s.out := rfl
@[simp] theorem State.setStop_upsets (k : Nat) (x : StopSt) : (s.setStop k x).upsets = s.upsets := rfl

/-! ### `setRtr` -/

@[simp] theorem State.setRtr_pending (i : Nat) (x : RouterSt) : (s.setRtr i x).pending = s.pending := rfl
@[simp] theorem State.setRtr_time (i : Nat) (x : RouterSt) : (s.setRtr i x).time = s.time := rfl
@[simp] theorem State.setRtr_epoch (i : Nat) (x : RouterSt) : (s.setRtr i x).epoch = s.epoch := rfl
@[simp] theorem State.setRtr_fresh (i : Nat) (x : RouterSt) : (s.setRtr i x).fresh = s.fresh := rfl
@[simp] theorem State.setRtr_frm (i : Nat) (x : RouterSt) : (s.setRtr i x).frm = s.frm := rfl
@[simp] theorem State.setRtr_clu (i : Nat) (x : RouterSt) : (s.setRtr i x).clu = s.clu := rfl
@[simp] theorem State.setRtr_flt (i : Nat) (x : RouterSt) : (s.setRtr i x).flt = s.flt := rfl
@[simp] theorem State.setRtr_nst (i : Nat) (x : RouterSt) : (s.setRtr i x).nst = s.nst := rfl
@[simp] theorem State.setRtr_deck (i : Nat) (x : RouterSt) : (s.setRtr i x).deck = s.deck := rfl
@[simp] theorem State.setRtr_lp (i : Nat) (x : RouterSt) : (s.setRtr i x).lp = s.lp := rfl
@[simp] theorem State.setRtr_nstBank (i : Nat) (x : RouterSt) : (s.setRtr i x).nstBank = s.nstBank := rfl
@[simp] theorem State.setRtr_deckBank (i : Nat) (x : RouterSt) : (s.setRtr i x).deckBank = s.deckBank := rfl
@[simp] theorem State.setRtr_bankUse (i : Nat) (x : RouterSt) : (s.setRtr i x).bankUse = s.bankUse := rfl
@[simp] theorem State.setRtr_core (i : Nat) (x : RouterSt) : (s.setRtr i x).core = s.core := rfl
@[simp] theorem State.setRtr_stop (i : Nat) (x : RouterSt) : (s.setRtr i x).stop = s.stop := rfl
@[simp] theorem State.setRtr_ferryFly (i : Nat) (x : RouterSt) : (s.setRtr i x).ferryFly = s.ferryFly := rfl
@[simp] theorem State.setRtr_splice (i : Nat) (x : RouterSt) : (s.setRtr i x).splice = s.splice := rfl
@[simp] theorem State.setRtr_rtr (i : Nat) (x : RouterSt) : (s.setRtr i x).rtr = tset s.rtr i x := rfl
@[simp] theorem State.setRtr_meshFly (i : Nat) (x : RouterSt) : (s.setRtr i x).meshFly = s.meshFly := rfl
@[simp] theorem State.setRtr_cour (i : Nat) (x : RouterSt) : (s.setRtr i x).cour = s.cour := rfl
@[simp] theorem State.setRtr_upd (i : Nat) (x : RouterSt) : (s.setRtr i x).upd = s.upd := rfl
@[simp] theorem State.setRtr_shape (i : Nat) (x : RouterSt) : (s.setRtr i x).shape = s.shape := rfl
@[simp] theorem State.setRtr_cnt (i : Nat) (x : RouterSt) : (s.setRtr i x).cnt = s.cnt := rfl
@[simp] theorem State.setRtr_stk (i : Nat) (x : RouterSt) : (s.setRtr i x).stk = s.stk := rfl
@[simp] theorem State.setRtr_ctx (i : Nat) (x : RouterSt) : (s.setRtr i x).ctx = s.ctx := rfl
@[simp] theorem State.setRtr_queue (i : Nat) (x : RouterSt) : (s.setRtr i x).queue = s.queue := rfl
@[simp] theorem State.setRtr_reqNo (i : Nat) (x : RouterSt) : (s.setRtr i x).reqNo = s.reqNo := rfl
@[simp] theorem State.setRtr_waitLimit (i : Nat) (x : RouterSt) : (s.setRtr i x).waitLimit = s.waitLimit := rfl
@[simp] theorem State.setRtr_mport (i : Nat) (x : RouterSt) : (s.setRtr i x).mport = s.mport := rfl
@[simp] theorem State.setRtr_depot (i : Nat) (x : RouterSt) : (s.setRtr i x).depot = s.depot := rfl
@[simp] theorem State.setRtr_pont (i : Nat) (x : RouterSt) : (s.setRtr i x).pont = s.pont := rfl
@[simp] theorem State.setRtr_obs (i : Nat) (x : RouterSt) : (s.setRtr i x).obs = s.obs := rfl
@[simp] theorem State.setRtr_post (i : Nat) (x : RouterSt) : (s.setRtr i x).post = s.post := rfl
@[simp] theorem State.setRtr_boot (i : Nat) (x : RouterSt) : (s.setRtr i x).boot = s.boot := rfl
@[simp] theorem State.setRtr_brt (i : Nat) (x : RouterSt) : (s.setRtr i x).brt = s.brt := rfl
@[simp] theorem State.setRtr_host (i : Nat) (x : RouterSt) : (s.setRtr i x).host = s.host := rfl
@[simp] theorem State.setRtr_pwr (i : Nat) (x : RouterSt) : (s.setRtr i x).pwr = s.pwr := rfl
@[simp] theorem State.setRtr_pins (i : Nat) (x : RouterSt) : (s.setRtr i x).pins = s.pins := rfl
@[simp] theorem State.setRtr_out (i : Nat) (x : RouterSt) : (s.setRtr i x).out = s.out := rfl
@[simp] theorem State.setRtr_upsets (i : Nat) (x : RouterSt) : (s.setRtr i x).upsets = s.upsets := rfl

/-! ### `setNstB` -/

@[simp] theorem State.setNstB_pending (i : Nat) (x : BankSt) : (s.setNstB i x).pending = s.pending := rfl
@[simp] theorem State.setNstB_time (i : Nat) (x : BankSt) : (s.setNstB i x).time = s.time := rfl
@[simp] theorem State.setNstB_epoch (i : Nat) (x : BankSt) : (s.setNstB i x).epoch = s.epoch := rfl
@[simp] theorem State.setNstB_fresh (i : Nat) (x : BankSt) : (s.setNstB i x).fresh = s.fresh := rfl
@[simp] theorem State.setNstB_frm (i : Nat) (x : BankSt) : (s.setNstB i x).frm = s.frm := rfl
@[simp] theorem State.setNstB_clu (i : Nat) (x : BankSt) : (s.setNstB i x).clu = s.clu := rfl
@[simp] theorem State.setNstB_flt (i : Nat) (x : BankSt) : (s.setNstB i x).flt = s.flt := rfl
@[simp] theorem State.setNstB_nst (i : Nat) (x : BankSt) : (s.setNstB i x).nst = s.nst := rfl
@[simp] theorem State.setNstB_deck (i : Nat) (x : BankSt) : (s.setNstB i x).deck = s.deck := rfl
@[simp] theorem State.setNstB_lp (i : Nat) (x : BankSt) : (s.setNstB i x).lp = s.lp := rfl
@[simp] theorem State.setNstB_nstBank (i : Nat) (x : BankSt) : (s.setNstB i x).nstBank = tset s.nstBank i x := rfl
@[simp] theorem State.setNstB_deckBank (i : Nat) (x : BankSt) : (s.setNstB i x).deckBank = s.deckBank := rfl
@[simp] theorem State.setNstB_bankUse (i : Nat) (x : BankSt) : (s.setNstB i x).bankUse = s.bankUse := rfl
@[simp] theorem State.setNstB_core (i : Nat) (x : BankSt) : (s.setNstB i x).core = s.core := rfl
@[simp] theorem State.setNstB_stop (i : Nat) (x : BankSt) : (s.setNstB i x).stop = s.stop := rfl
@[simp] theorem State.setNstB_ferryFly (i : Nat) (x : BankSt) : (s.setNstB i x).ferryFly = s.ferryFly := rfl
@[simp] theorem State.setNstB_splice (i : Nat) (x : BankSt) : (s.setNstB i x).splice = s.splice := rfl
@[simp] theorem State.setNstB_rtr (i : Nat) (x : BankSt) : (s.setNstB i x).rtr = s.rtr := rfl
@[simp] theorem State.setNstB_meshFly (i : Nat) (x : BankSt) : (s.setNstB i x).meshFly = s.meshFly := rfl
@[simp] theorem State.setNstB_cour (i : Nat) (x : BankSt) : (s.setNstB i x).cour = s.cour := rfl
@[simp] theorem State.setNstB_upd (i : Nat) (x : BankSt) : (s.setNstB i x).upd = s.upd := rfl
@[simp] theorem State.setNstB_shape (i : Nat) (x : BankSt) : (s.setNstB i x).shape = s.shape := rfl
@[simp] theorem State.setNstB_cnt (i : Nat) (x : BankSt) : (s.setNstB i x).cnt = s.cnt := rfl
@[simp] theorem State.setNstB_stk (i : Nat) (x : BankSt) : (s.setNstB i x).stk = s.stk := rfl
@[simp] theorem State.setNstB_ctx (i : Nat) (x : BankSt) : (s.setNstB i x).ctx = s.ctx := rfl
@[simp] theorem State.setNstB_queue (i : Nat) (x : BankSt) : (s.setNstB i x).queue = s.queue := rfl
@[simp] theorem State.setNstB_reqNo (i : Nat) (x : BankSt) : (s.setNstB i x).reqNo = s.reqNo := rfl
@[simp] theorem State.setNstB_waitLimit (i : Nat) (x : BankSt) : (s.setNstB i x).waitLimit = s.waitLimit := rfl
@[simp] theorem State.setNstB_mport (i : Nat) (x : BankSt) : (s.setNstB i x).mport = s.mport := rfl
@[simp] theorem State.setNstB_depot (i : Nat) (x : BankSt) : (s.setNstB i x).depot = s.depot := rfl
@[simp] theorem State.setNstB_pont (i : Nat) (x : BankSt) : (s.setNstB i x).pont = s.pont := rfl
@[simp] theorem State.setNstB_obs (i : Nat) (x : BankSt) : (s.setNstB i x).obs = s.obs := rfl
@[simp] theorem State.setNstB_post (i : Nat) (x : BankSt) : (s.setNstB i x).post = s.post := rfl
@[simp] theorem State.setNstB_boot (i : Nat) (x : BankSt) : (s.setNstB i x).boot = s.boot := rfl
@[simp] theorem State.setNstB_brt (i : Nat) (x : BankSt) : (s.setNstB i x).brt = s.brt := rfl
@[simp] theorem State.setNstB_host (i : Nat) (x : BankSt) : (s.setNstB i x).host = s.host := rfl
@[simp] theorem State.setNstB_pwr (i : Nat) (x : BankSt) : (s.setNstB i x).pwr = s.pwr := rfl
@[simp] theorem State.setNstB_pins (i : Nat) (x : BankSt) : (s.setNstB i x).pins = s.pins := rfl
@[simp] theorem State.setNstB_out (i : Nat) (x : BankSt) : (s.setNstB i x).out = s.out := rfl
@[simp] theorem State.setNstB_upsets (i : Nat) (x : BankSt) : (s.setNstB i x).upsets = s.upsets := rfl

/-! ### `setDeckB` -/

@[simp] theorem State.setDeckB_pending (i : Nat) (x : BankSt) : (s.setDeckB i x).pending = s.pending := rfl
@[simp] theorem State.setDeckB_time (i : Nat) (x : BankSt) : (s.setDeckB i x).time = s.time := rfl
@[simp] theorem State.setDeckB_epoch (i : Nat) (x : BankSt) : (s.setDeckB i x).epoch = s.epoch := rfl
@[simp] theorem State.setDeckB_fresh (i : Nat) (x : BankSt) : (s.setDeckB i x).fresh = s.fresh := rfl
@[simp] theorem State.setDeckB_frm (i : Nat) (x : BankSt) : (s.setDeckB i x).frm = s.frm := rfl
@[simp] theorem State.setDeckB_clu (i : Nat) (x : BankSt) : (s.setDeckB i x).clu = s.clu := rfl
@[simp] theorem State.setDeckB_flt (i : Nat) (x : BankSt) : (s.setDeckB i x).flt = s.flt := rfl
@[simp] theorem State.setDeckB_nst (i : Nat) (x : BankSt) : (s.setDeckB i x).nst = s.nst := rfl
@[simp] theorem State.setDeckB_deck (i : Nat) (x : BankSt) : (s.setDeckB i x).deck = s.deck := rfl
@[simp] theorem State.setDeckB_lp (i : Nat) (x : BankSt) : (s.setDeckB i x).lp = s.lp := rfl
@[simp] theorem State.setDeckB_nstBank (i : Nat) (x : BankSt) : (s.setDeckB i x).nstBank = s.nstBank := rfl
@[simp] theorem State.setDeckB_deckBank (i : Nat) (x : BankSt) : (s.setDeckB i x).deckBank = tset s.deckBank i x := rfl
@[simp] theorem State.setDeckB_bankUse (i : Nat) (x : BankSt) : (s.setDeckB i x).bankUse = s.bankUse := rfl
@[simp] theorem State.setDeckB_core (i : Nat) (x : BankSt) : (s.setDeckB i x).core = s.core := rfl
@[simp] theorem State.setDeckB_stop (i : Nat) (x : BankSt) : (s.setDeckB i x).stop = s.stop := rfl
@[simp] theorem State.setDeckB_ferryFly (i : Nat) (x : BankSt) : (s.setDeckB i x).ferryFly = s.ferryFly := rfl
@[simp] theorem State.setDeckB_splice (i : Nat) (x : BankSt) : (s.setDeckB i x).splice = s.splice := rfl
@[simp] theorem State.setDeckB_rtr (i : Nat) (x : BankSt) : (s.setDeckB i x).rtr = s.rtr := rfl
@[simp] theorem State.setDeckB_meshFly (i : Nat) (x : BankSt) : (s.setDeckB i x).meshFly = s.meshFly := rfl
@[simp] theorem State.setDeckB_cour (i : Nat) (x : BankSt) : (s.setDeckB i x).cour = s.cour := rfl
@[simp] theorem State.setDeckB_upd (i : Nat) (x : BankSt) : (s.setDeckB i x).upd = s.upd := rfl
@[simp] theorem State.setDeckB_shape (i : Nat) (x : BankSt) : (s.setDeckB i x).shape = s.shape := rfl
@[simp] theorem State.setDeckB_cnt (i : Nat) (x : BankSt) : (s.setDeckB i x).cnt = s.cnt := rfl
@[simp] theorem State.setDeckB_stk (i : Nat) (x : BankSt) : (s.setDeckB i x).stk = s.stk := rfl
@[simp] theorem State.setDeckB_ctx (i : Nat) (x : BankSt) : (s.setDeckB i x).ctx = s.ctx := rfl
@[simp] theorem State.setDeckB_queue (i : Nat) (x : BankSt) : (s.setDeckB i x).queue = s.queue := rfl
@[simp] theorem State.setDeckB_reqNo (i : Nat) (x : BankSt) : (s.setDeckB i x).reqNo = s.reqNo := rfl
@[simp] theorem State.setDeckB_waitLimit (i : Nat) (x : BankSt) : (s.setDeckB i x).waitLimit = s.waitLimit := rfl
@[simp] theorem State.setDeckB_mport (i : Nat) (x : BankSt) : (s.setDeckB i x).mport = s.mport := rfl
@[simp] theorem State.setDeckB_depot (i : Nat) (x : BankSt) : (s.setDeckB i x).depot = s.depot := rfl
@[simp] theorem State.setDeckB_pont (i : Nat) (x : BankSt) : (s.setDeckB i x).pont = s.pont := rfl
@[simp] theorem State.setDeckB_obs (i : Nat) (x : BankSt) : (s.setDeckB i x).obs = s.obs := rfl
@[simp] theorem State.setDeckB_post (i : Nat) (x : BankSt) : (s.setDeckB i x).post = s.post := rfl
@[simp] theorem State.setDeckB_boot (i : Nat) (x : BankSt) : (s.setDeckB i x).boot = s.boot := rfl
@[simp] theorem State.setDeckB_brt (i : Nat) (x : BankSt) : (s.setDeckB i x).brt = s.brt := rfl
@[simp] theorem State.setDeckB_host (i : Nat) (x : BankSt) : (s.setDeckB i x).host = s.host := rfl
@[simp] theorem State.setDeckB_pwr (i : Nat) (x : BankSt) : (s.setDeckB i x).pwr = s.pwr := rfl
@[simp] theorem State.setDeckB_pins (i : Nat) (x : BankSt) : (s.setDeckB i x).pins = s.pins := rfl
@[simp] theorem State.setDeckB_out (i : Nat) (x : BankSt) : (s.setDeckB i x).out = s.out := rfl
@[simp] theorem State.setDeckB_upsets (i : Nat) (x : BankSt) : (s.setDeckB i x).upsets = s.upsets := rfl

/-! ### `setStk` -/

@[simp] theorem State.setStk_pending (i : Nat) (x : StackSt) : (s.setStk i x).pending = s.pending := rfl
@[simp] theorem State.setStk_time (i : Nat) (x : StackSt) : (s.setStk i x).time = s.time := rfl
@[simp] theorem State.setStk_epoch (i : Nat) (x : StackSt) : (s.setStk i x).epoch = s.epoch := rfl
@[simp] theorem State.setStk_fresh (i : Nat) (x : StackSt) : (s.setStk i x).fresh = s.fresh := rfl
@[simp] theorem State.setStk_frm (i : Nat) (x : StackSt) : (s.setStk i x).frm = s.frm := rfl
@[simp] theorem State.setStk_clu (i : Nat) (x : StackSt) : (s.setStk i x).clu = s.clu := rfl
@[simp] theorem State.setStk_flt (i : Nat) (x : StackSt) : (s.setStk i x).flt = s.flt := rfl
@[simp] theorem State.setStk_nst (i : Nat) (x : StackSt) : (s.setStk i x).nst = s.nst := rfl
@[simp] theorem State.setStk_deck (i : Nat) (x : StackSt) : (s.setStk i x).deck = s.deck := rfl
@[simp] theorem State.setStk_lp (i : Nat) (x : StackSt) : (s.setStk i x).lp = s.lp := rfl
@[simp] theorem State.setStk_nstBank (i : Nat) (x : StackSt) : (s.setStk i x).nstBank = s.nstBank := rfl
@[simp] theorem State.setStk_deckBank (i : Nat) (x : StackSt) : (s.setStk i x).deckBank = s.deckBank := rfl
@[simp] theorem State.setStk_bankUse (i : Nat) (x : StackSt) : (s.setStk i x).bankUse = s.bankUse := rfl
@[simp] theorem State.setStk_core (i : Nat) (x : StackSt) : (s.setStk i x).core = s.core := rfl
@[simp] theorem State.setStk_stop (i : Nat) (x : StackSt) : (s.setStk i x).stop = s.stop := rfl
@[simp] theorem State.setStk_ferryFly (i : Nat) (x : StackSt) : (s.setStk i x).ferryFly = s.ferryFly := rfl
@[simp] theorem State.setStk_splice (i : Nat) (x : StackSt) : (s.setStk i x).splice = s.splice := rfl
@[simp] theorem State.setStk_rtr (i : Nat) (x : StackSt) : (s.setStk i x).rtr = s.rtr := rfl
@[simp] theorem State.setStk_meshFly (i : Nat) (x : StackSt) : (s.setStk i x).meshFly = s.meshFly := rfl
@[simp] theorem State.setStk_cour (i : Nat) (x : StackSt) : (s.setStk i x).cour = s.cour := rfl
@[simp] theorem State.setStk_upd (i : Nat) (x : StackSt) : (s.setStk i x).upd = s.upd := rfl
@[simp] theorem State.setStk_shape (i : Nat) (x : StackSt) : (s.setStk i x).shape = s.shape := rfl
@[simp] theorem State.setStk_cnt (i : Nat) (x : StackSt) : (s.setStk i x).cnt = s.cnt := rfl
@[simp] theorem State.setStk_stk (i : Nat) (x : StackSt) : (s.setStk i x).stk = tset s.stk i x := rfl
@[simp] theorem State.setStk_ctx (i : Nat) (x : StackSt) : (s.setStk i x).ctx = s.ctx := rfl
@[simp] theorem State.setStk_queue (i : Nat) (x : StackSt) : (s.setStk i x).queue = s.queue := rfl
@[simp] theorem State.setStk_reqNo (i : Nat) (x : StackSt) : (s.setStk i x).reqNo = s.reqNo := rfl
@[simp] theorem State.setStk_waitLimit (i : Nat) (x : StackSt) : (s.setStk i x).waitLimit = s.waitLimit := rfl
@[simp] theorem State.setStk_mport (i : Nat) (x : StackSt) : (s.setStk i x).mport = s.mport := rfl
@[simp] theorem State.setStk_depot (i : Nat) (x : StackSt) : (s.setStk i x).depot = s.depot := rfl
@[simp] theorem State.setStk_pont (i : Nat) (x : StackSt) : (s.setStk i x).pont = s.pont := rfl
@[simp] theorem State.setStk_obs (i : Nat) (x : StackSt) : (s.setStk i x).obs = s.obs := rfl
@[simp] theorem State.setStk_post (i : Nat) (x : StackSt) : (s.setStk i x).post = s.post := rfl
@[simp] theorem State.setStk_boot (i : Nat) (x : StackSt) : (s.setStk i x).boot = s.boot := rfl
@[simp] theorem State.setStk_brt (i : Nat) (x : StackSt) : (s.setStk i x).brt = s.brt := rfl
@[simp] theorem State.setStk_host (i : Nat) (x : StackSt) : (s.setStk i x).host = s.host := rfl
@[simp] theorem State.setStk_pwr (i : Nat) (x : StackSt) : (s.setStk i x).pwr = s.pwr := rfl
@[simp] theorem State.setStk_pins (i : Nat) (x : StackSt) : (s.setStk i x).pins = s.pins := rfl
@[simp] theorem State.setStk_out (i : Nat) (x : StackSt) : (s.setStk i x).out = s.out := rfl
@[simp] theorem State.setStk_upsets (i : Nat) (x : StackSt) : (s.setStk i x).upsets = s.upsets := rfl

/-! ### `setCtx` -/

@[simp] theorem State.setCtx_pending (k : Nat) (x : CtxSt) : (s.setCtx k x).pending = s.pending := rfl
@[simp] theorem State.setCtx_time (k : Nat) (x : CtxSt) : (s.setCtx k x).time = s.time := rfl
@[simp] theorem State.setCtx_epoch (k : Nat) (x : CtxSt) : (s.setCtx k x).epoch = s.epoch := rfl
@[simp] theorem State.setCtx_fresh (k : Nat) (x : CtxSt) : (s.setCtx k x).fresh = s.fresh := rfl
@[simp] theorem State.setCtx_frm (k : Nat) (x : CtxSt) : (s.setCtx k x).frm = s.frm := rfl
@[simp] theorem State.setCtx_clu (k : Nat) (x : CtxSt) : (s.setCtx k x).clu = s.clu := rfl
@[simp] theorem State.setCtx_flt (k : Nat) (x : CtxSt) : (s.setCtx k x).flt = s.flt := rfl
@[simp] theorem State.setCtx_nst (k : Nat) (x : CtxSt) : (s.setCtx k x).nst = s.nst := rfl
@[simp] theorem State.setCtx_deck (k : Nat) (x : CtxSt) : (s.setCtx k x).deck = s.deck := rfl
@[simp] theorem State.setCtx_lp (k : Nat) (x : CtxSt) : (s.setCtx k x).lp = s.lp := rfl
@[simp] theorem State.setCtx_nstBank (k : Nat) (x : CtxSt) : (s.setCtx k x).nstBank = s.nstBank := rfl
@[simp] theorem State.setCtx_deckBank (k : Nat) (x : CtxSt) : (s.setCtx k x).deckBank = s.deckBank := rfl
@[simp] theorem State.setCtx_bankUse (k : Nat) (x : CtxSt) : (s.setCtx k x).bankUse = s.bankUse := rfl
@[simp] theorem State.setCtx_core (k : Nat) (x : CtxSt) : (s.setCtx k x).core = s.core := rfl
@[simp] theorem State.setCtx_stop (k : Nat) (x : CtxSt) : (s.setCtx k x).stop = s.stop := rfl
@[simp] theorem State.setCtx_ferryFly (k : Nat) (x : CtxSt) : (s.setCtx k x).ferryFly = s.ferryFly := rfl
@[simp] theorem State.setCtx_splice (k : Nat) (x : CtxSt) : (s.setCtx k x).splice = s.splice := rfl
@[simp] theorem State.setCtx_rtr (k : Nat) (x : CtxSt) : (s.setCtx k x).rtr = s.rtr := rfl
@[simp] theorem State.setCtx_meshFly (k : Nat) (x : CtxSt) : (s.setCtx k x).meshFly = s.meshFly := rfl
@[simp] theorem State.setCtx_cour (k : Nat) (x : CtxSt) : (s.setCtx k x).cour = s.cour := rfl
@[simp] theorem State.setCtx_upd (k : Nat) (x : CtxSt) : (s.setCtx k x).upd = s.upd := rfl
@[simp] theorem State.setCtx_shape (k : Nat) (x : CtxSt) : (s.setCtx k x).shape = s.shape := rfl
@[simp] theorem State.setCtx_cnt (k : Nat) (x : CtxSt) : (s.setCtx k x).cnt = s.cnt := rfl
@[simp] theorem State.setCtx_stk (k : Nat) (x : CtxSt) : (s.setCtx k x).stk = s.stk := rfl
@[simp] theorem State.setCtx_ctx (k : Nat) (x : CtxSt) : (s.setCtx k x).ctx = tset s.ctx k x := rfl
@[simp] theorem State.setCtx_queue (k : Nat) (x : CtxSt) : (s.setCtx k x).queue = s.queue := rfl
@[simp] theorem State.setCtx_reqNo (k : Nat) (x : CtxSt) : (s.setCtx k x).reqNo = s.reqNo := rfl
@[simp] theorem State.setCtx_waitLimit (k : Nat) (x : CtxSt) : (s.setCtx k x).waitLimit = s.waitLimit := rfl
@[simp] theorem State.setCtx_mport (k : Nat) (x : CtxSt) : (s.setCtx k x).mport = s.mport := rfl
@[simp] theorem State.setCtx_depot (k : Nat) (x : CtxSt) : (s.setCtx k x).depot = s.depot := rfl
@[simp] theorem State.setCtx_pont (k : Nat) (x : CtxSt) : (s.setCtx k x).pont = s.pont := rfl
@[simp] theorem State.setCtx_obs (k : Nat) (x : CtxSt) : (s.setCtx k x).obs = s.obs := rfl
@[simp] theorem State.setCtx_post (k : Nat) (x : CtxSt) : (s.setCtx k x).post = s.post := rfl
@[simp] theorem State.setCtx_boot (k : Nat) (x : CtxSt) : (s.setCtx k x).boot = s.boot := rfl
@[simp] theorem State.setCtx_brt (k : Nat) (x : CtxSt) : (s.setCtx k x).brt = s.brt := rfl
@[simp] theorem State.setCtx_host (k : Nat) (x : CtxSt) : (s.setCtx k x).host = s.host := rfl
@[simp] theorem State.setCtx_pwr (k : Nat) (x : CtxSt) : (s.setCtx k x).pwr = s.pwr := rfl
@[simp] theorem State.setCtx_pins (k : Nat) (x : CtxSt) : (s.setCtx k x).pins = s.pins := rfl
@[simp] theorem State.setCtx_out (k : Nat) (x : CtxSt) : (s.setCtx k x).out = s.out := rfl
@[simp] theorem State.setCtx_upsets (k : Nat) (x : CtxSt) : (s.setCtx k x).upsets = s.upsets := rfl

/-! ### `setQueue` -/

@[simp] theorem State.setQueue_pending (k : Nat) (x : QueueSt) : (s.setQueue k x).pending = s.pending := rfl
@[simp] theorem State.setQueue_time (k : Nat) (x : QueueSt) : (s.setQueue k x).time = s.time := rfl
@[simp] theorem State.setQueue_epoch (k : Nat) (x : QueueSt) : (s.setQueue k x).epoch = s.epoch := rfl
@[simp] theorem State.setQueue_fresh (k : Nat) (x : QueueSt) : (s.setQueue k x).fresh = s.fresh := rfl
@[simp] theorem State.setQueue_frm (k : Nat) (x : QueueSt) : (s.setQueue k x).frm = s.frm := rfl
@[simp] theorem State.setQueue_clu (k : Nat) (x : QueueSt) : (s.setQueue k x).clu = s.clu := rfl
@[simp] theorem State.setQueue_flt (k : Nat) (x : QueueSt) : (s.setQueue k x).flt = s.flt := rfl
@[simp] theorem State.setQueue_nst (k : Nat) (x : QueueSt) : (s.setQueue k x).nst = s.nst := rfl
@[simp] theorem State.setQueue_deck (k : Nat) (x : QueueSt) : (s.setQueue k x).deck = s.deck := rfl
@[simp] theorem State.setQueue_lp (k : Nat) (x : QueueSt) : (s.setQueue k x).lp = s.lp := rfl
@[simp] theorem State.setQueue_nstBank (k : Nat) (x : QueueSt) : (s.setQueue k x).nstBank = s.nstBank := rfl
@[simp] theorem State.setQueue_deckBank (k : Nat) (x : QueueSt) : (s.setQueue k x).deckBank = s.deckBank := rfl
@[simp] theorem State.setQueue_bankUse (k : Nat) (x : QueueSt) : (s.setQueue k x).bankUse = s.bankUse := rfl
@[simp] theorem State.setQueue_core (k : Nat) (x : QueueSt) : (s.setQueue k x).core = s.core := rfl
@[simp] theorem State.setQueue_stop (k : Nat) (x : QueueSt) : (s.setQueue k x).stop = s.stop := rfl
@[simp] theorem State.setQueue_ferryFly (k : Nat) (x : QueueSt) : (s.setQueue k x).ferryFly = s.ferryFly := rfl
@[simp] theorem State.setQueue_splice (k : Nat) (x : QueueSt) : (s.setQueue k x).splice = s.splice := rfl
@[simp] theorem State.setQueue_rtr (k : Nat) (x : QueueSt) : (s.setQueue k x).rtr = s.rtr := rfl
@[simp] theorem State.setQueue_meshFly (k : Nat) (x : QueueSt) : (s.setQueue k x).meshFly = s.meshFly := rfl
@[simp] theorem State.setQueue_cour (k : Nat) (x : QueueSt) : (s.setQueue k x).cour = s.cour := rfl
@[simp] theorem State.setQueue_upd (k : Nat) (x : QueueSt) : (s.setQueue k x).upd = s.upd := rfl
@[simp] theorem State.setQueue_shape (k : Nat) (x : QueueSt) : (s.setQueue k x).shape = s.shape := rfl
@[simp] theorem State.setQueue_cnt (k : Nat) (x : QueueSt) : (s.setQueue k x).cnt = s.cnt := rfl
@[simp] theorem State.setQueue_stk (k : Nat) (x : QueueSt) : (s.setQueue k x).stk = s.stk := rfl
@[simp] theorem State.setQueue_ctx (k : Nat) (x : QueueSt) : (s.setQueue k x).ctx = s.ctx := rfl
@[simp] theorem State.setQueue_queue (k : Nat) (x : QueueSt) : (s.setQueue k x).queue = tset s.queue k x := rfl
@[simp] theorem State.setQueue_reqNo (k : Nat) (x : QueueSt) : (s.setQueue k x).reqNo = s.reqNo := rfl
@[simp] theorem State.setQueue_waitLimit (k : Nat) (x : QueueSt) : (s.setQueue k x).waitLimit = s.waitLimit := rfl
@[simp] theorem State.setQueue_mport (k : Nat) (x : QueueSt) : (s.setQueue k x).mport = s.mport := rfl
@[simp] theorem State.setQueue_depot (k : Nat) (x : QueueSt) : (s.setQueue k x).depot = s.depot := rfl
@[simp] theorem State.setQueue_pont (k : Nat) (x : QueueSt) : (s.setQueue k x).pont = s.pont := rfl
@[simp] theorem State.setQueue_obs (k : Nat) (x : QueueSt) : (s.setQueue k x).obs = s.obs := rfl
@[simp] theorem State.setQueue_post (k : Nat) (x : QueueSt) : (s.setQueue k x).post = s.post := rfl
@[simp] theorem State.setQueue_boot (k : Nat) (x : QueueSt) : (s.setQueue k x).boot = s.boot := rfl
@[simp] theorem State.setQueue_brt (k : Nat) (x : QueueSt) : (s.setQueue k x).brt = s.brt := rfl
@[simp] theorem State.setQueue_host (k : Nat) (x : QueueSt) : (s.setQueue k x).host = s.host := rfl
@[simp] theorem State.setQueue_pwr (k : Nat) (x : QueueSt) : (s.setQueue k x).pwr = s.pwr := rfl
@[simp] theorem State.setQueue_pins (k : Nat) (x : QueueSt) : (s.setQueue k x).pins = s.pins := rfl
@[simp] theorem State.setQueue_out (k : Nat) (x : QueueSt) : (s.setQueue k x).out = s.out := rfl
@[simp] theorem State.setQueue_upsets (k : Nat) (x : QueueSt) : (s.setQueue k x).upsets = s.upsets := rfl

/-! ### `setMport` -/

@[simp] theorem State.setMport_pending (i : Nat) (x : MportSt) : (s.setMport i x).pending = s.pending := rfl
@[simp] theorem State.setMport_time (i : Nat) (x : MportSt) : (s.setMport i x).time = s.time := rfl
@[simp] theorem State.setMport_epoch (i : Nat) (x : MportSt) : (s.setMport i x).epoch = s.epoch := rfl
@[simp] theorem State.setMport_fresh (i : Nat) (x : MportSt) : (s.setMport i x).fresh = s.fresh := rfl
@[simp] theorem State.setMport_frm (i : Nat) (x : MportSt) : (s.setMport i x).frm = s.frm := rfl
@[simp] theorem State.setMport_clu (i : Nat) (x : MportSt) : (s.setMport i x).clu = s.clu := rfl
@[simp] theorem State.setMport_flt (i : Nat) (x : MportSt) : (s.setMport i x).flt = s.flt := rfl
@[simp] theorem State.setMport_nst (i : Nat) (x : MportSt) : (s.setMport i x).nst = s.nst := rfl
@[simp] theorem State.setMport_deck (i : Nat) (x : MportSt) : (s.setMport i x).deck = s.deck := rfl
@[simp] theorem State.setMport_lp (i : Nat) (x : MportSt) : (s.setMport i x).lp = s.lp := rfl
@[simp] theorem State.setMport_nstBank (i : Nat) (x : MportSt) : (s.setMport i x).nstBank = s.nstBank := rfl
@[simp] theorem State.setMport_deckBank (i : Nat) (x : MportSt) : (s.setMport i x).deckBank = s.deckBank := rfl
@[simp] theorem State.setMport_bankUse (i : Nat) (x : MportSt) : (s.setMport i x).bankUse = s.bankUse := rfl
@[simp] theorem State.setMport_core (i : Nat) (x : MportSt) : (s.setMport i x).core = s.core := rfl
@[simp] theorem State.setMport_stop (i : Nat) (x : MportSt) : (s.setMport i x).stop = s.stop := rfl
@[simp] theorem State.setMport_ferryFly (i : Nat) (x : MportSt) : (s.setMport i x).ferryFly = s.ferryFly := rfl
@[simp] theorem State.setMport_splice (i : Nat) (x : MportSt) : (s.setMport i x).splice = s.splice := rfl
@[simp] theorem State.setMport_rtr (i : Nat) (x : MportSt) : (s.setMport i x).rtr = s.rtr := rfl
@[simp] theorem State.setMport_meshFly (i : Nat) (x : MportSt) : (s.setMport i x).meshFly = s.meshFly := rfl
@[simp] theorem State.setMport_cour (i : Nat) (x : MportSt) : (s.setMport i x).cour = s.cour := rfl
@[simp] theorem State.setMport_upd (i : Nat) (x : MportSt) : (s.setMport i x).upd = s.upd := rfl
@[simp] theorem State.setMport_shape (i : Nat) (x : MportSt) : (s.setMport i x).shape = s.shape := rfl
@[simp] theorem State.setMport_cnt (i : Nat) (x : MportSt) : (s.setMport i x).cnt = s.cnt := rfl
@[simp] theorem State.setMport_stk (i : Nat) (x : MportSt) : (s.setMport i x).stk = s.stk := rfl
@[simp] theorem State.setMport_ctx (i : Nat) (x : MportSt) : (s.setMport i x).ctx = s.ctx := rfl
@[simp] theorem State.setMport_queue (i : Nat) (x : MportSt) : (s.setMport i x).queue = s.queue := rfl
@[simp] theorem State.setMport_reqNo (i : Nat) (x : MportSt) : (s.setMport i x).reqNo = s.reqNo := rfl
@[simp] theorem State.setMport_waitLimit (i : Nat) (x : MportSt) : (s.setMport i x).waitLimit = s.waitLimit := rfl
@[simp] theorem State.setMport_mport (i : Nat) (x : MportSt) : (s.setMport i x).mport = tset s.mport i x := rfl
@[simp] theorem State.setMport_depot (i : Nat) (x : MportSt) : (s.setMport i x).depot = s.depot := rfl
@[simp] theorem State.setMport_pont (i : Nat) (x : MportSt) : (s.setMport i x).pont = s.pont := rfl
@[simp] theorem State.setMport_obs (i : Nat) (x : MportSt) : (s.setMport i x).obs = s.obs := rfl
@[simp] theorem State.setMport_post (i : Nat) (x : MportSt) : (s.setMport i x).post = s.post := rfl
@[simp] theorem State.setMport_boot (i : Nat) (x : MportSt) : (s.setMport i x).boot = s.boot := rfl
@[simp] theorem State.setMport_brt (i : Nat) (x : MportSt) : (s.setMport i x).brt = s.brt := rfl
@[simp] theorem State.setMport_host (i : Nat) (x : MportSt) : (s.setMport i x).host = s.host := rfl
@[simp] theorem State.setMport_pwr (i : Nat) (x : MportSt) : (s.setMport i x).pwr = s.pwr := rfl
@[simp] theorem State.setMport_pins (i : Nat) (x : MportSt) : (s.setMport i x).pins = s.pins := rfl
@[simp] theorem State.setMport_out (i : Nat) (x : MportSt) : (s.setMport i x).out = s.out := rfl
@[simp] theorem State.setMport_upsets (i : Nat) (x : MportSt) : (s.setMport i x).upsets = s.upsets := rfl

/-! ### `emit` -/

@[simp] theorem State.emit_pending (o : OutMsg) : (s.emit o).pending = s.pending := rfl
@[simp] theorem State.emit_time (o : OutMsg) : (s.emit o).time = s.time := rfl
@[simp] theorem State.emit_epoch (o : OutMsg) : (s.emit o).epoch = s.epoch := rfl
@[simp] theorem State.emit_fresh (o : OutMsg) : (s.emit o).fresh = s.fresh := rfl
@[simp] theorem State.emit_frm (o : OutMsg) : (s.emit o).frm = s.frm := rfl
@[simp] theorem State.emit_clu (o : OutMsg) : (s.emit o).clu = s.clu := rfl
@[simp] theorem State.emit_flt (o : OutMsg) : (s.emit o).flt = s.flt := rfl
@[simp] theorem State.emit_nst (o : OutMsg) : (s.emit o).nst = s.nst := rfl
@[simp] theorem State.emit_deck (o : OutMsg) : (s.emit o).deck = s.deck := rfl
@[simp] theorem State.emit_lp (o : OutMsg) : (s.emit o).lp = s.lp := rfl
@[simp] theorem State.emit_nstBank (o : OutMsg) : (s.emit o).nstBank = s.nstBank := rfl
@[simp] theorem State.emit_deckBank (o : OutMsg) : (s.emit o).deckBank = s.deckBank := rfl
@[simp] theorem State.emit_bankUse (o : OutMsg) : (s.emit o).bankUse = s.bankUse := rfl
@[simp] theorem State.emit_core (o : OutMsg) : (s.emit o).core = s.core := rfl
@[simp] theorem State.emit_stop (o : OutMsg) : (s.emit o).stop = s.stop := rfl
@[simp] theorem State.emit_ferryFly (o : OutMsg) : (s.emit o).ferryFly = s.ferryFly := rfl
@[simp] theorem State.emit_splice (o : OutMsg) : (s.emit o).splice = s.splice := rfl
@[simp] theorem State.emit_rtr (o : OutMsg) : (s.emit o).rtr = s.rtr := rfl
@[simp] theorem State.emit_meshFly (o : OutMsg) : (s.emit o).meshFly = s.meshFly := rfl
@[simp] theorem State.emit_cour (o : OutMsg) : (s.emit o).cour = s.cour := rfl
@[simp] theorem State.emit_upd (o : OutMsg) : (s.emit o).upd = s.upd := rfl
@[simp] theorem State.emit_shape (o : OutMsg) : (s.emit o).shape = s.shape := rfl
@[simp] theorem State.emit_cnt (o : OutMsg) : (s.emit o).cnt = s.cnt := rfl
@[simp] theorem State.emit_stk (o : OutMsg) : (s.emit o).stk = s.stk := rfl
@[simp] theorem State.emit_ctx (o : OutMsg) : (s.emit o).ctx = s.ctx := rfl
@[simp] theorem State.emit_queue (o : OutMsg) : (s.emit o).queue = s.queue := rfl
@[simp] theorem State.emit_reqNo (o : OutMsg) : (s.emit o).reqNo = s.reqNo := rfl
@[simp] theorem State.emit_waitLimit (o : OutMsg) : (s.emit o).waitLimit = s.waitLimit := rfl
@[simp] theorem State.emit_mport (o : OutMsg) : (s.emit o).mport = s.mport := rfl
@[simp] theorem State.emit_depot (o : OutMsg) : (s.emit o).depot = s.depot := rfl
@[simp] theorem State.emit_pont (o : OutMsg) : (s.emit o).pont = s.pont := rfl
@[simp] theorem State.emit_obs (o : OutMsg) : (s.emit o).obs = s.obs := rfl
@[simp] theorem State.emit_post (o : OutMsg) : (s.emit o).post = s.post := rfl
@[simp] theorem State.emit_boot (o : OutMsg) : (s.emit o).boot = s.boot := rfl
@[simp] theorem State.emit_brt (o : OutMsg) : (s.emit o).brt = s.brt := rfl
@[simp] theorem State.emit_host (o : OutMsg) : (s.emit o).host = s.host := rfl
@[simp] theorem State.emit_pwr (o : OutMsg) : (s.emit o).pwr = s.pwr := rfl
@[simp] theorem State.emit_pins (o : OutMsg) : (s.emit o).pins = s.pins := rfl
@[simp] theorem State.emit_out (o : OutMsg) : (s.emit o).out = s.out ++ [o] := rfl
@[simp] theorem State.emit_upsets (o : OutMsg) : (s.emit o).upsets = s.upsets := rfl

/-! ### `tickFresh` -/

@[simp] theorem State.tickFresh_pending : (s.tickFresh).pending = s.pending := rfl
@[simp] theorem State.tickFresh_time : (s.tickFresh).time = s.time := rfl
@[simp] theorem State.tickFresh_epoch : (s.tickFresh).epoch = s.epoch := rfl
@[simp] theorem State.tickFresh_fresh : (s.tickFresh).fresh = s.fresh + 1 := rfl
@[simp] theorem State.tickFresh_frm : (s.tickFresh).frm = s.frm := rfl
@[simp] theorem State.tickFresh_clu : (s.tickFresh).clu = s.clu := rfl
@[simp] theorem State.tickFresh_flt : (s.tickFresh).flt = s.flt := rfl
@[simp] theorem State.tickFresh_nst : (s.tickFresh).nst = s.nst := rfl
@[simp] theorem State.tickFresh_deck : (s.tickFresh).deck = s.deck := rfl
@[simp] theorem State.tickFresh_lp : (s.tickFresh).lp = s.lp := rfl
@[simp] theorem State.tickFresh_nstBank : (s.tickFresh).nstBank = s.nstBank := rfl
@[simp] theorem State.tickFresh_deckBank : (s.tickFresh).deckBank = s.deckBank := rfl
@[simp] theorem State.tickFresh_bankUse : (s.tickFresh).bankUse = s.bankUse := rfl
@[simp] theorem State.tickFresh_core : (s.tickFresh).core = s.core := rfl
@[simp] theorem State.tickFresh_stop : (s.tickFresh).stop = s.stop := rfl
@[simp] theorem State.tickFresh_ferryFly : (s.tickFresh).ferryFly = s.ferryFly := rfl
@[simp] theorem State.tickFresh_splice : (s.tickFresh).splice = s.splice := rfl
@[simp] theorem State.tickFresh_rtr : (s.tickFresh).rtr = s.rtr := rfl
@[simp] theorem State.tickFresh_meshFly : (s.tickFresh).meshFly = s.meshFly := rfl
@[simp] theorem State.tickFresh_cour : (s.tickFresh).cour = s.cour := rfl
@[simp] theorem State.tickFresh_upd : (s.tickFresh).upd = s.upd := rfl
@[simp] theorem State.tickFresh_shape : (s.tickFresh).shape = s.shape := rfl
@[simp] theorem State.tickFresh_cnt : (s.tickFresh).cnt = s.cnt := rfl
@[simp] theorem State.tickFresh_stk : (s.tickFresh).stk = s.stk := rfl
@[simp] theorem State.tickFresh_ctx : (s.tickFresh).ctx = s.ctx := rfl
@[simp] theorem State.tickFresh_queue : (s.tickFresh).queue = s.queue := rfl
@[simp] theorem State.tickFresh_reqNo : (s.tickFresh).reqNo = s.reqNo := rfl
@[simp] theorem State.tickFresh_waitLimit : (s.tickFresh).waitLimit = s.waitLimit := rfl
@[simp] theorem State.tickFresh_mport : (s.tickFresh).mport = s.mport := rfl
@[simp] theorem State.tickFresh_depot : (s.tickFresh).depot = s.depot := rfl
@[simp] theorem State.tickFresh_pont : (s.tickFresh).pont = s.pont := rfl
@[simp] theorem State.tickFresh_obs : (s.tickFresh).obs = s.obs := rfl
@[simp] theorem State.tickFresh_post : (s.tickFresh).post = s.post := rfl
@[simp] theorem State.tickFresh_boot : (s.tickFresh).boot = s.boot := rfl
@[simp] theorem State.tickFresh_brt : (s.tickFresh).brt = s.brt := rfl
@[simp] theorem State.tickFresh_host : (s.tickFresh).host = s.host := rfl
@[simp] theorem State.tickFresh_pwr : (s.tickFresh).pwr = s.pwr := rfl
@[simp] theorem State.tickFresh_pins : (s.tickFresh).pins = s.pins := rfl
@[simp] theorem State.tickFresh_out : (s.tickFresh).out = s.out := rfl
@[simp] theorem State.tickFresh_upsets : (s.tickFresh).upsets = s.upsets := rfl

/-! ### `onFrm` -/

@[simp] theorem State.onFrm_pending (f : FrameSt → FrameSt) : (s.onFrm f).pending = s.pending := rfl
@[simp] theorem State.onFrm_time (f : FrameSt → FrameSt) : (s.onFrm f).time = s.time := rfl
@[simp] theorem State.onFrm_epoch (f : FrameSt → FrameSt) : (s.onFrm f).epoch = s.epoch := rfl
@[simp] theorem State.onFrm_fresh (f : FrameSt → FrameSt) : (s.onFrm f).fresh = s.fresh := rfl
@[simp] theorem State.onFrm_frm (f : FrameSt → FrameSt) : (s.onFrm f).frm = f s.frm := rfl
@[simp] theorem State.onFrm_clu (f : FrameSt → FrameSt) : (s.onFrm f).clu = s.clu := rfl
@[simp] theorem State.onFrm_flt (f : FrameSt → FrameSt) : (s.onFrm f).flt = s.flt := rfl
@[simp] theorem State.onFrm_nst (f : FrameSt → FrameSt) : (s.onFrm f).nst = s.nst := rfl
@[simp] theorem State.onFrm_deck (f : FrameSt → FrameSt) : (s.onFrm f).deck = s.deck := rfl
@[simp] theorem State.onFrm_lp (f : FrameSt → FrameSt) : (s.onFrm f).lp = s.lp := rfl
@[simp] theorem State.onFrm_nstBank (f : FrameSt → FrameSt) : (s.onFrm f).nstBank = s.nstBank := rfl
@[simp] theorem State.onFrm_deckBank (f : FrameSt → FrameSt) : (s.onFrm f).deckBank = s.deckBank := rfl
@[simp] theorem State.onFrm_bankUse (f : FrameSt → FrameSt) : (s.onFrm f).bankUse = s.bankUse := rfl
@[simp] theorem State.onFrm_core (f : FrameSt → FrameSt) : (s.onFrm f).core = s.core := rfl
@[simp] theorem State.onFrm_stop (f : FrameSt → FrameSt) : (s.onFrm f).stop = s.stop := rfl
@[simp] theorem State.onFrm_ferryFly (f : FrameSt → FrameSt) : (s.onFrm f).ferryFly = s.ferryFly := rfl
@[simp] theorem State.onFrm_splice (f : FrameSt → FrameSt) : (s.onFrm f).splice = s.splice := rfl
@[simp] theorem State.onFrm_rtr (f : FrameSt → FrameSt) : (s.onFrm f).rtr = s.rtr := rfl
@[simp] theorem State.onFrm_meshFly (f : FrameSt → FrameSt) : (s.onFrm f).meshFly = s.meshFly := rfl
@[simp] theorem State.onFrm_cour (f : FrameSt → FrameSt) : (s.onFrm f).cour = s.cour := rfl
@[simp] theorem State.onFrm_upd (f : FrameSt → FrameSt) : (s.onFrm f).upd = s.upd := rfl
@[simp] theorem State.onFrm_shape (f : FrameSt → FrameSt) : (s.onFrm f).shape = s.shape := rfl
@[simp] theorem State.onFrm_cnt (f : FrameSt → FrameSt) : (s.onFrm f).cnt = s.cnt := rfl
@[simp] theorem State.onFrm_stk (f : FrameSt → FrameSt) : (s.onFrm f).stk = s.stk := rfl
@[simp] theorem State.onFrm_ctx (f : FrameSt → FrameSt) : (s.onFrm f).ctx = s.ctx := rfl
@[simp] theorem State.onFrm_queue (f : FrameSt → FrameSt) : (s.onFrm f).queue = s.queue := rfl
@[simp] theorem State.onFrm_reqNo (f : FrameSt → FrameSt) : (s.onFrm f).reqNo = s.reqNo := rfl
@[simp] theorem State.onFrm_waitLimit (f : FrameSt → FrameSt) : (s.onFrm f).waitLimit = s.waitLimit := rfl
@[simp] theorem State.onFrm_mport (f : FrameSt → FrameSt) : (s.onFrm f).mport = s.mport := rfl
@[simp] theorem State.onFrm_depot (f : FrameSt → FrameSt) : (s.onFrm f).depot = s.depot := rfl
@[simp] theorem State.onFrm_pont (f : FrameSt → FrameSt) : (s.onFrm f).pont = s.pont := rfl
@[simp] theorem State.onFrm_obs (f : FrameSt → FrameSt) : (s.onFrm f).obs = s.obs := rfl
@[simp] theorem State.onFrm_post (f : FrameSt → FrameSt) : (s.onFrm f).post = s.post := rfl
@[simp] theorem State.onFrm_boot (f : FrameSt → FrameSt) : (s.onFrm f).boot = s.boot := rfl
@[simp] theorem State.onFrm_brt (f : FrameSt → FrameSt) : (s.onFrm f).brt = s.brt := rfl
@[simp] theorem State.onFrm_host (f : FrameSt → FrameSt) : (s.onFrm f).host = s.host := rfl
@[simp] theorem State.onFrm_pwr (f : FrameSt → FrameSt) : (s.onFrm f).pwr = s.pwr := rfl
@[simp] theorem State.onFrm_pins (f : FrameSt → FrameSt) : (s.onFrm f).pins = s.pins := rfl
@[simp] theorem State.onFrm_out (f : FrameSt → FrameSt) : (s.onFrm f).out = s.out := rfl
@[simp] theorem State.onFrm_upsets (f : FrameSt → FrameSt) : (s.onFrm f).upsets = s.upsets := rfl

/-! ### `onCour` -/

@[simp] theorem State.onCour_pending (f : CourierSt → CourierSt) : (s.onCour f).pending = s.pending := rfl
@[simp] theorem State.onCour_time (f : CourierSt → CourierSt) : (s.onCour f).time = s.time := rfl
@[simp] theorem State.onCour_epoch (f : CourierSt → CourierSt) : (s.onCour f).epoch = s.epoch := rfl
@[simp] theorem State.onCour_fresh (f : CourierSt → CourierSt) : (s.onCour f).fresh = s.fresh := rfl
@[simp] theorem State.onCour_frm (f : CourierSt → CourierSt) : (s.onCour f).frm = s.frm := rfl
@[simp] theorem State.onCour_clu (f : CourierSt → CourierSt) : (s.onCour f).clu = s.clu := rfl
@[simp] theorem State.onCour_flt (f : CourierSt → CourierSt) : (s.onCour f).flt = s.flt := rfl
@[simp] theorem State.onCour_nst (f : CourierSt → CourierSt) : (s.onCour f).nst = s.nst := rfl
@[simp] theorem State.onCour_deck (f : CourierSt → CourierSt) : (s.onCour f).deck = s.deck := rfl
@[simp] theorem State.onCour_lp (f : CourierSt → CourierSt) : (s.onCour f).lp = s.lp := rfl
@[simp] theorem State.onCour_nstBank (f : CourierSt → CourierSt) : (s.onCour f).nstBank = s.nstBank := rfl
@[simp] theorem State.onCour_deckBank (f : CourierSt → CourierSt) : (s.onCour f).deckBank = s.deckBank := rfl
@[simp] theorem State.onCour_bankUse (f : CourierSt → CourierSt) : (s.onCour f).bankUse = s.bankUse := rfl
@[simp] theorem State.onCour_core (f : CourierSt → CourierSt) : (s.onCour f).core = s.core := rfl
@[simp] theorem State.onCour_stop (f : CourierSt → CourierSt) : (s.onCour f).stop = s.stop := rfl
@[simp] theorem State.onCour_ferryFly (f : CourierSt → CourierSt) : (s.onCour f).ferryFly = s.ferryFly := rfl
@[simp] theorem State.onCour_splice (f : CourierSt → CourierSt) : (s.onCour f).splice = s.splice := rfl
@[simp] theorem State.onCour_rtr (f : CourierSt → CourierSt) : (s.onCour f).rtr = s.rtr := rfl
@[simp] theorem State.onCour_meshFly (f : CourierSt → CourierSt) : (s.onCour f).meshFly = s.meshFly := rfl
@[simp] theorem State.onCour_cour (f : CourierSt → CourierSt) : (s.onCour f).cour = f s.cour := rfl
@[simp] theorem State.onCour_upd (f : CourierSt → CourierSt) : (s.onCour f).upd = s.upd := rfl
@[simp] theorem State.onCour_shape (f : CourierSt → CourierSt) : (s.onCour f).shape = s.shape := rfl
@[simp] theorem State.onCour_cnt (f : CourierSt → CourierSt) : (s.onCour f).cnt = s.cnt := rfl
@[simp] theorem State.onCour_stk (f : CourierSt → CourierSt) : (s.onCour f).stk = s.stk := rfl
@[simp] theorem State.onCour_ctx (f : CourierSt → CourierSt) : (s.onCour f).ctx = s.ctx := rfl
@[simp] theorem State.onCour_queue (f : CourierSt → CourierSt) : (s.onCour f).queue = s.queue := rfl
@[simp] theorem State.onCour_reqNo (f : CourierSt → CourierSt) : (s.onCour f).reqNo = s.reqNo := rfl
@[simp] theorem State.onCour_waitLimit (f : CourierSt → CourierSt) : (s.onCour f).waitLimit = s.waitLimit := rfl
@[simp] theorem State.onCour_mport (f : CourierSt → CourierSt) : (s.onCour f).mport = s.mport := rfl
@[simp] theorem State.onCour_depot (f : CourierSt → CourierSt) : (s.onCour f).depot = s.depot := rfl
@[simp] theorem State.onCour_pont (f : CourierSt → CourierSt) : (s.onCour f).pont = s.pont := rfl
@[simp] theorem State.onCour_obs (f : CourierSt → CourierSt) : (s.onCour f).obs = s.obs := rfl
@[simp] theorem State.onCour_post (f : CourierSt → CourierSt) : (s.onCour f).post = s.post := rfl
@[simp] theorem State.onCour_boot (f : CourierSt → CourierSt) : (s.onCour f).boot = s.boot := rfl
@[simp] theorem State.onCour_brt (f : CourierSt → CourierSt) : (s.onCour f).brt = s.brt := rfl
@[simp] theorem State.onCour_host (f : CourierSt → CourierSt) : (s.onCour f).host = s.host := rfl
@[simp] theorem State.onCour_pwr (f : CourierSt → CourierSt) : (s.onCour f).pwr = s.pwr := rfl
@[simp] theorem State.onCour_pins (f : CourierSt → CourierSt) : (s.onCour f).pins = s.pins := rfl
@[simp] theorem State.onCour_out (f : CourierSt → CourierSt) : (s.onCour f).out = s.out := rfl
@[simp] theorem State.onCour_upsets (f : CourierSt → CourierSt) : (s.onCour f).upsets = s.upsets := rfl

/-! ### `onObs` -/

@[simp] theorem State.onObs_pending (f : ObsSt → ObsSt) : (s.onObs f).pending = s.pending := rfl
@[simp] theorem State.onObs_time (f : ObsSt → ObsSt) : (s.onObs f).time = s.time := rfl
@[simp] theorem State.onObs_epoch (f : ObsSt → ObsSt) : (s.onObs f).epoch = s.epoch := rfl
@[simp] theorem State.onObs_fresh (f : ObsSt → ObsSt) : (s.onObs f).fresh = s.fresh := rfl
@[simp] theorem State.onObs_frm (f : ObsSt → ObsSt) : (s.onObs f).frm = s.frm := rfl
@[simp] theorem State.onObs_clu (f : ObsSt → ObsSt) : (s.onObs f).clu = s.clu := rfl
@[simp] theorem State.onObs_flt (f : ObsSt → ObsSt) : (s.onObs f).flt = s.flt := rfl
@[simp] theorem State.onObs_nst (f : ObsSt → ObsSt) : (s.onObs f).nst = s.nst := rfl
@[simp] theorem State.onObs_deck (f : ObsSt → ObsSt) : (s.onObs f).deck = s.deck := rfl
@[simp] theorem State.onObs_lp (f : ObsSt → ObsSt) : (s.onObs f).lp = s.lp := rfl
@[simp] theorem State.onObs_nstBank (f : ObsSt → ObsSt) : (s.onObs f).nstBank = s.nstBank := rfl
@[simp] theorem State.onObs_deckBank (f : ObsSt → ObsSt) : (s.onObs f).deckBank = s.deckBank := rfl
@[simp] theorem State.onObs_bankUse (f : ObsSt → ObsSt) : (s.onObs f).bankUse = s.bankUse := rfl
@[simp] theorem State.onObs_core (f : ObsSt → ObsSt) : (s.onObs f).core = s.core := rfl
@[simp] theorem State.onObs_stop (f : ObsSt → ObsSt) : (s.onObs f).stop = s.stop := rfl
@[simp] theorem State.onObs_ferryFly (f : ObsSt → ObsSt) : (s.onObs f).ferryFly = s.ferryFly := rfl
@[simp] theorem State.onObs_splice (f : ObsSt → ObsSt) : (s.onObs f).splice = s.splice := rfl
@[simp] theorem State.onObs_rtr (f : ObsSt → ObsSt) : (s.onObs f).rtr = s.rtr := rfl
@[simp] theorem State.onObs_meshFly (f : ObsSt → ObsSt) : (s.onObs f).meshFly = s.meshFly := rfl
@[simp] theorem State.onObs_cour (f : ObsSt → ObsSt) : (s.onObs f).cour = s.cour := rfl
@[simp] theorem State.onObs_upd (f : ObsSt → ObsSt) : (s.onObs f).upd = s.upd := rfl
@[simp] theorem State.onObs_shape (f : ObsSt → ObsSt) : (s.onObs f).shape = s.shape := rfl
@[simp] theorem State.onObs_cnt (f : ObsSt → ObsSt) : (s.onObs f).cnt = s.cnt := rfl
@[simp] theorem State.onObs_stk (f : ObsSt → ObsSt) : (s.onObs f).stk = s.stk := rfl
@[simp] theorem State.onObs_ctx (f : ObsSt → ObsSt) : (s.onObs f).ctx = s.ctx := rfl
@[simp] theorem State.onObs_queue (f : ObsSt → ObsSt) : (s.onObs f).queue = s.queue := rfl
@[simp] theorem State.onObs_reqNo (f : ObsSt → ObsSt) : (s.onObs f).reqNo = s.reqNo := rfl
@[simp] theorem State.onObs_waitLimit (f : ObsSt → ObsSt) : (s.onObs f).waitLimit = s.waitLimit := rfl
@[simp] theorem State.onObs_mport (f : ObsSt → ObsSt) : (s.onObs f).mport = s.mport := rfl
@[simp] theorem State.onObs_depot (f : ObsSt → ObsSt) : (s.onObs f).depot = s.depot := rfl
@[simp] theorem State.onObs_pont (f : ObsSt → ObsSt) : (s.onObs f).pont = s.pont := rfl
@[simp] theorem State.onObs_obs (f : ObsSt → ObsSt) : (s.onObs f).obs = f s.obs := rfl
@[simp] theorem State.onObs_post (f : ObsSt → ObsSt) : (s.onObs f).post = s.post := rfl
@[simp] theorem State.onObs_boot (f : ObsSt → ObsSt) : (s.onObs f).boot = s.boot := rfl
@[simp] theorem State.onObs_brt (f : ObsSt → ObsSt) : (s.onObs f).brt = s.brt := rfl
@[simp] theorem State.onObs_host (f : ObsSt → ObsSt) : (s.onObs f).host = s.host := rfl
@[simp] theorem State.onObs_pwr (f : ObsSt → ObsSt) : (s.onObs f).pwr = s.pwr := rfl
@[simp] theorem State.onObs_pins (f : ObsSt → ObsSt) : (s.onObs f).pins = s.pins := rfl
@[simp] theorem State.onObs_out (f : ObsSt → ObsSt) : (s.onObs f).out = s.out := rfl
@[simp] theorem State.onObs_upsets (f : ObsSt → ObsSt) : (s.onObs f).upsets = s.upsets := rfl

/-! ### `onPost` -/

@[simp] theorem State.onPost_pending (f : PostSt → PostSt) : (s.onPost f).pending = s.pending := rfl
@[simp] theorem State.onPost_time (f : PostSt → PostSt) : (s.onPost f).time = s.time := rfl
@[simp] theorem State.onPost_epoch (f : PostSt → PostSt) : (s.onPost f).epoch = s.epoch := rfl
@[simp] theorem State.onPost_fresh (f : PostSt → PostSt) : (s.onPost f).fresh = s.fresh := rfl
@[simp] theorem State.onPost_frm (f : PostSt → PostSt) : (s.onPost f).frm = s.frm := rfl
@[simp] theorem State.onPost_clu (f : PostSt → PostSt) : (s.onPost f).clu = s.clu := rfl
@[simp] theorem State.onPost_flt (f : PostSt → PostSt) : (s.onPost f).flt = s.flt := rfl
@[simp] theorem State.onPost_nst (f : PostSt → PostSt) : (s.onPost f).nst = s.nst := rfl
@[simp] theorem State.onPost_deck (f : PostSt → PostSt) : (s.onPost f).deck = s.deck := rfl
@[simp] theorem State.onPost_lp (f : PostSt → PostSt) : (s.onPost f).lp = s.lp := rfl
@[simp] theorem State.onPost_nstBank (f : PostSt → PostSt) : (s.onPost f).nstBank = s.nstBank := rfl
@[simp] theorem State.onPost_deckBank (f : PostSt → PostSt) : (s.onPost f).deckBank = s.deckBank := rfl
@[simp] theorem State.onPost_bankUse (f : PostSt → PostSt) : (s.onPost f).bankUse = s.bankUse := rfl
@[simp] theorem State.onPost_core (f : PostSt → PostSt) : (s.onPost f).core = s.core := rfl
@[simp] theorem State.onPost_stop (f : PostSt → PostSt) : (s.onPost f).stop = s.stop := rfl
@[simp] theorem State.onPost_ferryFly (f : PostSt → PostSt) : (s.onPost f).ferryFly = s.ferryFly := rfl
@[simp] theorem State.onPost_splice (f : PostSt → PostSt) : (s.onPost f).splice = s.splice := rfl
@[simp] theorem State.onPost_rtr (f : PostSt → PostSt) : (s.onPost f).rtr = s.rtr := rfl
@[simp] theorem State.onPost_meshFly (f : PostSt → PostSt) : (s.onPost f).meshFly = s.meshFly := rfl
@[simp] theorem State.onPost_cour (f : PostSt → PostSt) : (s.onPost f).cour = s.cour := rfl
@[simp] theorem State.onPost_upd (f : PostSt → PostSt) : (s.onPost f).upd = s.upd := rfl
@[simp] theorem State.onPost_shape (f : PostSt → PostSt) : (s.onPost f).shape = s.shape := rfl
@[simp] theorem State.onPost_cnt (f : PostSt → PostSt) : (s.onPost f).cnt = s.cnt := rfl
@[simp] theorem State.onPost_stk (f : PostSt → PostSt) : (s.onPost f).stk = s.stk := rfl
@[simp] theorem State.onPost_ctx (f : PostSt → PostSt) : (s.onPost f).ctx = s.ctx := rfl
@[simp] theorem State.onPost_queue (f : PostSt → PostSt) : (s.onPost f).queue = s.queue := rfl
@[simp] theorem State.onPost_reqNo (f : PostSt → PostSt) : (s.onPost f).reqNo = s.reqNo := rfl
@[simp] theorem State.onPost_waitLimit (f : PostSt → PostSt) : (s.onPost f).waitLimit = s.waitLimit := rfl
@[simp] theorem State.onPost_mport (f : PostSt → PostSt) : (s.onPost f).mport = s.mport := rfl
@[simp] theorem State.onPost_depot (f : PostSt → PostSt) : (s.onPost f).depot = s.depot := rfl
@[simp] theorem State.onPost_pont (f : PostSt → PostSt) : (s.onPost f).pont = s.pont := rfl
@[simp] theorem State.onPost_obs (f : PostSt → PostSt) : (s.onPost f).obs = s.obs := rfl
@[simp] theorem State.onPost_post (f : PostSt → PostSt) : (s.onPost f).post = f s.post := rfl
@[simp] theorem State.onPost_boot (f : PostSt → PostSt) : (s.onPost f).boot = s.boot := rfl
@[simp] theorem State.onPost_brt (f : PostSt → PostSt) : (s.onPost f).brt = s.brt := rfl
@[simp] theorem State.onPost_host (f : PostSt → PostSt) : (s.onPost f).host = s.host := rfl
@[simp] theorem State.onPost_pwr (f : PostSt → PostSt) : (s.onPost f).pwr = s.pwr := rfl
@[simp] theorem State.onPost_pins (f : PostSt → PostSt) : (s.onPost f).pins = s.pins := rfl
@[simp] theorem State.onPost_out (f : PostSt → PostSt) : (s.onPost f).out = s.out := rfl
@[simp] theorem State.onPost_upsets (f : PostSt → PostSt) : (s.onPost f).upsets = s.upsets := rfl

/-! ### `onPwr` -/

@[simp] theorem State.onPwr_pending (f : PowerSt → PowerSt) : (s.onPwr f).pending = s.pending := rfl
@[simp] theorem State.onPwr_time (f : PowerSt → PowerSt) : (s.onPwr f).time = s.time := rfl
@[simp] theorem State.onPwr_epoch (f : PowerSt → PowerSt) : (s.onPwr f).epoch = s.epoch := rfl
@[simp] theorem State.onPwr_fresh (f : PowerSt → PowerSt) : (s.onPwr f).fresh = s.fresh := rfl
@[simp] theorem State.onPwr_frm (f : PowerSt → PowerSt) : (s.onPwr f).frm = s.frm := rfl
@[simp] theorem State.onPwr_clu (f : PowerSt → PowerSt) : (s.onPwr f).clu = s.clu := rfl
@[simp] theorem State.onPwr_flt (f : PowerSt → PowerSt) : (s.onPwr f).flt = s.flt := rfl
@[simp] theorem State.onPwr_nst (f : PowerSt → PowerSt) : (s.onPwr f).nst = s.nst := rfl
@[simp] theorem State.onPwr_deck (f : PowerSt → PowerSt) : (s.onPwr f).deck = s.deck := rfl
@[simp] theorem State.onPwr_lp (f : PowerSt → PowerSt) : (s.onPwr f).lp = s.lp := rfl
@[simp] theorem State.onPwr_nstBank (f : PowerSt → PowerSt) : (s.onPwr f).nstBank = s.nstBank := rfl
@[simp] theorem State.onPwr_deckBank (f : PowerSt → PowerSt) : (s.onPwr f).deckBank = s.deckBank := rfl
@[simp] theorem State.onPwr_bankUse (f : PowerSt → PowerSt) : (s.onPwr f).bankUse = s.bankUse := rfl
@[simp] theorem State.onPwr_core (f : PowerSt → PowerSt) : (s.onPwr f).core = s.core := rfl
@[simp] theorem State.onPwr_stop (f : PowerSt → PowerSt) : (s.onPwr f).stop = s.stop := rfl
@[simp] theorem State.onPwr_ferryFly (f : PowerSt → PowerSt) : (s.onPwr f).ferryFly = s.ferryFly := rfl
@[simp] theorem State.onPwr_splice (f : PowerSt → PowerSt) : (s.onPwr f).splice = s.splice := rfl
@[simp] theorem State.onPwr_rtr (f : PowerSt → PowerSt) : (s.onPwr f).rtr = s.rtr := rfl
@[simp] theorem State.onPwr_meshFly (f : PowerSt → PowerSt) : (s.onPwr f).meshFly = s.meshFly := rfl
@[simp] theorem State.onPwr_cour (f : PowerSt → PowerSt) : (s.onPwr f).cour = s.cour := rfl
@[simp] theorem State.onPwr_upd (f : PowerSt → PowerSt) : (s.onPwr f).upd = s.upd := rfl
@[simp] theorem State.onPwr_shape (f : PowerSt → PowerSt) : (s.onPwr f).shape = s.shape := rfl
@[simp] theorem State.onPwr_cnt (f : PowerSt → PowerSt) : (s.onPwr f).cnt = s.cnt := rfl
@[simp] theorem State.onPwr_stk (f : PowerSt → PowerSt) : (s.onPwr f).stk = s.stk := rfl
@[simp] theorem State.onPwr_ctx (f : PowerSt → PowerSt) : (s.onPwr f).ctx = s.ctx := rfl
@[simp] theorem State.onPwr_queue (f : PowerSt → PowerSt) : (s.onPwr f).queue = s.queue := rfl
@[simp] theorem State.onPwr_reqNo (f : PowerSt → PowerSt) : (s.onPwr f).reqNo = s.reqNo := rfl
@[simp] theorem State.onPwr_waitLimit (f : PowerSt → PowerSt) : (s.onPwr f).waitLimit = s.waitLimit := rfl
@[simp] theorem State.onPwr_mport (f : PowerSt → PowerSt) : (s.onPwr f).mport = s.mport := rfl
@[simp] theorem State.onPwr_depot (f : PowerSt → PowerSt) : (s.onPwr f).depot = s.depot := rfl
@[simp] theorem State.onPwr_pont (f : PowerSt → PowerSt) : (s.onPwr f).pont = s.pont := rfl
@[simp] theorem State.onPwr_obs (f : PowerSt → PowerSt) : (s.onPwr f).obs = s.obs := rfl
@[simp] theorem State.onPwr_post (f : PowerSt → PowerSt) : (s.onPwr f).post = s.post := rfl
@[simp] theorem State.onPwr_boot (f : PowerSt → PowerSt) : (s.onPwr f).boot = s.boot := rfl
@[simp] theorem State.onPwr_brt (f : PowerSt → PowerSt) : (s.onPwr f).brt = s.brt := rfl
@[simp] theorem State.onPwr_host (f : PowerSt → PowerSt) : (s.onPwr f).host = s.host := rfl
@[simp] theorem State.onPwr_pwr (f : PowerSt → PowerSt) : (s.onPwr f).pwr = f s.pwr := rfl
@[simp] theorem State.onPwr_pins (f : PowerSt → PowerSt) : (s.onPwr f).pins = s.pins := rfl
@[simp] theorem State.onPwr_out (f : PowerSt → PowerSt) : (s.onPwr f).out = s.out := rfl
@[simp] theorem State.onPwr_upsets (f : PowerSt → PowerSt) : (s.onPwr f).upsets = s.upsets := rfl

/-! ### `onHost` -/

@[simp] theorem State.onHost_pending (f : HostSt → HostSt) : (s.onHost f).pending = s.pending := rfl
@[simp] theorem State.onHost_time (f : HostSt → HostSt) : (s.onHost f).time = s.time := rfl
@[simp] theorem State.onHost_epoch (f : HostSt → HostSt) : (s.onHost f).epoch = s.epoch := rfl
@[simp] theorem State.onHost_fresh (f : HostSt → HostSt) : (s.onHost f).fresh = s.fresh := rfl
@[simp] theorem State.onHost_frm (f : HostSt → HostSt) : (s.onHost f).frm = s.frm := rfl
@[simp] theorem State.onHost_clu (f : HostSt → HostSt) : (s.onHost f).clu = s.clu := rfl
@[simp] theorem State.onHost_flt (f : HostSt → HostSt) : (s.onHost f).flt = s.flt := rfl
@[simp] theorem State.onHost_nst (f : HostSt → HostSt) : (s.onHost f).nst = s.nst := rfl
@[simp] theorem State.onHost_deck (f : HostSt → HostSt) : (s.onHost f).deck = s.deck := rfl
@[simp] theorem State.onHost_lp (f : HostSt → HostSt) : (s.onHost f).lp = s.lp := rfl
@[simp] theorem State.onHost_nstBank (f : HostSt → HostSt) : (s.onHost f).nstBank = s.nstBank := rfl
@[simp] theorem State.onHost_deckBank (f : HostSt → HostSt) : (s.onHost f).deckBank = s.deckBank := rfl
@[simp] theorem State.onHost_bankUse (f : HostSt → HostSt) : (s.onHost f).bankUse = s.bankUse := rfl
@[simp] theorem State.onHost_core (f : HostSt → HostSt) : (s.onHost f).core = s.core := rfl
@[simp] theorem State.onHost_stop (f : HostSt → HostSt) : (s.onHost f).stop = s.stop := rfl
@[simp] theorem State.onHost_ferryFly (f : HostSt → HostSt) : (s.onHost f).ferryFly = s.ferryFly := rfl
@[simp] theorem State.onHost_splice (f : HostSt → HostSt) : (s.onHost f).splice = s.splice := rfl
@[simp] theorem State.onHost_rtr (f : HostSt → HostSt) : (s.onHost f).rtr = s.rtr := rfl
@[simp] theorem State.onHost_meshFly (f : HostSt → HostSt) : (s.onHost f).meshFly = s.meshFly := rfl
@[simp] theorem State.onHost_cour (f : HostSt → HostSt) : (s.onHost f).cour = s.cour := rfl
@[simp] theorem State.onHost_upd (f : HostSt → HostSt) : (s.onHost f).upd = s.upd := rfl
@[simp] theorem State.onHost_shape (f : HostSt → HostSt) : (s.onHost f).shape = s.shape := rfl
@[simp] theorem State.onHost_cnt (f : HostSt → HostSt) : (s.onHost f).cnt = s.cnt := rfl
@[simp] theorem State.onHost_stk (f : HostSt → HostSt) : (s.onHost f).stk = s.stk := rfl
@[simp] theorem State.onHost_ctx (f : HostSt → HostSt) : (s.onHost f).ctx = s.ctx := rfl
@[simp] theorem State.onHost_queue (f : HostSt → HostSt) : (s.onHost f).queue = s.queue := rfl
@[simp] theorem State.onHost_reqNo (f : HostSt → HostSt) : (s.onHost f).reqNo = s.reqNo := rfl
@[simp] theorem State.onHost_waitLimit (f : HostSt → HostSt) : (s.onHost f).waitLimit = s.waitLimit := rfl
@[simp] theorem State.onHost_mport (f : HostSt → HostSt) : (s.onHost f).mport = s.mport := rfl
@[simp] theorem State.onHost_depot (f : HostSt → HostSt) : (s.onHost f).depot = s.depot := rfl
@[simp] theorem State.onHost_pont (f : HostSt → HostSt) : (s.onHost f).pont = s.pont := rfl
@[simp] theorem State.onHost_obs (f : HostSt → HostSt) : (s.onHost f).obs = s.obs := rfl
@[simp] theorem State.onHost_post (f : HostSt → HostSt) : (s.onHost f).post = s.post := rfl
@[simp] theorem State.onHost_boot (f : HostSt → HostSt) : (s.onHost f).boot = s.boot := rfl
@[simp] theorem State.onHost_brt (f : HostSt → HostSt) : (s.onHost f).brt = s.brt := rfl
@[simp] theorem State.onHost_host (f : HostSt → HostSt) : (s.onHost f).host = f s.host := rfl
@[simp] theorem State.onHost_pwr (f : HostSt → HostSt) : (s.onHost f).pwr = s.pwr := rfl
@[simp] theorem State.onHost_pins (f : HostSt → HostSt) : (s.onHost f).pins = s.pins := rfl
@[simp] theorem State.onHost_out (f : HostSt → HostSt) : (s.onHost f).out = s.out := rfl
@[simp] theorem State.onHost_upsets (f : HostSt → HostSt) : (s.onHost f).upsets = s.upsets := rfl

/-! ### `onPont` -/

@[simp] theorem State.onPont_pending (f : PontSt → PontSt) : (s.onPont f).pending = s.pending := rfl
@[simp] theorem State.onPont_time (f : PontSt → PontSt) : (s.onPont f).time = s.time := rfl
@[simp] theorem State.onPont_epoch (f : PontSt → PontSt) : (s.onPont f).epoch = s.epoch := rfl
@[simp] theorem State.onPont_fresh (f : PontSt → PontSt) : (s.onPont f).fresh = s.fresh := rfl
@[simp] theorem State.onPont_frm (f : PontSt → PontSt) : (s.onPont f).frm = s.frm := rfl
@[simp] theorem State.onPont_clu (f : PontSt → PontSt) : (s.onPont f).clu = s.clu := rfl
@[simp] theorem State.onPont_flt (f : PontSt → PontSt) : (s.onPont f).flt = s.flt := rfl
@[simp] theorem State.onPont_nst (f : PontSt → PontSt) : (s.onPont f).nst = s.nst := rfl
@[simp] theorem State.onPont_deck (f : PontSt → PontSt) : (s.onPont f).deck = s.deck := rfl
@[simp] theorem State.onPont_lp (f : PontSt → PontSt) : (s.onPont f).lp = s.lp := rfl
@[simp] theorem State.onPont_nstBank (f : PontSt → PontSt) : (s.onPont f).nstBank = s.nstBank := rfl
@[simp] theorem State.onPont_deckBank (f : PontSt → PontSt) : (s.onPont f).deckBank = s.deckBank := rfl
@[simp] theorem State.onPont_bankUse (f : PontSt → PontSt) : (s.onPont f).bankUse = s.bankUse := rfl
@[simp] theorem State.onPont_core (f : PontSt → PontSt) : (s.onPont f).core = s.core := rfl
@[simp] theorem State.onPont_stop (f : PontSt → PontSt) : (s.onPont f).stop = s.stop := rfl
@[simp] theorem State.onPont_ferryFly (f : PontSt → PontSt) : (s.onPont f).ferryFly = s.ferryFly := rfl
@[simp] theorem State.onPont_splice (f : PontSt → PontSt) : (s.onPont f).splice = s.splice := rfl
@[simp] theorem State.onPont_rtr (f : PontSt → PontSt) : (s.onPont f).rtr = s.rtr := rfl
@[simp] theorem State.onPont_meshFly (f : PontSt → PontSt) : (s.onPont f).meshFly = s.meshFly := rfl
@[simp] theorem State.onPont_cour (f : PontSt → PontSt) : (s.onPont f).cour = s.cour := rfl
@[simp] theorem State.onPont_upd (f : PontSt → PontSt) : (s.onPont f).upd = s.upd := rfl
@[simp] theorem State.onPont_shape (f : PontSt → PontSt) : (s.onPont f).shape = s.shape := rfl
@[simp] theorem State.onPont_cnt (f : PontSt → PontSt) : (s.onPont f).cnt = s.cnt := rfl
@[simp] theorem State.onPont_stk (f : PontSt → PontSt) : (s.onPont f).stk = s.stk := rfl
@[simp] theorem State.onPont_ctx (f : PontSt → PontSt) : (s.onPont f).ctx = s.ctx := rfl
@[simp] theorem State.onPont_queue (f : PontSt → PontSt) : (s.onPont f).queue = s.queue := rfl
@[simp] theorem State.onPont_reqNo (f : PontSt → PontSt) : (s.onPont f).reqNo = s.reqNo := rfl
@[simp] theorem State.onPont_waitLimit (f : PontSt → PontSt) : (s.onPont f).waitLimit = s.waitLimit := rfl
@[simp] theorem State.onPont_mport (f : PontSt → PontSt) : (s.onPont f).mport = s.mport := rfl
@[simp] theorem State.onPont_depot (f : PontSt → PontSt) : (s.onPont f).depot = s.depot := rfl
@[simp] theorem State.onPont_pont (f : PontSt → PontSt) : (s.onPont f).pont = f s.pont := rfl
@[simp] theorem State.onPont_obs (f : PontSt → PontSt) : (s.onPont f).obs = s.obs := rfl
@[simp] theorem State.onPont_post (f : PontSt → PontSt) : (s.onPont f).post = s.post := rfl
@[simp] theorem State.onPont_boot (f : PontSt → PontSt) : (s.onPont f).boot = s.boot := rfl
@[simp] theorem State.onPont_brt (f : PontSt → PontSt) : (s.onPont f).brt = s.brt := rfl
@[simp] theorem State.onPont_host (f : PontSt → PontSt) : (s.onPont f).host = s.host := rfl
@[simp] theorem State.onPont_pwr (f : PontSt → PontSt) : (s.onPont f).pwr = s.pwr := rfl
@[simp] theorem State.onPont_pins (f : PontSt → PontSt) : (s.onPont f).pins = s.pins := rfl
@[simp] theorem State.onPont_out (f : PontSt → PontSt) : (s.onPont f).out = s.out := rfl
@[simp] theorem State.onPont_upsets (f : PontSt → PontSt) : (s.onPont f).upsets = s.upsets := rfl

/-! ### `onDepot` -/

@[simp] theorem State.onDepot_pending (f : DepotSt → DepotSt) : (s.onDepot f).pending = s.pending := rfl
@[simp] theorem State.onDepot_time (f : DepotSt → DepotSt) : (s.onDepot f).time = s.time := rfl
@[simp] theorem State.onDepot_epoch (f : DepotSt → DepotSt) : (s.onDepot f).epoch = s.epoch := rfl
@[simp] theorem State.onDepot_fresh (f : DepotSt → DepotSt) : (s.onDepot f).fresh = s.fresh := rfl
@[simp] theorem State.onDepot_frm (f : DepotSt → DepotSt) : (s.onDepot f).frm = s.frm := rfl
@[simp] theorem State.onDepot_clu (f : DepotSt → DepotSt) : (s.onDepot f).clu = s.clu := rfl
@[simp] theorem State.onDepot_flt (f : DepotSt → DepotSt) : (s.onDepot f).flt = s.flt := rfl
@[simp] theorem State.onDepot_nst (f : DepotSt → DepotSt) : (s.onDepot f).nst = s.nst := rfl
@[simp] theorem State.onDepot_deck (f : DepotSt → DepotSt) : (s.onDepot f).deck = s.deck := rfl
@[simp] theorem State.onDepot_lp (f : DepotSt → DepotSt) : (s.onDepot f).lp = s.lp := rfl
@[simp] theorem State.onDepot_nstBank (f : DepotSt → DepotSt) : (s.onDepot f).nstBank = s.nstBank := rfl
@[simp] theorem State.onDepot_deckBank (f : DepotSt → DepotSt) : (s.onDepot f).deckBank = s.deckBank := rfl
@[simp] theorem State.onDepot_bankUse (f : DepotSt → DepotSt) : (s.onDepot f).bankUse = s.bankUse := rfl
@[simp] theorem State.onDepot_core (f : DepotSt → DepotSt) : (s.onDepot f).core = s.core := rfl
@[simp] theorem State.onDepot_stop (f : DepotSt → DepotSt) : (s.onDepot f).stop = s.stop := rfl
@[simp] theorem State.onDepot_ferryFly (f : DepotSt → DepotSt) : (s.onDepot f).ferryFly = s.ferryFly := rfl
@[simp] theorem State.onDepot_splice (f : DepotSt → DepotSt) : (s.onDepot f).splice = s.splice := rfl
@[simp] theorem State.onDepot_rtr (f : DepotSt → DepotSt) : (s.onDepot f).rtr = s.rtr := rfl
@[simp] theorem State.onDepot_meshFly (f : DepotSt → DepotSt) : (s.onDepot f).meshFly = s.meshFly := rfl
@[simp] theorem State.onDepot_cour (f : DepotSt → DepotSt) : (s.onDepot f).cour = s.cour := rfl
@[simp] theorem State.onDepot_upd (f : DepotSt → DepotSt) : (s.onDepot f).upd = s.upd := rfl
@[simp] theorem State.onDepot_shape (f : DepotSt → DepotSt) : (s.onDepot f).shape = s.shape := rfl
@[simp] theorem State.onDepot_cnt (f : DepotSt → DepotSt) : (s.onDepot f).cnt = s.cnt := rfl
@[simp] theorem State.onDepot_stk (f : DepotSt → DepotSt) : (s.onDepot f).stk = s.stk := rfl
@[simp] theorem State.onDepot_ctx (f : DepotSt → DepotSt) : (s.onDepot f).ctx = s.ctx := rfl
@[simp] theorem State.onDepot_queue (f : DepotSt → DepotSt) : (s.onDepot f).queue = s.queue := rfl
@[simp] theorem State.onDepot_reqNo (f : DepotSt → DepotSt) : (s.onDepot f).reqNo = s.reqNo := rfl
@[simp] theorem State.onDepot_waitLimit (f : DepotSt → DepotSt) : (s.onDepot f).waitLimit = s.waitLimit := rfl
@[simp] theorem State.onDepot_mport (f : DepotSt → DepotSt) : (s.onDepot f).mport = s.mport := rfl
@[simp] theorem State.onDepot_depot (f : DepotSt → DepotSt) : (s.onDepot f).depot = f s.depot := rfl
@[simp] theorem State.onDepot_pont (f : DepotSt → DepotSt) : (s.onDepot f).pont = s.pont := rfl
@[simp] theorem State.onDepot_obs (f : DepotSt → DepotSt) : (s.onDepot f).obs = s.obs := rfl
@[simp] theorem State.onDepot_post (f : DepotSt → DepotSt) : (s.onDepot f).post = s.post := rfl
@[simp] theorem State.onDepot_boot (f : DepotSt → DepotSt) : (s.onDepot f).boot = s.boot := rfl
@[simp] theorem State.onDepot_brt (f : DepotSt → DepotSt) : (s.onDepot f).brt = s.brt := rfl
@[simp] theorem State.onDepot_host (f : DepotSt → DepotSt) : (s.onDepot f).host = s.host := rfl
@[simp] theorem State.onDepot_pwr (f : DepotSt → DepotSt) : (s.onDepot f).pwr = s.pwr := rfl
@[simp] theorem State.onDepot_pins (f : DepotSt → DepotSt) : (s.onDepot f).pins = s.pins := rfl
@[simp] theorem State.onDepot_out (f : DepotSt → DepotSt) : (s.onDepot f).out = s.out := rfl
@[simp] theorem State.onDepot_upsets (f : DepotSt → DepotSt) : (s.onDepot f).upsets = s.upsets := rfl

/-! ### `onUpd` -/

@[simp] theorem State.onUpd_pending (f : UpdSt → UpdSt) : (s.onUpd f).pending = s.pending := rfl
@[simp] theorem State.onUpd_time (f : UpdSt → UpdSt) : (s.onUpd f).time = s.time := rfl
@[simp] theorem State.onUpd_epoch (f : UpdSt → UpdSt) : (s.onUpd f).epoch = s.epoch := rfl
@[simp] theorem State.onUpd_fresh (f : UpdSt → UpdSt) : (s.onUpd f).fresh = s.fresh := rfl
@[simp] theorem State.onUpd_frm (f : UpdSt → UpdSt) : (s.onUpd f).frm = s.frm := rfl
@[simp] theorem State.onUpd_clu (f : UpdSt → UpdSt) : (s.onUpd f).clu = s.clu := rfl
@[simp] theorem State.onUpd_flt (f : UpdSt → UpdSt) : (s.onUpd f).flt = s.flt := rfl
@[simp] theorem State.onUpd_nst (f : UpdSt → UpdSt) : (s.onUpd f).nst = s.nst := rfl
@[simp] theorem State.onUpd_deck (f : UpdSt → UpdSt) : (s.onUpd f).deck = s.deck := rfl
@[simp] theorem State.onUpd_lp (f : UpdSt → UpdSt) : (s.onUpd f).lp = s.lp := rfl
@[simp] theorem State.onUpd_nstBank (f : UpdSt → UpdSt) : (s.onUpd f).nstBank = s.nstBank := rfl
@[simp] theorem State.onUpd_deckBank (f : UpdSt → UpdSt) : (s.onUpd f).deckBank = s.deckBank := rfl
@[simp] theorem State.onUpd_bankUse (f : UpdSt → UpdSt) : (s.onUpd f).bankUse = s.bankUse := rfl
@[simp] theorem State.onUpd_core (f : UpdSt → UpdSt) : (s.onUpd f).core = s.core := rfl
@[simp] theorem State.onUpd_stop (f : UpdSt → UpdSt) : (s.onUpd f).stop = s.stop := rfl
@[simp] theorem State.onUpd_ferryFly (f : UpdSt → UpdSt) : (s.onUpd f).ferryFly = s.ferryFly := rfl
@[simp] theorem State.onUpd_splice (f : UpdSt → UpdSt) : (s.onUpd f).splice = s.splice := rfl
@[simp] theorem State.onUpd_rtr (f : UpdSt → UpdSt) : (s.onUpd f).rtr = s.rtr := rfl
@[simp] theorem State.onUpd_meshFly (f : UpdSt → UpdSt) : (s.onUpd f).meshFly = s.meshFly := rfl
@[simp] theorem State.onUpd_cour (f : UpdSt → UpdSt) : (s.onUpd f).cour = s.cour := rfl
@[simp] theorem State.onUpd_upd (f : UpdSt → UpdSt) : (s.onUpd f).upd = f s.upd := rfl
@[simp] theorem State.onUpd_shape (f : UpdSt → UpdSt) : (s.onUpd f).shape = s.shape := rfl
@[simp] theorem State.onUpd_cnt (f : UpdSt → UpdSt) : (s.onUpd f).cnt = s.cnt := rfl
@[simp] theorem State.onUpd_stk (f : UpdSt → UpdSt) : (s.onUpd f).stk = s.stk := rfl
@[simp] theorem State.onUpd_ctx (f : UpdSt → UpdSt) : (s.onUpd f).ctx = s.ctx := rfl
@[simp] theorem State.onUpd_queue (f : UpdSt → UpdSt) : (s.onUpd f).queue = s.queue := rfl
@[simp] theorem State.onUpd_reqNo (f : UpdSt → UpdSt) : (s.onUpd f).reqNo = s.reqNo := rfl
@[simp] theorem State.onUpd_waitLimit (f : UpdSt → UpdSt) : (s.onUpd f).waitLimit = s.waitLimit := rfl
@[simp] theorem State.onUpd_mport (f : UpdSt → UpdSt) : (s.onUpd f).mport = s.mport := rfl
@[simp] theorem State.onUpd_depot (f : UpdSt → UpdSt) : (s.onUpd f).depot = s.depot := rfl
@[simp] theorem State.onUpd_pont (f : UpdSt → UpdSt) : (s.onUpd f).pont = s.pont := rfl
@[simp] theorem State.onUpd_obs (f : UpdSt → UpdSt) : (s.onUpd f).obs = s.obs := rfl
@[simp] theorem State.onUpd_post (f : UpdSt → UpdSt) : (s.onUpd f).post = s.post := rfl
@[simp] theorem State.onUpd_boot (f : UpdSt → UpdSt) : (s.onUpd f).boot = s.boot := rfl
@[simp] theorem State.onUpd_brt (f : UpdSt → UpdSt) : (s.onUpd f).brt = s.brt := rfl
@[simp] theorem State.onUpd_host (f : UpdSt → UpdSt) : (s.onUpd f).host = s.host := rfl
@[simp] theorem State.onUpd_pwr (f : UpdSt → UpdSt) : (s.onUpd f).pwr = s.pwr := rfl
@[simp] theorem State.onUpd_pins (f : UpdSt → UpdSt) : (s.onUpd f).pins = s.pins := rfl
@[simp] theorem State.onUpd_out (f : UpdSt → UpdSt) : (s.onUpd f).out = s.out := rfl
@[simp] theorem State.onUpd_upsets (f : UpdSt → UpdSt) : (s.onUpd f).upsets = s.upsets := rfl

/-! ### `onBoot` -/

@[simp] theorem State.onBoot_pending (f : BootSt → BootSt) : (s.onBoot f).pending = s.pending := rfl
@[simp] theorem State.onBoot_time (f : BootSt → BootSt) : (s.onBoot f).time = s.time := rfl
@[simp] theorem State.onBoot_epoch (f : BootSt → BootSt) : (s.onBoot f).epoch = s.epoch := rfl
@[simp] theorem State.onBoot_fresh (f : BootSt → BootSt) : (s.onBoot f).fresh = s.fresh := rfl
@[simp] theorem State.onBoot_frm (f : BootSt → BootSt) : (s.onBoot f).frm = s.frm := rfl
@[simp] theorem State.onBoot_clu (f : BootSt → BootSt) : (s.onBoot f).clu = s.clu := rfl
@[simp] theorem State.onBoot_flt (f : BootSt → BootSt) : (s.onBoot f).flt = s.flt := rfl
@[simp] theorem State.onBoot_nst (f : BootSt → BootSt) : (s.onBoot f).nst = s.nst := rfl
@[simp] theorem State.onBoot_deck (f : BootSt → BootSt) : (s.onBoot f).deck = s.deck := rfl
@[simp] theorem State.onBoot_lp (f : BootSt → BootSt) : (s.onBoot f).lp = s.lp := rfl
@[simp] theorem State.onBoot_nstBank (f : BootSt → BootSt) : (s.onBoot f).nstBank = s.nstBank := rfl
@[simp] theorem State.onBoot_deckBank (f : BootSt → BootSt) : (s.onBoot f).deckBank = s.deckBank := rfl
@[simp] theorem State.onBoot_bankUse (f : BootSt → BootSt) : (s.onBoot f).bankUse = s.bankUse := rfl
@[simp] theorem State.onBoot_core (f : BootSt → BootSt) : (s.onBoot f).core = s.core := rfl
@[simp] theorem State.onBoot_stop (f : BootSt → BootSt) : (s.onBoot f).stop = s.stop := rfl
@[simp] theorem State.onBoot_ferryFly (f : BootSt → BootSt) : (s.onBoot f).ferryFly = s.ferryFly := rfl
@[simp] theorem State.onBoot_splice (f : BootSt → BootSt) : (s.onBoot f).splice = s.splice := rfl
@[simp] theorem State.onBoot_rtr (f : BootSt → BootSt) : (s.onBoot f).rtr = s.rtr := rfl
@[simp] theorem State.onBoot_meshFly (f : BootSt → BootSt) : (s.onBoot f).meshFly = s.meshFly := rfl
@[simp] theorem State.onBoot_cour (f : BootSt → BootSt) : (s.onBoot f).cour = s.cour := rfl
@[simp] theorem State.onBoot_upd (f : BootSt → BootSt) : (s.onBoot f).upd = s.upd := rfl
@[simp] theorem State.onBoot_shape (f : BootSt → BootSt) : (s.onBoot f).shape = s.shape := rfl
@[simp] theorem State.onBoot_cnt (f : BootSt → BootSt) : (s.onBoot f).cnt = s.cnt := rfl
@[simp] theorem State.onBoot_stk (f : BootSt → BootSt) : (s.onBoot f).stk = s.stk := rfl
@[simp] theorem State.onBoot_ctx (f : BootSt → BootSt) : (s.onBoot f).ctx = s.ctx := rfl
@[simp] theorem State.onBoot_queue (f : BootSt → BootSt) : (s.onBoot f).queue = s.queue := rfl
@[simp] theorem State.onBoot_reqNo (f : BootSt → BootSt) : (s.onBoot f).reqNo = s.reqNo := rfl
@[simp] theorem State.onBoot_waitLimit (f : BootSt → BootSt) : (s.onBoot f).waitLimit = s.waitLimit := rfl
@[simp] theorem State.onBoot_mport (f : BootSt → BootSt) : (s.onBoot f).mport = s.mport := rfl
@[simp] theorem State.onBoot_depot (f : BootSt → BootSt) : (s.onBoot f).depot = s.depot := rfl
@[simp] theorem State.onBoot_pont (f : BootSt → BootSt) : (s.onBoot f).pont = s.pont := rfl
@[simp] theorem State.onBoot_obs (f : BootSt → BootSt) : (s.onBoot f).obs = s.obs := rfl
@[simp] theorem State.onBoot_post (f : BootSt → BootSt) : (s.onBoot f).post = s.post := rfl
@[simp] theorem State.onBoot_boot (f : BootSt → BootSt) : (s.onBoot f).boot = f s.boot := rfl
@[simp] theorem State.onBoot_brt (f : BootSt → BootSt) : (s.onBoot f).brt = s.brt := rfl
@[simp] theorem State.onBoot_host (f : BootSt → BootSt) : (s.onBoot f).host = s.host := rfl
@[simp] theorem State.onBoot_pwr (f : BootSt → BootSt) : (s.onBoot f).pwr = s.pwr := rfl
@[simp] theorem State.onBoot_pins (f : BootSt → BootSt) : (s.onBoot f).pins = s.pins := rfl
@[simp] theorem State.onBoot_out (f : BootSt → BootSt) : (s.onBoot f).out = s.out := rfl
@[simp] theorem State.onBoot_upsets (f : BootSt → BootSt) : (s.onBoot f).upsets = s.upsets := rfl

/-! ### `setPgh` -/

@[simp] theorem State.setPgh_pending (n : Nat) (p : PghSt) : (s.setPgh n p).pending = s.pending := rfl
@[simp] theorem State.setPgh_time (n : Nat) (p : PghSt) : (s.setPgh n p).time = s.time := rfl
@[simp] theorem State.setPgh_epoch (n : Nat) (p : PghSt) : (s.setPgh n p).epoch = s.epoch := rfl
@[simp] theorem State.setPgh_fresh (n : Nat) (p : PghSt) : (s.setPgh n p).fresh = s.fresh := rfl
@[simp] theorem State.setPgh_frm (n : Nat) (p : PghSt) : (s.setPgh n p).frm = s.frm := rfl
@[simp] theorem State.setPgh_clu (n : Nat) (p : PghSt) : (s.setPgh n p).clu = s.clu := rfl
@[simp] theorem State.setPgh_flt (n : Nat) (p : PghSt) : (s.setPgh n p).flt = s.flt := rfl
@[simp] theorem State.setPgh_nst (n : Nat) (p : PghSt) : (s.setPgh n p).nst = s.nst := rfl
@[simp] theorem State.setPgh_deck (n : Nat) (p : PghSt) : (s.setPgh n p).deck = s.deck := rfl
@[simp] theorem State.setPgh_lp (n : Nat) (p : PghSt) : (s.setPgh n p).lp = s.lp := rfl
@[simp] theorem State.setPgh_nstBank (n : Nat) (p : PghSt) : (s.setPgh n p).nstBank = s.nstBank := rfl
@[simp] theorem State.setPgh_deckBank (n : Nat) (p : PghSt) : (s.setPgh n p).deckBank = s.deckBank := rfl
@[simp] theorem State.setPgh_bankUse (n : Nat) (p : PghSt) : (s.setPgh n p).bankUse = s.bankUse := rfl
@[simp] theorem State.setPgh_core (n : Nat) (p : PghSt) : (s.setPgh n p).core = s.core := rfl
@[simp] theorem State.setPgh_stop (n : Nat) (p : PghSt) : (s.setPgh n p).stop = s.stop := rfl
@[simp] theorem State.setPgh_ferryFly (n : Nat) (p : PghSt) : (s.setPgh n p).ferryFly = s.ferryFly := rfl
@[simp] theorem State.setPgh_splice (n : Nat) (p : PghSt) : (s.setPgh n p).splice = s.splice := rfl
@[simp] theorem State.setPgh_rtr (n : Nat) (p : PghSt) : (s.setPgh n p).rtr = s.rtr := rfl
@[simp] theorem State.setPgh_meshFly (n : Nat) (p : PghSt) : (s.setPgh n p).meshFly = s.meshFly := rfl
@[simp] theorem State.setPgh_cour (n : Nat) (p : PghSt) : (s.setPgh n p).cour = s.cour := rfl
@[simp] theorem State.setPgh_upd (n : Nat) (p : PghSt) : (s.setPgh n p).upd = s.upd := rfl
@[simp] theorem State.setPgh_shape (n : Nat) (p : PghSt) : (s.setPgh n p).shape = s.shape := rfl
@[simp] theorem State.setPgh_cnt (n : Nat) (p : PghSt) : (s.setPgh n p).cnt = s.cnt := rfl
@[simp] theorem State.setPgh_stk (n : Nat) (p : PghSt) : (s.setPgh n p).stk = s.stk := rfl
@[simp] theorem State.setPgh_ctx (n : Nat) (p : PghSt) : (s.setPgh n p).ctx = s.ctx := rfl
@[simp] theorem State.setPgh_queue (n : Nat) (p : PghSt) : (s.setPgh n p).queue = s.queue := rfl
@[simp] theorem State.setPgh_reqNo (n : Nat) (p : PghSt) : (s.setPgh n p).reqNo = s.reqNo := rfl
@[simp] theorem State.setPgh_waitLimit (n : Nat) (p : PghSt) : (s.setPgh n p).waitLimit = s.waitLimit := rfl
@[simp] theorem State.setPgh_mport (n : Nat) (p : PghSt) : (s.setPgh n p).mport = s.mport := rfl
@[simp] theorem State.setPgh_depot (n : Nat) (p : PghSt) : (s.setPgh n p).depot = s.depot := rfl
@[simp] theorem State.setPgh_pont (n : Nat) (p : PghSt) : (s.setPgh n p).pont = s.pont := rfl
@[simp] theorem State.setPgh_obs (n : Nat) (p : PghSt) : (s.setPgh n p).obs = s.obs := rfl
@[simp] theorem State.setPgh_post (n : Nat) (p : PghSt) : (s.setPgh n p).post = { s.post with pgh := tset s.post.pgh n p } := rfl
@[simp] theorem State.setPgh_boot (n : Nat) (p : PghSt) : (s.setPgh n p).boot = s.boot := rfl
@[simp] theorem State.setPgh_brt (n : Nat) (p : PghSt) : (s.setPgh n p).brt = s.brt := rfl
@[simp] theorem State.setPgh_host (n : Nat) (p : PghSt) : (s.setPgh n p).host = s.host := rfl
@[simp] theorem State.setPgh_pwr (n : Nat) (p : PghSt) : (s.setPgh n p).pwr = s.pwr := rfl
@[simp] theorem State.setPgh_pins (n : Nat) (p : PghSt) : (s.setPgh n p).pins = s.pins := rfl
@[simp] theorem State.setPgh_out (n : Nat) (p : PghSt) : (s.setPgh n p).out = s.out := rfl
@[simp] theorem State.setPgh_upsets (n : Nat) (p : PghSt) : (s.setPgh n p).upsets = s.upsets := rfl

/-! ### `setRegion` -/

@[simp] theorem State.setRegion_pending (r : Nat) (x : TrcRegion) : (s.setRegion r x).pending = s.pending := rfl
@[simp] theorem State.setRegion_time (r : Nat) (x : TrcRegion) : (s.setRegion r x).time = s.time := rfl
@[simp] theorem State.setRegion_epoch (r : Nat) (x : TrcRegion) : (s.setRegion r x).epoch = s.epoch := rfl
@[simp] theorem State.setRegion_fresh (r : Nat) (x : TrcRegion) : (s.setRegion r x).fresh = s.fresh := rfl
@[simp] theorem State.setRegion_frm (r : Nat) (x : TrcRegion) : (s.setRegion r x).frm = s.frm := rfl
@[simp] theorem State.setRegion_clu (r : Nat) (x : TrcRegion) : (s.setRegion r x).clu = s.clu := rfl
@[simp] theorem State.setRegion_flt (r : Nat) (x : TrcRegion) : (s.setRegion r x).flt = s.flt := rfl
@[simp] theorem State.setRegion_nst (r : Nat) (x : TrcRegion) : (s.setRegion r x).nst = s.nst := rfl
@[simp] theorem State.setRegion_deck (r : Nat) (x : TrcRegion) : (s.setRegion r x).deck = s.deck := rfl
@[simp] theorem State.setRegion_lp (r : Nat) (x : TrcRegion) : (s.setRegion r x).lp = s.lp := rfl
@[simp] theorem State.setRegion_nstBank (r : Nat) (x : TrcRegion) : (s.setRegion r x).nstBank = s.nstBank := rfl
@[simp] theorem State.setRegion_deckBank (r : Nat) (x : TrcRegion) : (s.setRegion r x).deckBank = s.deckBank := rfl
@[simp] theorem State.setRegion_bankUse (r : Nat) (x : TrcRegion) : (s.setRegion r x).bankUse = s.bankUse := rfl
@[simp] theorem State.setRegion_core (r : Nat) (x : TrcRegion) : (s.setRegion r x).core = s.core := rfl
@[simp] theorem State.setRegion_stop (r : Nat) (x : TrcRegion) : (s.setRegion r x).stop = s.stop := rfl
@[simp] theorem State.setRegion_ferryFly (r : Nat) (x : TrcRegion) : (s.setRegion r x).ferryFly = s.ferryFly := rfl
@[simp] theorem State.setRegion_splice (r : Nat) (x : TrcRegion) : (s.setRegion r x).splice = s.splice := rfl
@[simp] theorem State.setRegion_rtr (r : Nat) (x : TrcRegion) : (s.setRegion r x).rtr = s.rtr := rfl
@[simp] theorem State.setRegion_meshFly (r : Nat) (x : TrcRegion) : (s.setRegion r x).meshFly = s.meshFly := rfl
@[simp] theorem State.setRegion_cour (r : Nat) (x : TrcRegion) : (s.setRegion r x).cour = s.cour := rfl
@[simp] theorem State.setRegion_upd (r : Nat) (x : TrcRegion) : (s.setRegion r x).upd = s.upd := rfl
@[simp] theorem State.setRegion_shape (r : Nat) (x : TrcRegion) : (s.setRegion r x).shape = s.shape := rfl
@[simp] theorem State.setRegion_cnt (r : Nat) (x : TrcRegion) : (s.setRegion r x).cnt = s.cnt := rfl
@[simp] theorem State.setRegion_stk (r : Nat) (x : TrcRegion) : (s.setRegion r x).stk = s.stk := rfl
@[simp] theorem State.setRegion_ctx (r : Nat) (x : TrcRegion) : (s.setRegion r x).ctx = s.ctx := rfl
@[simp] theorem State.setRegion_queue (r : Nat) (x : TrcRegion) : (s.setRegion r x).queue = s.queue := rfl
@[simp] theorem State.setRegion_reqNo (r : Nat) (x : TrcRegion) : (s.setRegion r x).reqNo = s.reqNo := rfl
@[simp] theorem State.setRegion_waitLimit (r : Nat) (x : TrcRegion) : (s.setRegion r x).waitLimit = s.waitLimit := rfl
@[simp] theorem State.setRegion_mport (r : Nat) (x : TrcRegion) : (s.setRegion r x).mport = s.mport := rfl
@[simp] theorem State.setRegion_depot (r : Nat) (x : TrcRegion) : (s.setRegion r x).depot = s.depot := rfl
@[simp] theorem State.setRegion_pont (r : Nat) (x : TrcRegion) : (s.setRegion r x).pont = s.pont := rfl
@[simp] theorem State.setRegion_obs (r : Nat) (x : TrcRegion) : (s.setRegion r x).obs = { s.obs with regions := tset s.obs.regions r x } := rfl
@[simp] theorem State.setRegion_post (r : Nat) (x : TrcRegion) : (s.setRegion r x).post = s.post := rfl
@[simp] theorem State.setRegion_boot (r : Nat) (x : TrcRegion) : (s.setRegion r x).boot = s.boot := rfl
@[simp] theorem State.setRegion_brt (r : Nat) (x : TrcRegion) : (s.setRegion r x).brt = s.brt := rfl
@[simp] theorem State.setRegion_host (r : Nat) (x : TrcRegion) : (s.setRegion r x).host = s.host := rfl
@[simp] theorem State.setRegion_pwr (r : Nat) (x : TrcRegion) : (s.setRegion r x).pwr = s.pwr := rfl
@[simp] theorem State.setRegion_pins (r : Nat) (x : TrcRegion) : (s.setRegion r x).pins = s.pins := rfl
@[simp] theorem State.setRegion_out (r : Nat) (x : TrcRegion) : (s.setRegion r x).out = s.out := rfl
@[simp] theorem State.setRegion_upsets (r : Nat) (x : TrcRegion) : (s.setRegion r x).upsets = s.upsets := rfl

/-! ### `onLog` -/

@[simp] theorem State.onLog_pending (n : Nat) (f : LogSt → LogSt) : (s.onLog n f).pending = s.pending := rfl
@[simp] theorem State.onLog_time (n : Nat) (f : LogSt → LogSt) : (s.onLog n f).time = s.time := rfl
@[simp] theorem State.onLog_epoch (n : Nat) (f : LogSt → LogSt) : (s.onLog n f).epoch = s.epoch := rfl
@[simp] theorem State.onLog_fresh (n : Nat) (f : LogSt → LogSt) : (s.onLog n f).fresh = s.fresh := rfl
@[simp] theorem State.onLog_frm (n : Nat) (f : LogSt → LogSt) : (s.onLog n f).frm = s.frm := rfl
@[simp] theorem State.onLog_clu (n : Nat) (f : LogSt → LogSt) : (s.onLog n f).clu = s.clu := rfl
@[simp] theorem State.onLog_flt (n : Nat) (f : LogSt → LogSt) : (s.onLog n f).flt = { s.flt with logs := tset s.flt.logs n (f (tget s.flt.logs n .reset)) } := rfl
@[simp] theorem State.onLog_nst (n : Nat) (f : LogSt → LogSt) : (s.onLog n f).nst = s.nst := rfl
@[simp] theorem State.onLog_deck (n : Nat) (f : LogSt → LogSt) : (s.onLog n f).deck = s.deck := rfl
@[simp] theorem State.onLog_lp (n : Nat) (f : LogSt → LogSt) : (s.onLog n f).lp = s.lp := rfl
@[simp] theorem State.onLog_nstBank (n : Nat) (f : LogSt → LogSt) : (s.onLog n f).nstBank = s.nstBank := rfl
@[simp] theorem State.onLog_deckBank (n : Nat) (f : LogSt → LogSt) : (s.onLog n f).deckBank = s.deckBank := rfl
@[simp] theorem State.onLog_bankUse (n : Nat) (f : LogSt → LogSt) : (s.onLog n f).bankUse = s.bankUse := rfl
@[simp] theorem State.onLog_core (n : Nat) (f : LogSt → LogSt) : (s.onLog n f).core = s.core := rfl
@[simp] theorem State.onLog_stop (n : Nat) (f : LogSt → LogSt) : (s.onLog n f).stop = s.stop := rfl
@[simp] theorem State.onLog_ferryFly (n : Nat) (f : LogSt → LogSt) : (s.onLog n f).ferryFly = s.ferryFly := rfl
@[simp] theorem State.onLog_splice (n : Nat) (f : LogSt → LogSt) : (s.onLog n f).splice = s.splice := rfl
@[simp] theorem State.onLog_rtr (n : Nat) (f : LogSt → LogSt) : (s.onLog n f).rtr = s.rtr := rfl
@[simp] theorem State.onLog_meshFly (n : Nat) (f : LogSt → LogSt) : (s.onLog n f).meshFly = s.meshFly := rfl
@[simp] theorem State.onLog_cour (n : Nat) (f : LogSt → LogSt) : (s.onLog n f).cour = s.cour := rfl
@[simp] theorem State.onLog_upd (n : Nat) (f : LogSt → LogSt) : (s.onLog n f).upd = s.upd := rfl
@[simp] theorem State.onLog_shape (n : Nat) (f : LogSt → LogSt) : (s.onLog n f).shape = s.shape := rfl
@[simp] theorem State.onLog_cnt (n : Nat) (f : LogSt → LogSt) : (s.onLog n f).cnt = s.cnt := rfl
@[simp] theorem State.onLog_stk (n : Nat) (f : LogSt → LogSt) : (s.onLog n f).stk = s.stk := rfl
@[simp] theorem State.onLog_ctx (n : Nat) (f : LogSt → LogSt) : (s.onLog n f).ctx = s.ctx := rfl
@[simp] theorem State.onLog_queue (n : Nat) (f : LogSt → LogSt) : (s.onLog n f).queue = s.queue := rfl
@[simp] theorem State.onLog_reqNo (n : Nat) (f : LogSt → LogSt) : (s.onLog n f).reqNo = s.reqNo := rfl
@[simp] theorem State.onLog_waitLimit (n : Nat) (f : LogSt → LogSt) : (s.onLog n f).waitLimit = s.waitLimit := rfl
@[simp] theorem State.onLog_mport (n : Nat) (f : LogSt → LogSt) : (s.onLog n f).mport = s.mport := rfl
@[simp] theorem State.onLog_depot (n : Nat) (f : LogSt → LogSt) : (s.onLog n f).depot = s.depot := rfl
@[simp] theorem State.onLog_pont (n : Nat) (f : LogSt → LogSt) : (s.onLog n f).pont = s.pont := rfl
@[simp] theorem State.onLog_obs (n : Nat) (f : LogSt → LogSt) : (s.onLog n f).obs = s.obs := rfl
@[simp] theorem State.onLog_post (n : Nat) (f : LogSt → LogSt) : (s.onLog n f).post = s.post := rfl
@[simp] theorem State.onLog_boot (n : Nat) (f : LogSt → LogSt) : (s.onLog n f).boot = s.boot := rfl
@[simp] theorem State.onLog_brt (n : Nat) (f : LogSt → LogSt) : (s.onLog n f).brt = s.brt := rfl
@[simp] theorem State.onLog_host (n : Nat) (f : LogSt → LogSt) : (s.onLog n f).host = s.host := rfl
@[simp] theorem State.onLog_pwr (n : Nat) (f : LogSt → LogSt) : (s.onLog n f).pwr = s.pwr := rfl
@[simp] theorem State.onLog_pins (n : Nat) (f : LogSt → LogSt) : (s.onLog n f).pins = s.pins := rfl
@[simp] theorem State.onLog_out (n : Nat) (f : LogSt → LogSt) : (s.onLog n f).out = s.out := rfl
@[simp] theorem State.onLog_upsets (n : Nat) (f : LogSt → LogSt) : (s.onLog n f).upsets = s.upsets := rfl

/-! ### `setJtag` -/

@[simp] theorem State.setJtag_pending (i : JtagIr) : (s.setJtag i).pending = s.pending := rfl
@[simp] theorem State.setJtag_time (i : JtagIr) : (s.setJtag i).time = s.time := rfl
@[simp] theorem State.setJtag_epoch (i : JtagIr) : (s.setJtag i).epoch = s.epoch := rfl
@[simp] theorem State.setJtag_fresh (i : JtagIr) : (s.setJtag i).fresh = s.fresh := rfl
@[simp] theorem State.setJtag_frm (i : JtagIr) : (s.setJtag i).frm = s.frm := rfl
@[simp] theorem State.setJtag_clu (i : JtagIr) : (s.setJtag i).clu = s.clu := rfl
@[simp] theorem State.setJtag_flt (i : JtagIr) : (s.setJtag i).flt = s.flt := rfl
@[simp] theorem State.setJtag_nst (i : JtagIr) : (s.setJtag i).nst = s.nst := rfl
@[simp] theorem State.setJtag_deck (i : JtagIr) : (s.setJtag i).deck = s.deck := rfl
@[simp] theorem State.setJtag_lp (i : JtagIr) : (s.setJtag i).lp = s.lp := rfl
@[simp] theorem State.setJtag_nstBank (i : JtagIr) : (s.setJtag i).nstBank = s.nstBank := rfl
@[simp] theorem State.setJtag_deckBank (i : JtagIr) : (s.setJtag i).deckBank = s.deckBank := rfl
@[simp] theorem State.setJtag_bankUse (i : JtagIr) : (s.setJtag i).bankUse = s.bankUse := rfl
@[simp] theorem State.setJtag_core (i : JtagIr) : (s.setJtag i).core = s.core := rfl
@[simp] theorem State.setJtag_stop (i : JtagIr) : (s.setJtag i).stop = s.stop := rfl
@[simp] theorem State.setJtag_ferryFly (i : JtagIr) : (s.setJtag i).ferryFly = s.ferryFly := rfl
@[simp] theorem State.setJtag_splice (i : JtagIr) : (s.setJtag i).splice = s.splice := rfl
@[simp] theorem State.setJtag_rtr (i : JtagIr) : (s.setJtag i).rtr = s.rtr := rfl
@[simp] theorem State.setJtag_meshFly (i : JtagIr) : (s.setJtag i).meshFly = s.meshFly := rfl
@[simp] theorem State.setJtag_cour (i : JtagIr) : (s.setJtag i).cour = s.cour := rfl
@[simp] theorem State.setJtag_upd (i : JtagIr) : (s.setJtag i).upd = s.upd := rfl
@[simp] theorem State.setJtag_shape (i : JtagIr) : (s.setJtag i).shape = s.shape := rfl
@[simp] theorem State.setJtag_cnt (i : JtagIr) : (s.setJtag i).cnt = s.cnt := rfl
@[simp] theorem State.setJtag_stk (i : JtagIr) : (s.setJtag i).stk = s.stk := rfl
@[simp] theorem State.setJtag_ctx (i : JtagIr) : (s.setJtag i).ctx = s.ctx := rfl
@[simp] theorem State.setJtag_queue (i : JtagIr) : (s.setJtag i).queue = s.queue := rfl
@[simp] theorem State.setJtag_reqNo (i : JtagIr) : (s.setJtag i).reqNo = s.reqNo := rfl
@[simp] theorem State.setJtag_waitLimit (i : JtagIr) : (s.setJtag i).waitLimit = s.waitLimit := rfl
@[simp] theorem State.setJtag_mport (i : JtagIr) : (s.setJtag i).mport = s.mport := rfl
@[simp] theorem State.setJtag_depot (i : JtagIr) : (s.setJtag i).depot = s.depot := rfl
@[simp] theorem State.setJtag_pont (i : JtagIr) : (s.setJtag i).pont = s.pont := rfl
@[simp] theorem State.setJtag_obs (i : JtagIr) : (s.setJtag i).obs = s.obs := rfl
@[simp] theorem State.setJtag_post (i : JtagIr) : (s.setJtag i).post = s.post := rfl
@[simp] theorem State.setJtag_boot (i : JtagIr) : (s.setJtag i).boot = s.boot := rfl
@[simp] theorem State.setJtag_brt (i : JtagIr) : (s.setJtag i).brt = s.brt := rfl
@[simp] theorem State.setJtag_host (i : JtagIr) : (s.setJtag i).host = s.host := rfl
@[simp] theorem State.setJtag_pwr (i : JtagIr) : (s.setJtag i).pwr = s.pwr := rfl
@[simp] theorem State.setJtag_pins (i : JtagIr) : (s.setJtag i).pins = { s.pins with jtag := i } := rfl
@[simp] theorem State.setJtag_out (i : JtagIr) : (s.setJtag i).out = s.out := rfl
@[simp] theorem State.setJtag_upsets (i : JtagIr) : (s.setJtag i).upsets = s.upsets := rfl

/-! ### Tables read after an update -/

theorem State.setClu_cluAt (k m : Nat) (x : CluSt) : (s.setClu k x).cluAt m = if m = k then x else s.cluAt m := tget_tset _ _ _ _ _
@[simp] theorem State.setClu_cluAt_same (k : Nat) (x : CluSt) : (s.setClu k x).cluAt k = x := tget_tset_same _ _ _ _
theorem State.setCore_coreAt (k m : Nat) (x : CoreSt) : (s.setCore k x).coreAt m = if m = k then x else s.coreAt m := tget_tset _ _ _ _ _
@[simp] theorem State.setCore_coreAt_same (k : Nat) (x : CoreSt) : (s.setCore k x).coreAt k = x := tget_tset_same _ _ _ _
theorem State.setStop_stopAt (k m : Nat) (x : StopSt) : (s.setStop k x).stopAt m = if m = k then x else s.stopAt m := tget_tset _ _ _ _ _
@[simp] theorem State.setStop_stopAt_same (k : Nat) (x : StopSt) : (s.setStop k x).stopAt k = x := tget_tset_same _ _ _ _
theorem State.setRtr_rtrAt (k m : Nat) (x : RouterSt) : (s.setRtr k x).rtrAt m = if m = k then x else s.rtrAt m := tget_tset _ _ _ _ _
@[simp] theorem State.setRtr_rtrAt_same (k : Nat) (x : RouterSt) : (s.setRtr k x).rtrAt k = x := tget_tset_same _ _ _ _
theorem State.setNstB_nstB (k m : Nat) (x : BankSt) : (s.setNstB k x).nstB m = if m = k then x else s.nstB m := tget_tset _ _ _ _ _
@[simp] theorem State.setNstB_nstB_same (k : Nat) (x : BankSt) : (s.setNstB k x).nstB k = x := tget_tset_same _ _ _ _
theorem State.setDeckB_deckB (k m : Nat) (x : BankSt) : (s.setDeckB k x).deckB m = if m = k then x else s.deckB m := tget_tset _ _ _ _ _
@[simp] theorem State.setDeckB_deckB_same (k : Nat) (x : BankSt) : (s.setDeckB k x).deckB k = x := tget_tset_same _ _ _ _
theorem State.setStk_stkAt (k m : Nat) (x : StackSt) : (s.setStk k x).stkAt m = if m = k then x else s.stkAt m := tget_tset _ _ _ _ _
@[simp] theorem State.setStk_stkAt_same (k : Nat) (x : StackSt) : (s.setStk k x).stkAt k = x := tget_tset_same _ _ _ _
theorem State.setCtx_ctxAt (k m : Nat) (x : CtxSt) : (s.setCtx k x).ctxAt m = if m = k then x else s.ctxAt m := tget_tset _ _ _ _ _
@[simp] theorem State.setCtx_ctxAt_same (k : Nat) (x : CtxSt) : (s.setCtx k x).ctxAt k = x := tget_tset_same _ _ _ _
theorem State.setQueue_queueAt (k m : Nat) (x : QueueSt) : (s.setQueue k x).queueAt m = if m = k then x else s.queueAt m := tget_tset _ _ _ _ _
@[simp] theorem State.setQueue_queueAt_same (k : Nat) (x : QueueSt) : (s.setQueue k x).queueAt k = x := tget_tset_same _ _ _ _
theorem State.setMport_mportAt (k m : Nat) (x : MportSt) : (s.setMport k x).mportAt m = if m = k then x else s.mportAt m := tget_tset _ _ _ _ _
@[simp] theorem State.setMport_mportAt_same (k : Nat) (x : MportSt) : (s.setMport k x).mportAt k = x := tget_tset_same _ _ _ _
theorem State.setPgh_pghAt (k m : Nat) (x : PghSt) : (s.setPgh k x).pghAt m = if m = k then x else s.pghAt m := tget_tset _ _ _ _ _
@[simp] theorem State.setPgh_pghAt_same (k : Nat) (x : PghSt) : (s.setPgh k x).pghAt k = x := tget_tset_same _ _ _ _
theorem State.onClu_cluAt (j k : Nat) (f : CluSt → CluSt) : (s.onClu j f).cluAt k = if k = j then f (s.cluAt j) else s.cluAt k :=
  tget_tset _ _ _ _ _
theorem State.onCore_coreAt (p q : Nat) (f : CoreSt → CoreSt) : (s.onCore p f).coreAt q = if q = p then f (s.coreAt p) else s.coreAt q :=
  tget_tset _ _ _ _ _
theorem State.onRtr_rtrAt (p q : Nat) (f : RouterSt → RouterSt) : (s.onRtr p f).rtrAt q = if q = p then f (s.rtrAt p) else s.rtrAt q :=
  tget_tset _ _ _ _ _

end Sys2Proof.Machine
end

