-- ==== Sys2Proof/Laws/Ops.lean ====
section
/-! SUPPORT. What the one way of raising an event can do (R455-R465): which fields of the state it leaves, and what it changes
in the frame machinery and in a cluster. -/

namespace Sys2Proof.Machine

/-- A fold whose every step leaves what `g` reads leaves it. -/
theorem foldl_keeps {β : Type} (g : State → β) (f : State → α → State) (h : ∀ s a, g (f s a) = g s) (l : List α) (s : State) :
    g (l.foldl f s) = g s := by
  induction l generalizing s with
  | nil => rfl
  | cons a r ih => rw [List.foldl_cons, ih, h]

/-- A fold whose every step keeps a property keeps it. -/
theorem foldl_holds {P : State → Prop} (f : State → α → State) (h : ∀ s a, P s → P (f s a)) (l : List α) (s : State) (hs : P s) :
    P (l.foldl f s) := by
  induction l generalizing s with
  | nil => exact hs
  | cons a r ih => exact ih _ (h _ _ hs)

variable (s : State)

/-! ### `bw` -/

@[simp] theorem State.bw_pending (k : Nat) (out : Bool) (n : Nat) : (s.bw k out n).pending = s.pending := rfl
@[simp] theorem State.bw_time (k : Nat) (out : Bool) (n : Nat) : (s.bw k out n).time = s.time := rfl
@[simp] theorem State.bw_epoch (k : Nat) (out : Bool) (n : Nat) : (s.bw k out n).epoch = s.epoch := rfl
@[simp] theorem State.bw_fresh (k : Nat) (out : Bool) (n : Nat) : (s.bw k out n).fresh = s.fresh := rfl
@[simp] theorem State.bw_frm (k : Nat) (out : Bool) (n : Nat) : (s.bw k out n).frm = s.frm := rfl
@[simp] theorem State.bw_clu (k : Nat) (out : Bool) (n : Nat) : (s.bw k out n).clu = s.clu := rfl
@[simp] theorem State.bw_flt (k : Nat) (out : Bool) (n : Nat) : (s.bw k out n).flt = s.flt := rfl
@[simp] theorem State.bw_nst (k : Nat) (out : Bool) (n : Nat) : (s.bw k out n).nst = s.nst := rfl
@[simp] theorem State.bw_deck (k : Nat) (out : Bool) (n : Nat) : (s.bw k out n).deck = s.deck := rfl
@[simp] theorem State.bw_lp (k : Nat) (out : Bool) (n : Nat) : (s.bw k out n).lp = s.lp := rfl
@[simp] theorem State.bw_nstBank (k : Nat) (out : Bool) (n : Nat) : (s.bw k out n).nstBank = s.nstBank := rfl
@[simp] theorem State.bw_deckBank (k : Nat) (out : Bool) (n : Nat) : (s.bw k out n).deckBank = s.deckBank := rfl
@[simp] theorem State.bw_bankUse (k : Nat) (out : Bool) (n : Nat) : (s.bw k out n).bankUse = s.bankUse := rfl
@[simp] theorem State.bw_core (k : Nat) (out : Bool) (n : Nat) : (s.bw k out n).core = s.core := rfl
@[simp] theorem State.bw_stop (k : Nat) (out : Bool) (n : Nat) : (s.bw k out n).stop = s.stop := rfl
@[simp] theorem State.bw_ferryFly (k : Nat) (out : Bool) (n : Nat) : (s.bw k out n).ferryFly = s.ferryFly := rfl
@[simp] theorem State.bw_splice (k : Nat) (out : Bool) (n : Nat) : (s.bw k out n).splice = s.splice := rfl
@[simp] theorem State.bw_rtr (k : Nat) (out : Bool) (n : Nat) : (s.bw k out n).rtr = s.rtr := rfl
@[simp] theorem State.bw_meshFly (k : Nat) (out : Bool) (n : Nat) : (s.bw k out n).meshFly = s.meshFly := rfl
@[simp] theorem State.bw_cour (k : Nat) (out : Bool) (n : Nat) : (s.bw k out n).cour = s.cour := rfl
@[simp] theorem State.bw_upd (k : Nat) (out : Bool) (n : Nat) : (s.bw k out n).upd = s.upd := rfl
@[simp] theorem State.bw_shape (k : Nat) (out : Bool) (n : Nat) : (s.bw k out n).shape = s.shape := rfl
@[simp] theorem State.bw_cnt (k : Nat) (out : Bool) (n : Nat) : (s.bw k out n).cnt = s.cnt := rfl
@[simp] theorem State.bw_stk (k : Nat) (out : Bool) (n : Nat) : (s.bw k out n).stk = s.stk := rfl
@[simp] theorem State.bw_ctx (k : Nat) (out : Bool) (n : Nat) : (s.bw k out n).ctx = s.ctx := rfl
@[simp] theorem State.bw_queue (k : Nat) (out : Bool) (n : Nat) : (s.bw k out n).queue = s.queue := rfl
@[simp] theorem State.bw_reqNo (k : Nat) (out : Bool) (n : Nat) : (s.bw k out n).reqNo = s.reqNo := rfl
@[simp] theorem State.bw_waitLimit (k : Nat) (out : Bool) (n : Nat) : (s.bw k out n).waitLimit = s.waitLimit := rfl
@[simp] theorem State.bw_mport (k : Nat) (out : Bool) (n : Nat) : (s.bw k out n).mport = s.mport := rfl
@[simp] theorem State.bw_depot (k : Nat) (out : Bool) (n : Nat) : (s.bw k out n).depot = s.depot := rfl
@[simp] theorem State.bw_pont (k : Nat) (out : Bool) (n : Nat) : (s.bw k out n).pont = s.pont := rfl
@[simp] theorem State.bw_post (k : Nat) (out : Bool) (n : Nat) : (s.bw k out n).post = s.post := rfl
@[simp] theorem State.bw_boot (k : Nat) (out : Bool) (n : Nat) : (s.bw k out n).boot = s.boot := rfl
@[simp] theorem State.bw_brt (k : Nat) (out : Bool) (n : Nat) : (s.bw k out n).brt = s.brt := rfl
@[simp] theorem State.bw_host (k : Nat) (out : Bool) (n : Nat) : (s.bw k out n).host = s.host := rfl
@[simp] theorem State.bw_pwr (k : Nat) (out : Bool) (n : Nat) : (s.bw k out n).pwr = s.pwr := rfl
@[simp] theorem State.bw_pins (k : Nat) (out : Bool) (n : Nat) : (s.bw k out n).pins = s.pins := rfl
@[simp] theorem State.bw_out (k : Nat) (out : Bool) (n : Nat) : (s.bw k out n).out = s.out := rfl
@[simp] theorem State.bw_upsets (k : Nat) (out : Bool) (n : Nat) : (s.bw k out n).upsets = s.upsets := rfl

/-! ### `logEvent` -/

@[simp] theorem State.logEvent_pending (e : Ev) (b : Bool) : (s.logEvent e b).pending = s.pending := rfl
@[simp] theorem State.logEvent_time (e : Ev) (b : Bool) : (s.logEvent e b).time = s.time := rfl
@[simp] theorem State.logEvent_epoch (e : Ev) (b : Bool) : (s.logEvent e b).epoch = s.epoch := rfl
@[simp] theorem State.logEvent_fresh (e : Ev) (b : Bool) : (s.logEvent e b).fresh = s.fresh := rfl
@[simp] theorem State.logEvent_frm (e : Ev) (b : Bool) : (s.logEvent e b).frm = s.frm := rfl
@[simp] theorem State.logEvent_clu (e : Ev) (b : Bool) : (s.logEvent e b).clu = s.clu := rfl
@[simp] theorem State.logEvent_nst (e : Ev) (b : Bool) : (s.logEvent e b).nst = s.nst := rfl
@[simp] theorem State.logEvent_deck (e : Ev) (b : Bool) : (s.logEvent e b).deck = s.deck := rfl
@[simp] theorem State.logEvent_lp (e : Ev) (b : Bool) : (s.logEvent e b).lp = s.lp := rfl
@[simp] theorem State.logEvent_nstBank (e : Ev) (b : Bool) : (s.logEvent e b).nstBank = s.nstBank := rfl
@[simp] theorem State.logEvent_deckBank (e : Ev) (b : Bool) : (s.logEvent e b).deckBank = s.deckBank := rfl
@[simp] theorem State.logEvent_bankUse (e : Ev) (b : Bool) : (s.logEvent e b).bankUse = s.bankUse := rfl
@[simp] theorem State.logEvent_core (e : Ev) (b : Bool) : (s.logEvent e b).core = s.core := rfl
@[simp] theorem State.logEvent_stop (e : Ev) (b : Bool) : (s.logEvent e b).stop = s.stop := rfl
@[simp] theorem State.logEvent_ferryFly (e : Ev) (b : Bool) : (s.logEvent e b).ferryFly = s.ferryFly := rfl
@[simp] theorem State.logEvent_splice (e : Ev) (b : Bool) : (s.logEvent e b).splice = s.splice := rfl
@[simp] theorem State.logEvent_rtr (e : Ev) (b : Bool) : (s.logEvent e b).rtr = s.rtr := rfl
@[simp] theorem State.logEvent_meshFly (e : Ev) (b : Bool) : (s.logEvent e b).meshFly = s.meshFly := rfl
@[simp] theorem State.logEvent_cour (e : Ev) (b : Bool) : (s.logEvent e b).cour = s.cour := rfl
@[simp] theorem State.logEvent_upd (e : Ev) (b : Bool) : (s.logEvent e b).upd = s.upd := rfl
@[simp] theorem State.logEvent_shape (e : Ev) (b : Bool) : (s.logEvent e b).shape = s.shape := rfl
@[simp] theorem State.logEvent_cnt (e : Ev) (b : Bool) : (s.logEvent e b).cnt = s.cnt := rfl
@[simp] theorem State.logEvent_stk (e : Ev) (b : Bool) : (s.logEvent e b).stk = s.stk := rfl
@[simp] theorem State.logEvent_ctx (e : Ev) (b : Bool) : (s.logEvent e b).ctx = s.ctx := rfl
@[simp] theorem State.logEvent_queue (e : Ev) (b : Bool) : (s.logEvent e b).queue = s.queue := rfl
@[simp] theorem State.logEvent_reqNo (e : Ev) (b : Bool) : (s.logEvent e b).reqNo = s.reqNo := rfl
@[simp] theorem State.logEvent_waitLimit (e : Ev) (b : Bool) : (s.logEvent e b).waitLimit = s.waitLimit := rfl
@[simp] theorem State.logEvent_mport (e : Ev) (b : Bool) : (s.logEvent e b).mport = s.mport := rfl
@[simp] theorem State.logEvent_depot (e : Ev) (b : Bool) : (s.logEvent e b).depot = s.depot := rfl
@[simp] theorem State.logEvent_pont (e : Ev) (b : Bool) : (s.logEvent e b).pont = s.pont := rfl
@[simp] theorem State.logEvent_obs (e : Ev) (b : Bool) : (s.logEvent e b).obs = s.obs := rfl
@[simp] theorem State.logEvent_post (e : Ev) (b : Bool) : (s.logEvent e b).post = s.post := rfl
@[simp] theorem State.logEvent_boot (e : Ev) (b : Bool) : (s.logEvent e b).boot = s.boot := rfl
@[simp] theorem State.logEvent_brt (e : Ev) (b : Bool) : (s.logEvent e b).brt = s.brt := rfl
@[simp] theorem State.logEvent_host (e : Ev) (b : Bool) : (s.logEvent e b).host = s.host := rfl
@[simp] theorem State.logEvent_pwr (e : Ev) (b : Bool) : (s.logEvent e b).pwr = s.pwr := rfl
@[simp] theorem State.logEvent_pins (e : Ev) (b : Bool) : (s.logEvent e b).pins = s.pins := rfl
@[simp] theorem State.logEvent_out (e : Ev) (b : Bool) : (s.logEvent e b).out = s.out := rfl
@[simp] theorem State.logEvent_upsets (e : Ev) (b : Bool) : (s.logEvent e b).upsets = s.upsets := rfl

/-! ### `count` -/

@[simp] theorem State.count_pending (b u i n : Nat) : (s.count b u i n).pending = s.pending := by unfold State.count; dsimp only; split <;> rfl
@[simp] theorem State.count_time (b u i n : Nat) : (s.count b u i n).time = s.time := by unfold State.count; dsimp only; split <;> rfl
@[simp] theorem State.count_epoch (b u i n : Nat) : (s.count b u i n).epoch = s.epoch := by unfold State.count; dsimp only; split <;> rfl
@[simp] theorem State.count_fresh (b u i n : Nat) : (s.count b u i n).fresh = s.fresh := by unfold State.count; dsimp only; split <;> rfl
@[simp] theorem State.count_frm (b u i n : Nat) : (s.count b u i n).frm = s.frm := by unfold State.count; dsimp only; split <;> rfl
@[simp] theorem State.count_clu (b u i n : Nat) : (s.count b u i n).clu = s.clu := by unfold State.count; dsimp only; split <;> rfl
@[simp] theorem State.count_nst (b u i n : Nat) : (s.count b u i n).nst = s.nst := by unfold State.count; dsimp only; split <;> rfl
@[simp] theorem State.count_deck (b u i n : Nat) : (s.count b u i n).deck = s.deck := by unfold State.count; dsimp only; split <;> rfl
@[simp] theorem State.count_lp (b u i n : Nat) : (s.count b u i n).lp = s.lp := by unfold State.count; dsimp only; split <;> rfl
@[simp] theorem State.count_nstBank (b u i n : Nat) : (s.count b u i n).nstBank = s.nstBank := by unfold State.count; dsimp only; split <;> rfl
@[simp] theorem State.count_deckBank (b u i n : Nat) : (s.count b u i n).deckBank = s.deckBank := by unfold State.count; dsimp only; split <;> rfl
@[simp] theorem State.count_bankUse (b u i n : Nat) : (s.count b u i n).bankUse = s.bankUse := by unfold State.count; dsimp only; split <;> rfl
@[simp] theorem State.count_core (b u i n : Nat) : (s.count b u i n).core = s.core := by unfold State.count; dsimp only; split <;> rfl
@[simp] theorem State.count_stop (b u i n : Nat) : (s.count b u i n).stop = s.stop := by unfold State.count; dsimp only; split <;> rfl
@[simp] theorem State.count_ferryFly (b u i n : Nat) : (s.count b u i n).ferryFly = s.ferryFly := by unfold State.count; dsimp only; split <;> rfl
@[simp] theorem State.count_splice (b u i n : Nat) : (s.count b u i n).splice = s.splice := by unfold State.count; dsimp only; split <;> rfl
@[simp] theorem State.count_rtr (b u i n : Nat) : (s.count b u i n).rtr = s.rtr := by unfold State.count; dsimp only; split <;> rfl
@[simp] theorem State.count_meshFly (b u i n : Nat) : (s.count b u i n).meshFly = s.meshFly := by unfold State.count; dsimp only; split <;> rfl
@[simp] theorem State.count_cour (b u i n : Nat) : (s.count b u i n).cour = s.cour := by unfold State.count; dsimp only; split <;> rfl
@[simp] theorem State.count_upd (b u i n : Nat) : (s.count b u i n).upd = s.upd := by unfold State.count; dsimp only; split <;> rfl
@[simp] theorem State.count_shape (b u i n : Nat) : (s.count b u i n).shape = s.shape := by unfold State.count; dsimp only; split <;> rfl
@[simp] theorem State.count_stk (b u i n : Nat) : (s.count b u i n).stk = s.stk := by unfold State.count; dsimp only; split <;> rfl
@[simp] theorem State.count_ctx (b u i n : Nat) : (s.count b u i n).ctx = s.ctx := by unfold State.count; dsimp only; split <;> rfl
@[simp] theorem State.count_queue (b u i n : Nat) : (s.count b u i n).queue = s.queue := by unfold State.count; dsimp only; split <;> rfl
@[simp] theorem State.count_reqNo (b u i n : Nat) : (s.count b u i n).reqNo = s.reqNo := by unfold State.count; dsimp only; split <;> rfl
@[simp] theorem State.count_waitLimit (b u i n : Nat) : (s.count b u i n).waitLimit = s.waitLimit := by unfold State.count; dsimp only; split <;> rfl
@[simp] theorem State.count_mport (b u i n : Nat) : (s.count b u i n).mport = s.mport := by unfold State.count; dsimp only; split <;> rfl
@[simp] theorem State.count_depot (b u i n : Nat) : (s.count b u i n).depot = s.depot := by unfold State.count; dsimp only; split <;> rfl
@[simp] theorem State.count_pont (b u i n : Nat) : (s.count b u i n).pont = s.pont := by unfold State.count; dsimp only; split <;> rfl
@[simp] theorem State.count_obs (b u i n : Nat) : (s.count b u i n).obs = s.obs := by unfold State.count; dsimp only; split <;> rfl
@[simp] theorem State.count_post (b u i n : Nat) : (s.count b u i n).post = s.post := by unfold State.count; dsimp only; split <;> rfl
@[simp] theorem State.count_boot (b u i n : Nat) : (s.count b u i n).boot = s.boot := by unfold State.count; dsimp only; split <;> rfl
@[simp] theorem State.count_brt (b u i n : Nat) : (s.count b u i n).brt = s.brt := by unfold State.count; dsimp only; split <;> rfl
@[simp] theorem State.count_host (b u i n : Nat) : (s.count b u i n).host = s.host := by unfold State.count; dsimp only; split <;> rfl
@[simp] theorem State.count_pwr (b u i n : Nat) : (s.count b u i n).pwr = s.pwr := by unfold State.count; dsimp only; split <;> rfl
@[simp] theorem State.count_pins (b u i n : Nat) : (s.count b u i n).pins = s.pins := by unfold State.count; dsimp only; split <;> rfl
@[simp] theorem State.count_out (b u i n : Nat) : (s.count b u i n).out = s.out := by unfold State.count; dsimp only; split <;> rfl
@[simp] theorem State.count_upsets (b u i n : Nat) : (s.count b u i n).upsets = s.upsets := by unfold State.count; dsimp only; split <;> rfl

/-! ### `event` -/

@[simp] theorem State.event_pending (p ev n : Nat) : (s.event p ev n).pending = s.pending := by
  unfold State.event; split
  · exact foldl_keeps (·.pending) _ (fun s k => by split <;> simp) _ _
  · rfl
@[simp] theorem State.event_time (p ev n : Nat) : (s.event p ev n).time = s.time := by
  unfold State.event; split
  · exact foldl_keeps (·.time) _ (fun s k => by split <;> simp) _ _
  · rfl
@[simp] theorem State.event_epoch (p ev n : Nat) : (s.event p ev n).epoch = s.epoch := by
  unfold State.event; split
  · exact foldl_keeps (·.epoch) _ (fun s k => by split <;> simp) _ _
  · rfl
@[simp] theorem State.event_fresh (p ev n : Nat) : (s.event p ev n).fresh = s.fresh := by
  unfold State.event; split
  · exact foldl_keeps (·.fresh) _ (fun s k => by split <;> simp) _ _
  · rfl
@[simp] theorem State.event_frm (p ev n : Nat) : (s.event p ev n).frm = s.frm := by
  unfold State.event; split
  · exact foldl_keeps (·.frm) _ (fun s k => by split <;> simp) _ _
  · rfl
@[simp] theorem State.event_clu (p ev n : Nat) : (s.event p ev n).clu = s.clu := by
  unfold State.event; split
  · exact foldl_keeps (·.clu) _ (fun s k => by split <;> simp) _ _
  · rfl
@[simp] theorem State.event_nst (p ev n : Nat) : (s.event p ev n).nst = s.nst := by
  unfold State.event; split
  · exact foldl_keeps (·.nst) _ (fun s k => by split <;> simp) _ _
  · rfl
@[simp] theorem State.event_deck (p ev n : Nat) : (s.event p ev n).deck = s.deck := by
  unfold State.event; split
  · exact foldl_keeps (·.deck) _ (fun s k => by split <;> simp) _ _
  · rfl
@[simp] theorem State.event_lp (p ev n : Nat) : (s.event p ev n).lp = s.lp := by
  unfold State.event; split
  · exact foldl_keeps (·.lp) _ (fun s k => by split <;> simp) _ _
  · rfl
@[simp] theorem State.event_nstBank (p ev n : Nat) : (s.event p ev n).nstBank = s.nstBank := by
  unfold State.event; split
  · exact foldl_keeps (·.nstBank) _ (fun s k => by split <;> simp) _ _
  · rfl
@[simp] theorem State.event_deckBank (p ev n : Nat) : (s.event p ev n).deckBank = s.deckBank := by
  unfold State.event; split
  · exact foldl_keeps (·.deckBank) _ (fun s k => by split <;> simp) _ _
  · rfl
@[simp] theorem State.event_bankUse (p ev n : Nat) : (s.event p ev n).bankUse = s.bankUse := by
  unfold State.event; split
  · exact foldl_keeps (·.bankUse) _ (fun s k => by split <;> simp) _ _
  · rfl
@[simp] theorem State.event_core (p ev n : Nat) : (s.event p ev n).core = s.core := by
  unfold State.event; split
  · exact foldl_keeps (·.core) _ (fun s k => by split <;> simp) _ _
  · rfl
@[simp] theorem State.event_stop (p ev n : Nat) : (s.event p ev n).stop = s.stop := by
  unfold State.event; split
  · exact foldl_keeps (·.stop) _ (fun s k => by split <;> simp) _ _
  · rfl
@[simp] theorem State.event_ferryFly (p ev n : Nat) : (s.event p ev n).ferryFly = s.ferryFly := by
  unfold State.event; split
  · exact foldl_keeps (·.ferryFly) _ (fun s k => by split <;> simp) _ _
  · rfl
@[simp] theorem State.event_splice (p ev n : Nat) : (s.event p ev n).splice = s.splice := by
  unfold State.event; split
  · exact foldl_keeps (·.splice) _ (fun s k => by split <;> simp) _ _
  · rfl
@[simp] theorem State.event_rtr (p ev n : Nat) : (s.event p ev n).rtr = s.rtr := by
  unfold State.event; split
  · exact foldl_keeps (·.rtr) _ (fun s k => by split <;> simp) _ _
  · rfl
@[simp] theorem State.event_meshFly (p ev n : Nat) : (s.event p ev n).meshFly = s.meshFly := by
  unfold State.event; split
  · exact foldl_keeps (·.meshFly) _ (fun s k => by split <;> simp) _ _
  · rfl
@[simp] theorem State.event_cour (p ev n : Nat) : (s.event p ev n).cour = s.cour := by
  unfold State.event; split
  · exact foldl_keeps (·.cour) _ (fun s k => by split <;> simp) _ _
  · rfl
@[simp] theorem State.event_upd (p ev n : Nat) : (s.event p ev n).upd = s.upd := by
  unfold State.event; split
  · exact foldl_keeps (·.upd) _ (fun s k => by split <;> simp) _ _
  · rfl
@[simp] theorem State.event_shape (p ev n : Nat) : (s.event p ev n).shape = s.shape := by
  unfold State.event; split
  · exact foldl_keeps (·.shape) _ (fun s k => by split <;> simp) _ _
  · rfl
@[simp] theorem State.event_stk (p ev n : Nat) : (s.event p ev n).stk = s.stk := by
  unfold State.event; split
  · exact foldl_keeps (·.stk) _ (fun s k => by split <;> simp) _ _
  · rfl
@[simp] theorem State.event_ctx (p ev n : Nat) : (s.event p ev n).ctx = s.ctx := by
  unfold State.event; split
  · exact foldl_keeps (·.ctx) _ (fun s k => by split <;> simp) _ _
  · rfl
@[simp] theorem State.event_queue (p ev n : Nat) : (s.event p ev n).queue = s.queue := by
  unfold State.event; split
  · exact foldl_keeps (·.queue) _ (fun s k => by split <;> simp) _ _
  · rfl
@[simp] theorem State.event_reqNo (p ev n : Nat) : (s.event p ev n).reqNo = s.reqNo := by
  unfold State.event; split
  · exact foldl_keeps (·.reqNo) _ (fun s k => by split <;> simp) _ _
  · rfl
@[simp] theorem State.event_waitLimit (p ev n : Nat) : (s.event p ev n).waitLimit = s.waitLimit := by
  unfold State.event; split
  · exact foldl_keeps (·.waitLimit) _ (fun s k => by split <;> simp) _ _
  · rfl
@[simp] theorem State.event_mport (p ev n : Nat) : (s.event p ev n).mport = s.mport := by
  unfold State.event; split
  · exact foldl_keeps (·.mport) _ (fun s k => by split <;> simp) _ _
  · rfl
@[simp] theorem State.event_depot (p ev n : Nat) : (s.event p ev n).depot = s.depot := by
  unfold State.event; split
  · exact foldl_keeps (·.depot) _ (fun s k => by split <;> simp) _ _
  · rfl
@[simp] theorem State.event_pont (p ev n : Nat) : (s.event p ev n).pont = s.pont := by
  unfold State.event; split
  · exact foldl_keeps (·.pont) _ (fun s k => by split <;> simp) _ _
  · rfl
@[simp] theorem State.event_obs (p ev n : Nat) : (s.event p ev n).obs = s.obs := by
  unfold State.event; split
  · exact foldl_keeps (·.obs) _ (fun s k => by split <;> simp) _ _
  · rfl
@[simp] theorem State.event_post (p ev n : Nat) : (s.event p ev n).post = s.post := by
  unfold State.event; split
  · exact foldl_keeps (·.post) _ (fun s k => by split <;> simp) _ _
  · rfl
@[simp] theorem State.event_boot (p ev n : Nat) : (s.event p ev n).boot = s.boot := by
  unfold State.event; split
  · exact foldl_keeps (·.boot) _ (fun s k => by split <;> simp) _ _
  · rfl
@[simp] theorem State.event_brt (p ev n : Nat) : (s.event p ev n).brt = s.brt := by
  unfold State.event; split
  · exact foldl_keeps (·.brt) _ (fun s k => by split <;> simp) _ _
  · rfl
@[simp] theorem State.event_host (p ev n : Nat) : (s.event p ev n).host = s.host := by
  unfold State.event; split
  · exact foldl_keeps (·.host) _ (fun s k => by split <;> simp) _ _
  · rfl
@[simp] theorem State.event_pwr (p ev n : Nat) : (s.event p ev n).pwr = s.pwr := by
  unfold State.event; split
  · exact foldl_keeps (·.pwr) _ (fun s k => by split <;> simp) _ _
  · rfl
@[simp] theorem State.event_pins (p ev n : Nat) : (s.event p ev n).pins = s.pins := by
  unfold State.event; split
  · exact foldl_keeps (·.pins) _ (fun s k => by split <;> simp) _ _
  · rfl
@[simp] theorem State.event_out (p ev n : Nat) : (s.event p ev n).out = s.out := by
  unfold State.event; split
  · exact foldl_keeps (·.out) _ (fun s k => by split <;> simp) _ _
  · rfl
@[simp] theorem State.event_upsets (p ev n : Nat) : (s.event p ev n).upsets = s.upsets := by
  unfold State.event; split
  · exact foldl_keeps (·.upsets) _ (fun s k => by split <;> simp) _ _
  · rfl

/-! ### `markSuspect` -/

@[simp] theorem State.markSuspect_pending (p : Nat) : (s.markSuspect p).pending = s.pending := rfl
@[simp] theorem State.markSuspect_time (p : Nat) : (s.markSuspect p).time = s.time := rfl
@[simp] theorem State.markSuspect_epoch (p : Nat) : (s.markSuspect p).epoch = s.epoch := rfl
@[simp] theorem State.markSuspect_fresh (p : Nat) : (s.markSuspect p).fresh = s.fresh := rfl
@[simp] theorem State.markSuspect_frm (p : Nat) : (s.markSuspect p).frm = s.frm := rfl
@[simp] theorem State.markSuspect_clu (p : Nat) : (s.markSuspect p).clu = s.clu := rfl
@[simp] theorem State.markSuspect_nst (p : Nat) : (s.markSuspect p).nst = s.nst := rfl
@[simp] theorem State.markSuspect_deck (p : Nat) : (s.markSuspect p).deck = s.deck := rfl
@[simp] theorem State.markSuspect_lp (p : Nat) : (s.markSuspect p).lp = s.lp := rfl
@[simp] theorem State.markSuspect_nstBank (p : Nat) : (s.markSuspect p).nstBank = s.nstBank := rfl
@[simp] theorem State.markSuspect_deckBank (p : Nat) : (s.markSuspect p).deckBank = s.deckBank := rfl
@[simp] theorem State.markSuspect_bankUse (p : Nat) : (s.markSuspect p).bankUse = s.bankUse := rfl
@[simp] theorem State.markSuspect_core (p : Nat) : (s.markSuspect p).core = s.core := rfl
@[simp] theorem State.markSuspect_stop (p : Nat) : (s.markSuspect p).stop = s.stop := rfl
@[simp] theorem State.markSuspect_ferryFly (p : Nat) : (s.markSuspect p).ferryFly = s.ferryFly := rfl
@[simp] theorem State.markSuspect_splice (p : Nat) : (s.markSuspect p).splice = s.splice := rfl
@[simp] theorem State.markSuspect_rtr (p : Nat) : (s.markSuspect p).rtr = s.rtr := rfl
@[simp] theorem State.markSuspect_meshFly (p : Nat) : (s.markSuspect p).meshFly = s.meshFly := rfl
@[simp] theorem State.markSuspect_cour (p : Nat) : (s.markSuspect p).cour = s.cour := rfl
@[simp] theorem State.markSuspect_upd (p : Nat) : (s.markSuspect p).upd = s.upd := rfl
@[simp] theorem State.markSuspect_shape (p : Nat) : (s.markSuspect p).shape = s.shape := rfl
@[simp] theorem State.markSuspect_cnt (p : Nat) : (s.markSuspect p).cnt = s.cnt := rfl
@[simp] theorem State.markSuspect_stk (p : Nat) : (s.markSuspect p).stk = s.stk := rfl
@[simp] theorem State.markSuspect_ctx (p : Nat) : (s.markSuspect p).ctx = s.ctx := rfl
@[simp] theorem State.markSuspect_queue (p : Nat) : (s.markSuspect p).queue = s.queue := rfl
@[simp] theorem State.markSuspect_reqNo (p : Nat) : (s.markSuspect p).reqNo = s.reqNo := rfl
@[simp] theorem State.markSuspect_waitLimit (p : Nat) : (s.markSuspect p).waitLimit = s.waitLimit := rfl
@[simp] theorem State.markSuspect_mport (p : Nat) : (s.markSuspect p).mport = s.mport := rfl
@[simp] theorem State.markSuspect_depot (p : Nat) : (s.markSuspect p).depot = s.depot := rfl
@[simp] theorem State.markSuspect_pont (p : Nat) : (s.markSuspect p).pont = s.pont := rfl
@[simp] theorem State.markSuspect_obs (p : Nat) : (s.markSuspect p).obs = s.obs := rfl
@[simp] theorem State.markSuspect_post (p : Nat) : (s.markSuspect p).post = s.post := rfl
@[simp] theorem State.markSuspect_boot (p : Nat) : (s.markSuspect p).boot = s.boot := rfl
@[simp] theorem State.markSuspect_brt (p : Nat) : (s.markSuspect p).brt = s.brt := rfl
@[simp] theorem State.markSuspect_host (p : Nat) : (s.markSuspect p).host = s.host := rfl
@[simp] theorem State.markSuspect_pwr (p : Nat) : (s.markSuspect p).pwr = s.pwr := rfl
@[simp] theorem State.markSuspect_pins (p : Nat) : (s.markSuspect p).pins = s.pins := rfl
@[simp] theorem State.markSuspect_out (p : Nat) : (s.markSuspect p).out = s.out := rfl
@[simp] theorem State.markSuspect_upsets (p : Nat) : (s.markSuspect p).upsets = s.upsets := rfl

/-! ### `countEvent` -/

@[simp] theorem State.countEvent_pending (e : Ev) : (s.countEvent e).pending = s.pending := by simp [State.countEvent, apply_ite State.pending]
@[simp] theorem State.countEvent_time (e : Ev) : (s.countEvent e).time = s.time := by simp [State.countEvent, apply_ite State.time]
@[simp] theorem State.countEvent_epoch (e : Ev) : (s.countEvent e).epoch = s.epoch := by simp [State.countEvent, apply_ite State.epoch]
@[simp] theorem State.countEvent_fresh (e : Ev) : (s.countEvent e).fresh = s.fresh := by simp [State.countEvent, apply_ite State.fresh]
@[simp] theorem State.countEvent_frm (e : Ev) : (s.countEvent e).frm = s.frm := by simp [State.countEvent, apply_ite State.frm]
@[simp] theorem State.countEvent_clu (e : Ev) : (s.countEvent e).clu = s.clu := by simp [State.countEvent, apply_ite State.clu]
@[simp] theorem State.countEvent_nst (e : Ev) : (s.countEvent e).nst = s.nst := by simp [State.countEvent, apply_ite State.nst]
@[simp] theorem State.countEvent_deck (e : Ev) : (s.countEvent e).deck = s.deck := by simp [State.countEvent, apply_ite State.deck]
@[simp] theorem State.countEvent_lp (e : Ev) : (s.countEvent e).lp = s.lp := by simp [State.countEvent, apply_ite State.lp]
@[simp] theorem State.countEvent_nstBank (e : Ev) : (s.countEvent e).nstBank = s.nstBank := by simp [State.countEvent, apply_ite State.nstBank]
@[simp] theorem State.countEvent_deckBank (e : Ev) : (s.countEvent e).deckBank = s.deckBank := by simp [State.countEvent, apply_ite State.deckBank]
@[simp] theorem State.countEvent_bankUse (e : Ev) : (s.countEvent e).bankUse = s.bankUse := by simp [State.countEvent, apply_ite State.bankUse]
@[simp] theorem State.countEvent_core (e : Ev) : (s.countEvent e).core = s.core := by simp [State.countEvent, apply_ite State.core]
@[simp] theorem State.countEvent_stop (e : Ev) : (s.countEvent e).stop = s.stop := by simp [State.countEvent, apply_ite State.stop]
@[simp] theorem State.countEvent_ferryFly (e : Ev) : (s.countEvent e).ferryFly = s.ferryFly := by simp [State.countEvent, apply_ite State.ferryFly]
@[simp] theorem State.countEvent_splice (e : Ev) : (s.countEvent e).splice = s.splice := by simp [State.countEvent, apply_ite State.splice]
@[simp] theorem State.countEvent_rtr (e : Ev) : (s.countEvent e).rtr = s.rtr := by simp [State.countEvent, apply_ite State.rtr]
@[simp] theorem State.countEvent_meshFly (e : Ev) : (s.countEvent e).meshFly = s.meshFly := by simp [State.countEvent, apply_ite State.meshFly]
@[simp] theorem State.countEvent_cour (e : Ev) : (s.countEvent e).cour = s.cour := by simp [State.countEvent, apply_ite State.cour]
@[simp] theorem State.countEvent_upd (e : Ev) : (s.countEvent e).upd = s.upd := by simp [State.countEvent, apply_ite State.upd]
@[simp] theorem State.countEvent_shape (e : Ev) : (s.countEvent e).shape = s.shape := by simp [State.countEvent, apply_ite State.shape]
@[simp] theorem State.countEvent_stk (e : Ev) : (s.countEvent e).stk = s.stk := by simp [State.countEvent, apply_ite State.stk]
@[simp] theorem State.countEvent_ctx (e : Ev) : (s.countEvent e).ctx = s.ctx := by simp [State.countEvent, apply_ite State.ctx]
@[simp] theorem State.countEvent_queue (e : Ev) : (s.countEvent e).queue = s.queue := by simp [State.countEvent, apply_ite State.queue]
@[simp] theorem State.countEvent_reqNo (e : Ev) : (s.countEvent e).reqNo = s.reqNo := by simp [State.countEvent, apply_ite State.reqNo]
@[simp] theorem State.countEvent_waitLimit (e : Ev) : (s.countEvent e).waitLimit = s.waitLimit := by simp [State.countEvent, apply_ite State.waitLimit]
@[simp] theorem State.countEvent_mport (e : Ev) : (s.countEvent e).mport = s.mport := by simp [State.countEvent, apply_ite State.mport]
@[simp] theorem State.countEvent_depot (e : Ev) : (s.countEvent e).depot = s.depot := by simp [State.countEvent, apply_ite State.depot]
@[simp] theorem State.countEvent_pont (e : Ev) : (s.countEvent e).pont = s.pont := by simp [State.countEvent, apply_ite State.pont]
@[simp] theorem State.countEvent_obs (e : Ev) : (s.countEvent e).obs = s.obs := by simp [State.countEvent, apply_ite State.obs]
@[simp] theorem State.countEvent_post (e : Ev) : (s.countEvent e).post = s.post := by simp [State.countEvent, apply_ite State.post]
@[simp] theorem State.countEvent_boot (e : Ev) : (s.countEvent e).boot = s.boot := by simp [State.countEvent, apply_ite State.boot]
@[simp] theorem State.countEvent_brt (e : Ev) : (s.countEvent e).brt = s.brt := by simp [State.countEvent, apply_ite State.brt]
@[simp] theorem State.countEvent_host (e : Ev) : (s.countEvent e).host = s.host := by simp [State.countEvent, apply_ite State.host]
@[simp] theorem State.countEvent_pwr (e : Ev) : (s.countEvent e).pwr = s.pwr := by simp [State.countEvent, apply_ite State.pwr]
@[simp] theorem State.countEvent_pins (e : Ev) : (s.countEvent e).pins = s.pins := by simp [State.countEvent, apply_ite State.pins]
@[simp] theorem State.countEvent_out (e : Ev) : (s.countEvent e).out = s.out := by simp [State.countEvent, apply_ite State.out]
@[simp] theorem State.countEvent_upsets (e : Ev) : (s.countEvent e).upsets = s.upsets := by simp [State.countEvent, apply_ite State.upsets]

/-! ### `damage` -/

@[simp] theorem State.damage_pending : (s.damage).pending = s.pending := by unfold State.damage; split <;> rfl
@[simp] theorem State.damage_time : (s.damage).time = s.time := by unfold State.damage; split <;> rfl
@[simp] theorem State.damage_epoch : (s.damage).epoch = s.epoch := by unfold State.damage; split <;> rfl
@[simp] theorem State.damage_fresh : (s.damage).fresh = s.fresh := by unfold State.damage; split <;> rfl
@[simp] theorem State.damage_clu : (s.damage).clu = s.clu := by unfold State.damage; split <;> rfl
@[simp] theorem State.damage_nst : (s.damage).nst = s.nst := by unfold State.damage; split <;> rfl
@[simp] theorem State.damage_deck : (s.damage).deck = s.deck := by unfold State.damage; split <;> rfl
@[simp] theorem State.damage_lp : (s.damage).lp = s.lp := by unfold State.damage; split <;> rfl
@[simp] theorem State.damage_nstBank : (s.damage).nstBank = s.nstBank := by unfold State.damage; split <;> rfl
@[simp] theorem State.damage_deckBank : (s.damage).deckBank = s.deckBank := by unfold State.damage; split <;> rfl
@[simp] theorem State.damage_bankUse : (s.damage).bankUse = s.bankUse := by unfold State.damage; split <;> rfl
@[simp] theorem State.damage_core : (s.damage).core = s.core := by unfold State.damage; split <;> rfl
@[simp] theorem State.damage_stop : (s.damage).stop = s.stop := by unfold State.damage; split <;> rfl
@[simp] theorem State.damage_ferryFly : (s.damage).ferryFly = s.ferryFly := by unfold State.damage; split <;> rfl
@[simp] theorem State.damage_splice : (s.damage).splice = s.splice := by unfold State.damage; split <;> rfl
@[simp] theorem State.damage_rtr : (s.damage).rtr = s.rtr := by unfold State.damage; split <;> rfl
@[simp] theorem State.damage_meshFly : (s.damage).meshFly = s.meshFly := by unfold State.damage; split <;> rfl
@[simp] theorem State.damage_cour : (s.damage).cour = s.cour := by unfold State.damage; split <;> rfl
@[simp] theorem State.damage_shape : (s.damage).shape = s.shape := by unfold State.damage; split <;> rfl
@[simp] theorem State.damage_cnt : (s.damage).cnt = s.cnt := by unfold State.damage; split <;> rfl
@[simp] theorem State.damage_stk : (s.damage).stk = s.stk := by unfold State.damage; split <;> rfl
@[simp] theorem State.damage_ctx : (s.damage).ctx = s.ctx := by unfold State.damage; split <;> rfl
@[simp] theorem State.damage_queue : (s.damage).queue = s.queue := by unfold State.damage; split <;> rfl
@[simp] theorem State.damage_reqNo : (s.damage).reqNo = s.reqNo := by unfold State.damage; split <;> rfl
@[simp] theorem State.damage_waitLimit : (s.damage).waitLimit = s.waitLimit := by unfold State.damage; split <;> rfl
@[simp] theorem State.damage_mport : (s.damage).mport = s.mport := by unfold State.damage; split <;> rfl
@[simp] theorem State.damage_depot : (s.damage).depot = s.depot := by unfold State.damage; split <;> rfl
@[simp] theorem State.damage_pont : (s.damage).pont = s.pont := by unfold State.damage; split <;> rfl
@[simp] theorem State.damage_obs : (s.damage).obs = s.obs := by unfold State.damage; split <;> rfl
@[simp] theorem State.damage_post : (s.damage).post = s.post := by unfold State.damage; split <;> rfl
@[simp] theorem State.damage_boot : (s.damage).boot = s.boot := by unfold State.damage; split <;> rfl
@[simp] theorem State.damage_brt : (s.damage).brt = s.brt := by unfold State.damage; split <;> rfl
@[simp] theorem State.damage_host : (s.damage).host = s.host := by unfold State.damage; split <;> rfl
@[simp] theorem State.damage_pwr : (s.damage).pwr = s.pwr := by unfold State.damage; split <;> rfl
@[simp] theorem State.damage_pins : (s.damage).pins = s.pins := by unfold State.damage; split <;> rfl
@[simp] theorem State.damage_out : (s.damage).out = s.out := by unfold State.damage; split <;> rfl
@[simp] theorem State.damage_upsets : (s.damage).upsets = s.upsets := by unfold State.damage; split <;> rfl

/-! ### `closeAgain` -/

@[simp] theorem State.closeAgain_pending (a : Bool) (m : BitVec 1) : (s.closeAgain a m).pending = s.pending := by simp [State.closeAgain]
@[simp] theorem State.closeAgain_time (a : Bool) (m : BitVec 1) : (s.closeAgain a m).time = s.time := by simp [State.closeAgain]
@[simp] theorem State.closeAgain_epoch (a : Bool) (m : BitVec 1) : (s.closeAgain a m).epoch = s.epoch := by simp [State.closeAgain]
@[simp] theorem State.closeAgain_fresh (a : Bool) (m : BitVec 1) : (s.closeAgain a m).fresh = s.fresh := by simp [State.closeAgain]
@[simp] theorem State.closeAgain_nst (a : Bool) (m : BitVec 1) : (s.closeAgain a m).nst = s.nst := by simp [State.closeAgain]
@[simp] theorem State.closeAgain_deck (a : Bool) (m : BitVec 1) : (s.closeAgain a m).deck = s.deck := by simp [State.closeAgain]
@[simp] theorem State.closeAgain_lp (a : Bool) (m : BitVec 1) : (s.closeAgain a m).lp = s.lp := by simp [State.closeAgain]
@[simp] theorem State.closeAgain_nstBank (a : Bool) (m : BitVec 1) : (s.closeAgain a m).nstBank = s.nstBank := by simp [State.closeAgain]
@[simp] theorem State.closeAgain_deckBank (a : Bool) (m : BitVec 1) : (s.closeAgain a m).deckBank = s.deckBank := by simp [State.closeAgain]
@[simp] theorem State.closeAgain_bankUse (a : Bool) (m : BitVec 1) : (s.closeAgain a m).bankUse = s.bankUse := by simp [State.closeAgain]
@[simp] theorem State.closeAgain_core (a : Bool) (m : BitVec 1) : (s.closeAgain a m).core = s.core := by simp [State.closeAgain]
@[simp] theorem State.closeAgain_stop (a : Bool) (m : BitVec 1) : (s.closeAgain a m).stop = s.stop := by simp [State.closeAgain]
@[simp] theorem State.closeAgain_ferryFly (a : Bool) (m : BitVec 1) : (s.closeAgain a m).ferryFly = s.ferryFly := by simp [State.closeAgain]
@[simp] theorem State.closeAgain_splice (a : Bool) (m : BitVec 1) : (s.closeAgain a m).splice = s.splice := by simp [State.closeAgain]
@[simp] theorem State.closeAgain_rtr (a : Bool) (m : BitVec 1) : (s.closeAgain a m).rtr = s.rtr := by simp [State.closeAgain]
@[simp] theorem State.closeAgain_meshFly (a : Bool) (m : BitVec 1) : (s.closeAgain a m).meshFly = s.meshFly := by simp [State.closeAgain]
@[simp] theorem State.closeAgain_shape (a : Bool) (m : BitVec 1) : (s.closeAgain a m).shape = s.shape := by simp [State.closeAgain]
@[simp] theorem State.closeAgain_stk (a : Bool) (m : BitVec 1) : (s.closeAgain a m).stk = s.stk := by simp [State.closeAgain]
@[simp] theorem State.closeAgain_ctx (a : Bool) (m : BitVec 1) : (s.closeAgain a m).ctx = s.ctx := by simp [State.closeAgain]
@[simp] theorem State.closeAgain_queue (a : Bool) (m : BitVec 1) : (s.closeAgain a m).queue = s.queue := by simp [State.closeAgain]
@[simp] theorem State.closeAgain_reqNo (a : Bool) (m : BitVec 1) : (s.closeAgain a m).reqNo = s.reqNo := by simp [State.closeAgain]
@[simp] theorem State.closeAgain_waitLimit (a : Bool) (m : BitVec 1) : (s.closeAgain a m).waitLimit = s.waitLimit := by simp [State.closeAgain]
@[simp] theorem State.closeAgain_mport (a : Bool) (m : BitVec 1) : (s.closeAgain a m).mport = s.mport := by simp [State.closeAgain]
@[simp] theorem State.closeAgain_depot (a : Bool) (m : BitVec 1) : (s.closeAgain a m).depot = s.depot := by simp [State.closeAgain]
@[simp] theorem State.closeAgain_pont (a : Bool) (m : BitVec 1) : (s.closeAgain a m).pont = s.pont := by simp [State.closeAgain]
@[simp] theorem State.closeAgain_obs (a : Bool) (m : BitVec 1) : (s.closeAgain a m).obs = s.obs := by simp [State.closeAgain]
@[simp] theorem State.closeAgain_post (a : Bool) (m : BitVec 1) : (s.closeAgain a m).post = s.post := by simp [State.closeAgain]
@[simp] theorem State.closeAgain_boot (a : Bool) (m : BitVec 1) : (s.closeAgain a m).boot = s.boot := by simp [State.closeAgain]
@[simp] theorem State.closeAgain_brt (a : Bool) (m : BitVec 1) : (s.closeAgain a m).brt = s.brt := by simp [State.closeAgain]
@[simp] theorem State.closeAgain_host (a : Bool) (m : BitVec 1) : (s.closeAgain a m).host = s.host := by simp [State.closeAgain]
@[simp] theorem State.closeAgain_pwr (a : Bool) (m : BitVec 1) : (s.closeAgain a m).pwr = s.pwr := by simp [State.closeAgain]
@[simp] theorem State.closeAgain_pins (a : Bool) (m : BitVec 1) : (s.closeAgain a m).pins = s.pins := by simp [State.closeAgain]
@[simp] theorem State.closeAgain_upsets (a : Bool) (m : BitVec 1) : (s.closeAgain a m).upsets = s.upsets := by simp [State.closeAgain]

/-! ### `rootSpoil` -/

@[simp] theorem State.rootSpoil_pending (b : Bool) : (s.rootSpoil b).pending = s.pending := by unfold State.rootSpoil; dsimp only; (repeat' split) <;> simp
@[simp] theorem State.rootSpoil_time (b : Bool) : (s.rootSpoil b).time = s.time := by unfold State.rootSpoil; dsimp only; (repeat' split) <;> simp
@[simp] theorem State.rootSpoil_epoch (b : Bool) : (s.rootSpoil b).epoch = s.epoch := by unfold State.rootSpoil; dsimp only; (repeat' split) <;> simp
@[simp] theorem State.rootSpoil_fresh (b : Bool) : (s.rootSpoil b).fresh = s.fresh := by unfold State.rootSpoil; dsimp only; (repeat' split) <;> simp
@[simp] theorem State.rootSpoil_nst (b : Bool) : (s.rootSpoil b).nst = s.nst := by unfold State.rootSpoil; dsimp only; (repeat' split) <;> simp
@[simp] theorem State.rootSpoil_deck (b : Bool) : (s.rootSpoil b).deck = s.deck := by unfold State.rootSpoil; dsimp only; (repeat' split) <;> simp
@[simp] theorem State.rootSpoil_lp (b : Bool) : (s.rootSpoil b).lp = s.lp := by unfold State.rootSpoil; dsimp only; (repeat' split) <;> simp
@[simp] theorem State.rootSpoil_nstBank (b : Bool) : (s.rootSpoil b).nstBank = s.nstBank := by unfold State.rootSpoil; dsimp only; (repeat' split) <;> simp
@[simp] theorem State.rootSpoil_deckBank (b : Bool) : (s.rootSpoil b).deckBank = s.deckBank := by unfold State.rootSpoil; dsimp only; (repeat' split) <;> simp
@[simp] theorem State.rootSpoil_bankUse (b : Bool) : (s.rootSpoil b).bankUse = s.bankUse := by unfold State.rootSpoil; dsimp only; (repeat' split) <;> simp
@[simp] theorem State.rootSpoil_core (b : Bool) : (s.rootSpoil b).core = s.core := by unfold State.rootSpoil; dsimp only; (repeat' split) <;> simp
@[simp] theorem State.rootSpoil_stop (b : Bool) : (s.rootSpoil b).stop = s.stop := by unfold State.rootSpoil; dsimp only; (repeat' split) <;> simp
@[simp] theorem State.rootSpoil_ferryFly (b : Bool) : (s.rootSpoil b).ferryFly = s.ferryFly := by unfold State.rootSpoil; dsimp only; (repeat' split) <;> simp
@[simp] theorem State.rootSpoil_splice (b : Bool) : (s.rootSpoil b).splice = s.splice := by unfold State.rootSpoil; dsimp only; (repeat' split) <;> simp
@[simp] theorem State.rootSpoil_rtr (b : Bool) : (s.rootSpoil b).rtr = s.rtr := by unfold State.rootSpoil; dsimp only; (repeat' split) <;> simp
@[simp] theorem State.rootSpoil_meshFly (b : Bool) : (s.rootSpoil b).meshFly = s.meshFly := by unfold State.rootSpoil; dsimp only; (repeat' split) <;> simp
@[simp] theorem State.rootSpoil_shape (b : Bool) : (s.rootSpoil b).shape = s.shape := by unfold State.rootSpoil; dsimp only; (repeat' split) <;> simp
@[simp] theorem State.rootSpoil_stk (b : Bool) : (s.rootSpoil b).stk = s.stk := by unfold State.rootSpoil; dsimp only; (repeat' split) <;> simp
@[simp] theorem State.rootSpoil_ctx (b : Bool) : (s.rootSpoil b).ctx = s.ctx := by unfold State.rootSpoil; dsimp only; (repeat' split) <;> simp
@[simp] theorem State.rootSpoil_queue (b : Bool) : (s.rootSpoil b).queue = s.queue := by unfold State.rootSpoil; dsimp only; (repeat' split) <;> simp
@[simp] theorem State.rootSpoil_reqNo (b : Bool) : (s.rootSpoil b).reqNo = s.reqNo := by unfold State.rootSpoil; dsimp only; (repeat' split) <;> simp
@[simp] theorem State.rootSpoil_waitLimit (b : Bool) : (s.rootSpoil b).waitLimit = s.waitLimit := by unfold State.rootSpoil; dsimp only; (repeat' split) <;> simp
@[simp] theorem State.rootSpoil_mport (b : Bool) : (s.rootSpoil b).mport = s.mport := by unfold State.rootSpoil; dsimp only; (repeat' split) <;> simp
@[simp] theorem State.rootSpoil_depot (b : Bool) : (s.rootSpoil b).depot = s.depot := by unfold State.rootSpoil; dsimp only; (repeat' split) <;> simp
@[simp] theorem State.rootSpoil_pont (b : Bool) : (s.rootSpoil b).pont = s.pont := by unfold State.rootSpoil; dsimp only; (repeat' split) <;> simp
@[simp] theorem State.rootSpoil_obs (b : Bool) : (s.rootSpoil b).obs = s.obs := by unfold State.rootSpoil; dsimp only; (repeat' split) <;> simp
@[simp] theorem State.rootSpoil_post (b : Bool) : (s.rootSpoil b).post = s.post := by unfold State.rootSpoil; dsimp only; (repeat' split) <;> simp
@[simp] theorem State.rootSpoil_boot (b : Bool) : (s.rootSpoil b).boot = s.boot := by unfold State.rootSpoil; dsimp only; (repeat' split) <;> simp
@[simp] theorem State.rootSpoil_brt (b : Bool) : (s.rootSpoil b).brt = s.brt := by unfold State.rootSpoil; dsimp only; (repeat' split) <;> simp
@[simp] theorem State.rootSpoil_host (b : Bool) : (s.rootSpoil b).host = s.host := by unfold State.rootSpoil; dsimp only; (repeat' split) <;> simp
@[simp] theorem State.rootSpoil_pwr (b : Bool) : (s.rootSpoil b).pwr = s.pwr := by unfold State.rootSpoil; dsimp only; (repeat' split) <;> simp
@[simp] theorem State.rootSpoil_pins (b : Bool) : (s.rootSpoil b).pins = s.pins := by unfold State.rootSpoil; dsimp only; (repeat' split) <;> simp
@[simp] theorem State.rootSpoil_upsets (b : Bool) : (s.rootSpoil b).upsets = s.upsets := by unfold State.rootSpoil; dsimp only; (repeat' split) <;> simp

/-! ### `cluSpoil` -/

@[simp] theorem State.cluSpoil_pending (j : Nat) (c : Code) : (s.cluSpoil j c).pending = s.pending := by unfold State.cluSpoil; dsimp only; split <;> simp
@[simp] theorem State.cluSpoil_time (j : Nat) (c : Code) : (s.cluSpoil j c).time = s.time := by unfold State.cluSpoil; dsimp only; split <;> simp
@[simp] theorem State.cluSpoil_epoch (j : Nat) (c : Code) : (s.cluSpoil j c).epoch = s.epoch := by unfold State.cluSpoil; dsimp only; split <;> simp
@[simp] theorem State.cluSpoil_fresh (j : Nat) (c : Code) : (s.cluSpoil j c).fresh = s.fresh := by unfold State.cluSpoil; dsimp only; split <;> simp
@[simp] theorem State.cluSpoil_frm (j : Nat) (c : Code) : (s.cluSpoil j c).frm = s.frm := by unfold State.cluSpoil; dsimp only; split <;> simp
@[simp] theorem State.cluSpoil_nst (j : Nat) (c : Code) : (s.cluSpoil j c).nst = s.nst := by unfold State.cluSpoil; dsimp only; split <;> simp
@[simp] theorem State.cluSpoil_deck (j : Nat) (c : Code) : (s.cluSpoil j c).deck = s.deck := by unfold State.cluSpoil; dsimp only; split <;> simp
@[simp] theorem State.cluSpoil_lp (j : Nat) (c : Code) : (s.cluSpoil j c).lp = s.lp := by unfold State.cluSpoil; dsimp only; split <;> simp
@[simp] theorem State.cluSpoil_nstBank (j : Nat) (c : Code) : (s.cluSpoil j c).nstBank = s.nstBank := by unfold State.cluSpoil; dsimp only; split <;> simp
@[simp] theorem State.cluSpoil_deckBank (j : Nat) (c : Code) : (s.cluSpoil j c).deckBank = s.deckBank := by unfold State.cluSpoil; dsimp only; split <;> simp
@[simp] theorem State.cluSpoil_bankUse (j : Nat) (c : Code) : (s.cluSpoil j c).bankUse = s.bankUse := by unfold State.cluSpoil; dsimp only; split <;> simp
@[simp] theorem State.cluSpoil_core (j : Nat) (c : Code) : (s.cluSpoil j c).core = s.core := by unfold State.cluSpoil; dsimp only; split <;> simp
@[simp] theorem State.cluSpoil_stop (j : Nat) (c : Code) : (s.cluSpoil j c).stop = s.stop := by unfold State.cluSpoil; dsimp only; split <;> simp
@[simp] theorem State.cluSpoil_ferryFly (j : Nat) (c : Code) : (s.cluSpoil j c).ferryFly = s.ferryFly := by unfold State.cluSpoil; dsimp only; split <;> simp
@[simp] theorem State.cluSpoil_splice (j : Nat) (c : Code) : (s.cluSpoil j c).splice = s.splice := by unfold State.cluSpoil; dsimp only; split <;> simp
@[simp] theorem State.cluSpoil_rtr (j : Nat) (c : Code) : (s.cluSpoil j c).rtr = s.rtr := by unfold State.cluSpoil; dsimp only; split <;> simp
@[simp] theorem State.cluSpoil_meshFly (j : Nat) (c : Code) : (s.cluSpoil j c).meshFly = s.meshFly := by unfold State.cluSpoil; dsimp only; split <;> simp
@[simp] theorem State.cluSpoil_upd (j : Nat) (c : Code) : (s.cluSpoil j c).upd = s.upd := by unfold State.cluSpoil; dsimp only; split <;> simp
@[simp] theorem State.cluSpoil_shape (j : Nat) (c : Code) : (s.cluSpoil j c).shape = s.shape := by unfold State.cluSpoil; dsimp only; split <;> simp
@[simp] theorem State.cluSpoil_cnt (j : Nat) (c : Code) : (s.cluSpoil j c).cnt = s.cnt := by unfold State.cluSpoil; dsimp only; split <;> simp
@[simp] theorem State.cluSpoil_stk (j : Nat) (c : Code) : (s.cluSpoil j c).stk = s.stk := by unfold State.cluSpoil; dsimp only; split <;> simp
@[simp] theorem State.cluSpoil_ctx (j : Nat) (c : Code) : (s.cluSpoil j c).ctx = s.ctx := by unfold State.cluSpoil; dsimp only; split <;> simp
@[simp] theorem State.cluSpoil_queue (j : Nat) (c : Code) : (s.cluSpoil j c).queue = s.queue := by unfold State.cluSpoil; dsimp only; split <;> simp
@[simp] theorem State.cluSpoil_reqNo (j : Nat) (c : Code) : (s.cluSpoil j c).reqNo = s.reqNo := by unfold State.cluSpoil; dsimp only; split <;> simp
@[simp] theorem State.cluSpoil_waitLimit (j : Nat) (c : Code) : (s.cluSpoil j c).waitLimit = s.waitLimit := by unfold State.cluSpoil; dsimp only; split <;> simp
@[simp] theorem State.cluSpoil_mport (j : Nat) (c : Code) : (s.cluSpoil j c).mport = s.mport := by unfold State.cluSpoil; dsimp only; split <;> simp
@[simp] theorem State.cluSpoil_depot (j : Nat) (c : Code) : (s.cluSpoil j c).depot = s.depot := by unfold State.cluSpoil; dsimp only; split <;> simp
@[simp] theorem State.cluSpoil_pont (j : Nat) (c : Code) : (s.cluSpoil j c).pont = s.pont := by unfold State.cluSpoil; dsimp only; split <;> simp
@[simp] theorem State.cluSpoil_obs (j : Nat) (c : Code) : (s.cluSpoil j c).obs = s.obs := by unfold State.cluSpoil; dsimp only; split <;> simp
@[simp] theorem State.cluSpoil_post (j : Nat) (c : Code) : (s.cluSpoil j c).post = s.post := by unfold State.cluSpoil; dsimp only; split <;> simp
@[simp] theorem State.cluSpoil_boot (j : Nat) (c : Code) : (s.cluSpoil j c).boot = s.boot := by unfold State.cluSpoil; dsimp only; split <;> simp
@[simp] theorem State.cluSpoil_brt (j : Nat) (c : Code) : (s.cluSpoil j c).brt = s.brt := by unfold State.cluSpoil; dsimp only; split <;> simp
@[simp] theorem State.cluSpoil_host (j : Nat) (c : Code) : (s.cluSpoil j c).host = s.host := by unfold State.cluSpoil; dsimp only; split <;> simp
@[simp] theorem State.cluSpoil_pwr (j : Nat) (c : Code) : (s.cluSpoil j c).pwr = s.pwr := by unfold State.cluSpoil; dsimp only; split <;> simp
@[simp] theorem State.cluSpoil_pins (j : Nat) (c : Code) : (s.cluSpoil j c).pins = s.pins := by unfold State.cluSpoil; dsimp only; split <;> simp
@[simp] theorem State.cluSpoil_upsets (j : Nat) (c : Code) : (s.cluSpoil j c).upsets = s.upsets := by unfold State.cluSpoil; dsimp only; split <;> simp

/-! ### `sendSpoil` -/

@[simp] theorem State.sendSpoil_pending (e : Ev) : (s.sendSpoil e).pending = s.pending := by simp [State.sendSpoil, apply_ite State.pending]
@[simp] theorem State.sendSpoil_time (e : Ev) : (s.sendSpoil e).time = s.time := by simp [State.sendSpoil, apply_ite State.time]
@[simp] theorem State.sendSpoil_epoch (e : Ev) : (s.sendSpoil e).epoch = s.epoch := by simp [State.sendSpoil, apply_ite State.epoch]
@[simp] theorem State.sendSpoil_fresh (e : Ev) : (s.sendSpoil e).fresh = s.fresh := by simp [State.sendSpoil, apply_ite State.fresh]
@[simp] theorem State.sendSpoil_nst (e : Ev) : (s.sendSpoil e).nst = s.nst := by simp [State.sendSpoil, apply_ite State.nst]
@[simp] theorem State.sendSpoil_deck (e : Ev) : (s.sendSpoil e).deck = s.deck := by simp [State.sendSpoil, apply_ite State.deck]
@[simp] theorem State.sendSpoil_lp (e : Ev) : (s.sendSpoil e).lp = s.lp := by simp [State.sendSpoil, apply_ite State.lp]
@[simp] theorem State.sendSpoil_nstBank (e : Ev) : (s.sendSpoil e).nstBank = s.nstBank := by simp [State.sendSpoil, apply_ite State.nstBank]
@[simp] theorem State.sendSpoil_deckBank (e : Ev) : (s.sendSpoil e).deckBank = s.deckBank := by simp [State.sendSpoil, apply_ite State.deckBank]
@[simp] theorem State.sendSpoil_bankUse (e : Ev) : (s.sendSpoil e).bankUse = s.bankUse := by simp [State.sendSpoil, apply_ite State.bankUse]
@[simp] theorem State.sendSpoil_core (e : Ev) : (s.sendSpoil e).core = s.core := by simp [State.sendSpoil, apply_ite State.core]
@[simp] theorem State.sendSpoil_stop (e : Ev) : (s.sendSpoil e).stop = s.stop := by simp [State.sendSpoil, apply_ite State.stop]
@[simp] theorem State.sendSpoil_ferryFly (e : Ev) : (s.sendSpoil e).ferryFly = s.ferryFly := by simp [State.sendSpoil, apply_ite State.ferryFly]
@[simp] theorem State.sendSpoil_splice (e : Ev) : (s.sendSpoil e).splice = s.splice := by simp [State.sendSpoil, apply_ite State.splice]
@[simp] theorem State.sendSpoil_rtr (e : Ev) : (s.sendSpoil e).rtr = s.rtr := by simp [State.sendSpoil, apply_ite State.rtr]
@[simp] theorem State.sendSpoil_meshFly (e : Ev) : (s.sendSpoil e).meshFly = s.meshFly := by simp [State.sendSpoil, apply_ite State.meshFly]
@[simp] theorem State.sendSpoil_shape (e : Ev) : (s.sendSpoil e).shape = s.shape := by simp [State.sendSpoil, apply_ite State.shape]
@[simp] theorem State.sendSpoil_stk (e : Ev) : (s.sendSpoil e).stk = s.stk := by simp [State.sendSpoil, apply_ite State.stk]
@[simp] theorem State.sendSpoil_ctx (e : Ev) : (s.sendSpoil e).ctx = s.ctx := by simp [State.sendSpoil, apply_ite State.ctx]
@[simp] theorem State.sendSpoil_queue (e : Ev) : (s.sendSpoil e).queue = s.queue := by simp [State.sendSpoil, apply_ite State.queue]
@[simp] theorem State.sendSpoil_reqNo (e : Ev) : (s.sendSpoil e).reqNo = s.reqNo := by simp [State.sendSpoil, apply_ite State.reqNo]
@[simp] theorem State.sendSpoil_waitLimit (e : Ev) : (s.sendSpoil e).waitLimit = s.waitLimit := by simp [State.sendSpoil, apply_ite State.waitLimit]
@[simp] theorem State.sendSpoil_mport (e : Ev) : (s.sendSpoil e).mport = s.mport := by simp [State.sendSpoil, apply_ite State.mport]
@[simp] theorem State.sendSpoil_depot (e : Ev) : (s.sendSpoil e).depot = s.depot := by simp [State.sendSpoil, apply_ite State.depot]
@[simp] theorem State.sendSpoil_pont (e : Ev) : (s.sendSpoil e).pont = s.pont := by simp [State.sendSpoil, apply_ite State.pont]
@[simp] theorem State.sendSpoil_obs (e : Ev) : (s.sendSpoil e).obs = s.obs := by simp [State.sendSpoil, apply_ite State.obs]
@[simp] theorem State.sendSpoil_post (e : Ev) : (s.sendSpoil e).post = s.post := by simp [State.sendSpoil, apply_ite State.post]
@[simp] theorem State.sendSpoil_boot (e : Ev) : (s.sendSpoil e).boot = s.boot := by simp [State.sendSpoil, apply_ite State.boot]
@[simp] theorem State.sendSpoil_brt (e : Ev) : (s.sendSpoil e).brt = s.brt := by simp [State.sendSpoil, apply_ite State.brt]
@[simp] theorem State.sendSpoil_host (e : Ev) : (s.sendSpoil e).host = s.host := by simp [State.sendSpoil, apply_ite State.host]
@[simp] theorem State.sendSpoil_pwr (e : Ev) : (s.sendSpoil e).pwr = s.pwr := by simp [State.sendSpoil, apply_ite State.pwr]
@[simp] theorem State.sendSpoil_pins (e : Ev) : (s.sendSpoil e).pins = s.pins := by simp [State.sendSpoil, apply_ite State.pins]
@[simp] theorem State.sendSpoil_upsets (e : Ev) : (s.sendSpoil e).upsets = s.upsets := by simp [State.sendSpoil, apply_ite State.upsets]

/-! ### `notify` -/

@[simp] theorem State.notify_pending (e : Ev) : (s.notify e).pending = s.pending := by unfold State.notify; split <;> simp
@[simp] theorem State.notify_time (e : Ev) : (s.notify e).time = s.time := by unfold State.notify; split <;> simp
@[simp] theorem State.notify_epoch (e : Ev) : (s.notify e).epoch = s.epoch := by unfold State.notify; split <;> simp
@[simp] theorem State.notify_fresh (e : Ev) : (s.notify e).fresh = s.fresh := by unfold State.notify; split <;> simp
@[simp] theorem State.notify_frm (e : Ev) : (s.notify e).frm = s.frm := by unfold State.notify; split <;> simp
@[simp] theorem State.notify_clu (e : Ev) : (s.notify e).clu = s.clu := by unfold State.notify; split <;> simp
@[simp] theorem State.notify_flt (e : Ev) : (s.notify e).flt = s.flt := by unfold State.notify; split <;> simp
@[simp] theorem State.notify_nst (e : Ev) : (s.notify e).nst = s.nst := by unfold State.notify; split <;> simp
@[simp] theorem State.notify_deck (e : Ev) : (s.notify e).deck = s.deck := by unfold State.notify; split <;> simp
@[simp] theorem State.notify_lp (e : Ev) : (s.notify e).lp = s.lp := by unfold State.notify; split <;> simp
@[simp] theorem State.notify_nstBank (e : Ev) : (s.notify e).nstBank = s.nstBank := by unfold State.notify; split <;> simp
@[simp] theorem State.notify_deckBank (e : Ev) : (s.notify e).deckBank = s.deckBank := by unfold State.notify; split <;> simp
@[simp] theorem State.notify_bankUse (e : Ev) : (s.notify e).bankUse = s.bankUse := by unfold State.notify; split <;> simp
@[simp] theorem State.notify_core (e : Ev) : (s.notify e).core = s.core := by unfold State.notify; split <;> simp
@[simp] theorem State.notify_stop (e : Ev) : (s.notify e).stop = s.stop := by unfold State.notify; split <;> simp
@[simp] theorem State.notify_ferryFly (e : Ev) : (s.notify e).ferryFly = s.ferryFly := by unfold State.notify; split <;> simp
@[simp] theorem State.notify_splice (e : Ev) : (s.notify e).splice = s.splice := by unfold State.notify; split <;> simp
@[simp] theorem State.notify_rtr (e : Ev) : (s.notify e).rtr = s.rtr := by unfold State.notify; split <;> simp
@[simp] theorem State.notify_meshFly (e : Ev) : (s.notify e).meshFly = s.meshFly := by unfold State.notify; split <;> simp
@[simp] theorem State.notify_cour (e : Ev) : (s.notify e).cour = s.cour := by unfold State.notify; split <;> simp
@[simp] theorem State.notify_upd (e : Ev) : (s.notify e).upd = s.upd := by unfold State.notify; split <;> simp
@[simp] theorem State.notify_shape (e : Ev) : (s.notify e).shape = s.shape := by unfold State.notify; split <;> simp
@[simp] theorem State.notify_cnt (e : Ev) : (s.notify e).cnt = s.cnt := by unfold State.notify; split <;> simp
@[simp] theorem State.notify_stk (e : Ev) : (s.notify e).stk = s.stk := by unfold State.notify; split <;> simp
@[simp] theorem State.notify_ctx (e : Ev) : (s.notify e).ctx = s.ctx := by unfold State.notify; split <;> simp
@[simp] theorem State.notify_queue (e : Ev) : (s.notify e).queue = s.queue := by unfold State.notify; split <;> simp
@[simp] theorem State.notify_reqNo (e : Ev) : (s.notify e).reqNo = s.reqNo := by unfold State.notify; split <;> simp
@[simp] theorem State.notify_waitLimit (e : Ev) : (s.notify e).waitLimit = s.waitLimit := by unfold State.notify; split <;> simp
@[simp] theorem State.notify_mport (e : Ev) : (s.notify e).mport = s.mport := by unfold State.notify; split <;> simp
@[simp] theorem State.notify_depot (e : Ev) : (s.notify e).depot = s.depot := by unfold State.notify; split <;> simp
@[simp] theorem State.notify_pont (e : Ev) : (s.notify e).pont = s.pont := by unfold State.notify; split <;> simp
@[simp] theorem State.notify_obs (e : Ev) : (s.notify e).obs = s.obs := by unfold State.notify; split <;> simp
@[simp] theorem State.notify_post (e : Ev) : (s.notify e).post = s.post := by unfold State.notify; split <;> simp
@[simp] theorem State.notify_boot (e : Ev) : (s.notify e).boot = s.boot := by unfold State.notify; split <;> simp
@[simp] theorem State.notify_brt (e : Ev) : (s.notify e).brt = s.brt := by unfold State.notify; split <;> simp
@[simp] theorem State.notify_host (e : Ev) : (s.notify e).host = s.host := by unfold State.notify; split <;> simp
@[simp] theorem State.notify_pwr (e : Ev) : (s.notify e).pwr = s.pwr := by unfold State.notify; split <;> simp
@[simp] theorem State.notify_pins (e : Ev) : (s.notify e).pins = s.pins := by unfold State.notify; split <;> simp
@[simp] theorem State.notify_upsets (e : Ev) : (s.notify e).upsets = s.upsets := by unfold State.notify; split <;> simp

/-! ### `raise` -/

@[simp] theorem State.raise_pending (e : Ev) : (s.raise e).pending = s.pending := by simp [State.raise, apply_ite State.pending]
@[simp] theorem State.raise_time (e : Ev) : (s.raise e).time = s.time := by simp [State.raise, apply_ite State.time]
@[simp] theorem State.raise_epoch (e : Ev) : (s.raise e).epoch = s.epoch := by simp [State.raise, apply_ite State.epoch]
@[simp] theorem State.raise_fresh (e : Ev) : (s.raise e).fresh = s.fresh := by simp [State.raise, apply_ite State.fresh]
@[simp] theorem State.raise_nst (e : Ev) : (s.raise e).nst = s.nst := by simp [State.raise, apply_ite State.nst]
@[simp] theorem State.raise_deck (e : Ev) : (s.raise e).deck = s.deck := by simp [State.raise, apply_ite State.deck]
@[simp] theorem State.raise_lp (e : Ev) : (s.raise e).lp = s.lp := by simp [State.raise, apply_ite State.lp]
@[simp] theorem State.raise_nstBank (e : Ev) : (s.raise e).nstBank = s.nstBank := by simp [State.raise, apply_ite State.nstBank]
@[simp] theorem State.raise_deckBank (e : Ev) : (s.raise e).deckBank = s.deckBank := by simp [State.raise, apply_ite State.deckBank]
@[simp] theorem State.raise_bankUse (e : Ev) : (s.raise e).bankUse = s.bankUse := by simp [State.raise, apply_ite State.bankUse]
@[simp] theorem State.raise_core (e : Ev) : (s.raise e).core = s.core := by simp [State.raise, apply_ite State.core]
@[simp] theorem State.raise_stop (e : Ev) : (s.raise e).stop = s.stop := by simp [State.raise, apply_ite State.stop]
@[simp] theorem State.raise_ferryFly (e : Ev) : (s.raise e).ferryFly = s.ferryFly := by simp [State.raise, apply_ite State.ferryFly]
@[simp] theorem State.raise_splice (e : Ev) : (s.raise e).splice = s.splice := by simp [State.raise, apply_ite State.splice]
@[simp] theorem State.raise_rtr (e : Ev) : (s.raise e).rtr = s.rtr := by simp [State.raise, apply_ite State.rtr]
@[simp] theorem State.raise_meshFly (e : Ev) : (s.raise e).meshFly = s.meshFly := by simp [State.raise, apply_ite State.meshFly]
@[simp] theorem State.raise_shape (e : Ev) : (s.raise e).shape = s.shape := by simp [State.raise, apply_ite State.shape]
@[simp] theorem State.raise_stk (e : Ev) : (s.raise e).stk = s.stk := by simp [State.raise, apply_ite State.stk]
@[simp] theorem State.raise_ctx (e : Ev) : (s.raise e).ctx = s.ctx := by simp [State.raise, apply_ite State.ctx]
@[simp] theorem State.raise_queue (e : Ev) : (s.raise e).queue = s.queue := by simp [State.raise, apply_ite State.queue]
@[simp] theorem State.raise_reqNo (e : Ev) : (s.raise e).reqNo = s.reqNo := by simp [State.raise, apply_ite State.reqNo]
@[simp] theorem State.raise_waitLimit (e : Ev) : (s.raise e).waitLimit = s.waitLimit := by simp [State.raise, apply_ite State.waitLimit]
@[simp] theorem State.raise_mport (e : Ev) : (s.raise e).mport = s.mport := by simp [State.raise, apply_ite State.mport]
@[simp] theorem State.raise_depot (e : Ev) : (s.raise e).depot = s.depot := by simp [State.raise, apply_ite State.depot]
@[simp] theorem State.raise_pont (e : Ev) : (s.raise e).pont = s.pont := by simp [State.raise, apply_ite State.pont]
@[simp] theorem State.raise_obs (e : Ev) : (s.raise e).obs = s.obs := by simp [State.raise, apply_ite State.obs]
@[simp] theorem State.raise_post (e : Ev) : (s.raise e).post = s.post := by simp [State.raise, apply_ite State.post]
@[simp] theorem State.raise_boot (e : Ev) : (s.raise e).boot = s.boot := by simp [State.raise, apply_ite State.boot]
@[simp] theorem State.raise_brt (e : Ev) : (s.raise e).brt = s.brt := by simp [State.raise, apply_ite State.brt]
@[simp] theorem State.raise_host (e : Ev) : (s.raise e).host = s.host := by simp [State.raise, apply_ite State.host]
@[simp] theorem State.raise_pwr (e : Ev) : (s.raise e).pwr = s.pwr := by simp [State.raise, apply_ite State.pwr]
@[simp] theorem State.raise_pins (e : Ev) : (s.raise e).pins = s.pins := by simp [State.raise, apply_ite State.pins]
@[simp] theorem State.raise_upsets (e : Ev) : (s.raise e).upsets = s.upsets := by simp [State.raise, apply_ite State.upsets]

/-! ### `raiseAt` -/

@[simp] theorem State.raiseAt_pending (c : Code) (p u a d : Nat) : (s.raiseAt c p u a d).pending = s.pending := by unfold State.raiseAt; simp
@[simp] theorem State.raiseAt_time (c : Code) (p u a d : Nat) : (s.raiseAt c p u a d).time = s.time := by unfold State.raiseAt; simp
@[simp] theorem State.raiseAt_epoch (c : Code) (p u a d : Nat) : (s.raiseAt c p u a d).epoch = s.epoch := by unfold State.raiseAt; simp
@[simp] theorem State.raiseAt_fresh (c : Code) (p u a d : Nat) : (s.raiseAt c p u a d).fresh = s.fresh := by unfold State.raiseAt; simp
@[simp] theorem State.raiseAt_nst (c : Code) (p u a d : Nat) : (s.raiseAt c p u a d).nst = s.nst := by unfold State.raiseAt; simp
@[simp] theorem State.raiseAt_deck (c : Code) (p u a d : Nat) : (s.raiseAt c p u a d).deck = s.deck := by unfold State.raiseAt; simp
@[simp] theorem State.raiseAt_lp (c : Code) (p u a d : Nat) : (s.raiseAt c p u a d).lp = s.lp := by unfold State.raiseAt; simp
@[simp] theorem State.raiseAt_nstBank (c : Code) (p u a d : Nat) : (s.raiseAt c p u a d).nstBank = s.nstBank := by unfold State.raiseAt; simp
@[simp] theorem State.raiseAt_deckBank (c : Code) (p u a d : Nat) : (s.raiseAt c p u a d).deckBank = s.deckBank := by unfold State.raiseAt; simp
@[simp] theorem State.raiseAt_bankUse (c : Code) (p u a d : Nat) : (s.raiseAt c p u a d).bankUse = s.bankUse := by unfold State.raiseAt; simp
@[simp] theorem State.raiseAt_core (c : Code) (p u a d : Nat) : (s.raiseAt c p u a d).core = s.core := by unfold State.raiseAt; simp
@[simp] theorem State.raiseAt_stop (c : Code) (p u a d : Nat) : (s.raiseAt c p u a d).stop = s.stop := by unfold State.raiseAt; simp
@[simp] theorem State.raiseAt_ferryFly (c : Code) (p u a d : Nat) : (s.raiseAt c p u a d).ferryFly = s.ferryFly := by unfold State.raiseAt; simp
@[simp] theorem State.raiseAt_splice (c : Code) (p u a d : Nat) : (s.raiseAt c p u a d).splice = s.splice := by unfold State.raiseAt; simp
@[simp] theorem State.raiseAt_rtr (c : Code) (p u a d : Nat) : (s.raiseAt c p u a d).rtr = s.rtr := by unfold State.raiseAt; simp
@[simp] theorem State.raiseAt_meshFly (c : Code) (p u a d : Nat) : (s.raiseAt c p u a d).meshFly = s.meshFly := by unfold State.raiseAt; simp
@[simp] theorem State.raiseAt_shape (c : Code) (p u a d : Nat) : (s.raiseAt c p u a d).shape = s.shape := by unfold State.raiseAt; simp
@[simp] theorem State.raiseAt_stk (c : Code) (p u a d : Nat) : (s.raiseAt c p u a d).stk = s.stk := by unfold State.raiseAt; simp
@[simp] theorem State.raiseAt_ctx (c : Code) (p u a d : Nat) : (s.raiseAt c p u a d).ctx = s.ctx := by unfold State.raiseAt; simp
@[simp] theorem State.raiseAt_queue (c : Code) (p u a d : Nat) : (s.raiseAt c p u a d).queue = s.queue := by unfold State.raiseAt; simp
@[simp] theorem State.raiseAt_reqNo (c : Code) (p u a d : Nat) : (s.raiseAt c p u a d).reqNo = s.reqNo := by unfold State.raiseAt; simp
@[simp] theorem State.raiseAt_waitLimit (c : Code) (p u a d : Nat) : (s.raiseAt c p u a d).waitLimit = s.waitLimit := by unfold State.raiseAt; simp
@[simp] theorem State.raiseAt_mport (c : Code) (p u a d : Nat) : (s.raiseAt c p u a d).mport = s.mport := by unfold State.raiseAt; simp
@[simp] theorem State.raiseAt_depot (c : Code) (p u a d : Nat) : (s.raiseAt c p u a d).depot = s.depot := by unfold State.raiseAt; simp
@[simp] theorem State.raiseAt_pont (c : Code) (p u a d : Nat) : (s.raiseAt c p u a d).pont = s.pont := by unfold State.raiseAt; simp
@[simp] theorem State.raiseAt_obs (c : Code) (p u a d : Nat) : (s.raiseAt c p u a d).obs = s.obs := by unfold State.raiseAt; simp
@[simp] theorem State.raiseAt_post (c : Code) (p u a d : Nat) : (s.raiseAt c p u a d).post = s.post := by unfold State.raiseAt; simp
@[simp] theorem State.raiseAt_boot (c : Code) (p u a d : Nat) : (s.raiseAt c p u a d).boot = s.boot := by unfold State.raiseAt; simp
@[simp] theorem State.raiseAt_brt (c : Code) (p u a d : Nat) : (s.raiseAt c p u a d).brt = s.brt := by unfold State.raiseAt; simp
@[simp] theorem State.raiseAt_host (c : Code) (p u a d : Nat) : (s.raiseAt c p u a d).host = s.host := by unfold State.raiseAt; simp
@[simp] theorem State.raiseAt_pwr (c : Code) (p u a d : Nat) : (s.raiseAt c p u a d).pwr = s.pwr := by unfold State.raiseAt; simp
@[simp] theorem State.raiseAt_pins (c : Code) (p u a d : Nat) : (s.raiseAt c p u a d).pins = s.pins := by unfold State.raiseAt; simp
@[simp] theorem State.raiseAt_upsets (c : Code) (p u a d : Nat) : (s.raiseAt c p u a d).upsets = s.upsets := by unfold State.raiseAt; simp

/-! ### The frame machinery and the clusters -/

/-- What a spoil can change in the frame machinery: the spoil bits, the request of a stop at tick, and in the root clk of an open
gate the decision with its step (R58, R61, R289, R463). -/
theorem State.rootSpoil_frm (b : Bool) : ∃ x y z w d k n, (s.rootSpoil b).frm = { s.frm with
    spoiled := x, stepSpoiled := y, nextSpoiled := z, stopReq := w, decision := d, decided := k, stepNum := n } := by
  have hd : ∃ w, s.damage.frm = { s.frm with stopReq := w } := by
    unfold State.damage
    split
    · exact ⟨_, rfl⟩
    · exact ⟨true, rfl⟩
  have hc : ∀ a m, (s.closeAgain a m).frm = { s.frm with decision := some false, decided := none, stepNum := s.frm.frameStep } := by
    intro a m; simp [State.closeAgain]
  obtain ⟨w, hw⟩ := hd
  unfold State.rootSpoil
  dsimp only
  repeat' split
  all_goals first
    | exact ⟨_, _, _, _, _, _, _, rfl⟩
    | exact ⟨_, _, _, w, _, _, _, hw⟩
    | exact ⟨_, _, _, _, _, _, _, by rw [hc]⟩

/-- While no gate decision is open, a spoil changes no cluster, sends nothing out and damages no commit. -/
theorem State.rootSpoil_shut (b : Bool) (h : s.frm.decision ≠ some true) :
    (s.rootSpoil b).clu = s.clu ∧ (s.rootSpoil b).out = s.out ∧ (s.rootSpoil b).cour = s.cour ∧ (s.rootSpoil b).upd = s.upd ∧
      (s.rootSpoil b).cnt = s.cnt := by
  unfold State.rootSpoil
  simp only [h, if_false]
  repeat' split
  all_goals exact ⟨rfl, rfl, rfl, rfl, rfl⟩

theorem State.sendSpoil_frm (e : Ev) : ∃ x y z w d k n, (s.sendSpoil e).frm = { s.frm with
    spoiled := x, stepSpoiled := y, nextSpoiled := z, stopReq := w, decision := d, decided := k, stepNum := n } := by
  unfold State.sendSpoil
  split
  · exact ⟨_, _, _, _, _, _, _, s.cluSpoil_frm _ _⟩
  · exact s.rootSpoil_frm _

/-- What raising an event can change in the frame machinery. -/
theorem State.raise_frm (e : Ev) : ∃ x y z w d k n, (s.raise e).frm = { s.frm with
    spoiled := x, stepSpoiled := y, nextSpoiled := z, stopReq := w, decision := d, decided := k, stepNum := n } := by
  have key : ∀ t : State, t.frm = s.frm → ∃ x y z w d k n,
      (if (e.quiet || codeSpoil e.code == 0) = true then t else t.sendSpoil e).frm = { s.frm with
        spoiled := x, stepSpoiled := y, nextSpoiled := z, stopReq := w, decision := d, decided := k, stepNum := n } := by
    intro t ht
    split
    · exact ⟨_, _, _, _, _, _, _, ht⟩
    · obtain ⟨x, y, z, w, d, k, n, h⟩ := t.sendSpoil_frm e
      exact ⟨x, y, z, w, d, k, n, by rw [h, ht]⟩
  unfold State.raise
  apply key
  dsimp only
  repeat' split
  all_goals simp

/-- The clusters whose gate a map of the table clears. -/
theorem tget_clearGate (t : Tab CluSt) (j : Nat) :
    tget (t.map (fun (e : Nat × CluSt) => (e.1, { e.2 with gate := none }))) j .reset = { tget t j .reset with gate := none } := by
  induction t with
  | nil => rfl
  | cons e r ih =>
    obtain ⟨k, c⟩ := e
    simp only [List.map_cons, tget]
    split
    · rfl
    · exact ih

/-- What raising an event can change in a cluster: whether it has sent a spoil in this frame (R209), and the gate that is shut
again (R61). -/
theorem State.raise_cluAt (e : Ev) (j : Nat) : ∃ b g, (s.raise e).cluAt j = { s.cluAt j with spoilSent := b, gate := g } := by
  have hcl : ∀ (t : State) (i : Nat) (c : Code), ∃ b, (t.cluSpoil i c).cluAt j = { t.cluAt j with spoilSent := b } := by
    intro t i c
    unfold State.cluSpoil
    dsimp only
    split
    · exact ⟨_, rfl⟩
    · by_cases h : j = i
      · subst h
        refine ⟨true, ?_⟩
        show tget (tset t.clu _ _) _ _ = _
        rw [tget_tset_same]
      · refine ⟨(t.cluAt j).spoilSent, ?_⟩
        show tget (tset t.clu _ _) _ _ = _
        rw [tget_tset_ne _ _ _ h]
        rfl
  have hr : ∀ (t : State) (b : Bool), ∃ g, (t.rootSpoil b).cluAt j = { t.cluAt j with gate := g } := by
    intro t b
    have hd : t.damage.cluAt j = t.cluAt j := by simp only [State.cluAt, State.damage_clu]
    have hc : ∀ a m, (t.closeAgain a m).cluAt j = { t.cluAt j with gate := none } := by
      intro a m
      show tget (t.closeAgain a m).clu _ _ = _
      rw [show (t.closeAgain a m).clu = t.clu.map (fun (e : Nat × CluSt) => (e.1, { e.2 with gate := none })) by
        simp [State.closeAgain]]
      exact tget_clearGate _ _
    unfold State.rootSpoil
    dsimp only
    repeat' split
    all_goals first
      | exact ⟨_, rfl⟩
      | exact ⟨_, hd⟩
      | exact ⟨none, hc _ _⟩
  have key : ∀ t : State, t.clu = s.clu → ∃ b g,
      (if (e.quiet || codeSpoil e.code == 0) = true then t else t.sendSpoil e).cluAt j =
        { s.cluAt j with spoilSent := b, gate := g } := by
    intro t ht
    have hs : t.cluAt j = s.cluAt j := by simp only [State.cluAt, ht]
    split
    · exact ⟨_, _, hs⟩
    · unfold State.sendSpoil
      split
      · obtain ⟨b, h⟩ := hcl t (posClu e.pos) e.code
        exact ⟨b, (s.cluAt j).gate, by rw [h, hs]⟩
      · obtain ⟨g, h⟩ := hr t (codeSpoil e.code == 2)
        exact ⟨(s.cluAt j).spoilSent, g, by rw [h, hs]⟩
  unfold State.raise
  apply key
  dsimp only
  repeat' split
  all_goals simp

/-- An event whose code spoils nothing leaves the frame machinery, the clusters and the update engine (R457). -/
theorem State.raise_notice (e : Ev) (h : codeSpoil e.code = 0) (h2 : e.code ≠ 0x2804) :
    (s.raise e).frm = s.frm ∧ (s.raise e).clu = s.clu ∧ (s.raise e).cour = s.cour ∧ (s.raise e).upd = s.upd := by
  have h2' : (e.code == 0x2804) = false := by simpa using h2
  simp only [State.raise, h, h2', beq_self_eq_true, Bool.or_true, if_true, Bool.false_eq_true, if_false]
  refine ⟨?_, ?_, ?_, ?_⟩
  all_goals ((repeat' split) <;> simp)

/-- An event that does not come from a cluster, while no gate decision is open: the clusters, the engines and the Courier
network as they were (R462). -/
theorem State.raise_root (e : Ev) (h : e.inCluster = false) (hd : s.frm.decision ≠ some true) (h2 : e.code ≠ 0x2804) :
    (s.raise e).clu = s.clu ∧ (s.raise e).upd = s.upd ∧ (s.raise e).cour = s.cour := by
  have h2' : (e.code == 0x2804) = false := by simpa using h2
  have key : ∀ t : State, t.frm = s.frm → t.clu = s.clu → t.upd = s.upd → t.cour = s.cour →
      (if (e.quiet || codeSpoil e.code == 0) = true then t else t.sendSpoil e).clu = s.clu ∧
      (if (e.quiet || codeSpoil e.code == 0) = true then t else t.sendSpoil e).upd = s.upd ∧
      (if (e.quiet || codeSpoil e.code == 0) = true then t else t.sendSpoil e).cour = s.cour := by
    intro t hf hc hu hk
    split
    · exact ⟨hc, hu, hk⟩
    · simp only [State.sendSpoil, h, Bool.false_eq_true, if_false]
      obtain ⟨a, _, b, c, _⟩ := t.rootSpoil_shut (codeSpoil e.code == 2) (by rw [hf]; exact hd)
      exact ⟨a.trans hc, c.trans hu, b.trans hk⟩
  unfold State.raise
  simp only [h2', Bool.false_eq_true, if_false]
  apply key
  all_goals ((repeat' split) <;> simp)

@[simp] theorem State.raise_frm_src (e : Ev) : (s.raise e).frm.src = s.frm.src := by obtain ⟨_, _, _, _, _, _, _, h⟩ := s.raise_frm e; rw [h]
@[simp] theorem State.raise_frm_fallback (e : Ev) : (s.raise e).frm.fallback = s.frm.fallback := by obtain ⟨_, _, _, _, _, _, _, h⟩ := s.raise_frm e; rw [h]
@[simp] theorem State.raise_frm_ftickOutEn (e : Ev) : (s.raise e).frm.ftickOutEn = s.frm.ftickOutEn := by obtain ⟨_, _, _, _, _, _, _, h⟩ := s.raise_frm e; rw [h]
@[simp] theorem State.raise_frm_period (e : Ev) : (s.raise e).frm.period = s.frm.period := by obtain ⟨_, _, _, _, _, _, _, h⟩ := s.raise_frm e; rw [h]
@[simp] theorem State.raise_frm_early (e : Ev) : (s.raise e).frm.early = s.frm.early := by obtain ⟨_, _, _, _, _, _, _, h⟩ := s.raise_frm e; rw [h]
@[simp] theorem State.raise_frm_late (e : Ev) : (s.raise e).frm.late = s.frm.late := by obtain ⟨_, _, _, _, _, _, _, h⟩ := s.raise_frm e; rw [h]
@[simp] theorem State.raise_frm_pendSrc (e : Ev) : (s.raise e).frm.pendSrc = s.frm.pendSrc := by obtain ⟨_, _, _, _, _, _, _, h⟩ := s.raise_frm e; rw [h]
@[simp] theorem State.raise_frm_pendPeriod (e : Ev) : (s.raise e).frm.pendPeriod = s.frm.pendPeriod := by obtain ⟨_, _, _, _, _, _, _, h⟩ := s.raise_frm e; rw [h]
@[simp] theorem State.raise_frm_policy (e : Ev) : (s.raise e).frm.policy = s.frm.policy := by obtain ⟨_, _, _, _, _, _, _, h⟩ := s.raise_frm e; rw [h]
@[simp] theorem State.raise_frm_stopOnSpoil (e : Ev) : (s.raise e).frm.stopOnSpoil = s.frm.stopOnSpoil := by obtain ⟨_, _, _, _, _, _, _, h⟩ := s.raise_frm e; rw [h]
@[simp] theorem State.raise_frm_phase (e : Ev) : (s.raise e).frm.phase = s.frm.phase := by obtain ⟨_, _, _, _, _, _, _, h⟩ := s.raise_frm e; rw [h]
@[simp] theorem State.raise_frm_heldTick (e : Ev) : (s.raise e).frm.heldTick = s.frm.heldTick := by obtain ⟨_, _, _, _, _, _, _, h⟩ := s.raise_frm e; rw [h]
@[simp] theorem State.raise_frm_stopExact (e : Ev) : (s.raise e).frm.stopExact = s.frm.stopExact := by obtain ⟨_, _, _, _, _, _, _, h⟩ := s.raise_frm e; rw [h]
@[simp] theorem State.raise_frm_index (e : Ev) : (s.raise e).frm.index = s.frm.index := by obtain ⟨_, _, _, _, _, _, _, h⟩ := s.raise_frm e; rw [h]
@[simp] theorem State.raise_frm_frameNum (e : Ev) : (s.raise e).frm.frameNum = s.frm.frameNum := by obtain ⟨_, _, _, _, _, _, _, h⟩ := s.raise_frm e; rw [h]
@[simp] theorem State.raise_frm_frameStep (e : Ev) : (s.raise e).frm.frameStep = s.frm.frameStep := by obtain ⟨_, _, _, _, _, _, _, h⟩ := s.raise_frm e; rw [h]
@[simp] theorem State.raise_frm_lateLast (e : Ev) : (s.raise e).frm.lateLast = s.frm.lateLast := by obtain ⟨_, _, _, _, _, _, _, h⟩ := s.raise_frm e; rw [h]
@[simp] theorem State.raise_frm_floorNow (e : Ev) : (s.raise e).frm.floorNow = s.frm.floorNow := by obtain ⟨_, _, _, _, _, _, _, h⟩ := s.raise_frm e; rw [h]
@[simp] theorem State.raise_frm_floorNext (e : Ev) : (s.raise e).frm.floorNext = s.frm.floorNext := by obtain ⟨_, _, _, _, _, _, _, h⟩ := s.raise_frm e; rw [h]
@[simp] theorem State.raise_frm_accepted (e : Ev) : (s.raise e).frm.accepted = s.frm.accepted := by obtain ⟨_, _, _, _, _, _, _, h⟩ := s.raise_frm e; rw [h]
@[simp] theorem State.raise_frm_silence (e : Ev) : (s.raise e).frm.silence = s.frm.silence := by obtain ⟨_, _, _, _, _, _, _, h⟩ := s.raise_frm e; rw [h]
@[simp] theorem State.raise_frm_lossDone (e : Ev) : (s.raise e).frm.lossDone = s.frm.lossDone := by obtain ⟨_, _, _, _, _, _, _, h⟩ := s.raise_frm e; rw [h]
@[simp] theorem State.raise_frm_started (e : Ev) : (s.raise e).frm.started = s.frm.started := by obtain ⟨_, _, _, _, _, _, _, h⟩ := s.raise_frm e; rw [h]
@[simp] theorem State.raise_frm_doneAt (e : Ev) : (s.raise e).frm.doneAt = s.frm.doneAt := by obtain ⟨_, _, _, _, _, _, _, h⟩ := s.raise_frm e; rw [h]
@[simp] theorem State.raise_frm_timerNext (e : Ev) : (s.raise e).frm.timerNext = s.frm.timerNext := by obtain ⟨_, _, _, _, _, _, _, h⟩ := s.raise_frm e; rw [h]
@[simp] theorem State.raise_frm_prog (e : Ev) : (s.raise e).frm.prog = s.frm.prog := by obtain ⟨_, _, _, _, _, _, _, h⟩ := s.raise_frm e; rw [h]
@[simp] theorem State.raise_frm_firstFrame (e : Ev) : (s.raise e).frm.firstFrame = s.frm.firstFrame := by obtain ⟨_, _, _, _, _, _, _, h⟩ := s.raise_frm e; rw [h]
@[simp] theorem State.raise_frm_newStep (e : Ev) : (s.raise e).frm.newStep = s.frm.newStep := by obtain ⟨_, _, _, _, _, _, _, h⟩ := s.raise_frm e; rw [h]
@[simp] theorem State.raise_frm_reports (e : Ev) : (s.raise e).frm.reports = s.frm.reports := by obtain ⟨_, _, _, _, _, _, _, h⟩ := s.raise_frm e; rw [h]
@[simp] theorem State.raise_frm_divStop (e : Ev) : (s.raise e).frm.divStop = s.frm.divStop := by obtain ⟨_, _, _, _, _, _, _, h⟩ := s.raise_frm e; rw [h]
@[simp] theorem State.raise_frm_stopForced (e : Ev) : (s.raise e).frm.stopForced = s.frm.stopForced := by obtain ⟨_, _, _, _, _, _, _, h⟩ := s.raise_frm e; rw [h]
@[simp] theorem State.raise_frm_stopKind (e : Ev) : (s.raise e).frm.stopKind = s.frm.stopKind := by obtain ⟨_, _, _, _, _, _, _, h⟩ := s.raise_frm e; rw [h]
@[simp] theorem State.raise_frm_stepOne (e : Ev) : (s.raise e).frm.stepOne = s.frm.stepOne := by obtain ⟨_, _, _, _, _, _, _, h⟩ := s.raise_frm e; rw [h]
@[simp] theorem State.raise_frm_exemptOverrun (e : Ev) : (s.raise e).frm.exemptOverrun = s.frm.exemptOverrun := by obtain ⟨_, _, _, _, _, _, _, h⟩ := s.raise_frm e; rw [h]
@[simp] theorem State.raise_frm_drainFrom (e : Ev) : (s.raise e).frm.drainFrom = s.frm.drainFrom := by obtain ⟨_, _, _, _, _, _, _, h⟩ := s.raise_frm e; rw [h]
@[simp] theorem State.raise_frm_stopSlots (e : Ev) : (s.raise e).frm.stopSlots = s.frm.stopSlots := by obtain ⟨_, _, _, _, _, _, _, h⟩ := s.raise_frm e; rw [h]
@[simp] theorem State.raise_frm_stopReqs (e : Ev) : (s.raise e).frm.stopReqs = s.frm.stopReqs := by obtain ⟨_, _, _, _, _, _, _, h⟩ := s.raise_frm e; rw [h]
@[simp] theorem State.raise_frm_deferrals (e : Ev) : (s.raise e).frm.deferrals = s.frm.deferrals := by obtain ⟨_, _, _, _, _, _, _, h⟩ := s.raise_frm e; rw [h]
@[simp] theorem State.raise_frm_halted (e : Ev) : (s.raise e).frm.halted = s.frm.halted := by obtain ⟨_, _, _, _, _, _, _, h⟩ := s.raise_frm e; rw [h]
@[simp] theorem State.raise_frm_spoilEach (e : Ev) : (s.raise e).frm.spoilEach = s.frm.spoilEach := by obtain ⟨_, _, _, _, _, _, _, h⟩ := s.raise_frm e; rw [h]
@[simp] theorem State.raise_frm_lastDone (e : Ev) : (s.raise e).frm.lastDone = s.frm.lastDone := by obtain ⟨_, _, _, _, _, _, _, h⟩ := s.raise_frm e; rw [h]
@[simp] theorem State.raise_frm_stopAt (e : Ev) : (s.raise e).frm.stopAt = s.frm.stopAt := by obtain ⟨_, _, _, _, _, _, _, h⟩ := s.raise_frm e; rw [h]
@[simp] theorem State.raise_frm_sysTick (e : Ev) : (s.raise e).frm.sysTick = s.frm.sysTick := by obtain ⟨_, _, _, _, _, _, _, h⟩ := s.raise_frm e; rw [h]
@[simp] theorem State.raise_frm_holdNext (e : Ev) : (s.raise e).frm.holdNext = s.frm.holdNext := by obtain ⟨_, _, _, _, _, _, _, h⟩ := s.raise_frm e; rw [h]
@[simp] theorem State.raise_frm_stopEnd (e : Ev) : (s.raise e).frm.stopEnd = s.frm.stopEnd := by obtain ⟨_, _, _, _, _, _, _, h⟩ := s.raise_frm e; rw [h]
@[simp] theorem State.raise_frm_grantsChanged (e : Ev) : (s.raise e).frm.grantsChanged = s.frm.grantsChanged := by obtain ⟨_, _, _, _, _, _, _, h⟩ := s.raise_frm e; rw [h]
@[simp] theorem State.raise_clu_slot (e : Ev) (j : Nat) : ((s.raise e).cluAt j).slot = (s.cluAt j).slot := by obtain ⟨_, _, h⟩ := s.raise_cluAt e j; rw [h]
@[simp] theorem State.raise_clu_running (e : Ev) (j : Nat) : ((s.raise e).cluAt j).running = (s.cluAt j).running := by obtain ⟨_, _, h⟩ := s.raise_cluAt e j; rw [h]
@[simp] theorem State.raise_clu_atEnd (e : Ev) (j : Nat) : ((s.raise e).cluAt j).atEnd = (s.cluAt j).atEnd := by obtain ⟨_, _, h⟩ := s.raise_cluAt e j; rw [h]
@[simp] theorem State.raise_clu_phaseAcc (e : Ev) (j : Nat) : ((s.raise e).cluAt j).phaseAcc = (s.cluAt j).phaseAcc := by obtain ⟨_, _, h⟩ := s.raise_cluAt e j; rw [h]
@[simp] theorem State.raise_clu_clkCount (e : Ev) (j : Nat) : ((s.raise e).cluAt j).clkCount = (s.cluAt j).clkCount := by obtain ⟨_, _, h⟩ := s.raise_cluAt e j; rw [h]
@[simp] theorem State.raise_clu_stopped (e : Ev) (j : Nat) : ((s.raise e).cluAt j).stopped = (s.cluAt j).stopped := by obtain ⟨_, _, h⟩ := s.raise_cluAt e j; rw [h]
@[simp] theorem State.raise_clu_stopping (e : Ev) (j : Nat) : ((s.raise e).cluAt j).stopping = (s.cluAt j).stopping := by obtain ⟨_, _, h⟩ := s.raise_cluAt e j; rw [h]
@[simp] theorem State.raise_clu_held (e : Ev) (j : Nat) : ((s.raise e).cluAt j).held = (s.cluAt j).held := by obtain ⟨_, _, h⟩ := s.raise_cluAt e j; rw [h]
@[simp] theorem State.raise_clu_cause (e : Ev) (j : Nat) : ((s.raise e).cluAt j).cause = (s.cluAt j).cause := by obtain ⟨_, _, h⟩ := s.raise_cluAt e j; rw [h]
@[simp] theorem State.raise_clu_bankHold (e : Ev) (j : Nat) : ((s.raise e).cluAt j).bankHold = (s.cluAt j).bankHold := by obtain ⟨_, _, h⟩ := s.raise_cluAt e j; rw [h]
@[simp] theorem State.raise_clu_acc (e : Ev) (j : Nat) : ((s.raise e).cluAt j).acc = (s.cluAt j).acc := by obtain ⟨_, _, h⟩ := s.raise_cluAt e j; rw [h]
@[simp] theorem State.raise_clu_serve (e : Ev) (j : Nat) : ((s.raise e).cluAt j).serve = (s.cluAt j).serve := by obtain ⟨_, _, h⟩ := s.raise_cluAt e j; rw [h]
@[simp] theorem State.raise_clu_owed (e : Ev) (j : Nat) : ((s.raise e).cluAt j).owed = (s.cluAt j).owed := by obtain ⟨_, _, h⟩ := s.raise_cluAt e j; rw [h]
@[simp] theorem State.raise_clu_nextGran (e : Ev) (j : Nat) : ((s.raise e).cluAt j).nextGran = (s.cluAt j).nextGran := by obtain ⟨_, _, h⟩ := s.raise_cluAt e j; rw [h]
@[simp] theorem State.raise_clu_reported (e : Ev) (j : Nat) : ((s.raise e).cluAt j).reported = (s.cluAt j).reported := by obtain ⟨_, _, h⟩ := s.raise_cluAt e j; rw [h]
@[simp] theorem State.raise_clu_gateWait (e : Ev) (j : Nat) : ((s.raise e).cluAt j).gateWait = (s.cluAt j).gateWait := by obtain ⟨_, _, h⟩ := s.raise_cluAt e j; rw [h]
@[simp] theorem State.raise_clu_clockLost (e : Ev) (j : Nat) : ((s.raise e).cluAt j).clockLost = (s.cluAt j).clockLost := by obtain ⟨_, _, h⟩ := s.raise_cluAt e j; rw [h]
@[simp] theorem State.raise_clu_clockOut (e : Ev) (j : Nat) : ((s.raise e).cluAt j).clockOut = (s.cluAt j).clockOut := by obtain ⟨_, _, h⟩ := s.raise_cluAt e j; rw [h]
@[simp] theorem State.raise_clu_frameCnt (e : Ev) (j : Nat) : ((s.raise e).cluAt j).frameCnt = (s.cluAt j).frameCnt := by obtain ⟨_, _, h⟩ := s.raise_cluAt e j; rw [h]
@[simp] theorem State.raise_clu_timeLag (e : Ev) (j : Nat) : ((s.raise e).cluAt j).timeLag = (s.cluAt j).timeLag := by obtain ⟨_, _, h⟩ := s.raise_cluAt e j; rw [h]
@[simp] theorem State.raise_clu_railFail (e : Ev) (j : Nat) : ((s.raise e).cluAt j).railFail = (s.cluAt j).railFail := by obtain ⟨_, _, h⟩ := s.raise_cluAt e j; rw [h]
@[simp] theorem State.raise_clu_railRetired (e : Ev) (j : Nat) : ((s.raise e).cluAt j).railRetired = (s.cluAt j).railRetired := by obtain ⟨_, _, h⟩ := s.raise_cluAt e j; rw [h]
@[simp] theorem State.raise_clu_lag (e : Ev) (j : Nat) : ((s.raise e).cluAt j).lag = (s.cluAt j).lag := by obtain ⟨_, _, h⟩ := s.raise_cluAt e j; rw [h]
@[simp] theorem State.raise_clu_boost (e : Ev) (j : Nat) : ((s.raise e).cluAt j).boost = (s.cluAt j).boost := by obtain ⟨_, _, h⟩ := s.raise_cluAt e j; rw [h]
@[simp] theorem State.raise_clu_checker (e : Ev) (j : Nat) : ((s.raise e).cluAt j).checker = (s.cluAt j).checker := by obtain ⟨_, _, h⟩ := s.raise_cluAt e j; rw [h]

end Sys2Proof.Machine
end

