-- ==== Sys2Proof/Laws/PerInstr.lean ====
section
/-! SUPPORT. Laws of every command, one lemma per constructor. -/

open Sys2Proof

namespace Sys2Proof.Laws.OperandBounds

/-- An entry of a train or slot table holds operation `op` in its bits [31:28] (R139, R184). -/
def entryOp (op : Nat) (e : BitVec 128) : Bool := decide (e.toNat / 2 ^ 28 % 16 = op)

/-- The bound that a command's operands must keep beyond what their types say, with the rule it comes from; none for a
command whose fields carry every operand. -/
def bound (i : Instr) : Option Bool :=
  match i with
  | .configure _ _ rt peers => some (decide (rt.length = 16) && decide (peers.length = 16))
  | .remoteAccumulate _ a _ _ _ _ => some (decide (a < 2 ^ 56) && decide (a % 64 = 0))
  | .hostMemAccess _ da _ => some (decide (da < 2 ^ 48) && decide (da % 64 = 0))
  | .bar2Access w off data len => some (decide (0 < len) && decide (len ≤ 64) && (!w || decide (data.length = len))
      && decide (off % 64 + len ≤ 64) && decide (off < 2 ^ 34))
  | .deviceRequestCompletion _ data _ => some (decide (data.length ≤ 64))
  | .depotBringUp uids => some (decide (uids.length ≤ 2048))
  | .thermalSample rs _ => some (decide (rs.length = 56))
  | .tick _ _ _ period => some (decide (period < 2 ^ 32))
  | .pass _ _ e _ | .fwd _ e _ => some (entryOp 1 e)
  | .take _ _ e _ => some (entryOp 2 e)
  | .sink _ _ e _ => some (entryOp 3 e)
  | .ferrySend _ _ e _ | .poolrd _ e => some (entryOp 4 e)
  | .fetch _ _ e | .slotTableLoad _ e => some (entryOp 5 e)
  | .accept _ _ e => some (entryOp 6 e)
  | .trainTableLoad _ _ e => some (entryOp 7 e)
  | .merge32 _ a b => some (entryOp 2 a && entryOp 2 b)
  | .merge16 _ a b => some (entryOp 3 a && entryOp 3 b)
  | _ => none

/-- A command is well-formed exactly when its operands keep its bound: eight commands have one, the
commands of a table's entry are bound to its operation, every other command of the
table is well-formed whatever its operands. -/
def Statement (i : Instr) : Prop := wellFormed i = (bound i).getD true

theorem ring (n : Pgh) : Statement (.ring n) := rfl
theorem cancel (n : Pgh) : Statement (.cancel n) := rfl
theorem commandTakeUp : Statement (.commandTakeUp) := rfl
theorem commandTimeout (n : Pgh) : Statement (.commandTimeout n) := rfl
theorem ownerChangeDiscard (n : Pgh) : Statement (.ownerChangeDiscard n) := rfl
theorem identify (n : Pgh) : Statement (.identify n) := rfl
theorem status (n : Pgh) : Statement (.status n) := rfl
theorem faultLog (n : Pgh) : Statement (.faultLog n) := rfl
theorem berthState (n : Pgh) : Statement (.berthState n) := rfl
theorem kill (n : Pgh) : Statement (.kill n) := rfl
theorem load (n : Pgh) (img : Image) : Statement (.load n img) := rfl
theorem bindCheck (n : Pgh) (img : Image) : Statement (.bindCheck n img) := rfl
theorem run (n : Pgh) : Statement (.run n) := rfl
theorem stop (n : Pgh) : Statement (.stop n) := rfl
theorem stepCmd (n : Pgh) : Statement (.stepCmd n) := rfl
theorem resume (n : Pgh) : Statement (.resume n) := rfl
theorem setPolicy (n : Pgh) : Statement (.setPolicy n) := rfl
theorem lrOverride (n : Pgh) : Statement (.lrOverride n) := rfl
theorem alloc (n : Pgh) : Statement (.alloc n) := rfl
theorem free (n : Pgh) : Statement (.free n) := rfl
theorem scrub (n : Pgh) : Statement (.scrub n) := rfl
theorem copy (n : Pgh) (host : HostView) : Statement (.copy n host) := rfl
theorem biasFlip (n : Pgh) : Statement (.biasFlip n) := rfl
theorem depotStatus (n : Pgh) : Statement (.depotStatus n) := rfl
theorem format (n : Pgh) (defects : List BlockId) : Statement (.format n defects) := rfl
theorem nsCreate (n : Pgh) : Statement (.nsCreate n) := rfl
theorem nsDelete (n : Pgh) : Statement (.nsDelete n) := rfl
theorem nsRelease (n : Pgh) : Statement (.nsRelease n) := rfl
theorem nsRead (n : Pgh) : Statement (.nsRead n) := rfl
theorem nsWrite (n : Pgh) (host : HostView) : Statement (.nsWrite n host) := rfl
theorem checkpoint (n : Pgh) : Statement (.checkpoint n) := rfl
theorem restore (n : Pgh) : Statement (.restore n) := rfl
theorem versions (n : Pgh) : Statement (.versions n) := rfl
theorem deadLetter (n : Pgh) : Statement (.deadLetter n) := rfl
theorem depotQuiesce (n : Pgh) : Statement (.depotQuiesce n) := rfl
theorem configure (n : Pgh) (linkUp : BitVec 16) (roundTripNs : List Nat) (peers : List (BitVec 18)) : Statement (.configure n linkUp roundTripNs peers) := rfl
theorem pontStatus (n : Pgh) : Statement (.pontStatus n) := rfl
theorem counters (n : Pgh) : Statement (.counters n) := rfl
theorem contextCnt (n : Pgh) : Statement (.contextCnt n) := rfl
theorem trace (n : Pgh) : Statement (.trace n) := rfl
theorem setFrame (n : Pgh) : Statement (.setFrame n) := rfl
theorem setClock (n : Pgh) : Statement (.setClock n) := rfl
theorem powerLimit (n : Pgh) : Statement (.powerLimit n) := rfl
theorem thermal (n : Pgh) : Statement (.thermal n) := rfl
theorem march (n : Pgh) (nstCells deckCells : List BadCell) : Statement (.march n nstCells deckCells) := rfl
theorem bgt (n : Pgh) : Statement (.bgt n) := rfl
theorem inject (n : Pgh) : Statement (.inject n) := rfl
theorem attest (n : Pgh) : Statement (.attest n) := rfl
theorem gradeRecord (n : Pgh) : Statement (.gradeRecord n) := rfl
theorem tickDoorbellStrike (viaAdmin : Bool) (host : HostView) : Statement (.tickDoorbellStrike viaAdmin host) := rfl
theorem brtCommitGo (viaAdmin : Bool) : Statement (.brtCommitGo viaAdmin) := rfl
theorem brtCommitRevert : Statement (.brtCommitRevert) := rfl
theorem deliverGo (host : HostView) (volt : VoltageFinding) : Statement (.deliverGo host volt) := rfl
theorem reenter : Statement (.reenter) := rfl
theorem cntLatch : Statement (.cntLatch) := rfl
theorem logAckFree (log : Fin 13) (n : BitVec 9) : Statement (.logAckFree log n) := rfl
theorem clrSupp (log : Fin 13) : Statement (.clrSupp log) := rfl
theorem clrLost (log : Fin 13) : Statement (.clrLost log) := rfl
theorem leafW1cClear (off : BitVec 20) (val : Word) : Statement (.leafW1cClear off val) := rfl
theorem hostIdxWrite (b : Port) (which : Fin 3) (val : Word) : Statement (.hostIdxWrite b which val) := rfl
theorem registerWrite (off : BitVec 21) (val : DWord) (wide viaAdmin : Bool) : Statement (.registerWrite off val wide viaAdmin) := rfl
theorem resetNRelease (f : BootFindings) : Statement (.resetNRelease f) := rfl
theorem resetNAssert (lowNs : Nat) : Statement (.resetNAssert lowNs) := rfl
theorem pwrFailNFall (lowNs : Nat) : Statement (.pwrFailNFall lowNs) := rfl
theorem depotFlushComplete : Statement (.depotFlushComplete) := rfl
theorem depotBringUp (uids : List Nat) : Statement (.depotBringUp uids) := rfl
theorem internalTick (host : HostView) : Statement (.internalTick host) := rfl
theorem ftickInEdge (highNs : Nat) (host : HostView) : Statement (.ftickInEdge highNs host) := rfl
theorem systemTickDelivery (host : HostView) : Statement (.systemTickDelivery host) := rfl
theorem tickLoss (host : HostView) : Statement (.tickLoss host) := rfl
theorem endMarkReached (j : Clu) : Statement (.endMarkReached j) := rfl
theorem frameDone (host : HostView) : Statement (.frameDone host) := rfl
theorem bankWakeComplete (p : Pos) (deck : Bool) (bank : Fin 16) : Statement (.bankWakeComplete p deck bank) := rfl
theorem stopDrainTimeout : Statement (.stopDrainTimeout) := rfl
theorem immediateStop (j : Clu) : Statement (.immediateStop j) := rfl
theorem release (j : Clu) : Statement (.release j) := rfl
theorem stopReached (j : Clu) : Statement (.stopReached j) := rfl
theorem commit (j : Clu) (frame : BitVec 16) : Statement (.commit j frame) := rfl
theorem spoil (code : Code) (inClkOfDone : Bool) : Statement (.spoil code inClkOfDone) := rfl
theorem gateDecision (dupAgrees : Bool) : Statement (.gateDecision dupAgrees) := rfl
theorem gate (j : Clu) (frame : BitVec 16) (isOpen : Bool) : Statement (.gate j frame isOpen) := rfl
theorem ack (src dst : Fin 64) (cls : BitVec 3) (pay : BitVec 14) : Statement (.ack src dst cls pay) := rfl
theorem notify (src : Fin 64) (code : Code) (spoils : Bool) : Statement (.notify src code spoils) := rfl
theorem courierCounterLatch (node : Fin 64) : Statement (.courierCounterLatch node) := rfl
theorem closeInjectionGate (p : Pos) : Statement (.closeInjectionGate p) := rfl
theorem bgtStepStart (p : Pos) (deck : Bool) : Statement (.bgtStepStart p deck) := rfl
theorem reservedClassPacket (pkt : Word) : Statement (.reservedClassPacket pkt) := rfl
theorem courierCrcMismatch (hop : Fin 128) : Statement (.courierCrcMismatch hop) := rfl
theorem courierResendTimer (src : Fin 64) : Statement (.courierResendTimer src) := rfl
theorem gateHoldTimeout (j : Clu) : Statement (.gateHoldTimeout j) := rfl
theorem deviceRequestCompletion (id : Nat) (data : List Byte) (poison : Bool) : Statement (.deviceRequestCompletion id data poison) := rfl
theorem bar2Access (write : Bool) (off : Nat) (data : List Byte) (len : Nat) : Statement (.bar2Access write off data len) := rfl
theorem waitc (p : Pos) (target : BitVec 20) : Statement (.waitc p target) := rfl
theorem waits (p : Pos) (sa : BitVec 4) : Statement (.waits p sa) := rfl
theorem rpt (p : Pos) (n : BitVec 16) : Statement (.rpt p n) := rfl
theorem loop (p : Pos) (level : BitVec 2) (count : BitVec 10) (len : BitVec 8) : Statement (.loop p level count len) := rfl
theorem loops (p : Pos) (level : BitVec 2) (sa : BitVec 4) (len : BitVec 8) : Statement (.loops p level sa len) := rfl
theorem jmp (p : Pos) (addr : BitVec 13) : Statement (.jmp p addr) := rfl
theorem bnz (p : Pos) (sa : BitVec 4) (addr : BitVec 13) : Statement (.bnz p sa addr) := rfl
theorem page (p : Pos) (slot : BitVec 4) (code : BitVec 12) : Statement (.page p slot code) := rfl
theorem setl (p : Pos) (sd : BitVec 4) (imm : BitVec 16) : Statement (.setl p sd imm) := rfl
theorem seth (p : Pos) (sd : BitVec 4) (imm : BitVec 16) : Statement (.seth p sd imm) := rfl
theorem salu (p : Pos) (sd sa sb func : BitVec 4) : Statement (.salu p sd sa sb func) := rfl
theorem movx (p : Pos) (sa : BitVec 4) (target : BitVec 5) : Statement (.movx p sa target) := rfl
theorem mark (p : Pos) (val : BitVec 16) : Statement (.mark p val) := rfl
theorem endOp (p : Pos) : Statement (.endOp p) := rfl
theorem ld (p : Pos) (v : BitVec 5) (a : BitVec 4) (w : BitVec 2) : Statement (.ld p v a w) := rfl
theorem st (p : Pos) (v : BitVec 5) (a : BitVec 4) (w pm : BitVec 2) : Statement (.st p v a w pm) := rfl
theorem sta (p : Pos) (v : BitVec 5) (a : BitVec 4) (fmt : BitVec 1) : Statement (.sta p v a fmt) := rfl
theorem psd (p : Pos) (a : BitVec 4) (arr : Arr) (entry : BitVec 7) : Statement (.psd p a arr entry) := rfl
theorem dkrd (p : Pos) (a : BitVec 4) (dp : BitVec 3) : Statement (.dkrd p a dp) := rfl
theorem dkwr (p : Pos) (a : BitVec 4) (dp : BitVec 3) : Statement (.dkwr p a dp) := rfl
theorem ldl (p : Pos) (a : BitVec 4) (dp : BitVec 3) (d : BitVec 6) : Statement (.ldl p a dp d) := rfl
theorem stl (p : Pos) (a : BitVec 4) (dp : BitVec 3) (d : BitVec 6) : Statement (.stl p a dp d) := rfl
theorem dkrt (p : Pos) (a : BitVec 4) (dp : BitVec 3) (dest : BitVec 1) : Statement (.dkrt p a dp dest) := rfl
theorem push (p : Pos) (a : BitVec 4) : Statement (.push p a) := rfl
theorem pop (p : Pos) (a : BitVec 4) : Statement (.pop p a) := rfl
theorem feed (p : Pos) (arr : Arr) (acc : Bool) (field : BitVec 4) : Statement (.feed p arr acc field) := rfl
theorem cfg (p : Pos) (arr : Arr) (field : BitVec 4) : Statement (.cfg p arr field) := rfl
theorem swap (p : Pos) (arr : Arr) : Statement (.swap p arr) := rfl
theorem latch (p : Pos) (arr : Arr) : Statement (.latch p arr) := rfl
theorem vadd (p : Pos) (o : VOp) : Statement (.vadd p o) := rfl
theorem vsub (p : Pos) (o : VOp) : Statement (.vsub p o) := rfl
theorem vmul (p : Pos) (o : VOp) : Statement (.vmul p o) := rfl
theorem vfma (p : Pos) (o : VOp) : Statement (.vfma p o) := rfl
theorem vmax (p : Pos) (o : VOp) : Statement (.vmax p o) := rfl
theorem vmin (p : Pos) (o : VOp) : Statement (.vmin p o) := rfl
theorem vabs (p : Pos) (o : VOp) : Statement (.vabs p o) := rfl
theorem vneg (p : Pos) (o : VOp) : Statement (.vneg p o) := rfl
theorem vcmp (p : Pos) (o : VOp) : Statement (.vcmp p o) := rfl
theorem vsel (p : Pos) (o : VOp) : Statement (.vsel p o) := rfl
theorem vmov (p : Pos) (o : VOp) : Statement (.vmov p o) := rfl
theorem vbc (p : Pos) (o : VOp) : Statement (.vbc p o) := rfl
theorem vrdp (p : Pos) (o : VOp) : Statement (.vrdp p o) := rfl
theorem vlane (p : Pos) (o : VOp) : Statement (.vlane p o) := rfl
theorem vrcp (p : Pos) (o : VOp) : Statement (.vrcp p o) := rfl
theorem vsqrt (p : Pos) (o : VOp) : Statement (.vsqrt p o) := rfl
theorem vrsqrt (p : Pos) (o : VOp) : Statement (.vrsqrt p o) := rfl
theorem vdiv (p : Pos) (o : VOp) : Statement (.vdiv p o) := rfl
theorem vexp2 (p : Pos) (o : VOp) : Statement (.vexp2 p o) := rfl
theorem vlog2 (p : Pos) (o : VOp) : Statement (.vlog2 p o) := rfl
theorem vtanh (p : Pos) (o : VOp) : Statement (.vtanh p o) := rfl
theorem vsigm (p : Pos) (o : VOp) : Statement (.vsigm p o) := rfl
theorem verf (p : Pos) (o : VOp) : Statement (.verf p o) := rfl
theorem vsin (p : Pos) (o : VOp) : Statement (.vsin p o) := rfl
theorem vcos (p : Pos) (o : VOp) : Statement (.vcos p o) := rfl
theorem vrsum (p : Pos) (o : VOp) : Statement (.vrsum p o) := rfl
theorem vrmax (p : Pos) (o : VOp) : Statement (.vrmax p o) := rfl
theorem vrmin (p : Pos) (o : VOp) : Statement (.vrmin p o) := rfl
theorem vrdot (p : Pos) (o : VOp) : Statement (.vrdot p o) := rfl
theorem viadd (p : Pos) (o : VOp) : Statement (.viadd p o) := rfl
theorem visub (p : Pos) (o : VOp) : Statement (.visub p o) := rfl
theorem vand (p : Pos) (o : VOp) : Statement (.vand p o) := rfl
theorem vor (p : Pos) (o : VOp) : Statement (.vor p o) := rfl
theorem vxor (p : Pos) (o : VOp) : Statement (.vxor p o) := rfl
theorem vshl (p : Pos) (o : VOp) : Statement (.vshl p o) := rfl
theorem vshr (p : Pos) (o : VOp) : Statement (.vshr p o) := rfl
theorem dadd (p : Pos) (o : VOp) : Statement (.dadd p o) := rfl
theorem dmul (p : Pos) (o : VOp) : Statement (.dmul p o) := rfl
theorem dfma (p : Pos) (o : VOp) : Statement (.dfma p o) := rfl
theorem drsum (p : Pos) (o : VOp) : Statement (.drsum p o) := rfl
theorem dcvt (p : Pos) (o : VOp) : Statement (.dcvt p o) := rfl
theorem vcvf (p : Pos) (o : VOp) : Statement (.vcvf p o) := rfl
theorem vcvm (p : Pos) (o : VOp) : Statement (.vcvm p o) := rfl
theorem vcvb (p : Pos) (o : VOp) : Statement (.vcvb p o) := rfl
theorem vcvi (p : Pos) (o : VOp) : Statement (.vcvi p o) := rfl
theorem update (p : Pos) (o : VOp) : Statement (.update p o) := rfl
theorem send (p : Pos) (a sa : BitVec 4) (cond : Bool) : Statement (.send p a sa cond) := rfl
theorem recv (p : Pos) (a : BitVec 4) : Statement (.recv p a) := rfl
theorem recva (p : Pos) (a : BitVec 4) : Statement (.recva p a) := rfl
theorem recvaB (p : Pos) (a : BitVec 4) : Statement (.recvaB p a) := rfl
theorem drop (p : Pos) : Statement (.drop p) := rfl
theorem pass (p : Pos) (arr : Arr) (e : BitVec 128) (i : BitVec 8) : Statement (.pass p arr e i) := rfl
theorem take (p : Pos) (arr : Arr) (e : BitVec 128) (i : BitVec 8) : Statement (.take p arr e i) := rfl
theorem sink (p : Pos) (arr : Arr) (e : BitVec 128) (i : BitVec 8) : Statement (.sink p arr e i) := rfl
theorem ferrySend (p : Pos) (arr : Arr) (e : BitVec 128) (i : BitVec 8) : Statement (.ferrySend p arr e i) := rfl
theorem fetch (p : Pos) (arr : Arr) (e : BitVec 128) : Statement (.fetch p arr e) := rfl
theorem accept (p : Pos) (arr : Arr) (e : BitVec 128) : Statement (.accept p arr e) := rfl
theorem trainTableLoad (p : Pos) (arr : Arr) (e : BitVec 128) : Statement (.trainTableLoad p arr e) := rfl
theorem fwd (p : Pos) (e : BitVec 128) (i : BitVec 8) : Statement (.fwd p e i) := rfl
theorem merge32 (p : Pos) (e1 e2 : BitVec 128) : Statement (.merge32 p e1 e2) := rfl
theorem merge16 (p : Pos) (e1 e2 : BitVec 128) : Statement (.merge16 p e1 e2) := rfl
theorem poolrd (p : Pos) (e : BitVec 128) : Statement (.poolrd p e) := rfl
theorem slotTableLoad (p : Pos) (e : BitVec 128) : Statement (.slotTableLoad p e) := rfl
theorem zombieFlit (p : Pos) : Statement (.zombieFlit p) := rfl
theorem waybillEnd (c : CtxId) : Statement (.waybillEnd c) := rfl
theorem setb (c : CtxId) (reg : BitVec 3) (val : BitVec 56) : Statement (.setb c reg val) := rfl
theorem waybillLoop (c : CtxId) (level : BitVec 3) (count : BitVec 20) (fs : BitVec 24) (ns : BitVec 12) : Statement (.waybillLoop c level count fs ns) := rfl
theorem endl (c : CtxId) (level : BitVec 3) : Statement (.endl c level) := rfl
theorem xfer (c : CtxId) (len : BitVec 7) (foff : BitVec 24) (noff : BitVec 16) : Statement (.xfer c len foff noff) := rfl
theorem gather (c : CtxId) (len : BitVec 7) (scale noff : BitVec 16) (x : BitVec 6) : Statement (.gather c len scale noff x) := rfl
theorem scatter (c : CtxId) (len : BitVec 7) (scale noff : BitVec 16) (x : BitVec 6) : Statement (.scatter c len scale noff x) := rfl
theorem pred (c : CtxId) (cond level : BitVec 3) (arg : BitVec 20) : Statement (.pred c cond level arg) := rfl
theorem waybillMark (c : CtxId) : Statement (.waybillMark c) := rfl
theorem fence (c : CtxId) : Statement (.fence c) := rfl
theorem granulePublish (c : CtxId) : Statement (.granulePublish c) := rfl
theorem waybillWaitLimit (c : CtxId) : Statement (.waybillWaitLimit c) := rfl
theorem stackSpillStart (p : Pos) : Statement (.stackSpillStart p) := rfl
theorem stackFillStart (p : Pos) : Statement (.stackFillStart p) := rfl
theorem stackChunkComplete (p : Pos) : Statement (.stackChunkComplete p) := rfl
theorem memoryPortRequest (i : Port) : Statement (.memoryPortRequest i) := rfl
theorem remoteAccumulate (space : Fin 2) (addr : Nat) (vals : Row) (zero poison adderAgrees : Bool) : Statement (.remoteAccumulate space addr vals zero poison adderAgrees) := rfl
theorem lpddr5xRequestTimeout (i : Port) (id : Nat) : Statement (.lpddr5xRequestTimeout i id) := rfl
theorem refresh (i : Port) (chan : Fin 4) (bank : Fin 16) : Statement (.refresh i chan bank) := rfl
theorem mr4Poll (i : Port) (mult : BitVec 2) : Statement (.mr4Poll i mult) := rfl
theorem wckOscillatorRead (i : Port) (chan : Fin 4) (drifted : Bool) : Statement (.wckOscillatorRead i chan drifted) := rfl
theorem portFullRetrain (i : Port) : Statement (.portFullRetrain i) := rfl
theorem lpddr5xPatrol (i : Port) (line : Nat) : Statement (.lpddr5xPatrol i line) := rfl
theorem bgtGroupStart (p : Pos) (deck : Bool) (cells : List BadCell) : Statement (.bgtGroupStart p deck cells) := rfl
theorem killScrubComplete (b : Port) : Statement (.killScrubComplete b) := rfl
theorem depotWriteRequest (ch : Chan) : Statement (.depotWriteRequest ch) := rfl
theorem unitCloseTimeout (ns : Fin 64) (unit : Nat) : Statement (.unitCloseTimeout ns unit) := rfl
theorem depotReadRequest (ch : Chan) (recovery : Fin 6) : Statement (.depotReadRequest ch recovery) := rfl
theorem journalProgram : Statement (.journalProgram) := rfl
theorem blockRetire (b : BlockId) (reason : Fin 5) : Statement (.blockRetire b reason) := rfl
theorem onfiTimeout (ch : Chan) (target lun : Fin 8) : Statement (.onfiTimeout ch target lun) := rfl
theorem lunFailed (ch : Chan) (target lun : Fin 8) : Statement (.lunFailed ch target lun) := rfl
theorem depotRequestTimeout (ch : Chan) (id : Nat) : Statement (.depotRequestTimeout ch id) := rfl
theorem depotPatrol (b : BlockId) (bitsCorrected : Nat) : Statement (.depotPatrol b bitsCorrected) := rfl
theorem depotRefresh (b : BlockId) : Statement (.depotRefresh b) := rfl
theorem garbageCollection (ns : Fin 64) (unit : Nat) : Statement (.garbageCollection ns unit) := rfl
theorem wearLevelling (ch : Chan) : Statement (.wearLevelling ch) := rfl
theorem depotChannelRetrain (ch : Chan) : Statement (.depotChannelRetrain ch) := rfl
theorem laneFailure (p : Port) (lane : Fin 4) : Statement (.laneFailure p lane) := rfl
theorem spareLaneTrained (p : Port) : Statement (.spareLaneTrained p) := rfl
theorem pontFlitReceive (p : Port) (hdr : BitVec 64) (body : BitVec 1984) (rsFixed : BitVec 4) (rsBad : Bool) : Statement (.pontFlitReceive p hdr body rsFixed rsBad) := rfl
theorem nak (p : Port) (expected : BitVec 14) : Statement (.nak p expected) := rfl
theorem ackTimer (p : Port) : Statement (.ackTimer p) := rfl
theorem linkDown (p : Port) : Statement (.linkDown p) := rfl
theorem linkRetrainComplete (p : Port) (ok : Bool) : Statement (.linkRetrainComplete p ok) := rfl
theorem write (p : Port) (pkt : Packet) : Statement (.write p pkt) := rfl
theorem read (p : Port) (pkt : Packet) : Statement (.read p pkt) := rfl
theorem readResp (p : Port) (pkt : Packet) : Statement (.readResp p pkt) := rfl
theorem raccF32 (p : Port) (pkt : Packet) : Statement (.raccF32 p pkt) := rfl
theorem raccAs8 (p : Port) (pkt : Packet) : Statement (.raccAs8 p pkt) := rfl
theorem rmax8 (p : Port) (pkt : Packet) : Statement (.rmax8 p pkt) := rfl
theorem completion (p : Port) (pkt : Packet) : Statement (.completion p pkt) := rfl
theorem done (p : Port) (pkt : Packet) : Statement (.done p pkt) := rfl
theorem decide (p : Port) (pkt : Packet) : Statement (.decide p pkt) := rfl
theorem time (p : Port) (pkt : Packet) (sysTime : Nat) (fromNewMaster : Bool) : Statement (.time p pkt sysTime fromNewMaster) := rfl
theorem tick (p : Port) (s : BitVec 48) (inst : Nat) (period : Nat) : Statement (.tick p s inst period) := rfl
theorem heartbeat (p : Port) : Statement (.heartbeat p) := rfl
theorem failed (p : Port) (dev : BitVec 18) : Statement (.failed p dev) := rfl
theorem reservedOpcPacket (p : Port) (pkt : Packet) : Statement (.reservedOpcPacket p pkt) := rfl
theorem unreachablePacket (p : Port) (pkt : Packet) : Statement (.unreachablePacket p pkt) := rfl
theorem remoteOpTimeout (id : Nat) : Statement (.remoteOpTimeout id) := rfl
theorem collectiveDeadline (coll : BitVec 16) : Statement (.collectiveDeadline coll) := rfl
theorem decisionWaitExpiry (coll : BitVec 16) : Statement (.decisionWaitExpiry coll) := rfl
theorem heartbeatTimer : Statement (.heartbeatTimer) := rfl
theorem neighbourFailure (p : Port) : Statement (.neighbourFailure p) := rfl
theorem timeDistribution : Statement (.timeDistribution) := rfl
theorem linkDelayMeasurement (p : Port) (t1 t2 t3 t4 : Nat) : Statement (.linkDelayMeasurement p t1 t2 t3 t4) := rfl
theorem tickFlood : Statement (.tickFlood) := rfl
theorem lockLoss : Statement (.lockLoss) := rfl
theorem ucieLinkError : Statement (.ucieLinkError) := rfl
theorem hostMemAccess (write : Bool) (da : Nat) (data : Row) : Statement (.hostMemAccess write da data) := rfl
theorem hostSnoop (hpa : Nat) : Statement (.hostSnoop hpa) := rfl
theorem unsupportedRequest (hpa : Nat) : Statement (.unsupportedRequest hpa) := rfl
theorem deviceRequestTimeout (id : Nat) : Statement (.deviceRequestTimeout id) := rfl
theorem droopStretch (j : Clu) : Statement (.droopStretch j) := rfl
theorem slowLoopWindow (j : Clu) : Statement (.slowLoopWindow j) := rfl
theorem clockLoss (j : Clu) : Statement (.clockLoss j) := rfl
theorem clockRestored (j : Clu) : Statement (.clockRestored j) := rfl
theorem clockRestoreTimeout (j : Clu) : Statement (.clockRestoreTimeout j) := rfl
theorem replicaWarning (j : Clu) : Statement (.replicaWarning j) := rfl
theorem timeSample : Statement (.timeSample) := rfl
theorem refclkLoss : Statement (.refclkLoss) := rfl
theorem pontRefclkLoss : Statement (.pontRefclkLoss) := rfl
theorem avsTelemetry (mv : Nat) (milliAmp : Int) (tempC : Int) : Statement (.avsTelemetry mv milliAmp tempC) := rfl
theorem avsResponseTimeout : Statement (.avsResponseTimeout) := rfl
theorem voltageLowerTimer : Statement (.voltageLowerTimer) := rfl
theorem powerLimitCheck (avgW msW : Nat) : Statement (.powerLimitCheck avgW msW) := rfl
theorem emergencyTrigger (which : Fin 4) : Statement (.emergencyTrigger which) := rfl
theorem emergencyFloorRaise : Statement (.emergencyFloorRaise) := rfl
theorem thermalSample (readings : List (BitVec 16)) (disagree : List (Fin 56)) : Statement (.thermalSample readings disagree) := rfl
theorem thermtrip : Statement (.thermtrip) := rfl
theorem tickRailMismatch (j : Clu) (rail : Fin 2) : Statement (.tickRailMismatch j rail) := rfl
theorem postmasterMismatch : Statement (.postmasterMismatch) := rfl
theorem firmwareCheckerTest (failedTrips : Bool) : Statement (.firmwareCheckerTest failedTrips) := rfl
theorem counterParityError (c : CounterId) : Statement (.counterParityError c) := rfl
theorem counterPageWrite : Statement (.counterPageWrite) := rfl
theorem bwWindowBoundary : Statement (.bwWindowBoundary) := rfl
theorem traceControlUpdate (region : Fin 17) : Statement (.traceControlUpdate region) := rfl
theorem traceRecordWrite : Statement (.traceRecordWrite) := rfl
theorem i3cRead (off : BitVec 16) : Statement (.i3cRead off) := rfl
theorem i3cBusHeld : Statement (.i3cBusHeld) := rfl
theorem i3cTransactionTimeout : Statement (.i3cTransactionTimeout) := rfl
theorem bypass : Statement (.bypass) := rfl
theorem idcode : Statement (.idcode) := rfl
theorem samplePreload : Statement (.samplePreload) := rfl
theorem extest : Statement (.extest) := rfl
theorem trstNAssert (lowNs : Nat) : Statement (.trstNAssert lowNs) := rfl
theorem onfiStatusPoll (ch : Chan) (opFailed : Bool) : Statement (.onfiStatusPoll ch opFailed) := rfl
theorem selfRefreshEntry (i : Port) : Statement (.selfRefreshEntry i) := rfl
theorem depotChannelStandby (ch : Chan) : Statement (.depotChannelStandby ch) := rfl
theorem ucieRetrainComplete (ok : Bool) : Statement (.ucieRetrainComplete ok) := rfl
theorem sparePairInService : Statement (.sparePairInService) := rfl
theorem idleCheckerExercise (j : Clu) (failing : List Pos) : Statement (.idleCheckerExercise j failing) := rfl
theorem vddAonPowerUp : Statement (.vddAonPowerUp) := rfl
theorem portFlitBoundary (p : Port) : Statement (.portFlitBoundary p) := rfl

end Sys2Proof.Laws.OperandBounds
end

