-- ==== Sys2Proof/Tests/Slice0.lean ====
section
/-! SUPPORT. The author's own checks: refused commands, results of single commands on small states, and for every statement
that has hypotheses states that meet them. -/

open Sys2Proof Sys2Proof.Machine

namespace Sys2Proof.Tests

set_option Elab.async false

/-! ### Small states -/

def core0 : CoreImage :=
  { lx := 0, ly := 0, bundles := [], slotsIn := [0], deckData := [], codeBase := 0, codeSize := 8192, trains0 := [], trains1 := []
    slots := [], accum := [], stack := none, bufs := [], stepRow := 100, cntSel := 0 }
def hdr0 (last : Bool) : FrameHdr :=
  { endMark := 4000, last := last, c := 100, g := 1024, entry := [], nstOn := [], nstIdle := [], deckOn := [], deckIdle := [] }
def img0 (last : Bool) : Image :=
  { digest := 0, bodyDigest := 0, shapeHash := 0, period := 200000, frames := [hdr0 last], cores := [core0], fenced := [], retain := []
    ports := [], lanes := [], windows := [], colls := [], groups := [], shards := [], splice := 0, rootRecs := [], marked := []
    deps := [], words := [], namespaces := [] }

/-- Position 0 of a part with a full shape, its banks on and every cluster in tcyc `t` of a frame, with a core `c`. -/
def runC (t : Nat) (c : CoreSt) (last : Bool := false) (gate : Option Bool := none) : State :=
  let s := State.reset
  { s with
    shape := { s.shape with built := true, valid := true, rows := 12 }
    nstBank := [(0, { BankSt.resetNst with pwr := 0 })], deckBank := [(0, { BankSt.resetDeck with pwr := 0 })]
    clu := (List.range 48).map (fun k => (k, { CluSt.reset with running := true, slot := t, gate := gate }))
    core := [(0, c)]
    frm := { s.frm with phase := 1, prog := some { image := img0 last, berth := 0, loaded := true } } }
def run (t : Nat) : State := runC t .reset
def op0 : VOp := { vd := 0, va := 0, vb := 0, vc := 0, md := 0 }

/-- A part whose firmware runs, with command `op` taken up at pigeonhole 0. -/
def posted (op : Byte × Byte) (bytes : List (Nat × Byte) := []) : State :=
  let s := State.reset
  { s with
    post := { s.post with
      firmware := true
      pgh := [(0, { PghSt.reset with state := 2, copy := (bytes.foldl (fun t e => tset t e.1 e.2) [(0, op.1), (1, op.2)]) })] } }
/-- A taken-up command of the program group beside a program that stands in `phase`. -/
def prog (op : Byte × Byte) (phase : BitVec 2) (bytes : List (Nat × Byte) := []) : State :=
  let s := posted op bytes
  { s with frm := { s.frm with phase := phase, prog := some { image := img0 false, berth := 0, loaded := true } } }

/-! ### A command whose operands no field carries is refused (WellFormed) -/

theorem test_ill_configure : exec (.configure 0 0 [] []) .reset = .refused (.illFormed "CONFIGURE") := by rfl
theorem test_ill_remoteAccumulate :
    exec (.remoteAccumulate 0 32 0 false false true) .reset = .refused (.illFormed "REMOTE_ACCUMULATE") := by rfl
theorem test_ill_remoteAccumulate_far :
    exec (.remoteAccumulate 0 (2 ^ 56) 0 false false true) .reset = .refused (.illFormed "REMOTE_ACCUMULATE") := by rfl
theorem test_ill_hostMemAccess : exec (.hostMemAccess false 1 0) .reset = .refused (.illFormed "HOST_MEM_ACCESS") := by rfl
theorem test_ill_bar2_empty : exec (.bar2Access false 0 [] 0) .reset = .refused (.illFormed "BAR2_ACCESS") := by rfl
theorem test_ill_bar2_row : exec (.bar2Access false 60 [] 8) .reset = .refused (.illFormed "BAR2_ACCESS") := by rfl
theorem test_ill_bar2_data : exec (.bar2Access true 0 [1] 2) .reset = .refused (.illFormed "BAR2_ACCESS") := by rfl
theorem test_ill_completion :
    exec (.deviceRequestCompletion 0 (List.replicate 65 0) false) .reset = .refused (.illFormed "DEVICE_REQUEST_COMPLETION") := by
  rfl
theorem test_ill_thermal : exec (.thermalSample [] []) .reset = .refused (.illFormed "THERMAL_SAMPLE") := by rfl
theorem test_ill_bringUp (uids : List Nat) (h : 2048 < uids.length) :
    exec (.depotBringUp uids) .reset = .refused (.illFormed "DEPOT_BRING_UP") := by
  have : wfUids uids = false := by unfold wfUids; exact decide_eq_false (by omega)
  simp [exec, execDepotBringUp, this]
theorem test_ill_tick : exec (.tick 0 0 0 (2 ^ 32)) .reset = .refused (.illFormed "TICK") := by rfl
theorem test_well_formed : wellFormed (.hostMemAccess true 64 0) = true ∧ wellFormed .thermtrip = true := by decide

/-! ### Hypotheses that are met: the slots of a core -/

theorem witness_SequencerOperations :
    (run 5).issues 0 = true ∧ (run 5).tcyc 0 < (6#20).toNat ∧ (5#20).toNat ≤ (run 5).tcyc 0 ∧
    (runC 5 { CoreSt.reset with s := [(1, 6)] }).issues 0 = true ∧
    (runC 5 { CoreSt.reset with s := [(1, 6)] }).tcyc 0 < ((runC 5 { CoreSt.reset with s := [(1, 6)] }).sReg 0 1).toNat ∧
    ((run 5).sReg 0 1).toNat ≤ (run 5).tcyc 0 ∧ ((run 5).coreAt 0).rptOn = false := by decide +kernel

/-- A loop inside another one whose last bundle both share, and one that no other holds. -/
theorem witness_SequencerOperations_loops :
    let s := runC 5 { CoreSt.reset with loops := [{ first := 0, len := 4, left := 2 }] }
    s.issues 0 = true ∧ (1#2).toNat = (s.coreAt 0).loops.length ∧
    (∀ l ∈ (s.coreAt 0).loops, ((s.coreAt 0).pc + BitVec.ofNat 13 ((2#8).toNat + 1) - l.first).toNat < l.len) ∧
    (0#2).toNat = ((run 5).coreAt 0).loops.length := by
  refine ⟨by decide +kernel, by decide +kernel, ?_, by decide +kernel⟩
  intro l hl
  have h : l = { first := 0, len := 4, left := 2 } := List.mem_singleton.mp hl
  subst h
  decide +kernel

theorem witness_SequencerRuns :
    (let c : CoreSt := { CoreSt.reset with rpt := 65535 }
     c.endNew = false ∧ c.rpt = 65535 ∧ c.jump = none ∧ c.loopNew = none ∧ c.loops = []) ∧
    (let c : CoreSt := { CoreSt.reset with loops := [{ first := 0, len := 256, left := 1024 }] }
     c.endNew = false ∧ c.rpt = 0 ∧ c.jump = none ∧ c.loopNew = none ∧ c.loops = [{ first := c.pc, len := 256, left := 1024 }]) ∧
    ({ CoreSt.reset with endNew := true } : CoreSt).endNew = true ∧
    ({ CoreSt.reset with jump := some 9 } : CoreSt).jump = some 9 ∧
    ({ CoreSt.reset with waitNew := some 9 } : CoreSt).waitNew = some 9 := by decide +kernel

theorem witness_ControlSlotWrites :
    (run 0).issues 0 = true ∧ (7#4).toNat < 8 ∧ (23#5).toNat < 24 ∧ 24 ≤ (24#5).toNat ∧ (14#4).toNat % 2 = 0 ∧
    (run 0).portFree 0 ∧ (run 0).recRegions 2 (((run 0).coreBerth 0).getD 0xFF) = [] := by
  refine ⟨by decide +kernel, by decide +kernel, by decide +kernel, by decide +kernel, by decide +kernel, ?_, by decide +kernel⟩
  unfold State.portFree; decide +kernel

/-- A berth that owns core 0 and traces, with a log region that takes user marks. -/
def traced : State :=
  let s := run 0
  { s with
    brt := { s.brt with live := [(0, 5), (24, 1)] }
    obs := { s.obs with regions := [(0, { TrcRegion.reset with size := 262144, enable := 1 })] } }

theorem witness_ControlSlotWrites_mark :
    traced.issues 0 = true ∧ traced.recRegions 2 ((traced.coreBerth 0).getD 0xFF) ≠ [] ∧ (traced.rtrAt 0).trace = none := by decide +kernel

theorem witness_IllegalBundleIsNop :
    (run 0).issues 0 = true ∧ 8 ≤ (8#4).toNat ∧ 24 ≤ (31#5).toNat ∧ (15#4).toNat % 2 = 1 ∧ ({ op0 with md := 0xC00 } : VOp).fmt = 3 := by
  decide +kernel

theorem vecFree_run (t : Nat) (o : Bool) (h : t = 0 ∨ t = 3) : (runC t .reset o).vecFree 0 := by
  rcases h with rfl | rfl <;> cases o <;> (unfold State.vecFree; decide +kernel)
theorem memFree_run (t : Nat) (o : Bool) (h : t = 0 ∨ t = 3) : (runC t .reset o).memFree 0 := by
  rcases h with rfl | rfl <;> cases o <;> (unfold State.memFree; decide +kernel)

theorem witness_VectorIntegerLanes : (run 0).vecFree 0 ∧ modOk op0 .none = true ∧ modOk { op0 with md := 0x1FF } .none = true :=
  ⟨vecFree_run 0 false (.inl rfl), by decide +kernel, by decide +kernel⟩

/-- Each format, and stochastic rounding in BF16. -/
theorem witness_VectorArithmeticLanes :
    (run 0).vecFree 0 ∧ ∀ o ∈ [op0, { op0 with md := 0x200 }, { op0 with md := 0x500 }, { op0 with md := 0x800 }],
      modOk o (if o.fmt = 1 then .sr else if o.fmt = 0 then .noSr else .none) = true :=
  ⟨vecFree_run 0 false (.inl rfl), by decide +kernel⟩

theorem witness_VectorCompareLanes : (run 0).vecFree 0 ∧ modOk { op0 with md := 24 } .none = true ∧
    ({ op0 with md := 24 } : VOp).imm / 4 % 8 ≠ 7 := ⟨vecFree_run 0 false (.inl rfl), by decide +kernel, by decide +kernel⟩

theorem witness_TranscendentalLanes :
    (run 0).vecFree 0 ∧ ∀ o ∈ [op0, { op0 with md := 0x500 }], modOk o (if o.fmt = 1 then .sr else .none) = true ∧ o.fmt ≠ 2 :=
  ⟨vecFree_run 0 false (.inl rfl), by decide +kernel⟩

theorem witness_RowReductions : (run 0).vecFree 0 ∧ modOk { op0 with md := 0x91F } .none = true :=
  ⟨vecFree_run 0 false (.inl rfl), by decide +kernel⟩

theorem witness_DoubleOperations :
    let o : VOp := { op0 with vd := 30, va := 0, vb := 2, vc := 4 }
    let o1 : VOp := { op0 with vd := 31, md := 1 }
    (run 0).vecFree 0 ∧ modOk o .none = true ∧ evenReg o.vd = true ∧ evenReg o.va = true ∧ evenReg o.vb = true ∧ evenReg o.vc = true ∧
    o.imm % 2 = 0 ∧ modOk o1 .none = true ∧ o1.imm % 2 = 1 ∧ evenReg o1.va = true :=
  ⟨vecFree_run 0 false (.inl rfl), by decide +kernel, by decide +kernel, by decide +kernel, by decide +kernel, by decide +kernel, by decide +kernel, by decide +kernel, by decide +kernel, by decide +kernel⟩

theorem witness_ConversionLanes :
    (run 0).vecFree 0 ∧ modOk op0 .none = true ∧ (elemOf (op0.imm % 16)).isSome = true ∧ modOk { op0 with md := 0x130 } .sr = true ∧
    (elemOf (({ op0 with md := 0x130 } : VOp).imm % 16)).isSome = true ∧ modOk { op0 with md := 0x200 } .noSr = true ∧
    ({ op0 with md := 1 } : VOp).imm % 2 = 1 ∧ modOk { op0 with md := 1 } .none = true :=
  ⟨vecFree_run 0 false (.inl rfl), by decide +kernel, by decide +kernel, by decide +kernel, by decide +kernel, by decide +kernel, by decide +kernel, by decide +kernel⟩

/-- A group 0 whose constants have arrived, in the update phase of a commit frame at the gate point. -/
def updating (gate : Bool) (frozen : Word) : State :=
  let s := runC 1124 { CoreSt.reset with s := [(1, frozen)], a := [(0, 0), (1, 0), (2, 0), (3, 0)] } true (some gate)
  { s with upd := { s.upd with arrived := true, groups := [(0, {
      warm := 0, decay := 0, flags := 0, preIter := 0, w := 0, p := 0, mult := 0, preK := 0, lrInit := 0, lrPeak := 0
      lrMin := 0, gamma := 0, beta1 := 0, beta2 := 0, eps := 0, wd := 0, preEps := 0, preTol := 0 })] } }

def upd0 : VOp := { op0 with vd := 1 }

theorem witness_UpdateIssues (gate : Bool) (frozen : Word) (h : frozen = 0 ∨ frozen = 1) :
    (updating gate frozen).vecFree 0 ∧ (updating gate frozen).memFree 0 ∧ updateOk upd0 = true ∧
    ((updating gate frozen).coreAt 0).mAt ≠ some ((updating gate frozen).tcyc 0) ∧ (updating gate frozen).hdr = some (hdr0 true) ∧
    (hdr0 true).last = true ∧ (hdr0 true).c + (hdr0 true).g ≤ (updating gate frozen).tcyc 0 ∧
    (updating gate frozen).upd.arrived = true ∧ ((updating gate frozen).cluAt (posClu 0)).gate = some gate ∧
    (tfind (updating gate frozen).upd.groups upd0.imm).isSome = true ∧ (updating gate frozen).updateWakes 0 upd0 = false ∧
    (((updating gate frozen).sReg 0 upd0.vd.toNat).getLsbD upd0.vb.toNat) = (frozen == 1) := by
  unfold State.vecFree State.memFree
  rcases h with rfl | rfl <;> cases gate <;> decide +kernel

/-- All 32,768 rows and 262,144 granules of position 0 are on: the last row is read with the first. -/
theorem rowsOn_run (t row n : Nat) : (run t).rowsOn 0 row n := by
  intro k _
  refine ⟨?_, rfl⟩
  show ((0 : Word) >>> (2 * _)).toNat % 4 = 0
  simp
theorem granOn_run (t g : Nat) : (run t).granOn 0 g := by
  refine ⟨?_, ?_, rfl⟩
  · have h0 : (run 0).deckWindows 0 = 16 := by decide +kernel
    have h1 : (run t).deckWindows 0 = 16 := h0
    simp only [State.deckPresent, Fin.val_zero, h1, decide_eq_true_eq]
    omega
  · show ((0 : Word) >>> (2 * _)).toNat % 4 = 0
    simp

theorem witness_LoadLanes (w : BitVec 2) : (run 0).memFree 0 ∧ (run 0).rowsOn 0 32767 (widthRows w.toNat) :=
  ⟨memFree_run 0 false (.inl rfl), rowsOn_run _ _ _⟩

theorem portFree_run : (run 0).portFree 0 := by unfold State.portFree; decide +kernel

theorem witness_StoresAndCopies : (run 0).memFree 0 ∧ (run 0).portFree 0 ∧ (run 0).granOn 0 262143 ∧ (run 0).rowsOn 0 32765 4 :=
  ⟨memFree_run 0 false (.inl rfl), portFree_run, granOn_run _ _, rowsOn_run _ _ _⟩

def buf (kind size : Nat) : BufDesc :=
  { num := 5, kind := kind, far := 0, trigger := 0, uses := 2, base := 16, size := size, rate := 0, tix := 0, prog := [] }
/-- A core with one landing buffer, its granule 0 in a state. -/
def landing (kind : Nat) (g : GranSt) : State :=
  let s := run 0
  { s with ctx := [(5, { CtxSt.reset with desc := some (buf kind 1), status := .done, grans := [(0, g)] })] }

theorem witness_LandingBufferAccess :
    let x (s : State) := s.ctxAt (ctxKey 0 0 5)
    (∀ kind ∈ [1, 2, 3], ∀ g ∈ [GranSt.free, .published 1, .produced 0],
      (x (landing kind g)).desc = some (buf kind 1) ∧ (x (landing kind g)).status ≠ .unused ∧ (x (landing kind g)).status ≠ .aborted ∧
      tget (x (landing kind g)).grans 0 .free = g) ∧ (landing 1 .free).memFree 0 ∧ (landing 1 .free).portFree 0 ∧
    (landing 1 .free).granOn 0 16 ∧ (landing 1 .free).rowsOn 0 0 4 := by
  refine ⟨by decide +kernel, ?_, ?_, granOn_run 0 16, rowsOn_run 0 0 4⟩
  · unfold State.memFree; decide +kernel
  · unfold State.portFree; decide +kernel

theorem witness_TransposedReads :
    (run 0).granWake 0 0 = false ∧
    (∀ m ∈ [8, 9, 0, 2], (runC 0 { CoreSt.reset with arr0 := { ArraySt.reset with cfg := some (BitVec.ofNat 32 m) } }).cfgReg 0 0
      = BitVec.ofNat 32 m) ∧ (16#32).toNat % 16 = 0 ∧ 16 % 16384 ≠ 16368 := by decide +kernel

def stack0 : StackDesc :=
  { base := 0, size := 128, spillBase := 0, spillSize := 64, high := 100, low := 20, ahead := 10, pushRate := 0, popRate := 0 }
def stacked (depth rb : Nat) : State :=
  let s := run 0
  { s with stk := [(0, { StackSt.reset with desc := some stack0, depth := depth, rb := rb, rbSeen := rb })] }

/-- The last granule with room, a resident top, a full and an empty stack. -/
theorem witness_StackPushPop :
    (∀ dr ∈ [(191, 64), (1, 0), (192, 64), (0, 0)], ((stacked dr.1 dr.2).stkAt 0).desc = some stack0 ∧ (stacked dr.1 dr.2).memFree 0 ∧
      (stacked dr.1 dr.2).portFree 0 ∧ (stacked dr.1 dr.2).rowsOn 0 0 4 ∧ (stacked dr.1 dr.2).granOn 0 0) ∧
    191 < stack0.size + stack0.spillSize ∧ 191 - ((stacked 191 64).stkAt 0).rbSeen < stack0.size ∧ ((stacked 191 64).stkAt 0).rbSeen < 191 ∧
    192 = stack0.size + stack0.spillSize := by
  refine ⟨?_, by decide +kernel, by decide +kernel, by decide +kernel, by decide +kernel⟩
  intro dr h
  refine ⟨rfl, ?_, ?_, rowsOn_run 0 0 4, granOn_run 0 0⟩
  · unfold State.memFree; revert dr; decide +kernel
  · unfold State.portFree; revert dr; decide +kernel

theorem witness_ArraySlotOperations :
    (run 0).issues 0 = true ∧ modeInfo (((runC 0 { CoreSt.reset with arr0 := { ArraySt.reset with cfg := some 15 } }).cfgReg 0 0).toNat % 16) = none ∧
    (modeInfo (((runC 0 { CoreSt.reset with arr0 := { ArraySt.reset with cfg := some 8 } }).cfgReg 0 0).toNat % 16)).isSome = true ∧
    (runC 0 { CoreSt.reset with arr0 := { ArraySt.reset with cfg := some 8 }, a := [(3, 32767)] }).feedWakes 0 0 3 = false ∧
    badCfg (BitVec.ofNat 32 (128 * 8192)) 0 = false ∧
    ((runC 0 { CoreSt.reset with arr1 := { ArraySt.reset with shadow := .full .zero } }).coreAt 0 |>.arr 1).shadow = .full .zero ∧
    (((run 0).coreAt 0).arr 0).isLatching = false := by decide +kernel

/-- A stop that holds a whole latched tile ready for its array. -/
def ready0 : State :=
  (run 3).setStop 0 { StopSt.reset with slot0 := { TileSlot.free with used := true, latchIt := true, fillT := 3 } }

theorem witness_ArraySlotOperations_latch :
    ((ready0.stopAt (2 * 0 + 0)).slot0.ready (ready0.tcyc 0) = true) ∧ ready0.issues 0 = true ∧
    ((ready0.coreAt 0).arr 0).isLatching = false := by decide +kernel

theorem witness_NetworkSlot :
    let s := (run 3).setRtr 0 { RouterSt.reset with ej := [(3, { pay := 7, side := 1 })] }
    s.issues 0 = true ∧ s.ejHead 0 = some { pay := 7, side := 1 } ∧ s.sReg 0 1 = 0 ∧
    (runC 0 { CoreSt.reset with s := [(1, 1)] }).sReg 0 1 ≠ 0 := by decide +kernel

theorem witness_IssueLeavesRegistersAndMemory :
    isCoreCommand (.setl 0 1 7) = true ∧ ∃ t, exec (.setl 0 1 7) (run 0) = .next t := ⟨rfl, _, rfl⟩

theorem witness_LandingAndAdvance :
    (let x : Pend := { dst := .s 15, due := 0, issue := 0, rank := 0, val := 7, mask := fullMask }; x.dst = .s 15) ∧
    (let x : Pend := { dst := .v 31, due := 0, issue := 0, rank := 0, val := 7, mask := 1 }; x.dst = .v 31) ∧
    ((runC 0 { CoreSt.reset with arr1 := { ArraySt.reset with shadow := .full .zero } }).coreAt 0 |>.arr 1).shadow = .full .zero ∧
    (15 : Nat) < 16 := by decide +kernel

theorem witness_TimetabledAccess :
    (run 0).nstState 0 32767 = 0 ∧ (run 0).underScrub 0 (nstAddr 0 32767) = false ∧ (run 0).granOn 0 262143 ∧
    State.reset.nstState 0 0 ≠ 0 ∧ State.reset.underScrub 0 (nstAddr 0 0) = false := by
  refine ⟨by decide +kernel, by decide +kernel, granOn_run _ _, by decide +kernel, by decide +kernel⟩

/-! ### Hypotheses that are met: the rings, the mesh and the waybills -/

/-- A train-table entry of operation `op` for tcyc 3, 8 flits, and one with a reserved bit set. -/
def trainE (op : BitVec 128) : BitVec 128 := 3 + 7 <<< 20 + op <<< 28
def trainBad (op : BitVec 128) : BitVec 128 := trainE op + 1 <<< 82
/-- A flit of mode 0 that reaches stop 0 on lane 0 in tcyc 3. -/
def ferried : State := { run 3 with ferryFly := [{ dst := 0, port := 0, due := 3, flit := ferryFlit false false 0 0 0 0 0 7 }] }
def slotG (i : Nat) : SlotFlit := { idx := i, avail := 0, pay := 7, poison := false }
/-- Position 0 with flits 0 and 1 of a tile, not sent yet or under way, and with an empty-tile marker. -/
def holding (t : Nat) (f : TileSlot → TileSlot) : State :=
  (run t).setStop 0 { StopSt.reset with slot0 := f { TileSlot.free with used := true, len := 8, flits := [slotG 0, slotG 1] } }

theorem witness_FerryLanes : ∀ n ∈ [1, 2, 3], let op := BitVec.ofNat 128 n
    ferried.stopRuns 0 0 (trainE op) 0 = true ∧ badTrain (trainE op) = false ∧ enOp (trainE op) = op.toNat ∧
    ferried.stopRuns 0 0 (trainBad op) 0 = true ∧ badTrain (trainBad op) = true ∧ enOp (trainBad op) = op.toNat ∧
    (ferried.checkArrival 0 0 (trainE op) 0).2.isSome = true ∧ ((run 3).checkArrival 0 0 (trainE op) 0).2.isNone = true := by
  decide +kernel

theorem witness_FerryLanes_send :
    let e := trainE 4
    let sends (s : State) (i : Nat) : Prop := s.stopRuns 0 0 e i = true ∧
      s.ferryFly.find? (fun l => l.dst == 0 && l.port == enLane e && l.due == s.tcyc 0) = none ∧
      ((s.stopAt 0).slotAt (enBuf e)).used = true
    badTrain e = false ∧ enOp e = 4 ∧ badTrain (trainBad 4) = true ∧ enOp (trainBad 4) = 4 ∧ (run 3).stopRuns 0 0 (trainBad 4) 0 = true ∧
    (let s := holding 3 id
     let x := (s.stopAt 0).slotAt (enBuf e)
     sends s 0 ∧ x.sent = false ∧ x.sending = none ∧ x.emptyTile 3 = false ∧
     s.upsetIn .stopBuf 0 (flitWord (enBuf e) 0) 8 = (false, false) ∧ x.flitAt 0 3 = some (slotG 0)) ∧
    (let s := holding 3 (fun x => { x with marker := true })
     sends s 0 ∧ ((s.stopAt 0).slotAt (enBuf e)).emptyTile 3 = true) ∧
    (let s := holding 4 (fun x => { x with sending := some (3, e) })
     let x := (s.stopAt 0).slotAt (enBuf e)
     sends s 1 ∧ x.sending = some (s.tcyc 0 - 1, e) ∧ (s.stopAt 0).mkUntil (enLane e) < s.tcyc 0 ∧
     s.upsetIn .stopBuf 0 (flitWord (enBuf e) 1) 8 = (false, false) ∧ x.flitAt 1 4 = some (slotG 1)) := by
  decide +kernel

theorem witness_FerryDeckOperations :
    (run 0).portFree 0 ∧ ∀ m ∈ [0, 2, 4, 8],
      let e : BitVec 128 := 135 <<< 20 + 5 <<< 28 + BitVec.ofNat 128 m <<< 52
      let turned := e + 1 <<< 35
      (run 0).stopRuns 0 0 e 0 = true ∧ badTrain e = false ∧ enOp e = 5 ∧ e.getLsbD 35 = false ∧
      ((run 0).stopAt 0 |>.slotAt (enBuf e)).used = false ∧ (run 0).stopRuns 0 0 turned 0 = true ∧
      badTrain turned = false ∧ enOp turned = 5 ∧ turned.getLsbD 35 = true ∧ enGran turned % 16 = 0 ∧
      enGran turned % 16384 ≠ 16368 ∧ enMode turned = m ∧
      ∀ n ∈ [6, 7], let e : BitVec 128 := 127 <<< 20 + BitVec.ofNat 128 n <<< 28
        badTrain e = false ∧ enOp e = n ∧ (run 0).stopRuns 0 0 e 0 = true :=
  ⟨portFree_run, by decide +kernel⟩

/-- A slot-table entry of operation `op` for tcyc 0, one tcyc long, from input `inp` to E. -/
def slotE (op inp : BitVec 128) : BitVec 128 := op <<< 28 + inp <<< 32 + 2 <<< 36
def meshed : State :=
  (run 0).setRtr 0 { RouterSt.reset with qN := [{ pay := 1, side := 1 }], qE := [{ pay := 2, side := 1 }] }
/-- Position 0 fenced. -/
def fenced0 : State := { run 0 with shape := { (run 0).shape with fenced := 1 } }

/-- A FWD with its primary route, one with a standby, and a bad entry. -/
theorem witness_RouterOperations :
    let sb := slotE 1 0 + 1 <<< 35 + 1 <<< 73
    meshed.rtrRuns 0 (slotE 1 0) 0 = true ∧ badSlot (slotE 1 0) = false ∧ enOp (slotE 1 0) = 1 ∧ seStandby (slotE 1 0) = false ∧
    (meshed.popIn 0 (slotE 1 0) (seMain (slotE 1 0)) true none).2 = { pay := 1, side := 1 } ∧
    meshed.rtrRuns 0 sb 0 = true ∧ badSlot sb = false ∧ seStandby sb = true := by decide +kernel

/-- The two entries of a merge pair, from N and from E. -/
theorem witness_RouterOperations_merge : ∀ fmt ∈ [0, 1],
    let e := slotE (BitVec.ofNat 128 (2 + fmt)) 0
    let e2 := slotE (BitVec.ofNat 128 (2 + fmt)) 1
    let u := (meshed.popIn 0 e (seMain e) true (some (fmt + 1))).1
    let w := (u.popIn 0 e2 (seMain e2) true (some (fmt + 1))).1
    meshed.rtrRuns 0 e ((meshed.rtrAt 0).entryStep e (meshed.tcyc 0)) = true ∧
    meshed.rtrRuns 0 e2 ((meshed.rtrAt 0).entryStep e2 (meshed.tcyc 0)) = true ∧ badSlot e = false ∧ badSlot e2 = false ∧
    fld e 34 32 < fld e2 34 32 ∧ seOut e = seOut e2 ∧ enOp e = 2 + fmt ∧ enOp e2 = 2 + fmt ∧ w.upset .adder 0 0 = .good := by decide +kernel

/-- POOLRD and LOAD at a fenced position and at a live one, and a closed gate. -/
theorem witness_RouterOperations_reads :
    (∀ n ∈ [4, 5], let op := BitVec.ofNat 128 n
      (run 0).rtrRuns 0 (slotE op 0) 0 = true ∧ fenced0.rtrRuns 0 (slotE op 0) 0 = true ∧ badSlot (slotE op 0) = false ∧
      enOp (slotE op 0) = n) ∧ (run 0).isFenced 0 = false ∧ fenced0.isFenced 0 = true ∧ (run 0).portFree 0 ∧
    (fenced0.rtrAt 0).poolBusy ≤ fenced0.tcyc 0 ∧ (fenced0.coreAt 0).pend = [] ∧
    (((run 0).setRtr 0 { RouterSt.reset with gateShut := true }).rtrAt 0).gateShut = true := by
  refine ⟨by decide +kernel, by decide +kernel, by decide +kernel, portFree_run, by decide +kernel, by decide +kernel, by decide +kernel⟩

def ctx0 : CtxId := { blk := 0, unit := 0, num := 5 }
/-- A running context 5 of core 0 whose instruction 0 of 2, the word `w`, is next. -/
def waybillAt (w : DWord) (f : CtxSt → CtxSt) : State :=
  { run 0 with ctx := [(ctxKey 0 0 5, f { CtxSt.reset with desc := some { buf 1 1 with prog := [w, 0] }, status := .running })] }
def waybill : (CtxSt → CtxSt) → State := waybillAt 0

/-- The 64-bit words of R253, with the opcode in [63:59], and the instructions they stand for. -/
def words253 : List (DWord × Instr) :=
  [(0x0000000000000000, .waybillEnd ctx0), (0x0812345678000040, .setb ctx0 0 0x12345678000040), (0x0900000000000004, .setb ctx0 1 4),
   (0x0A00000000000003, .setb ctx0 2 3), (0x120000F000002FFF, .waybillLoop ctx0 2 15 2 0xFFF), (0x1A00000000000000, .endl ctx0 2),
   (0x27F0000010005000, .xfer ctx0 127 1 5), (0x2800002000000000 + 0x8000, .gather ctx0 0 2 0 2),
   (0x3000002000000000 + 0x8000, .scatter ctx0 0 2 0 2), (0x3840000000070000, .pred ctx0 0 2 7), (0x3940000000070000, .pred ctx0 1 2 7),
   (0x3A40000000070000, .pred ctx0 2 2 7), (0x3B40000000070000, .pred ctx0 3 2 7), (0x4000000000000000, .waybillMark ctx0),
   (0x4800000000000000, .fence ctx0)]

theorem test_waybill_words : ∀ e ∈ words253,
    ((waybillAt e.1 id).ctxAt (idKey ctx0)).word.bind (decodeWaybill ctx0) = some e.2 :=
  @of_decide_eq_true _ (List.decidableBAll _ _) (by decide +kernel)

theorem witness_WaybillInstructions : ∀ e ∈ words253,
    (let s := waybillAt e.1 id
     (s.ctxAt (idKey ctx0)).status = .running ∧ s.streamsRun = true ∧ (s.ctxAt (idKey ctx0)).desc = some { buf 1 1 with prog := [e.1, 0] } ∧
     (s.ctxAt (idKey ctx0)).pc + 1 < 2 ∧ (s.ctxAt (idKey ctx0)).skip = false ∧ (s.ctxAt (idKey ctx0)).open_ = 0 ∧
     s.upsetIn .context (idKey ctx0) 0 1 = (false, false) ∧
     ({ s with upsets := [{ place := .context, unit := idKey ctx0, word := 0, ecc := .uncorrectable }] }.upsetIn .context (idKey ctx0) 0 1).2
       = true) ∧
    ((waybillAt e.1 (fun x => { x with skip := true })).ctxAt (idKey ctx0)).skip = true ∧
    ((waybillAt e.1 (fun x => { x with open_ := 1 })).ctxAt (idKey ctx0)).open_ ≠ 0 ∧
    ((waybillAt e.1 (fun x => { x with index := some 0 })).ctxAt (idKey ctx0)).index = some 0 ∧
    ((waybillAt e.1 (fun x => { x with index := some 0xFFFFFFFF })).ctxAt (idKey ctx0)).index = some 0xFFFFFFFF :=
  @of_decide_eq_true _ (List.decidableBAll _ _) (by decide +kernel)

/-- The first and the last iteration of a loop. -/
theorem witness_WaybillInstructions_loop :
    ∀ n ∈ [0, 1], let l : WbLoop := { level := 2, count := 2, idx := n, fs := 1, ns := 1, body := 1 }
      ((waybill (fun x => { x with loops := [l] })).ctxAt (idKey ctx0)).loops = [l] ∧ l.level = (2#3).toNat ∧
      (if n = 0 then l.idx + 1 < l.count else l.count ≤ l.idx + 1) := by decide +kernel

theorem witness_WaybillPublicationAndLimit :
    0 < (buf 1 1).uses ∧ ((waybill (fun x => { x with toPub := [0] })).ctxAt (idKey ctx0)).toPub = [0] ∧
    (waybill (fun x => { x with toPub := [0] })).openTouch (idKey ctx0) 0 = false ∧
    (let s := { waybill (fun x => { x with waitFrom := some 0 }) with time := 2 ^ 40 }
     (s.ctxAt (idKey ctx0)).waitFrom = some 0 ∧ 0 + s.waitLimit.toNat * s.frm.period < s.time) := by decide +kernel

/-- A stack whose resident part has passed HIGH, one to fill, and one with a chunk whose units have all moved. -/
theorem witness_StackChunks :
    let st (depth rb : Nat) (chunk : Option (Bool × Nat × Nat)) : State :=
      { run 0 with stk := [(0, { StackSt.reset with desc := some stack0, depth := depth, rb := rb, chunk := chunk })] }
    stack0.spillSize ≠ 0 ∧ (run 0).streamsRun = true ∧
    ((st 101 0 none).stkAt 0).chunk = none ∧ stack0.high < 101 - 0 ∧ (st 101 0 none).chunkRoom stack0.spillBase (4 * 0) = true ∧
    9 - 0 < stack0.ahead ∧ (st 73 64 none).chunkRoom stack0.spillBase (4 * (64 - 64)) = true ∧ 73 - 64 < stack0.ahead ∧
    (∀ w ∈ [true, false], ((st 101 64 (some (w, 0, 256))).stkAt 0).chunk = some (w, 0, 256)) := by decide +kernel

/-- A request of a kind at memory port 0: a spill or fill of a position without a stack, an accumulation. -/
def reqOf (kind : ReqKind) (write : Bool) : Req :=
  { id := 4, ctx := ctxKey 1 0 5, kind := kind, isWrite := write, far := 0, addr := 64, da := none, deadline := none
    issued := 0, sent := false, win := 0, sfn := 0 }
def req : Bool → Req := reqOf (.acc 7 false)
def memQueued (kind : ReqKind) (write : Bool) : State :=
  let s := run 0
  { s with mport := [(0, { MportSt.reset with trained := true })], queue := [(0, { reqs := [reqOf kind write], since := 0 })] }

theorem witness_MemoryPortServes :
    (∀ e ∈ [(ReqKind.acc 7 false, true), (.unit 0 true, true), (.unit 0 true, false)], let s := memQueued e.1 e.2
      let q := s.queueAt (queueKey 0 0)
      q.pick (fun r => (s.mportAt 0).trained && !(s.mportAt 0).blockedAt s.time (bankOf r.addr) && q.firstOfRow r) = some (reqOf e.1 e.2)) ∧
    (let s := memQueued (.unit 0 true) true
     (s.sourceRow (reqOf (.unit 0 true) true) true).2.2 = (false, .ok)) ∧
    (let s := memQueued (.unit 0 true) false
     ((s.lpReadAny 64).1.sinkRow (reqOf (.unit 0 true) false) (s.lpReadAny 64).2.1 (s.lpReadAny 64).2.2 true).2 = .ok) ∧
    (let s := { memQueued (.unit 0 true) true with time := 4000000 }
     (s.queueAt (queueKey 0 0)).reqs.find? (fun r => r.id == 4 && decide (r.issued + 4000000 ≤ s.time)) = some (reqOf (.unit 0 true) true)) := by
  refine ⟨@of_decide_eq_true _ (List.decidableBAll _ _) (by decide +kernel), by decide +kernel, by decide +kernel, by decide +kernel⟩

theorem witness_MemoryPortUpkeep :
    State.reset.lp.marks = [] ∧ State.reset.frm.phase = 0 ∧
    (let s := { memQueued (.unit 0 true) true with frm := FrameSt.reset, time := 40000000 }
     s.frm.phase = 0 ∧ (s.mportAt 0).trained = true ∧ (s.mportAt 0).lastUse + 40000000 ≤ s.time) := by decide +kernel

/-- A row of device-biased LPDDR5X without a request, and the last granule of position 0, its half-bank free. -/
theorem witness_RemoteAccumulateAdds :
    (let s := { run 0 with host := { HostSt.reset with devBias := [(0, 1)] } }
     64 % 64 = 0 ∧ 64 < s.lpCap ∧ s.underScrub 2 64 = false ∧ inPages s.host.devBias (64 / 4096) = true ∧
     (s.queueAt (queueKey 0 (portOf 64))).reqs = []) ∧
    67108800 / 67108864 = (0 : Pos).val ∧ (run 0).granOn 0 (67108800 % 67108864 / 256) ∧
    ((run 0).takeBank 0 (deckBankKey 0 (67108800 % 67108864 / 256))).2 = .ok :=
  ⟨by decide +kernel, rfl, granOn_run _ _, by decide +kernel⟩

theorem witness_BanksAndTesters :
    (∀ off ∈ [true, false], let s := { run 0 with nstBank := [(0, { BankSt.resetNst with wakeAt := [(15, (0, off))] })] }
      tfind (s.bankAt 0 false).wakeAt 15 = some (0, off) ∧ 0 ≤ s.time ∧ (s.bankAt 0 false).lost.getLsbD 15 = false) ∧
    (∀ e ∈ [(0, true), (0xFFFFFFFF, false)], let s := { run 0 with nstBank := [(0, { BankSt.resetNst with group := 511, pwr := e.1 })] }
     s.tests 0 false = true ∧ (s.bankAt 0 false).due ≤ s.time ∧ (s.bankAt 0 false).test = none ∧
     (s.bankAt 0 false).groupOn false (s.bankAt 0 false).group = e.2) ∧
    (let s := { run 0 with nstBank := [(0, { BankSt.resetNst with pwr := 0, test := some { group := 0, done := 0, fails := [] } })] }
     s.tests 0 false = true ∧ (s.bankAt 0 false).due ≤ s.time ∧ (s.bankAt 0 false).test.isSome = true) :=
  ⟨by decide +kernel, @of_decide_eq_true _ (List.decidableBAll _ _) (by decide +kernel), by decide +kernel⟩

/-! ### Hypotheses that are met: ticks, frames, the gate, the Courier -/

def frmOf (f : FrameSt → FrameSt) : State := { State.reset with frm := f FrameSt.reset }

theorem witness_TicksAndTheirLoss :
    (frmOf (fun f => { f with timerNext := some 0 })).frm.timerNext = some 0 ∧ (∀ v ∈ [0, 1, 2, 3], (frmOf (fun f => { f with src := v })).frm.src = v) ∧
    (frmOf (fun f => { f with src := 2, accepted := some 0 })).frm.accepted = some 0 ∧
    (let s := { frmOf (fun f => { f with src := 3 }) with pont := { State.reset.pont with tickDue := [(0, 0, 0)] } }
     s.pont.tickDue = [(0, 0, 0)] ∧ 0 ≤ s.sysTime) ∧
    (let s := frmOf (fun f => { f with phase := 2 })
     s.frm.halted = false ∧ s.frm.phase = 2 ∧ s.frm.stopKind = .none ∧ s.frm.stopReq = false ∧ s.inClkOfDone s.time = false) ∧
    (∀ b ∈ [true, false], let s := { frmOf (fun f => { f with phase := 2, src := 2, fallback := b }) with time := 4000000 }
      s.frm.late ≠ 0 ∧ s.frm.lossDone = false ∧ s.frm.silence + s.frm.period * s.frm.late.toNat / 16 ≤ s.time) := by decide +kernel

/-- Cluster 0 at the end mark, all clusters at it, and a stop that has reached cluster 0 or not. -/
def stopping (c : CluSt) : State :=
  let s := run 0
  { s with time := 80000, clu := [(0, c)], frm := { s.frm with stopKind := .immediate, drainFrom := some 0 } }

theorem witness_FrameEndsAndStops :
    (run 4000).hdr = some (hdr0 false) ∧ (run 4000).frm.phase = 1 ∧ (let c := (run 4000).cluAt 0
      c.running = true ∧ c.atEnd = false ∧ c.stopped = false ∧ c.clockLost = none ∧ (hdr0 false).endMark ≤ c.slot) ∧
    (let s := { run 0 with clu := (List.range 48).map (fun k => (k, { CluSt.reset with atEnd := true })) }
     (∀ k < 48, (s.cluAt k).atEnd = true) ∧ s.frm.doneAt = none) ∧
    (∀ b ∈ [true, false], let s := stopping { CluSt.reset with stopped := b }
      s.frm.stopKind = .immediate ∧ s.frm.drainFrom.isSome = true ∧ (s.cluAt 0).clockLost = none ∧ (s.cluAt 0).stopped = b ∧
      s.frm.stopSlots.any (fun e => e.1 == 0) = false ∧ s.frm.drainFrom = some 0 ∧ 0 + 80000 ≤ s.time) ∧
    (let s := { run 0 with clu := [(0, { CluSt.reset with stopped := true })] }
     (s.cluAt 0).stopped = true ∧ s.frm.stopKind = .none ∧ s.queue = []) := by decide +kernel

def gateS (f : FrameSt → FrameSt) : State := let s := runC 200 .reset true; { s with frm := f { s.frm with reports := List.range 48 } }

theorem witness_GateDecides : ∀ b ∈ [true, false], let s := gateS (fun f => { f with stepSpoiled := b })
    s.runs = true ∧ s.isCommitFrame = true ∧ s.frm.decision = none ∧ s.frm.reports.length = 48 := by decide +kernel

theorem witness_GateTraffic :
    (let s := { runC 200 .reset true with clu := [(0, { CluSt.reset with reported := true, gateWait := some 0 })], time := 80000 }
     (s.cluAt 0).reported = true ∧ s.frm.reports.contains 0 = false ∧ (s.cluAt 0).gate = none ∧ (s.cluAt 0).gateWait = some 0 ∧
     0 + 80000 ≤ s.time ∧ s.frm.stopKind = .none) ∧
    (∀ e ∈ [(some true, none), (some true, some (0, false, 0)), (some false, none), ((none : Option Bool), (none : Option (Nat × Bool × BitVec 1)))],
      let d : SpoilDue := { code := 0x2001, clu := none, step := false, latest := 0 }
      let s0 := gateS (fun f => { f with decision := e.1, decided := e.2 })
      let s := { s0 with flt := { s0.flt with dues := [d] } }
      s.flt.dues.find? (fun x => x.code == d.code) = some d ∧ s.frm.phase = 1 ∧ s.frm.decision = e.1 ∧ s.frm.decided = e.2 ∧
      sameRootClk 0 s.time = true ∧ sameRootClk 0 (s.time + 4) = false) := by decide +kernel

/-- A packet on its hop with 2 and with 3 failures, sent 0, 7 and 8 times more. -/
theorem witness_CourierTraffic : ∀ n ∈ [0, 7, 8], ∀ k ∈ [2, 3],
    let o : CourierOut := { src := 0, dst := 52, cls := 1, pay := 5, sentAt := 0, resends := n }
    let hop := (courierPath 0 52).headD 0
    let s := { State.reset with time := 4000, cour := { CourierSt.reset with open_ := [o], hopFail := [(hop, k)], hopHead := [(hop, some (0, 1, 5))] } }
    s.cour.open_ = [o] ∧ o.sentAt + 4000 ≤ s.time ∧ hop < 128 ∧ s.cour.failsOf hop = k ∧ (15 : Word).toNat % 8 = 7 := by decide +kernel

/-! ### Hypotheses that are met: pigeonholes and the Postmaster's commands -/

theorem witness_PigeonholeProtocol :
    (let s := posted (1, 1) []
     s.post.switching = false ∧ (s.pghAt 0).state = 2 ∧ s.maxTime (s.pghAt 0).held = some 400000 ∧ (s.pghAt 0).ringAt + 400000 ≤
       { s with time := 400000 }.time ∧ s.ringOk 0 = false ∧ s.ringOk 1 = true ∧ s.frm.halted = false ∧ s.post.firmware = true ∧
       (s.pghAt 0).held.op ≠ 0x0202 ∧ (s.pghAt 0).held.op ≠ 0x0304) ∧
    (let s := { posted (1, 1) [] with post := { (posted (1, 1) []).post with pgh := [(3, { PghSt.reset with state := 1 })] } }
     s.posted = [3] ∧ s.maxTime (s.pghAt 3).held = none) ∧
    (let x : PghSt := { PghSt.reset with state := 3, old := some [] }
     x.old.isSome = true ∧ x.state = 3) := by decide +kernel

theorem witness_ResponseArea : ((posted (1, 1) []).pghAt 0).state = 2 ∧ (List.replicate 1920 (0 : Byte)).length ≤ 1920 := by decide +kernel

/-- A command of the table is ready in pigeonhole 0 (part 1). -/
theorem witness_ready_1 : ∀ op ∈ [(1, 1), (2, 1), (3, 1), (1, 2), (2, 2), (1, 3), (2, 3), (3, 3), (4, 3)],
    (posted (op.1, op.2) []).ready 0 (op.1.toNat + 256 * op.2.toNat) := by
  unfold State.ready; exact @of_decide_eq_true _ (List.decidableBAll _ _) (by decide +kernel)

/-- A command of the table is ready in pigeonhole 0 (part 2). -/
theorem witness_ready_2 : ∀ op ∈ [(5, 3), (6, 3), (7, 3), (8, 3), (1, 4), (2, 4), (3, 4), (4, 4), (5, 4)],
    (posted (op.1, op.2) []).ready 0 (op.1.toNat + 256 * op.2.toNat) := by
  unfold State.ready; exact @of_decide_eq_true _ (List.decidableBAll _ _) (by decide +kernel)

/-- A command of the table is ready in pigeonhole 0 (part 3). -/
theorem witness_ready_3 : ∀ op ∈ [(1, 5), (2, 5), (3, 5), (4, 5), (5, 5), (6, 5), (7, 5), (8, 5), (9, 5)],
    (posted (op.1, op.2) []).ready 0 (op.1.toNat + 256 * op.2.toNat) := by
  unfold State.ready; exact @of_decide_eq_true _ (List.decidableBAll _ _) (by decide +kernel)

/-- A command of the table is ready in pigeonhole 0 (part 4). -/
theorem witness_ready_4 : ∀ op ∈ [(10, 5), (11, 5), (12, 5), (1, 6), (2, 6), (1, 7), (2, 7), (3, 7), (1, 8)],
    (posted (op.1, op.2) []).ready 0 (op.1.toNat + 256 * op.2.toNat) := by
  unfold State.ready; exact @of_decide_eq_true _ (List.decidableBAll _ _) (by decide +kernel)

/-- A command of the table is ready in pigeonhole 0 (part 5). -/
theorem witness_ready_5 : ∀ op ∈ [(2, 8), (3, 8), (4, 8), (1, 9), (2, 9), (3, 9), (1, 10), (2, 10)],
    (posted (op.1, op.2) []).ready 0 (op.1.toNat + 256 * op.2.toNat) := by
  unfold State.ready; exact @of_decide_eq_true _ (List.decidableBAll _ _) (by decide +kernel)

/-- A clean image of one commit frame for this shape. -/
def clean (s : State) : Image :=
  { img0 true with cores := [], shapeHash := s.shapeHash, frames := [{ hdr0 true with c := 4096, g := 1024, endMark := 8192 }] }

theorem headers_ok : (clean .reset).frames.all (headerOk (clean .reset).period) = true := by
  have h : headerOk 200000 { hdr0 true with c := 4096, g := 1024, endMark := 8192 } = true := by decide +kernel
  show ([{ hdr0 true with c := 4096, g := 1024, endMark := 8192 }].all (headerOk 200000)) = true
  rw [List.all_cons, h]
  rfl
theorem clean_range (s : State) : s.imageRange 0 (clean s) = true := by
  have h : (clean s).frames.all (headerOk (clean s).period) = true := headers_ok
  unfold State.imageRange
  rw [h]
  rfl
theorem clean_status (s : State) : s.imageStatus 0 (clean s) = 0 := by
  unfold State.imageStatus
  rw [if_neg (fun h => h rfl), if_neg (fun h => h rfl), clean_range s]
  rfl

theorem witness_ReportCommands : (posted (2, 7) []).physOf 0 0 = some 0 ∧ ∀ s : State, s.imageStatus 0 (clean s) = 0 :=
  ⟨by decide +kernel, clean_status⟩

theorem witness_ProgramCommands :
    State.reset.frm.prog = none ∧
    (∀ s : State, ∃ g : Prog, some { image := clean s, berth := 0, loaded := true } = some g ∧ g.image.shapeHash = s.shapeHash) ∧
    (∀ ph ∈ [0, 1, 3], (prog (4, 3) ph []).frm.phase = ph ∧ (prog (4, 3) ph []).frm.drainFrom = none ∧
      ((prog (4, 3) ph []).pghAt 0).force = false ∧ ((prog (4, 3) ph []).pghAt 0).pl 0 1 = 0 ∧ ((prog (4, 3) ph []).pghAt 0).pl 1 1 = 0) ∧
    ((posted (7, 3) [(0x4C, 1)]).pghAt 0).pl 12 1 = 1 ∧ (prog (8, 3) 1 []).frm.phase ≠ 0 ∧
    (posted (2, 2) []).post.killing.contains ((posted (2, 2) []).pghAt 0).berth = false ∧
    ([(3, 4, 5)] : List (Nat × Nat × Nat)).find? (fun k => k.1 == 3) = some (3, 4, 5) ∧ (prog (6, 3) 3 []).chunksOpen = false ∧
    { prog (6, 3) 3 [] with stk := [(0, { StackSt.reset with chunk := some (true, 0, 0) })] }.chunksOpen = true := by
  refine ⟨rfl, fun s => ⟨_, rfl, rfl⟩, ?_⟩
  decide +kernel

/-- ALLOC of 64 KiB and of more than there is, FREE of the one range of berth 0 and of none. -/
theorem witness_MemoryCommands :
    (let s := posted (1, 4) [(0x42, 1)]
     s.findFree ((s.pghAt 0).pl 0 8) = some 0 ∧ (List.range 16).find? (fun k => (brtLp s.brt.live (s.pghAt 0).berth k).2.1 == 0) = some 0 ∧
     s.tableErr (setLp s.brt.shadow (s.pghAt 0).berth 0 0 ((s.pghAt 0).pl 0 8) ((s.pghAt 0).pl 8 1 == 1)) = none) ∧
    (let s := posted (1, 4) [(0x47, 1)]
     s.findFree ((s.pghAt 0).pl 0 8) = none) ∧
    (let s0 := posted (2, 4) [(0x4A, 1)]
     let s := { s0 with brt := { s0.brt with live := [(0xCA, 1)], shadow := [(0xCA, 1)] } }
     (List.range 256).find? (fun x => decide (0 < (brtLp s.brt.live (x / 16) (x % 16)).2.1) &&
        (brtLp s.brt.live (x / 16) (x % 16)).1 == (s.pghAt 0).pl 0 8 && (brtLp s.brt.live (x / 16) (x % 16)).2.1 == (s.pghAt 0).pl 8 8) = some 0 ∧
     s.tableErr (setLp s.brt.shadow (0 / 16) (0 % 16) 0 0 false) = none) ∧
    (let s := posted (2, 4) [(0x4A, 1)]
     (List.range 256).find? (fun x => decide (0 < (brtLp s.brt.live (x / 16) (x % 16)).2.1) &&
        (brtLp s.brt.live (x / 16) (x % 16)).1 == (s.pghAt 0).pl 0 8 && (brtLp s.brt.live (x / 16) (x % 16)).2.1 == (s.pghAt 0).pl 8 8) = none) := by
  decide +kernel

/-- A part whose position 0 has lost a deck window. -/
def lossy (s : State) : State := { s with shape := { s.shape with loss := 1 } }

/-- SCRUB of each space, COPY within LPDDR5X and into a lost window, BIAS_FLIP both ways, MARCH of position 0, BGT, INJECT. -/
theorem witness_MemoryCommands_ranges :
    (∀ sp ∈ [0, 1, 2], let s := posted (3, 4) [(0x40, BitVec.ofNat 8 sp), (0x50, 64)]
      (s.pghAt 0).pl 0 1 = sp ∧ (s.pghAt 0).pl 8 8 = 0 ∧ (s.pghAt 0).pl 16 8 = 64 ∧ s.absent [(1, 0, 64)] = false) ∧
    (let s := lossy (posted (3, 4) [(0x40, 1), (0x4B, 4), (0x50, 64)])
     (s.pghAt 0).pl 0 1 = 1 ∧ (s.pghAt 0).pl 16 8 = 64 ∧ s.absent [(1, 62914560, 64)] = true) ∧
    (let s := posted (4, 4) [(0x50, 128), (0x58, 64)]
     let p := s.pghAt 0
     s.absent [(p.pl 0 1, p.pl 8 8, p.pl 24 8), (p.pl 1 1, p.pl 16 8, p.pl 24 8)] = false ∧ p.pl 0 1 = 0 ∧ p.pl 1 1 = 0 ∧ p.pl 8 8 % 64 = 0 ∧
     p.pl 16 8 % 64 = 0 ∧ p.pl 24 8 = 64 ∧ p.pl 8 8 + p.pl 24 8 ≤ p.pl 16 8 ∧ p.pl 16 8 + p.pl 24 8 ≤ s.lpCap ∧ s.post.scrubs = []) ∧
    (lossy (posted (4, 4) [])).absent [(0, 0, 64), (1, 62914560, 64)] = true ∧
    ((posted (5, 4) []).pghAt 0).pl 12 1 = 0 ∧
    (let s := posted (5, 4) [(0x48, 1), (0x4C, 1)]
     (s.pghAt 0).pl 12 1 ≠ 0 ∧ 0 < (s.pghAt 0).pl 8 4 ∧ s.flipOpen 0 = false) ∧
    (∀ m, State.reset.room (queueKey 3 m) 64 = true) ∧
    (let p := (posted (1, 9) [(0x40, 1), (0x48, 1)]).pghAt 0
     p.pl 0 1 = 1 ∧ 0 ∈ maskAt p 8) ∧
    (let s := { run 0 with post := (posted (1, 9) [(0x41, 3), (0x48, 1)]).post }
     (s.pghAt 0).pl 0 1 ≠ 1 ∧ 0 ∈ maskAt (s.pghAt 0) 8 ∧ ((s.pghAt 0).pl 1 1).testBit 1 = true ∧ ((s.pghAt 0).pl 1 1).testBit 0 = true ∧
     s.isLive 0 = true) ∧
    (∀ sp ∈ [0, 1, 2, 3], ∀ k ∈ [1, 2], let s := posted (3, 9) [(0x40, BitVec.ofNat 8 sp), (0x41, BitVec.ofNat 8 k)]
      (s.pghAt 0).pl 0 1 = sp ∧ (s.pghAt 0).pl 1 1 = k ∧ s.nst.marks = [] ∧ s.deck.marks = [] ∧ s.lp.marks = []) := by
  refine ⟨?_, by decide +kernel, by decide +kernel, by decide +kernel, by decide +kernel, by decide +kernel, fun m => rfl, by decide +kernel,
    by decide +kernel, by decide +kernel⟩
  exact @of_decide_eq_true _ (List.decidableBAll _ _) (by decide +kernel)

def nsOf (kind : Nat) (vs : List DepotVersion) : DepotNs :=
  { kind := kind, size := 16, ring := false, keep := 2, append := 0, owner := none, locked := false, versions := vs, nextVer := 1 }
def ver0 (h : BitVec 256) : DepotVersion :=
  { num := 1, step := 0, stepNum := 0, ranges := [(0, 0, 64)], offset := 0, shards := [], digest := 0, shape := h, sealed := 0 }
def depots (op : Byte × Byte) (d : DepotSt → DepotSt) (bytes : List (Nat × Byte) := []) : State :=
  { posted op bytes with depot := d DepotSt.reset }

theorem witness_DepotCommands :
    (let s := depots (6, 5) id [(0x58, 64)]
     (s.pghAt 0).pl 1 1 = 0 ∧ (s.pghAt 0).pl 24 8 = 64 ∧ (s.pghAt 0).pl 16 8 % 64 = 0 ∧ (s.pghAt 0).pl 16 8 + 64 ≤ s.lpCap ∧
     s.post.scrubs = []) ∧
    (∀ st ∈ [1, 2], let s := depots (7, 5) (fun d => { d with ns := [(0, nsOf 1 [])], state := BitVec.ofNat 2 st }) []
     tfind s.depot.ns 0 = some (nsOf 1 []) ∧ s.depot.state = BitVec.ofNat 2 st ∧ s.absent (spacesOf (s.pghAt 0)) = false ∧
     ((s.spacesOn (spacesOf (s.pghAt 0))).saveRanges 0 (versionBase 1) (spacesOf (s.pghAt 0))).2 = false) ∧
    0 < (nsOf 1 []).keep ∧
    (∀ h, let s := depots (9, 5) (fun d => { d with ns := [(0, nsOf 2 [ver0 h])] }) []
      s.versionOf (s.pghAt 0) = some (ver0 h) ∧ (ver0 h).shape = h) ∧ (posted (9, 5) []).absent [(0, 0, 64)] = false ∧
    (posted (9, 5) []).versionOf ((posted (9, 5) []).pghAt 0) = none := by
  refine ⟨by decide +kernel, by decide +kernel, by decide +kernel, fun h => ⟨rfl, rfl⟩, by decide +kernel, by decide +kernel⟩

/-- A version of deck bytes. -/
theorem witness_DepotCommands_shape : ({ ver0 0 with ranges := [(1, 0, 64)] } : DepotVersion).ranges.any (fun r => r.1 == 1) = true := by rfl

/-- CONFIGURE of a line of devices whose port 0 is enabled, with a link that comes up, one that is up and one that goes down; the
masks and phases of SET_FRAME. -/
theorem witness_SetupCommands :
    (List.replicate 16 0).length = 16 ∧
    (let s := posted (1, 6) [(0x44, 1), (0x52, 1), (0x54, 1)]
     let p := s.pghAt 0
     let d := (s.configurePont p).pont
     ((p.pl 0x12 2).testBit 0 && d.uses 0) = true ∧ (p.pl 0x14 2).testBit 0 = true ∧ (s.pport 0).state ≠ 2 ∧ (s.pport 0).state ≠ 3 ∧
     (BitVec.ofNat 18 (d.cabled 0)).toNat = d.cabled 0 ∧ ((p.pl 0x12 2).testBit 5 && d.uses 5) = false) ∧
    (posted (3, 7) []).frm.phase = 0 ∧ ((posted (3, 7) [(8, 15)]).pghAt 0).berth < 16 ∧ (prog (3, 7) 1 []).frm.phase ≠ 0 ∧
    (∀ m ∈ [0, 1, 2, 4], ∀ v ∈ [0, 200000], let s := posted (1, 8) [(0x4C, BitVec.ofNat 8 m), (0x44, BitVec.ofNat 8 v),
        (0x45, BitVec.ofNat 8 (v / 256)), (0x46, BitVec.ofNat 8 (v / 65536))]
      (s.pghAt 0).pl 12 1 = m ∧ (s.pghAt 0).pl 4 4 = v ∧ s.frm.phase = 0) ∧
    (prog (2, 8) 1 []).between = false ∧ (posted (2, 8) []).frm.phase = 0 := by decide +kernel

/-! ### Hypotheses that are met: the Depot and Pontoon -/

def chanReq (write : Bool) : Req := { reqOf (if write then .spill 0 0 else .fill 0 0) write with addr := 0, far := 1 }
def chanQueued (write : Bool) (st : BitVec 2 := 1) : State :=
  let s := State.reset
  { s with depot := { s.depot with state := st, chans := [(0, { DepotChan.reset with trained := true })] }
           queue := [(queueKey 1 0, { reqs := [chanReq write], since := 0 })] }

/-- A spill request of a position with a stack, in a clk with a timetabled access of its half-bank. -/
def chanBusy : State :=
  let s := run 0
  { s with
    depot := { s.depot with state := 1, chans := [(0, { DepotChan.reset with trained := true })] }
    queue := [(queueKey 1 0, { reqs := [chanReq true], since := 0 })]
    stk := [(0, { StackSt.reset with desc := some stack0 })]
    bankUse := { s.bankUse with taken := [deckBankKey 0 0] } }

theorem witness_DepotRequests :
    (∀ st ∈ [1, 2], let s := chanQueued true (BitVec.ofNat 2 st)
     (s.chanPick 0).filter (fun r => r.isWrite) = some (chanReq true) ∧ s.depot.state = BitVec.ofNat 2 st ∧
     (s.sourceRow (chanReq true) true).2.2.2 = .ok) ∧
    ((chanBusy.chanPick 0).filter (fun r => r.isWrite) = some (chanReq true) ∧ (chanBusy.sourceRow (chanReq true) true).2.2.2 = .wait) ∧
    (let s := chanQueued false
     (s.chanPick 0).filter (fun r => !r.isWrite) = some (chanReq false) ∧
     ((s.depotRead 0 0 0 0).1.sinkRow (chanReq false) 0 false true).2 = .ok) ∧
    (let s := { chanQueued true with time := 40000000 }
     (s.queueAt (queueKey 1 0)).reqs.find? (fun r => r.id == 4 && decide (r.issued + 40000000 ≤ s.time)) = some (chanReq true)) ∧
    (let d : DepotSt := { DepotSt.reset with state := 2, journal := 1 }
     d.journal ≠ 0 ∧ d.readable = true ∧ d.flushing = false) ∧
    (let u : DepotUnit := { ns := 0, unit := 0, chan := 0, stripe := 0, lastWrite := 0, ctx := none, written := 0, closed := true }
     ({ DepotSt.reset with state := 1, bufs := [u] }).oldestClosed 0 = some u) := by decide +kernel

def block0 : BlockId := { chan := 0, target := 0, lun := 0, plane := 0, block := 0 }

theorem witness_DepotUpkeep :
    (let d : DepotSt := { DepotSt.reset with state := 1, blocks := [(blockKey block0, { DepotBlk.reset with refresh := true })] }
     d.readable = true ∧ d.mayMove = true ∧ (tget d.blocks (blockKey block0) .reset).refresh = true ∧
     (tget d.blocks (blockKey block0) .reset).retired = false) ∧ 180 < 181 ∧
    (tget [(3, 1)] 3 0 : Nat) = 1 ∧ State.reset.queueAt (queueKey 1 0) = .reset ∧
    (let s := { State.reset with time := 4000000 }
     (s.queueAt (queueKey 1 0)).reqs = [] ∧ (s.depot.chanAt 0).lastUse + 4000000 ≤ s.time) ∧
    (let s := posted (1, 1) []
     s.depot.state = 0 ∧ s.depot.found = [] ∧ s.post.firmware = true ∧ s.depot.uids = []) ∧
    (([4] : List Nat) ≠ [] ∧ ([4] : List Nat) ≠ [5]) ∧ State.reset.pins.resetN = true := by decide +kernel

/-- A mapped unit that lies in a block. -/
theorem witness_DepotUpkeep_patrol :
    ∃ (b : BlockId) (d : DepotSt), d.readable = true ∧ d.map.any (fun e => d.inBlock b e.2) = true ∧
      (tget d.blocks (blockKey b) .reset).retired = false :=
  ⟨{ block0 with block := ⟨Config.flashBlock 0 0 % 524288, Nat.mod_lt _ (by decide)⟩ }, { DepotSt.reset with state := 1, map := [(0, (0, 0))] },
    rfl, by
      rw [List.any_cons, DepotSt.inBlock, beq_self_eq_true, Bool.and_true]; rfl, rfl⟩

def ported (x : PontPort) : State := { State.reset with time := 2 ^ 32, pont := { State.reset.pont with ports := [(3, x)] } }

theorem witness_PontoonLinks :
    (∀ w ∈ [2, 4], let x := (ported { PontPort.reset with state := 2, width := w, unacked := 1, naks := 16 }).pport 3
      x.state = 2 ∧ x.laneFail.getLsbD 3 = false ∧ 16 ≤ x.naks ∧ 0 < x.unacked ∧ x.ackFrom + 4000 ≤ 2 ^ 32) ∧
    (let x := (ported { PontPort.reset with home := true, laneFail := 1 }).pport 3
     x.home = true ∧ x.spare = false ∧ x.laneFail ≠ 0 ∧ x.state ≠ 3) ∧
    (∀ n ∈ [1, 2], let x := (ported { PontPort.reset with state := 1, fails := n }).pport 3
      x.state = 1 ∧ (if n = 1 then x.fails < 2 else 2 ≤ x.fails)) ∧
    PontPort.reset.rxSeq = 0 := by decide +kernel

theorem header_with (f : Nat → Word) :
    ∃ hdr : DWord, hdr.toNat / 2 ^ 18 % 4 = 1 ∧ hdr.toNat % 16384 = 0 ∧ hdr.toNat / 2 ^ 32 = (f (hdr.toNat % 2 ^ 32)).toNat := by
  refine ⟨f 0x40000 ++ 0x40000#32, ?_⟩
  have h : (f 0x40000 ++ 0x40000#32 : DWord).toNat = (f 0x40000).toNat * 2 ^ 32 + 0x40000 := by
    have hy : (0x40000#32).toNat < 2 ^ 32 := (0x40000#32).isLt
    rw [BitVec.toNat_append, ← Nat.shiftLeft_add_eq_or_of_lt hy, Nat.shiftLeft_eq]; rfl
  rw [h, show ((f 0x40000).toNat * 2 ^ 32 + 0x40000) % 2 ^ 32 = 0x40000 by omega]
  refine ⟨by omega, by omega, by omega⟩

/-- A flit header with the CRC of its flit, in sequence. -/
theorem witness_PontoonLinks_flit (body : BitVec 1984) :
    ∃ hdr : DWord, hdr.toNat / 2 ^ 18 % 4 = 1 ∧ hdr.toNat % 16384 = 0 ∧
      hdr.toNat / 2 ^ 32 = (crc32 (bytesOf (hdr.toNat % 2 ^ 32) 4 ++ bytesOf body.toNat 248)).toNat :=
  header_with (fun n => crc32 (bytesOf n 4 ++ bytesOf body.toNat 248))

def pkt0 : Packet :=
  { opc := 1, poison := false, gated := false, job := 7, dst := 0, src := 1, coll := 0, sfn := 0, len := 64, addr := 0, deadline := 0
    zmap := 0, vc := 2, data := List.replicate 64 1 }
/-- A part whose berth 0 of job 7 holds the virtual channels and the first MiB of LPDDR5X. -/
def peered : State := { State.reset with brt := { State.reset.brt with live := [(0, 1), (2, 7), (4, 4), (0xCA, 0x10)] } }

theorem witness_PontoonPackets :
    pkt0.dst = peered.pont.devId ∧ ({ pkt0 with dst := 5 } : Packet).dst ≠ peered.pont.devId ∧
    peered.rangeWakes (pktSpace pkt0) (pktAddr pkt0) (pktSpan pkt0) = false ∧ peered.accFull pkt0 = false ∧
    peered.rangeBusy (pktSpace pkt0) (pktAddr pkt0) (pktSpan pkt0) = [] ∧ (peered.takeRx 0 pkt0).accepts pkt0 = true ∧
    (peered.takeRx 0 { pkt0 with job := 8 }).accepts { pkt0 with job := 8 } = false ∧
    ((peered.takeRx 0 pkt0).pont.coll 0).any (fun x => x.active && x.sfn.setWidth 16 != pkt0.sfn) = false ∧ pkt0.opc ≠ 2 ∧
    (peered.takeRx 0 { pkt0 with opc := 2 }).accepts { pkt0 with opc := 2 } = true := by decide +kernel

/-- An AS8 packet of no block, of a zero block and of one block of codes. -/
theorem witness_PontoonPackets_as8 :
    (∀ e ∈ [(0, 0, 0), (1, 1, 8)], as8Blocks { pkt0 with opc := 5, len := BitVec.ofNat _ e.1, zmap := BitVec.ofNat _ e.2.1, data := List.replicate e.2.2 0 }
      = []) ∧
    as8Blocks { pkt0 with opc := 5, len := 1, data := List.replicate 256 3 } = [(0, List.replicate 256 3)] := by decide +kernel

/-- An open operation that a response names, and a collective instance. -/
def op7 (opc : Nat) : RemoteOp := { id := 7, opc := opc, dst := 1, addr := 0, coll := 0, sfn := 0, issued := 0, reqs := [4] }
def coll7 : CollInst :=
  CollInst.fresh { coll := 3, group := 0, gated := true, as8 := false, members := 0, leader := 0, deputy := 1, dlFrames := 0, dlOffset := 0
                   expectIn := 1, clip := 0, initScale := 0, headroom := 0, dcoreX := 0, dcoreY := 0, ddesc := 0
                   target := 0, scale := 0, segments := 0 }
def awaiting (x : CollInst) : State :=
  { peered with time := 2 ^ 32, pont := { peered.pont with ops := [op7 1, op7 2], colls := [x] } }

theorem witness_PontoonPackets_answers :
    (∀ x ∈ [coll7], ((awaiting x).takeRx 0 pkt0).pont.opFor pkt0 (fun o => o == 2) = some (op7 2) ∧
      ((awaiting x).takeRx 0 pkt0).pont.opFor pkt0 (fun o => o != 2) = some (op7 1) ∧ (op7 1).opc ≠ 9 ∧ pkt0.poison = false ∧
      ((awaiting x).takeRx 0 pkt0).pont.coll 3 = some x ∧ x.sfn.setWidth 16 = pkt0.sfn ∧
      ((awaiting { x with desc := { x.desc with deputy := 1 } }).takeRx 0 pkt0).pont.devId ≠ x.desc.deputy ∧
      ((awaiting { x with desc := { x.desc with deputy := 0, leader := 1 } }).takeRx 0 pkt0).pont.devId = 0 ∧ pkt0.src = 1 ∧ x.told = false) ∧
    (∀ b ∈ [0, 1], ({ pkt0 with data := [b] } : Packet).data = [b]) ∧ (op7 1).reqs ≠ [] ∧
    (((awaiting coll7).takeRx 0 { pkt0 with coll := 3 }).trigger 3 (((awaiting coll7).takeRx 0 { pkt0 with coll := 3 }).pont.frameOf 0)
      |>.pont.coll 3).any (fun x => x.sfn.setWidth 16 == pkt0.sfn) = true := by decide +kernel

theorem witness_PontoonTimeAndFailures :
    (∀ j ∈ [true, false], let s := { State.reset with pont := { State.reset.pont with joined := j } }
     s.pont.master = false ∧ s.pont.joined = j ∧ s.pont.lastTick = none ∧ s.sysTime + 4000 ≤ 5000 ∧ s.frm.phase = 0 ∧
     (s.time : Int) + 4000 < 5000 + (s.pport 3).delay ∧ (0 : Int) + (s.pport 3).delay ≤ s.time + 4000) ∧
    (let d : PontSt := { PontSt.reset with
       ndim := 1, master := true, nextTick := some (0, 5, 200000), ports := [(3, { PontPort.reset with state := 2, peer := 9 })] }
     let s := { State.reset with time := 400000, pont := d }
     (∀ q < 16, (s.pport q).peer = (s.pport 3).peer → q = 3) ∧ (s.pport 3).state = 2 ∧ s.pont.ndim ≠ 0 ∧
     (s.pport 3).heard + 400000 ≤ s.time ∧ s.pont.sentBeat + 40000 ≤ s.time ∧ s.pont.master = true ∧ s.pont.sentTime + 40000 ≤ s.time ∧
     s.pont.nextTick = some (0, 5, 200000) ∧ 5 ≤ s.sysTime + s.pont.lead) ∧
    (let s := { State.reset with time := 400000, pont := { PontSt.reset with ndim := 1, ports := [(3, { PontPort.reset with state := 1, peer := 9, downFrom := some 0 })] } }
     (∀ q < 16, (s.pport q).peer = (s.pport 3).peer → q = 3) ∧ (s.pport 3).downFrom = some 0 ∧ 0 + 400000 ≤ s.time) ∧
    (let s := { awaiting { coll7 with active := true } with pont := { (awaiting { coll7 with active := true }).pont with lostFrom := some 0 } }
     s.pont.lostFrom = some 0 ∧ 0 + 4000000 ≤ s.time ∧
     s.pont.ops.find? (fun x => x.id == (op7 1).id && decide (x.issued + 4000000 ≤ s.time)) = some (op7 1) ∧
     s.pont.coll 3 = some { coll7 with active := true } ∧ coll7.desc.gated = true ∧ coll7.decision = none ∧ coll7.decided = none ∧
     s.pont.devId = coll7.desc.leader ∧ coll7.deadline ≤ s.sysTime ∧ coll7.deadline + s.pont.wait ≤ s.sysTime ∧ (op7 1).reqs ≠ []) ∧
    (let c : CollInst := { coll7 with active := true, desc := { coll7.desc with leader := 1, deputy := 0 } }
     let s := { awaiting c with pont := { (awaiting c).pont with failed := [1] } }
     s.pont.coll 3 = some c ∧ s.pont.devId ≠ c.desc.leader ∧ s.pont.decides c = true ∧ c.deadline + 200000 ≤ s.sysTime) := by decide +kernel

/-! ### Hypotheses that are met: the host link, clocks, pins, boot and observation -/

def linked (f : HostSt → HostSt) : State := { State.reset with host := f HostSt.reset }
/-- A berth 0 whose first MiB of LPDDR5X and whose first granule of deck column 0 the host may touch. -/
def shared (pages : List (Nat × Nat)) : State :=
  let s := run 0
  { s with
    host := { s.host with devBias := pages }
    brt := { s.brt with live := [(0, 1), (0x45, 0x20), (0x43, 4), (0xC8, 1), (0xCA, 0x10)] } }
def hostReq (write : Bool) : Req := { reqOf (.fill 0 0) write with sent := true }
def asked (write : Bool) : State :=
  { State.reset with time := 2 ^ 32, queue := [(queueKey 3 0, { reqs := [hostReq write], since := 0 })] }

theorem witness_HostLink :
    (linked (fun h => { h with status := 2 })).host.status = 2 ∧ State.reset.host.retrain = false ∧
    (∀ n ∈ [1, 2], (linked (fun h => { h with retrain := true, fails := n })).host.fails = n) ∧
    (∀ pages ∈ [[], [(0, 1)]], let s := shared pages
      64 < s.hdmSize ∧ 64 < s.lpCap ∧ s.underScrub 2 64 = false ∧ inPages s.host.devBias (64 / 4096) = (pages != []) ∧
      s.flipping 0 = false ∧ s.hostLp 64 = true ∧ s.lp.marks = []) ∧
    (let s := shared []
     wfBar2 true 0 (List.replicate 64 1) 64 = true ∧ s.deckPresent 0 0 = true ∧ s.hostDeck 0 0 = true ∧ s.underScrub 1 0 = false ∧
     s.deckState 0 0 = 0 ∧ s.granSaved 0 0 = false ∧ (s.takeBank 0 (deckBankKey 0 0)).2 = .ok ∧
     ({ s with bankUse := { s.bankUse with taken := [deckBankKey 0 0] } }.takeBank 0 (deckBankKey 0 0)).2 = .wait) ∧
    (∀ w ∈ [true, false], let s := asked w
     s.findHostReq 4 = some (0, hostReq w) ∧ (hostReq w).sent = true ∧ (hostReq w).isWrite = w ∧
     (s.sinkRow (hostReq w) 0 false true).2 = .ok ∧ (hostReq w).issued + 4000000 * s.host.cto.toNat ≤ s.time) ∧
    (let r : Req := reqOf (.flip 2 5) false
     let s := { State.reset with time := 16000, queue := [(queueKey 3 0, { reqs := [r], since := 0 })] }
     s.findHostReq 4 = some (0, r) ∧ r.issued + 16000 ≤ s.time) ∧
    (∀ q g, (hostReq true).kind ≠ .flip q g) := by
  refine ⟨by decide +kernel, by decide +kernel, by decide +kernel, by decide +kernel, by decide +kernel, by decide +kernel, by decide +kernel, ?_⟩
  intro q g h
  nomatch h

def clocked (f : CluSt → CluSt) (t : Nat) : State := { State.reset with time := t, clu := [(3, f CluSt.reset)] }

theorem witness_ClocksAndPower :
    ((clocked id 0).cluAt 3).clockLost = none ∧
    (∀ t ∈ [0, 40000], ((clocked (fun c => { c with clockLost := some 0 }) t).cluAt 3).clockLost = some 0 ∧
      ((clocked (fun c => { c with clockLost := some 0 }) t).cluAt 3).clockOut = false ∧ t ≤ 0 + 40000) ∧
    State.reset.pwr.holdover = false ∧
    (let s := { State.reset with time := 40000000, pwr := { State.reset.pwr with trigAt := some 0 }, frm := { FrameSt.reset with floorNext := 1700 } }
     s.pwr.trigAt = some 0 ∧ 0 + 40000000 ≤ s.time ∧ s.frm.floorNext < 1850) ∧
    (let s := posted (1, 1) []
     s.firmwareActs = true ∧ s.pwr.setMv.toNat ≤ 850 + 30 ∧ 850 ≤ s.pwr.setMv.toNat + 30 ∧ s.pwr.tries < 2) ∧
    (let s := { prog (1, 1) 1 [] with time := 2 ^ 40 }
     s.runs = true ∧ s.firmwareActs = true ∧ s.pwr.warnedAt + 40000000000 ≤ s.time ∧ s.between = false ∧ s.pwr.limitW.toNat < 1601) ∧
    (List.replicate 56 (7 : BitVec 16)).length = 56 := by decide +kernel

theorem witness_PinsAndBoot :
    State.reset.pins.resetN = true ∧ State.reset.boot.phase = 0 ∧ State.reset.pins.pwrFailN = true ∧ State.reset.depot.state = 0 ∧
    (let s := { State.reset with boot := { BootSt.reset with phase := 1 } }
     s.boot.phase = 1 ∧ s.host.status ≠ 2 ∧ s.shape.unusable = false) ∧
    (let s := { linked (fun h => { h with status := 2 }) with boot := { BootSt.reset with phase := 1, step5 := true } }
     s.host.status = 2 ∧ s.boot.phase = 1 ∧ s.boot.step5 = true) ∧
    (let s := { linked (fun h => { h with status := 2 }) with boot := { BootSt.reset with phase := 1 } }
     s.host.status = 2 ∧ s.boot.phase = 1 ∧ s.boot.step5 = false) ∧
    (let s := { State.reset with boot := { BootSt.reset with phase := 3 } }
     s.boot.phase = 3 ∧ s.frm.prog = none ∧ s.frm.halted = false ∧ s.running = []) := by decide +kernel

/-- A delivery too short to hold an image does not verify; one whose signature stands does, where the free values allow it. -/
theorem witness_PinsAndBoot_rejected : fwCheck [] 0 ≠ 1 := by decide +kernel

theorem witness_PortsPairsAndCheckers :
    (∀ f ∈ [none, some (1, 2, 4)], let s := { posted (1, 1) [] with clu := [(3, { CluSt.reset with railFail := f })], frm := { FrameSt.reset with frameNum := 5 } }
      (s.cluAt 3).railRetired = 0 ∧ (s.cluAt 3).railFail = f ∧ 4 + 1 = s.frm.frameNum.toNat ∧ s.firmwareActs = true) ∧
    (∀ b ∈ [true, false], let s := { State.reset with post := { PostSt.reset with spareUsed := b, switching := b } }
      s.frm.halted = false ∧ s.post.spareUsed = b ∧ s.post.switching = b) ∧
    (let s := { run 0 with frm := FrameSt.reset }
     s.frm.phase = 0 ∧ posClu 0 = 0 ∧ s.isLive 0 = true) ∧ (∀ b ∈ [true, false], ({ PinSt.reset with resetN := b }).resetN = b) := by
  decide +kernel

/-- The parity error of a counter of the device, of a memory port and of a free-running counter of a core. -/
theorem witness_CounterParityErrors :
    ∃ t, exec (.counterParityError { blk := 8, unit := 0, idx := 11 }) (run 0) = .next t := ⟨_, rfl⟩

def job0 : PageJob :=
  { trigger := 0, pgh := 0, opcode := 0, tag := 0, index := 0, time := 0, frame := 0, stepNum := 0, berth := none, val := [], ovf := []
    bw := [], lr := [], window := 0 }
def ring0 : RingDesc := { base := 0, mirror := 0, entry := 64, count := 8, nIn := 1 }
def region0 : TrcRegion := { TrcRegion.reset with size := 4096, enable := 1 }

theorem witness_CountersTraceAndRegisters :
    (let s := { State.reset with obs := { ObsSt.reset with jobs := [job0] }, time := 600 }
     s.obs.jobs = [job0] ∧ job0.trigger ≠ 2 ∧ s.time ≤ job0.time + 600) ∧
    (let s := { State.reset with time := 4000000 }
     s.obs.bwFrom + 4000 * s.obs.bwUs ≤ s.time ∧ s.obs.jobs = [] ∧ s.obs.sinkIn = [] ∧ s.obs.queue = []) ∧
    (let s := { State.reset with obs := { ObsSt.reset with jobs := [job0], pageCount := 16, bucket := 52428800 } }
     s.obs.jobs = [job0] ∧ job0.berth = none ∧ s.ringBlocked = false ∧ (s.takeShare 1024).isSome = true) ∧
    (State.reset.region 16).size = 0 ∧ (traced.region 0).size ≠ 0 ∧ isLeaf 0x12408 = true := by decide +kernel

theorem foldl_isSome {α β : Type} (f : Option β → α → Option β) (h : ∀ m x, (f m x).isSome = true) :
    ∀ (l : List α) (m : Option β), m.isSome = true ∨ l ≠ [] → (l.foldl f m).isSome = true
  | [], m, h' => by rcases h' with h' | h' <;> simp_all
  | x :: r, m, _ => foldl_isSome f h r (f m x) (.inl (h m x))

/-- A table with a reserved bit set; the good ones are those of the commits above. -/
theorem witness_CountersTraceAndRegisters_table : (State.reset.tableErr [(0, 0x80)]).isSome = true := by
  unfold State.tableErr
  refine foldl_isSome _ ?_ _ _ (.inr ?_)
  · intro m x; cases m <;> simp; split <;> simp
  · intro h
    have h1 := (List.append_eq_nil_iff.mp (List.map_eq_nil_iff.mp (List.flatMap_eq_nil_iff.mp h 0 (by simp)))).1
    have h2 : (State.reset.entryErrs [(0, 0x80)] 0).isEmpty = false := by decide +kernel
    rw [h1] at h2; simp at h2

theorem witness_CountersTraceAndRegisters_record :
    let x : TrcRec := { region := 0, body := 7 }
    let s := { State.reset with obs := { ObsSt.reset with queue := [x], regions := [(0, region0)] } }
    s.obs.queue = [x] ∧ (s.region x.region).size ≠ 0 ∧ (s.region x.region).unsaid = 0 ∧ x.region ≠ 16 ∧
    ((s.onObs (fun o => { o with queue := [] })).takeShare 1).isSome = true :=
  ⟨rfl, by decide +kernel, rfl, by decide +kernel, by decide +kernel⟩

theorem witness_CountersTraceAndRegisters_ring :
    let s := linked (fun h => { h with rings := [(0, ring0)] })
    tfind s.host.rings (4 * 0 + 0) = some ring0 ∧ 0 ≤ ((8 : Word) - tget s.host.idx 0 0).toInt ∧
    ((8 : Word) - tget s.host.dev 0 0).toInt ≤ ring0.count ∧ ((0xFFFFFFFF : Word) - tget s.host.idx 0 0).toInt < 0 :=
  ⟨rfl, by decide +kernel, by decide +kernel, by decide +kernel⟩

/-- Every invariant has a state that meets it. -/
theorem witness_StepKeepsMemoriesCanonical : State.reset.memWf ∧ ∃ t, step State.reset = .next t := ⟨⟨rfl, rfl, rfl⟩, _, rfl⟩
theorem witness_WellFormedCommandsComplete : wellFormed .thermtrip = true ∧ wellFormed (.hostMemAccess true 1 0) = false := by decide

/-! ### Results of single commands, worked out by hand from the spec's formats and encodings -/

/-- The value that command `i` sets on its way in the core at position 0 of `s`. -/
def given (i : Instr) (s : State) : Option Pend :=
  match exec i s with
  | .next t => (t.coreAt 0).pend.getLast?
  | _ => none
/-- Lane 0 of that value. -/
def lane0 (i : Instr) (s : State) : Option Word := (given i s).map (fun p => lane p.val 0)
/-- A core whose v0, v1 and v2 hold the given words in lane 0. -/
def vecs (a b c : Word) : State :=
  runC 0 { CoreSt.reset with v := [(0, a.setWidth 2048), (1, b.setWidth 2048), (2, c.setWidth 2048)] }
def abc (md : BitVec 12) : VOp := { vd := 3, va := 0, vb := 1, vc := 2, md := md }

/-- 1 + 2⁻²⁴ rounds to even in FP32; 1.5 + 2.5 is 4 (R91, R123). -/
theorem test_vadd_tie : lane0 (.vadd 0 (abc 0)) (vecs 0x3F800000 0x33800000 0) = some 0x3F800000 := by decide +kernel
theorem test_vadd : lane0 (.vadd 0 (abc 0)) (vecs 0x3FC00000 0x40200000 0) = some 0x40800000 := by decide +kernel
/-- 1 − 2 is −1; 3 · 0.5 is 1.5. -/
theorem test_vsub : lane0 (.vsub 0 (abc 0)) (vecs 0x3F800000 0x40000000 0) = some 0xBF800000 := by decide +kernel
theorem test_vmul : lane0 (.vmul 0 (abc 0)) (vecs 0x40400000 0x3F000000 0) = some 0x3FC00000 := by decide +kernel
/-- 3 · 0.5 + 0.25 is 1.75; 1 / 4 is 0.25; 1 / 0 is infinity; the square root of 4 is 2. -/
theorem test_vfma : lane0 (.vfma 0 (abc 0)) (vecs 0x40400000 0x3F000000 0x3E800000) = some 0x3FE00000 := by decide +kernel
theorem test_vdiv : lane0 (.vdiv 0 (abc 0)) (vecs 0x3F800000 0x40800000 0) = some 0x3E800000 := by decide +kernel
theorem test_vsqrt : lane0 (.vsqrt 0 (abc 0)) (vecs 0x40800000 0 0) = some 0x40000000 := by decide +kernel
/-- Integers wrap modulo 2³² (R124). -/
theorem test_viadd_wraps : lane0 (.viadd 0 (abc 0)) (vecs 0xFFFFFFFF 2 0) = some 1 := by decide +kernel
theorem test_visub_wraps : lane0 (.visub 0 (abc 0)) (vecs 0 1 0) = some 0xFFFFFFFF := by decide +kernel
theorem test_vxor : lane0 (.vxor 0 (abc 0)) (vecs 0xF0F0F0F0 0xFFFF0000 0) = some 0x0F0FF0F0 := by decide +kernel

/-- The landing of SETL: s(7) at the end of its tcyc, and the advance of the counter of a SALU (R111). -/
theorem test_setl : (given (.setl 0 7 0x1234) (run 5)).map (fun p => (p.dst, p.due, lane p.val 0)) = some (.s 7, 5, 0x1234) := by
  decide +kernel

/-- An E2M1 code of 0b0111 is 6, 0b0001 is 0.5; the largest E4M3 is 448 (R84). -/
theorem test_e2m1 : fp32.enc .rne (e2m1.dec 7) = 0x40C00000 ∧ fp32.enc .rne (e2m1.dec 1) = 0x3F000000 := by decide +kernel
theorem test_e4m3 : fp32.enc .rne (e4m3.dec 0x7E) = 0x43E00000 := by decide +kernel
/-- BF16 1.0 is 0x3F80, FP64 1.0 is 0x3FF0000000000000. -/
theorem test_formats : bf16.enc .rne (fp32.dec 0x3F800000) = 0x3F80 ∧ fp64.enc .rne (fp32.dec 0x3F800000) = 0x3FF0000000000000 := by
  decide +kernel

/-- A pigeonhole that holds another command, or none, is left alone. -/
theorem test_notReady_is_left : exec (.identify 5) (posted (1, 1)) = .next (posted (1, 1)) := by rfl
/-- An empty queue: the step is one quarter of a nanosecond (log entry 1). -/
theorem test_idle_step : (match step State.reset with | .next t => t.time | _ => 0) = 1 := by decide +kernel
/-- The IDCODE of R524. -/
theorem test_idcode : (match exec .idcode State.reset with | .next t => t.out | _ => []) = [.jtag 0x16A17A5B] := by decide +kernel

/-! ### Words of the spec's encodings and tables -/

/-- A bundle written out from R104, R107, R115, R119, R120 and R123: SETL s7, 0x1234; LD v3 of width 1 at a2; CFG s4 in A1; FEED
of a5 with ACC and SWAP in A0; VADD v3, v0, v1 in FMT 1; SEND of a6 on s9. -/
theorem test_bundle :
    bundleOps 0 0x97123411900014203A801180225002D3 =
      some [.setl 0 7 0x1234, .ld 0 3 2 1, .feed 0 0 true 5, .swap 0 0, .cfg 0 1 4,
        .vadd 0 { vd := 3, va := 0, vb := 1, vc := 2, md := 0x500 }, .send 0 6 9 true] := by decide +kernel
/-- An all-zero bundle is all NOP (R104); WAITC 5 with DROP; END. -/
theorem test_bundle_nop : bundleOps 0 0 = some [] ∧ bundleOps 0 0x10000500000000000000000000000A00 = some [.waitc 0 5, .drop 0] ∧
    bundleOps 0 0xE0000000000000000000000000000000 = some [.endOp 0] := by decide +kernel
/-- Reserved opcodes: C 0xF, M 0xC, A 0b011, the reserved bits of A, V 0x0F, N 6 (R105). -/
theorem test_bundle_reserved :
    bundleOps 0 0xF0000000000000000000000000000000 = none ∧ decodeM 0 0xC000000 = none ∧ decodeA 0 0 0x600 = none ∧
    decodeA 0 0 0x001 = none ∧ decodeV 0 0x0F00000000 = none ∧ decodeN 0 0xC00 = none := by decide +kernel

/-- The worked example of R268. -/
theorem test_lpddr5x_address :
    portOf 0x123456780 = 3 ∧ lineOf 0x123456780 = 318146 ∧ physByte 0x123456780 = 0x136B0800 ∧ checkByte 0x123456780 = 0x136B0BC0 := by
  decide +kernel

/-- SHA3-512 of "abc" (FIPS 202). -/
theorem test_sha3 : (sha3 [0x61, 0x62, 0x63]).toNat % 2 ^ 64 = 0x8A16571A0B8551B7 := by decide +kernel

/-- A SPOIL of cluster 3: class 2, source 3, destination 52, code 0x2001; its CRC-8 (R208). -/
theorem test_courier : courierBeats (courierWord 3 52 2 0x2001) = [0x1A, 0xE8, 0x00, 0x10, 0xC0] := by decide +kernel

/-- Two fails in one column take a spare column, two single ones a spare row each (R241); a third bad column of a near-store
bank is unrepairable. -/
theorem test_repair :
    RepairMap.extend { rows := [], cols := [] } false [(5, 9), (7, 9), (8, 3), (6, 4)] = some { rows := [6, 8], cols := [9] } ∧
    RepairMap.extend { rows := [], cols := [] } false [(1, 1), (2, 1), (1, 2), (2, 2), (1, 3), (2, 3)] = none := by decide +kernel

end Sys2Proof.Tests
end

section
/-! Which commands complete, and what a completed command leaves: no operation of a meaning touches the queue of
waiting commands, which is the model's own (log entry 1), and a meaning refuses a command exactly when an operand lies
beyond its field (log entry 81). Laws/State.lean and Laws/Ops.lean say the first for the setters and for raising an
event; the lemmas here go on from there, one for each operation of the model, in the order of its definitions. -/

namespace Sys2Proof.Machine

/-! ### The queue through branches and folds -/

@[simp] theorem State.ite_pending (c : Prop) [Decidable c] (a b : State) :
    (if c then a else b).pending = if c then a.pending else b.pending := apply_ite State.pending c a b

@[simp] theorem State.ite_fst_pending {β : Type} (c : Prop) [Decidable c] (a b : State × β) :
    (if c then a else b).1.pending = if c then a.1.pending else b.1.pending := apply_ite (·.1.pending) c a b

@[simp] theorem State.foldl_pending {α : Type} (f : State → α → State) (l : List α) (s : State)
    (h : ∀ s a, (f s a).pending = s.pending) : (l.foldl f s).pending = s.pending :=
  foldl_keeps (·.pending) f h l s

/-- The same for a fold that carries a value beside the state. -/
@[simp] theorem State.foldl_fst_pending {α β : Type} (f : State × β → α → State × β) (l : List α)
    (x : State × β) (h : ∀ x a, (f x a).1.pending = x.1.pending) : (l.foldl f x).1.pending = x.1.pending := by
  induction l generalizing x with
  | nil => rfl
  | cons a r ih => rw [List.foldl_cons, ih, h]

theorem State.fst_pending_ite {β : Type} {c : Prop} [Decidable c] {a b : State × β} {q : List Instr} (ha : a.1.pending = q)
    (hb : b.1.pending = q) : (if c then a else b).1.pending = q := by
  split
  · exact ha
  · exact hb

/-- The state of an answer that carries a value. -/
theorem State.pending_of_eq_mk {β : Type} {x : State × β} {s t : State} {v : β} (h : x = (t, v))
    (hx : x.1.pending = s.pending) : t.pending = s.pending := by
  rw [h] at hx
  exact hx

/-! ### What the operations leave alone

An operation that takes a continuation leaves the queue alone where the continuation does; an operation that may answer no
state says so of the state that it answers. Even where `rfl` would do, a lemma is proved by rewriting: `simp` then meets the
condition of a fold or of a continuation with it. -/

section
variable (s : State)

/-! #### The operations every meaning uses -/

@[simp] theorem State.heal_pending (place : Place) (unit lo n : Nat) : (s.heal place unit lo n).pending = s.pending := by
  simp [State.heal]
@[simp] theorem State.lateCrossing_pending (p : Nat) : (s.lateCrossing p).pending = s.pending := by
  simp [State.lateCrossing]

/-! #### The berth table -/

@[simp] theorem State.scrubRefuse_pending (mem a p : Nat) : (s.scrubRefuse mem a p).pending = s.pending := by
  unfold State.scrubRefuse
  split <;> simp

/-! #### What a core reads and writes -/

@[simp] theorem State.onCore_pending (p : Nat) (f : CoreSt → CoreSt) : (s.onCore p f).pending = s.pending := by
  simp [State.onCore]
@[simp] theorem State.seqFault_pending (p : Nat) (code : Code) : (s.seqFault p code).pending = s.pending := by
  simp [State.seqFault]
@[simp] theorem State.bundleNop_pending (p : Nat) (code : Code) : (s.bundleNop p code).pending = s.pending := by
  simp [State.bundleNop]
@[simp] theorem State.illegal_pending (p : Nat) : (s.illegal p).pending = s.pending := by simp [State.illegal]
@[simp] theorem State.arrFault_pending (p : Nat) (arr : Arr) (code : Code) :
    (s.arrFault p arr code).pending = s.pending := by simp [State.arrFault]
@[simp] theorem State.readPsum_pending (p : Nat) (arr : Arr) (e : Nat) : (s.readPsum p arr e).pending = s.pending := by
  simp [State.readPsum]
@[simp] theorem State.pendOp_pending (p : Nat) (dst : Dst) (lat rank : Nat) (val : Vec) (mask : BitVec 256) :
    (s.pendOp p dst lat rank val mask).pending = s.pending := by simp [State.pendOp]
@[simp] theorem State.useA_pending (p n tag : Nat) : (s.useA p n tag).pending = s.pending := by simp [State.useA]
@[simp] theorem State.useD_pending (p n tag : Nat) : (s.useD p n tag).pending = s.pending := by simp [State.useD]
@[simp] theorem State.access_pending (p key : Nat) : (s.access p key).pending = s.pending := by simp [State.access]
@[simp] theorem State.accessRow_pending (p row : Nat) : (s.accessRow p row).pending = s.pending := by
  simp [State.accessRow]
@[simp] theorem State.accessGran_pending (p g : Nat) : (s.accessGran p g).pending = s.pending := by
  simp [State.accessGran]
@[simp] theorem State.readRow_pending (p row : Nat) : (s.readRow p row).1.pending = s.pending := by simp [State.readRow]

@[simp] theorem State.readRows_pending (p row n : Nat) : (s.readRows p row n).1.pending = s.pending := by
  induction n generalizing s row with
  | zero => rfl
  | succ n ih =>
    unfold State.readRows
    dsimp only
    rw [ih, State.readRow_pending]

@[simp] theorem State.readGran_pending (p g : Nat) : (s.readGran p g).1.pending = s.pending := by simp [State.readGran]
@[simp] theorem State.wait_pending (p : Nat) (i : Instr) (cause : Option HoldCause) :
    (s.wait p i cause).pending = s.pending := by simp [State.wait]

@[simp] theorem State.whenIssued_pending (p : Nat) (i : Instr) (cause : Option HoldCause) (k : State → State)
    (hk : ∀ t, (k t).pending = t.pending) : (s.whenIssued p i cause k).pending = s.pending := by
  unfold State.whenIssued
  split
  · split
    · exact hk s
    · simp
  · simp

@[simp] theorem State.mSlot_pending (p : Nat) (i : Instr) (cause : Option HoldCause) (k : State → State)
    (hk : ∀ t, (k t).pending = t.pending) : (s.mSlot p i cause k).pending = s.pending :=
  State.whenIssued_pending _ _ _ _ _ fun t => by simp [hk]
@[simp] theorem State.portSlot_pending (p : Nat) (i : Instr) (cause : Option HoldCause) (k : State → State)
    (hk : ∀ t, (k t).pending = t.pending) : (s.portSlot p i cause k).pending = s.pending :=
  State.mSlot_pending _ _ _ _ _ fun t => by simp [hk]
@[simp] theorem State.port_pending (p n : Nat) (k : State → State) (hk : ∀ t, (k t).pending = t.pending) :
    (s.port p n k).pending = s.pending := by
  simp [State.port, hk]
@[simp] theorem State.vSlot_pending (p occ : Nat) (k : State → State) (hk : ∀ t, (k t).pending = t.pending) :
    (s.vSlot p occ k).pending = s.pending := by
  simp [State.vSlot, hk]

/-! #### The Ferry ring -/

@[simp] theorem State.ringHop_pending (p lane : Nat) (f : Flit) : (s.ringHop p lane f).pending = s.pending := by
  simp [State.ringHop]
@[simp] theorem State.stopRec_pending (p : Nat) (arr : Arr) (code : Code) (idx : Nat) (e : BitVec 128) :
    (s.stopRec p arr code idx e).pending = s.pending := by simp [State.stopRec]
@[simp] theorem State.stopFault_pending (p : Nat) (arr : Arr) (code : Code) (e : BitVec 128) :
    (s.stopFault p arr code e).pending = s.pending := by simp [State.stopFault]
@[simp] theorem State.onSlot_pending (k b : Nat) (f : TileSlot → TileSlot) : (s.onSlot k b f).pending = s.pending := by
  simp [State.onSlot]
@[simp] theorem State.stopEnd_pending (p : Nat) (arr : Arr) (code : Code) (e : BitVec 128) :
    (s.stopEnd p arr code e).pending = s.pending := by simp [State.stopEnd]
@[simp] theorem State.badStop_pending (p : Nat) (arr : Arr) (e : BitVec 128) : (s.badStop p arr e).pending = s.pending := by
  simp [State.badStop]
@[simp] theorem State.stopOp_pending (p : Nat) (arr : Arr) (c : Instr) (e : BitVec 128) (i : Nat) (k : State → State)
    (hk : ∀ t, (k t).pending = t.pending) : (s.stopOp p arr c e i k).pending = s.pending := by
  simp [State.stopOp, hk]

@[simp] theorem State.arrival_pending (p : Nat) (arr : Arr) (lane : Nat) (e : BitVec 128) :
    (s.arrival p arr lane e).1.pending = s.pending := by
  unfold State.arrival
  dsimp only
  (repeat' split) <;> simp

@[simp] theorem State.sendLane_pending (p : Nat) (arr : Arr) (lane : Nat) (f : Flit) :
    (s.sendLane p arr lane f).pending = s.pending := by simp [State.sendLane]

@[simp] theorem State.checkArrival_pending (p : Nat) (arr : Arr) (e : BitVec 128) (i : Nat) :
    (s.checkArrival p arr e i).1.pending = s.pending := by
  unfold State.checkArrival
  dsimp only
  (repeat' split) <;> simp

@[simp] theorem State.readSlotFlit_pending (p : Nat) (arr : Arr) (b i idx : Nat) (e : BitVec 128) :
    (s.readSlotFlit p arr b i idx e).1.pending = s.pending := by simp [State.readSlotFlit]
@[simp] theorem State.startFill_pending (p : Nat) (arr : Arr) (e : BitVec 128) (mode wfmt kind tag : Nat) (plain : Bool) :
    (s.startFill p arr e mode wfmt kind tag plain).pending = s.pending := by simp [State.startFill]
@[simp] theorem State.storeFlit_pending (p : Nat) (arr : Arr) (e : BitVec 128) (i : Nat) (f : Option Flit) :
    (s.storeFlit p arr e i f).pending = s.pending := by simp [State.storeFlit]
@[simp] theorem State.startTurn_pending (p : Nat) (arr : Arr) (slot : Nat) (e : BitVec 128) (g : Nat) (store : Bool) :
    (s.startTurn p arr slot e g store).pending = s.pending := by simp [State.startTurn]
@[simp] theorem State.stopPort_pending (p : Nat) (arr : Arr) (e : BitVec 128) (n : Nat) (k : State → State)
    (hk : ∀ t, (k t).pending = t.pending) : (s.stopPort p arr e n k).pending = s.pending := by
  simp [State.stopPort, hk]

/-! #### The array slot -/

@[simp] theorem State.feedScales_pending (p : Nat) (arr : Arr) (nb : Nat) :
    (s.feedScales p arr nb).1.pending = s.pending := by
  unfold State.feedScales
  dsimp only
  (repeat' split) <;> simp

@[simp] theorem State.latchFault_pending (p : Nat) (arr : Arr) (slot : Option Nat) :
    (s.latchFault p arr slot).pending = s.pending := by
  unfold State.latchFault
  split <;> simp

/-! #### Bank power and the accesses of a bank -/

@[simp] theorem State.setBank_pending (p : Nat) (deck : Bool) (b : BankSt) : (s.setBank p deck b).pending = s.pending := by
  simp [State.setBank]
@[simp] theorem State.onBank_pending (p : Nat) (deck : Bool) (k : Nat) (f : Mem → Nat → Nat → Mem) :
    (s.onBank p deck k f).pending = s.pending := by simp [State.onBank]
@[simp] theorem State.zeroBank_pending (p : Nat) (deck : Bool) (k : Nat) : (s.zeroBank p deck k).pending = s.pending := by
  simp [State.zeroBank]
@[simp] theorem State.openBank_pending (p : Nat) (deck : Bool) (k : Nat) : (s.openBank p deck k).pending = s.pending := by
  simp [State.openBank]
@[simp] theorem State.bankUp_pending (p : Nat) (deck : Bool) (k : Nat) (fromOff : Bool) :
    (s.bankUp p deck k fromOff).pending = s.pending := by simp [State.bankUp]
@[simp] theorem State.planWake_pending (p : Nat) (deck : Bool) (h : FrameHdr) :
    (s.planWake p deck h).pending = s.pending := by simp [State.planWake]
@[simp] theorem State.planIdle_pending (p : Nat) (deck : Bool) (h : FrameHdr) :
    (s.planIdle p deck h).pending = s.pending := by simp [State.planIdle]
@[simp] theorem State.planClu_pending (j : Nat) (op : State → Nat → Bool → State)
    (hop : ∀ t x y, (op t x y).pending = t.pending) : (s.planClu j op).pending = s.pending :=
  foldl_pending _ _ _ fun t p => by rw [hop, hop]
@[simp] theorem State.deckTier3_pending (p g n : Nat) : (s.deckTier3 p g n).1.pending = s.pending := by
  unfold State.deckTier3
  (repeat' split) <;> simp
@[simp] theorem State.takeBank_pending (p key : Nat) : (s.takeBank p key).1.pending = s.pending := by
  simp [State.takeBank]

@[simp] theorem State.deckTake_pending (p g n : Nat) : (s.deckTake p g n).1.pending = s.pending := by
  unfold State.deckTake
  split
  next t ht =>
    have h : t.pending = s.pending := pending_of_eq_mk ht (s.deckTier3_pending p g n)
    split
    · exact h
    · split
      next u hu => exact (pending_of_eq_mk hu (t.takeBank_pending _ _)).trans h
      · rfl
  · exact s.deckTier3_pending p g n

@[simp] theorem State.waitBank_pending (t : State) (i : Instr) : (s.waitBank t i).pending = s.pending := by
  simp [State.waitBank]

@[simp] theorem State.hostAccess_pending (p : Nat) (deck : Bool) (k key : Nat) (saved : Bool) :
    (s.hostAccess p deck k key saved).1.pending = s.pending := by
  have hb : (if saved then (s, Access.ok) else s.takeBank p key).1.pending = s.pending := by simp
  unfold State.hostAccess
  dsimp only
  split
  · split
    next t ht => simpa using pending_of_eq_mk ht hb
    · exact hb
  · rfl
  · simp

@[simp] theorem State.bankOn_pending (p : Nat) (deck : Bool) (k : Nat) : (s.bankOn p deck k).pending = s.pending := by
  simp [State.bankOn]
@[simp] theorem State.rangeOn_pending (deck : Bool) (a n : Nat) : (s.rangeOn deck a n).pending = s.pending := by
  simp [State.rangeOn]
@[simp] theorem State.deckEcc_pending (p a n : Nat) (quiet : Bool) : (s.deckEcc p a n quiet).pending = s.pending := by
  simp [State.deckEcc]
@[simp] theorem State.nstEcc_pending (p a n : Nat) (quiet : Bool) : (s.nstEcc p a n quiet).pending = s.pending := by
  simp [State.nstEcc]
@[simp] theorem State.voidRetained_pending (kind lo hi : Nat) : (s.voidRetained kind lo hi).pending = s.pending := by
  simp [State.voidRetained]
@[simp] theorem State.saveRow_pending (p : Nat) (deck : Bool) (a n : Nat) : (s.saveRow p deck a n).pending = s.pending := by
  simp [State.saveRow]
@[simp] theorem State.startGroup_pending (p : Nat) (deck : Bool) (cells : List BadCell) :
    (s.startGroup p deck cells).pending = s.pending := by simp [State.startGroup]

@[simp] theorem State.marchUnit_pending (p : Nat) (deck preserve : Bool) :
    (s.marchUnit p deck preserve).pending = s.pending := by
  unfold State.marchUnit
  split
  · refine foldl_pending _ _ _ fun t g => foldl_pending _ _ _ fun u i => ?_
    split <;> simp
  · extract_lets b t
    have ht : t.pending = s.pending :=
      (foldl_pending _ _ _ fun u k => State.setBank_pending _ _ _ _).trans (State.setBank_pending _ _ _ _)
    split
    · rw [State.voidRetained_pending, ht]
    · rw [State.voidRetained_pending, ht]

/-! #### The mesh -/

@[simp] theorem State.meshFault_pending (p : Nat) (code : Code) (idx port tag : Nat) :
    (s.meshFault p code idx port tag).pending = s.pending := by simp [State.meshFault]
@[simp] theorem State.onRtr_pending (p : Nat) (f : RouterSt → RouterSt) : (s.onRtr p f).pending = s.pending := by
  simp [State.onRtr]
@[simp] theorem State.entryFault_pending (p : Nat) (code : Code) (e : BitVec 128) (port tag : Nat) :
    (s.entryFault p code e port tag).pending = s.pending := by simp [State.entryFault]
@[simp] theorem State.entryEnd_pending (p : Nat) (code : Code) (e : BitVec 128) :
    (s.entryEnd p code e).pending = s.pending := by simp [State.entryEnd]
@[simp] theorem State.badEntry_pending (p : Nat) (e : BitVec 128) : (s.badEntry p e).pending = s.pending := by
  simp [State.badEntry]
@[simp] theorem State.rtrOp_pending (p : Nat) (c : Instr) (e : BitVec 128) (i : Nat) (k : State → State)
    (hk : ∀ t, (k t).pending = t.pending) : (s.rtrOp p c e i k).pending = s.pending := by
  simp [State.rtrOp, hk]
@[simp] theorem State.samplePop_pending (p : Nat) : (s.samplePop p).pending = s.pending := by simp [State.samplePop]

@[simp] theorem State.popRaw_pending (p : Nat) (e : BitVec 128) (x : Expect) : (s.popRaw p e x).1.pending = s.pending := by
  unfold State.popRaw
  dsimp only
  (repeat' split) <;> simp

@[simp] theorem State.popIn_pending (p : Nat) (e : BitVec 128) (x : Expect) (ident : Bool) (need : Option Nat) :
    (s.popIn p e x ident need).1.pending = s.pending := by
  unfold State.popIn
  dsimp only
  (repeat' split) <;> simp

@[simp] theorem State.sendOuts_pending (p inp idx mask row : Nat) (f : Flit) :
    (s.sendOuts p inp idx mask row f).pending = s.pending := by simp [State.sendOuts]
@[simp] theorem State.standby_pending (p : Nat) (e : BitVec 128) (idx row : Nat) :
    (s.standby p e idx row).pending = s.pending := by simp [State.standby]
@[simp] theorem State.mergeAlone_pending (p : Nat) (e : BitVec 128) (fmt : Nat) :
    (s.mergeAlone p e fmt).pending = s.pending := by simp [State.mergeAlone]
@[simp] theorem State.merge_pending (p : Nat) (c : Instr) (e1 e2 : BitVec 128) (fmt : Nat) :
    (s.merge p c e1 e2 fmt).pending = s.pending := by simp [State.merge]
@[simp] theorem State.zombie_pending (p : Nat) : (s.zombie p).pending = s.pending := by simp [State.zombie]

/-! #### The memory slot -/

@[simp] theorem State.vFault_pending (p : Nat) (code : Code) : (s.vFault p code).pending = s.pending := by
  simp [State.vFault]
@[simp] theorem State.readV_pending (p : Nat) (rs : List Nat) : (s.readV p rs).pending = s.pending := by
  simp [State.readV]
@[simp] theorem State.readM_pending (p : Nat) (ms : List Nat) : (s.readM p ms).pending = s.pending := by
  simp [State.readM]
@[simp] theorem State.pendRows_pending (p row v mask lat tier n : Nat) :
    (s.pendRows p row v mask lat tier n).pending = s.pending := by simp [State.pendRows]
@[simp] theorem State.badBuffer_pending (p d : Nat) : (s.badBuffer p d).pending = s.pending := by simp [State.badBuffer]

/-! #### The vector slot -/

@[simp] theorem State.vCheck_pending (p : Nat) (i : Instr) (o : VOp) : (s.vCheck p i o).pending = s.pending := by
  simp [State.vCheck]

@[simp] theorem State.vOp_pending (p : Nat) (i : Instr) (o : VOp) (ok : Bool) (occ : Nat) (k : State → State)
    (hk : ∀ t, (k t).pending = t.pending) : (s.vOp p i o ok occ k).pending = s.pending := by
  refine State.whenIssued_pending _ _ _ _ _ fun t => ?_
  split
  · exact State.vSlot_pending _ _ _ _ fun u => by simp [hk]
  · simp

@[simp] theorem State.vWrite_pending (p : Nat) (o : VOp) (lat : Nat) (ws : List Word) :
    (s.vWrite p o lat ws).pending = s.pending := by simp [State.vWrite]
@[simp] theorem State.drawIdx_pending (p : Nat) (o : VOp) : (s.drawIdx p o).pending = s.pending := by simp [State.drawIdx]
@[simp] theorem State.arith_pending (p : Nat) (i : Instr) (o : VOp) (f : FpVal → FpVal → FpVal → FpVal)
    (g : Word → Word → Word → Word) : (s.arith p i o f g).pending = s.pending := by simp [State.arith]
@[simp] theorem State.lanewise_pending (p : Nat) (i : Instr) (o : VOp) (lat : Nat) (f : Nat → Word → Word → Word) :
    (s.lanewise p i o lat f).pending = s.pending := by simp [State.lanewise]
@[simp] theorem State.trans_pending (p : Nat) (i : Instr) (o : VOp) (lat : Nat) (f : Word → Word → Word) :
    (s.trans p i o lat f).pending = s.pending := by simp [State.trans]
@[simp] theorem State.reduce_pending (p : Nat) (i : Instr) (o : VOp) (lat : Nat) (xs : State → List Word)
    (f : FpVal → FpVal → FpVal) (g : Word → Word → Word) : (s.reduce p i o lat xs f g).pending = s.pending := by
  simp [State.reduce]
@[simp] theorem State.writePair_pending (p : Nat) (o : VOp) (lat : Nat) (xs : List Nat) (mask : BitVec 256) :
    (s.writePair p o lat xs mask).pending = s.pending := by simp [State.writePair]
@[simp] theorem State.fp64Op_pending (p : Nat) (i : Instr) (o : VOp) (useC : Bool) (f : FpVal → FpVal → FpVal → FpVal) :
    (s.fp64Op p i o useC f).pending = s.pending := by simp [State.fp64Op]

/-! #### Stream contexts, the memory ports and their requests -/

@[simp] theorem State.portUse_pending (i : Nat) : (s.portUse i).pending = s.pending := by simp [State.portUse]
@[simp] theorem State.noRow_pending : (s.noRow).1.pending = s.pending := by simp [State.noRow]
@[simp] theorem State.lpMeet_pending (i da : Nat) (code : Code) : (s.lpMeet i da code).1.pending = s.pending := by
  simp [State.lpMeet]
@[simp] theorem State.lpRead_pending (da : Nat) : (s.lpRead da).1.pending = s.pending := by simp [State.lpRead]
@[simp] theorem State.lpWrite_pending (da : Nat) (v : Row) (mask : BitVec 64) (poison : Bool) :
    (s.lpWrite da v mask poison).pending = s.pending := by simp [State.lpWrite]
@[simp] theorem State.lpReadBytes_pending (da n : Nat) : (s.lpReadBytes da n).1.pending = s.pending := by
  unfold State.lpReadBytes
  exact foldl_fst_pending _ _ _ fun x k => by simp
@[simp] theorem State.lpWriteBytes_pending (da : Nat) (bs : List Byte) (poison : Bool) :
    (s.lpWriteBytes da bs poison).pending = s.pending := by simp [State.lpWriteBytes]
@[simp] theorem State.lpReadAny_pending (da : Nat) : (s.lpReadAny da).1.pending = s.pending := by simp [State.lpReadAny]
@[simp] theorem State.lpWriteAny_pending (da : Nat) (v : Row) (poison : Bool) :
    (s.lpWriteAny da v poison).pending = s.pending := by simp [State.lpWriteAny]
@[simp] theorem State.deckAccess_pending (p g n : Nat) (own : Bool) : (s.deckAccess p g n own).1.pending = s.pending := by
  simp [State.deckAccess]

@[simp] theorem State.deckUnit_pending (p g w : Nat) (own : Bool) : (s.deckUnit p g w own).1.pending = s.pending := by
  unfold State.deckUnit
  dsimp only
  (repeat' split) <;> simp

@[simp] theorem State.putDeckUnit_pending (p g w : Nat) (v : Row) (poison full own : Bool) :
    (s.putDeckUnit p g w v poison full own).1.pending = s.pending := by
  unfold State.putDeckUnit
  dsimp only
  (repeat' split) <;> simp

@[simp] theorem State.ctxEvent_pending (k : Nat) (code : Code) (far : Nat) :
    (s.ctxEvent k code far).pending = s.pending := by simp [State.ctxEvent]
@[simp] theorem State.nearRead_pending (k near : Nat) (own : Bool) : (s.nearRead k near own).1.pending = s.pending := by
  simp [State.nearRead]
@[simp] theorem State.nearWrite_pending (k near : Nat) (v : Row) (poison full own : Bool) :
    (s.nearWrite k near v poison full own).1.pending = s.pending := by simp [State.nearWrite]
@[simp] theorem State.enqueue_pending (qk : Nat) (r : Req) : (s.enqueue qk r).pending = s.pending := by
  simp [State.enqueue]
@[simp] theorem State.dequeue_pending (qk id : Nat) : (s.dequeue qk id).pending = s.pending := by simp [State.dequeue]
@[simp] theorem State.served_pending (qk : Nat) (r : Req) : (s.served qk r).pending = s.pending := by simp [State.served]
@[simp] theorem State.sourceRow_pending (r : Req) (own : Bool) : (s.sourceRow r own).1.pending = s.pending := by
  unfold State.sourceRow
  (repeat' split) <;> simp

@[simp] theorem State.sinkRow_pending (r : Req) (v : Row) (poison own : Bool) :
    (s.sinkRow r v poison own).1.pending = s.pending := by
  unfold State.sinkRow
  dsimp only
  (repeat' split) <;> simp

@[simp] theorem State.unitDone_pending (r : Req) : (s.unitDone r).pending = s.pending := by
  unfold State.unitDone
  dsimp only
  (repeat' split) <;> simp

@[simp] theorem State.failReq_pending (qk : Nat) (r : Req) (v : Row) : (s.failReq qk r v).pending = s.pending := by
  simp [State.failReq]
@[simp] theorem State.accLp_pending (da : Nat) (v : Row) (poison agrees : Bool) :
    (s.accLp da v poison agrees).pending = s.pending := by simp [State.accLp]
@[simp] theorem State.blockPort_pending (i key until_ : Nat) : (s.blockPort i key until_).pending = s.pending := by
  simp [State.blockPort]
@[simp] theorem State.retrainPort_pending (i key until_ : Nat) : (s.retrainPort i key until_).pending = s.pending := by
  simp [State.retrainPort]
@[simp] theorem State.patrolBlock_pending (i da : Nat) : (s.patrolBlock i da).pending = s.pending := by
  unfold State.patrolBlock
  (repeat' split) <;> simp

@[simp] theorem State.accDeck_pending (addr : Nat) (v : Row) (poison agrees : Bool) :
    (s.accDeck addr v poison agrees).pending = s.pending := by
  unfold State.accDeck
  dsimp only
  (repeat' split) <;> simp

@[simp] theorem State.accumulate_pending (deck : Bool) (addr : Nat) (v : Row) (zero poison agrees : Bool) :
    (s.accumulate deck addr v zero poison agrees).pending = s.pending := by simp [State.accumulate]
@[simp] theorem State.chunkReqs_pending (p u0 base : Nat) (spill : Bool) (deadline : Option Nat) :
    (s.chunkReqs p u0 base spill deadline).pending = s.pending := by simp [State.chunkReqs]

/-! #### The Depot -/

@[simp] theorem State.chanEvent_pending (code : Code) (ch ns off : Nat) :
    (s.chanEvent code ch ns off).pending = s.pending := by simp [State.chanEvent]
@[simp] theorem State.depotEvent_pending (code : Code) (ns off : Nat) : (s.depotEvent code ns off).pending = s.pending := by
  simp [State.depotEvent]
@[simp] theorem State.chanUse_pending (c : Nat) : (s.chanUse c).pending = s.pending := by simp [State.chanUse]
@[simp] theorem State.retireBlock_pending (b : BlockId) (reason : Nat) : (s.retireBlock b reason).pending = s.pending := by
  simp [State.retireBlock]
@[simp] theorem State.failLun_pending (ch target lun : Nat) : (s.failLun ch target lun).pending = s.pending := by
  simp [State.failLun]
@[simp] theorem State.recover_pending (ch ns off step : Nat) : (s.recover ch ns off step).1.pending = s.pending := by
  unfold State.recover
  split <;> simp
@[simp] theorem State.depotRead_pending (ch ns off step : Nat) : (s.depotRead ch ns off step).1.pending = s.pending := by
  simp [State.depotRead]
@[simp] theorem State.wearCheck_pending : s.wearCheck.pending = s.pending := by
  unfold State.wearCheck
  exact (foldl_pending _ _ _ fun u c => by simp).trans (State.onDepot_pending _ _)
@[simp] theorem State.eraseBlock_pending (k c : Nat) : (s.eraseBlock k c).pending = s.pending := by
  simp [State.eraseBlock]

/-! #### Pontoon's links -/

@[simp] theorem State.setPport_pending (p : Nat) (x : PontPort) : (s.setPport p x).pending = s.pending := by
  simp [State.setPport]
@[simp] theorem State.linkEvent_pending (code : Code) (p detail : Nat) :
    (s.linkEvent code p detail).pending = s.pending := by simp [State.linkEvent]
@[simp] theorem State.pktEvent_pending (code : Code) (k : Packet) : (s.pktEvent code k).pending = s.pending := by
  simp [State.pktEvent]
@[simp] theorem State.sendFlit_pending (p : Nat) (hdr : DWord) (body : List Byte) :
    (s.sendFlit p hdr body).pending = s.pending := by simp [State.sendFlit]
@[simp] theorem State.queuePkt_pending (p : Nat) (k : Packet) (cls : Nat) : (s.queuePkt p k cls).pending = s.pending := by
  simp [State.queuePkt]
@[simp] theorem State.sendReplay_pending (p : Nat) (f : ReplayFlit) : (s.sendReplay p f).pending = s.pending := by
  simp [State.sendReplay]
@[simp] theorem State.replayCopy_pending (p : Nat) (f : ReplayFlit) : (s.replayCopy p f).1.pending = s.pending := by
  unfold State.replayCopy
  split <;> simp

@[simp] theorem State.flitBoundary_pending (p : Nat) : (s.flitBoundary p).pending = s.pending := by
  unfold State.flitBoundary
  extract_lets x body n q
  split
  · rfl
  split
  · simp
  split
  · split
    next t g ht => simpa using pending_of_eq_mk ht (s.replayCopy_pending _ _)
  split
  · rfl
  split
  · simp
  extract_lets f key late fresh s1 s2 s3
  have h2 : s2.pending = s.pending := by simp [s2, s1]
  simp [s3, h2]

@[simp] theorem State.takeNak_pending (p n : Nat) : (s.takeNak p n).pending = s.pending := by simp [State.takeNak]

@[simp] theorem State.route_pending (k : Packet) (from_ : Option (Nat × Nat)) : (s.route k from_).pending = s.pending := by
  unfold State.route
  dsimp only
  (repeat' split) <;> simp

@[simp] theorem State.toPorts_pending (mk : BitVec 18 → Packet) (ok : Nat → Bool) :
    (s.toPorts mk ok).pending = s.pending := by simp [State.toPorts]
@[simp] theorem State.freeRx_pending (p : Nat) (k : Packet) (cls : Nat) : (s.freeRx p k cls).pending = s.pending := by
  simp [State.freeRx]
@[simp] theorem State.gotPacket_pending (p : Nat) (k : Packet) (cls : Nat) : (s.gotPacket p k cls).pending = s.pending := by
  simp [State.gotPacket]
@[simp] theorem State.takeControl_pending (p body : Nat) : (s.takeControl p body).pending = s.pending := by
  simp [State.takeControl]

@[simp] theorem State.takeRx_pending (p : Nat) (k : Packet) : (s.takeRx p k).pending = s.pending := by
  unfold State.takeRx
  dsimp only
  (repeat' split) <;> simp

/-! #### The control slot -/

@[simp] theorem State.cSlot_pending (p : Nat) (i : Instr) (k : State → State) (hk : ∀ t, (k t).pending = t.pending) :
    (s.cSlot p i k).pending = s.pending :=
  State.whenIssued_pending _ _ _ _ _ hk
@[simp] theorem State.waitFor_pending (p : Nat) (i : Instr) (target : Nat) : (s.waitFor p i target).pending = s.pending := by
  simp [State.waitFor]
@[simp] theorem State.openLoop_pending (p : Nat) (i : Instr) (level count len : Nat) :
    (s.openLoop p i level count len).pending = s.pending := by simp [State.openLoop]
@[simp] theorem State.fetchCheck_pending (p : Nat) : (s.fetchCheck p).pending = s.pending := by simp [State.fetchCheck]

/-! #### Trace records -/

@[simp] theorem State.formRec_pending (e : TrcEv) : (s.formRec e).1.pending = s.pending := by simp [State.formRec]
@[simp] theorem State.regionLoss_pending (r reason : Nat) : (s.regionLoss r reason).pending = s.pending := by
  simp [State.regionLoss]
@[simp] theorem State.lossNotice_pending (r : Nat) : (s.lossNotice r).pending = s.pending := by simp [State.lossNotice]
@[simp] theorem State.holdRec_pending (p : Nat) (e : TrcEv) : (s.holdRec p e).pending = s.pending := by
  unfold State.holdRec
  split <;> simp
@[simp] theorem State.coreRec_pending (p ty tcyc : Nat) (body : List Byte) :
    (s.coreRec p ty tcyc body).pending = s.pending := by simp [State.coreRec]
@[simp] theorem State.frameRec_pending (j : Nat) : (s.frameRec j).pending = s.pending := by
  unfold State.frameRec
  split <;> simp

@[simp] theorem State.streamRec_pending (k event : Nat) : (s.streamRec k event).pending = s.pending := by
  unfold State.streamRec
  dsimp only
  (repeat' split) <;> simp

@[simp] theorem State.arrivalRec_pending (p op : Nat) (f : Flit) : (s.arrivalRec p op f).pending = s.pending := by
  simp [State.arrivalRec]
@[simp] theorem State.exportLost_pending : (s.exportLost).pending = s.pending := by simp [State.exportLost]

/-! #### Pontoon's operations -/

@[simp] theorem State.setColl_pending (x : CollInst) : (s.setColl x).pending = s.pending := by simp [State.setColl]

@[simp] theorem State.publishDecision_pending (x : CollInst) (outcome : Nat) (clipped : Bool) (total : Nat) :
    (s.publishDecision x outcome clipped total).pending = s.pending := by
  unfold State.publishDecision
  dsimp only
  (repeat' split) <;> simp

@[simp] theorem State.actOn_pending (c outcome : Nat) (clipped : Bool) (total : Nat) :
    (s.actOn c outcome clipped total).pending = s.pending := by
  unfold State.actOn
  (repeat' split) <;> simp

@[simp] theorem State.broadcast_pending (c : Nat) : (s.broadcast c).pending = s.pending := by
  unfold State.broadcast
  (repeat' split) <;> simp
@[simp] theorem State.decideColl_pending (c outcome : Nat) : (s.decideColl c outcome).pending = s.pending := by
  unfold State.decideColl
  split <;> simp

@[simp] theorem State.holdDone_pending (c : Nat) (src : BitVec 18) (sats : Nat) :
    (s.holdDone c src sats).pending = s.pending := by
  unfold State.holdDone
  split <;> simp

@[simp] theorem State.memberCheck_pending (c : Nat) : (s.memberCheck c).pending = s.pending := by
  unfold State.memberCheck
  split <;> simp
@[simp] theorem State.trigger_pending (c f : Nat) : (s.trigger c f).pending = s.pending := by
  unfold State.trigger
  split <;> simp
@[simp] theorem State.raiseScale_pending (c : CollDesc) (seg : Nat) (ws : List Nat) :
    (s.raiseScale c seg ws).pending = s.pending := by simp [State.raiseScale]

theorem State.gather_pending (own : Bool) (rs : List Req) (t : State × List Byte × Bool) (h : s.gather own rs = some t) :
    t.1.pending = s.pending := by
  induction rs generalizing s own t with
  | nil =>
    cases h
    rfl
  | cons r rs ih =>
    have hr := s.sourceRow_pending r own
    unfold State.gather at h
    dsimp only at h
    split at h
    · cases h
    · obtain ⟨x, hx, rfl⟩ := Option.map_eq_some_iff.mp h
      exact (ih _ _ _ hx).trans hr

@[simp] theorem State.encodeBlock_pending (w : PeerWindow) (off : Nat) (bs : List Byte) :
    (s.encodeBlock w off bs).1.pending = s.pending := by
  unfold State.encodeBlock
  split <;> simp

@[simp] theorem State.formPacket_pending (p : Nat) : (s.formPacket p).pending = s.pending := by
  unfold State.formPacket
  extract_lets qk
  split
  · rfl
  split
  · rfl
  next w _ =>
  split
  · rfl
  next rs _ =>
  extract_lets off addr opc
  split
  · rfl
  next t bs po ht =>
  have h : t.pending = s.pending := by
    split at ht
    · exact State.gather_pending _ _ _ _ ht
    · cases ht
      rfl
  have he : (if opc = 5 then t.encodeBlock w off bs else (t, bs, 0, 0)).1.pending = t.pending := by simp
  generalize (if opc = 5 then t.encodeBlock w off bs else (t, bs, 0, 0)) = x at he
  obtain ⟨u, data, zmap, sats⟩ := x
  dsimp only at he ⊢
  rw [State.route_pending, State.onPont_pending, State.setQueue_pending]
  split
  · simp [he, h]
  · split <;> simp [he, h]

@[simp] theorem State.endOp_pending (o : RemoteOp) (v : Nat → Row) (poison : Bool) :
    (s.endOp o v poison).pending = s.pending := by
  unfold State.endOp
  dsimp only
  rw [State.memberCheck_pending]
  refine (foldl_pending _ _ _ fun t n => ?_).trans (State.onPont_pending _ _)
  split
  · rfl
  · split
    · rfl
    · split
      · rfl
      · rw [State.unitDone_pending, State.dequeue_pending]
        split <;> simp

@[simp] theorem State.endDecide_pending (o : RemoteOp) : (s.endDecide o).pending = s.pending := by simp [State.endDecide]
@[simp] theorem State.complete_pending (k : Packet) (status : Nat) : (s.complete k status).pending = s.pending := by
  simp [State.complete]
@[simp] theorem State.deckBytes_pending (a : Nat) (bs : List Byte) (poison : Bool) :
    (s.deckBytes a bs poison).pending = s.pending := by simp [State.deckBytes]
@[simp] theorem State.deckBytesAt_pending (da n : Nat) : (s.deckBytesAt da n).1.pending = s.pending := by
  unfold State.deckBytesAt
  exact foldl_fst_pending _ _ _ fun x k => by simp
@[simp] theorem State.putBytes_pending (deck : Bool) (a : Nat) (bs : List Byte) (poison : Bool) :
    (s.putBytes deck a bs poison).pending = s.pending := by simp [State.putBytes]
@[simp] theorem State.getBytes_pending (deck : Bool) (a n : Nat) : (s.getBytes deck a n).1.pending = s.pending := by
  simp [State.getBytes]
@[simp] theorem State.collGot_pending (c : Nat) : (s.collGot c).pending = s.pending := by
  unfold State.collGot
  split <;> simp
@[simp] theorem State.arrive_pending (p : Port) (k : Packet) (effect : State → State)
    (he : ∀ t, (effect t).pending = t.pending) : (s.arrive p k effect).pending = s.pending := by
  simp [State.arrive, he]
@[simp] theorem State.accRows_pending (deck : Bool) (a : Nat) (bs : List Byte) (poison : Bool) :
    (s.accRows deck a bs poison).pending = s.pending := by simp [State.accRows]
@[simp] theorem State.takeOver_pending : (s.takeOver).pending = s.pending := by simp [State.takeOver]
@[simp] theorem State.addFailed_pending (dev : BitVec 18) : (s.addFailed dev).pending = s.pending := by
  simp [State.addFailed]
@[simp] theorem State.sendTime_pending (master : BitVec 18) (now : Nat) : (s.sendTime master now).pending = s.pending := by
  simp [State.sendTime]
@[simp] theorem State.knowTick_pending (f inst period : Nat) (came : Option Nat) :
    (s.knowTick f inst period came).pending = s.pending := by simp [State.knowTick]

/-! #### The host link -/

@[simp] theorem State.hostEvent_pending (code : Code) (aux detail : Nat) :
    (s.hostEvent code aux detail).pending = s.pending := by simp [State.hostEvent]
@[simp] theorem State.refuseHost_pending (code : Code) (write : Bool) (n a : Nat) :
    (s.refuseHost code write n a).pending = s.pending := by simp [State.refuseHost]

@[simp] theorem State.bar2_pending (write : Bool) (off : Nat) (data : List Byte) (len : Nat) :
    (s.bar2 write off data len).1.pending = s.pending := by
  unfold State.bar2
  extract_lets deck p a ok s1 k g row whole
  refine fst_pending_ite (by simp [s1]) (fst_pending_ite (by simp) ?_)
  generalize (if deck then (deckBankKey p g, s.granSaved p g) else (nstBankKey p row, s.rowSaved p row)) = ks
  obtain ⟨key, saved⟩ := ks
  dsimp only
  split
  next t ht =>
    have h : t.pending = s.pending := pending_of_eq_mk ht (s.hostAccess_pending _ _ _ _ _)
    exact fst_pending_ite (by simp [h]) (by simp [h])
  next t acc _ ht => exact pending_of_eq_mk ht (s.hostAccess_pending _ _ _ _ _)

@[simp] theorem State.mirror_pending (b event : Nat) : (s.mirror b event).pending = s.pending := by
  unfold State.mirror
  split <;> simp
@[simp] theorem State.setRollout_pending (n : Nat) (r : Rollout) : (s.setRollout n r).pending = s.pending := by
  simp [State.setRollout]
@[simp] theorem State.rewound_pending (r : Rollout) : (s.rewound r).pending = s.pending := by
  unfold State.rewound
  split <;> simp

@[simp] theorem State.control_pending (kind n : Nat) (payload : List Byte) :
    (s.control kind n payload).pending = s.pending := by
  unfold State.control
  (repeat' split) <;> simp

@[simp] theorem State.letIn_pending (host : HostView) (b : Nat) (q a : RingDesc) (pi : Word) (n : Nat) :
    (s.letIn host b q a pi n).pending = s.pending := by
  induction n generalizing s with
  | zero => rfl
  | succ n ih =>
    unfold State.letIn
    dsimp only
    repeat' split
    all_goals first | rfl | (rw [ih]; simp)

@[simp] theorem State.fillLane_pending (l : LaneDecl) (qs : List (List Byte)) : (s.fillLane l qs).pending = s.pending :=
  by
  unfold State.fillLane
  dsimp only
  split <;> rfl

@[simp] theorem State.fillLanes_pending (ls : List LaneDecl) (qs : List (List Byte)) :
    (s.fillLanes ls qs).pending = s.pending := by
  induction ls generalizing s qs with
  | nil => rfl
  | cons l ls ih => simp [State.fillLanes, ih]

@[simp] theorem State.ageQueries_pending (host : HostView) (b : Nat) (q : RingDesc) (pi : Word) :
    (s.ageQueries host b q pi).pending = s.pending := by simp [State.ageQueries]

@[simp] theorem State.rolloutInputs_pending (len nq : Nat) : (s.rolloutInputs len nq).pending = s.pending := by
  unfold State.rolloutInputs
  refine foldl_pending _ _ _ fun t n => ?_
  split
  · rfl
  · dsimp only
    split
    · rfl
    · simp
    · split <;> rfl

@[simp] theorem State.hostFrameStart_pending (host : HostView) : (s.hostFrameStart host).pending = s.pending := by
  unfold State.hostFrameStart
  dsimp only
  (repeat' split) <;> simp

@[simp] theorem State.answerOf_pending (len n : Nat) : (s.answerOf len n).1.pending = s.pending := by
  unfold State.answerOf
  split <;> simp

@[simp] theorem State.hostFrameDone_pending : s.hostFrameDone.pending = s.pending := by
  unfold State.hostFrameDone
  extract_lets b act nq s1 s2 s3
  have h1 : s1.pending = s.pending := by
    unfold s1
    split
    · rfl
    next a ha =>
      extract_lets len put t1 t2
      have hput (t : State) (n : Nat) (hdr) : (put t n hdr).pending = t.pending := by simp [put]
      have ht1 : t1.pending = s.pending := foldl_pending _ _ _ fun u n => hput _ _ _
      have ht2 : t2.pending = s.pending := (foldl_pending _ _ _ fun u n => by split <;> simp [hput]).trans ht1
      simp [ht2]
  have h2 : s2.pending = s.pending := by
    refine (foldl_pending _ _ _ ?_).trans h1
    intros
    rfl
  have h3 : s3.pending = s.pending := by
    unfold s3
    split
    · exact h2
    · exact h2
  exact (State.mirror_pending _ _ _).trans h3

/-! #### Waybills -/

@[simp] theorem State.freePartial_pending (k : Nat) : (s.freePartial k).pending = s.pending := by simp [State.freePartial]
@[simp] theorem State.closeFor_pending (k : Nat) : (s.closeFor k).pending = s.pending := by simp [State.closeFor]
@[simp] theorem State.wbEnd_pending (k : Nat) : (s.wbEnd k).pending = s.pending := by simp [State.wbEnd]
@[simp] theorem State.wbNext_pending (k : Nat) : (s.wbNext k).pending = s.pending := by simp [State.wbNext]
@[simp] theorem State.wbWait_pending (k : Nat) (full : Option Nat) : (s.wbWait k full).pending = s.pending := by
  simp [State.wbWait]
@[simp] theorem State.wbGo_pending (c : CtxId) (i : Instr) (f : State → CtxSt → State)
    (hf : ∀ t x, (f t x).pending = t.pending) : (s.wbGo c i f).pending = s.pending := by
  simp [State.wbGo, hf]

@[simp] theorem State.wbTrigger_pending (k : Nat) : (s.wbTrigger k).pending = s.pending := by
  unfold State.wbTrigger
  dsimp only
  (repeat' split) <;> simp

@[simp] theorem State.triggerWaybills_pending (first : Bool) : (s.triggerWaybills first).pending = s.pending := by
  unfold State.triggerWaybills
  refine foldl_pending _ _ _ fun t e => ?_
  split
  · rfl
  · simp

@[simp] theorem State.farFail_pending (k : Nat) (code : Code) (far : Nat) : (s.farFail k code far).pending = s.pending := by
  simp [State.farFail]

@[simp] theorem State.farTake_pending (k : Nat) (b : BufDesc) (far n : Nat) : (s.farTake k b far n).pending = s.pending := by
  unfold State.farTake
  dsimp only
  (repeat' split) <;> simp

theorem State.route1_pending (k : Nat) (b : BufDesc) (far near : Nat) (full : Bool) (t : State × Nat × Req)
    (h : s.route1 k b far near full = some t) : t.1.pending = s.pending := by
  unfold State.route1 at h
  dsimp only at h
  repeat' split at h
  all_goals cases h
  all_goals rfl

theorem State.zeroUnit_pending (k : Nat) (fill : Bool) (near : Nat) (full own : Bool) (t : State)
    (h : s.zeroUnit k fill near full own = some t) : t.pending = s.pending := by
  have hw := s.nearWrite_pending k near 0 false full own
  unfold State.zeroUnit at h
  dsimp only at h
  split at h
  · split at h
    · cases h
    · cases h; exact hw
  · split at h <;> cases h <;> simp

theorem State.issuePiece_pending (k : Nat) (b : BufDesc) (far near : Nat) (full null : Bool) (n : Nat) (t : State)
    (h : s.issuePiece k b far near full null n = some t) : t.pending = s.pending := by
  induction n generalizing s far near with
  | zero =>
    cases h
    rfl
  | succ n ih =>
    unfold State.issuePiece at h
    extract_lets code s1 s2 at h
    clear_value code
    have h1 : s1.pending = s.pending := by
      unfold s1
      split <;> simp
    have h2 (u : State) (hu : s2 = some u) : u.pending = s1.pending := by
      unfold s2 at hu
      split at hu
      · exact State.zeroUnit_pending _ _ _ _ _ _ _ hu
      · split at hu
        · cases hu
        next v qk r hr =>
          cases hu
          simpa using State.route1_pending _ _ _ _ _ _ _ hr
    clear_value s2 s1
    cases s2 with
    | none => cases h
    | some u => exact (ih _ _ _ h).trans ((h2 u rfl).trans h1)

@[simp] theorem State.transfer_pending (k : Nat) (b : BufDesc) (far near n : Nat) (null : Bool) (fuel : Nat) :
    (s.transfer k b far near n null fuel).pending = s.pending := by
  induction fuel generalizing s with
  | zero => rfl
  | succ fuel ih =>
    unfold State.transfer
    dsimp only
    split
    · simp
    · split
      · simp
      · split
        · simp
        next u hu =>
          rw [ih, State.setCtx_pending, State.issuePiece_pending _ _ _ _ _ _ _ _ _ hu]

@[simp] theorem State.wbTransfer_pending (k : Nat) (foff noff : Int) (n : Nat) (null : Bool) :
    (s.wbTransfer k foff noff n null).pending = s.pending := by
  unfold State.wbTransfer
  dsimp only
  (repeat' split) <;> simp

@[simp] theorem State.nextIndex_pending (k x : Nat) : (s.nextIndex k x).1.pending = s.pending := by
  unfold State.nextIndex
  extract_lets c p kx y g
  split
  · rfl
  split
  · simp
  split
  · split
    next t v po ht =>
      have h : t.pending = s.pending := pending_of_eq_mk ht (s.deckUnit_pending _ _ _ _)
      dsimp only
      rw [setCtx_pending, ite_pending, setCtx_pending, ite_self, h]
    · simp
    next t v po ht => simpa using pending_of_eq_mk ht (s.deckUnit_pending _ _ _ _)
  · simp

/-! #### The parameter update -/

@[simp] theorem State.updEvent_pending (code : Code) (r aux : Nat) : (s.updEvent code r aux).pending = s.pending := by
  simp [State.updEvent]
@[simp] theorem State.updPending_pending : (s.updPending).pending = s.pending := by simp [State.updPending]

@[simp] theorem State.stepRows_pending : s.stepRows.pending = s.pending := by
  unfold State.stepRows
  split
  · rfl
  · refine foldl_pending _ _ _ fun t c => ?_
    split <;> rfl

@[simp] theorem State.skewCheck_pending (r : Nat) : (s.skewCheck r).pending = s.pending := by
  unfold State.skewCheck
  dsimp only
  (repeat' split) <;> simp

@[simp] theorem State.engineCheck_pending (r : Nat) : (s.engineCheck r).pending = s.pending := by simp [State.engineCheck]
@[simp] theorem State.writeConsts_pending : (s.writeConsts).pending = s.pending := by simp [State.writeConsts]

@[simp] theorem State.rootRead_pending (n : Nat) : (s.rootRead n).pending = s.pending := by
  unfold State.rootRead
  split
  · rfl
  extract_lets off a
  split
  next t ht => simpa using pending_of_eq_mk ht (s.deckTake_pending _ _ _)
  next t ht => exact pending_of_eq_mk ht (s.deckTake_pending _ _ _)
  next t ht =>
    have h : t.pending = s.pending := pending_of_eq_mk ht (s.deckTake_pending _ _ _)
    dsimp only
    split
    · simpa using h
    · split <;> simpa using h

@[simp] theorem State.rootReads_pending : (s.rootReads).pending = s.pending := by simp [State.rootReads]
@[simp] theorem State.rootRecords_pending : (s.rootRecords).pending = s.pending := by simp [State.rootRecords]
@[simp] theorem State.updFrameStart_pending (commit : Bool) : (s.updFrameStart commit).pending = s.pending := by
  simp [State.updFrameStart]
@[simp] theorem State.updOpen_pending : (s.updOpen).pending = s.pending := by simp [State.updOpen]
@[simp] theorem State.updateBlock_pending (p : Nat) (o : VOp) : (s.updateBlock p o).pending = s.pending := by
  simp [State.updateBlock]

/-! #### The counter collector and the trace writer -/

@[simp] theorem State.endLatch_pending (j : Nat) : (s.endLatch j).pending = s.pending := by simp [State.endLatch]
@[simp] theorem State.addPage_pending (j : PageJob) : (s.addPage j).pending = s.pending := by simp [State.addPage]
@[simp] theorem State.latchPacket_pending : (s.latchPacket).pending = s.pending := by simp [State.latchPacket]
@[simp] theorem State.filteredPage_pending (b slot trigger pgh opcode tag : Nat) :
    (s.filteredPage b slot trigger pgh opcode tag).pending = s.pending := by simp [State.filteredPage]
@[simp] theorem State.cmdLatch_pending (trigger pgh opcode tag b : Nat) :
    (s.cmdLatch trigger pgh opcode tag b).pending = s.pending := by simp [State.cmdLatch]
@[simp] theorem State.frameLatch_pending : (s.frameLatch).pending = s.pending := by simp [State.frameLatch]
@[simp] theorem State.adminLatch_pending : (s.adminLatch).pending = s.pending := by simp [State.adminLatch]
@[simp] theorem State.refill_pending : (s.refill).pending = s.pending := by simp [State.refill]

theorem State.takeShare_pending (n : Nat) (t : State) (h : s.takeShare n = some t) : t.pending = s.pending := by
  unfold State.takeShare at h
  dsimp only at h
  split at h
  · cases h
    simp
  · cases h

@[simp] theorem State.skipPage_pending (j : PageJob) : (s.skipPage j).pending = s.pending := by simp [State.skipPage]

@[simp] theorem State.storePage_pending (j : PageJob) : (s.storePage j).1.pending = s.pending := by
  unfold State.storePage
  split
  · split
    · simp
    · dsimp only
      rw [State.onObs_pending, State.count_pending, State.lpWriteBytes_pending]
  · dsimp only
    split
    · simp
    · dsimp only
      rw [State.count_pending, State.lpWriteBytes_pending]

@[simp] theorem State.putRec_pending (r : Nat) (v : Row) : (s.putRec r v).pending = s.pending := by simp [State.putRec]
@[simp] theorem State.exportRec_pending (v : Row) : (s.exportRec v).pending = s.pending := by simp [State.exportRec]

@[simp] theorem State.writeRec_pending (r : Nat) (v : Row) : (s.writeRec r v).pending = s.pending := by
  unfold State.writeRec
  dsimp only
  split
  · simp
  · split
    · simp
    next t h =>
      have ht := s.takeShare_pending _ t h
      simp [ht]

/-! #### Pigeonholes -/

@[simp] theorem State.respond_pending (n : Nat) (a : Answer) : (s.respond n a).pending = s.pending := by
  simp [State.respond]
@[simp] theorem State.finishCmd_pending (n : Nat) (a : Answer) : (s.finishCmd n a).pending = s.pending := by
  simp [State.finishCmd]
@[simp] theorem State.await_pending (n : Nat) (w : List Nat) : (s.await n w).pending = s.pending := by simp [State.await]

@[simp] theorem State.underOld_pending (t : Option (Tab Byte)) (k : State → State) (hk : ∀ t, (k t).pending = t.pending) :
    (s.underOld t k).pending = s.pending := by
  unfold State.underOld
  split
  · exact hk s
  · exact hk _

@[simp] theorem State.command_pending (n : Pgh) (op : Nat) (k : State → PghSt → State)
    (hk : ∀ t x, (k t x).pending = t.pending) : (s.command n op k).pending = s.pending := by
  unfold State.command
  dsimp only
  split
  · exact State.underOld_pending _ _ _ fun t => hk t _
  · rfl

@[simp] theorem State.hostPut_pending (hpa : Nat) (bs : List Byte) : (s.hostPut hpa bs).pending = s.pending := by
  simp [State.hostPut]

/-! #### The Courier network -/

@[simp] theorem State.onClu_pending (j : Nat) (f : CluSt → CluSt) : (s.onClu j f).pending = s.pending := by
  simp [State.onClu]
@[simp] theorem State.sendPkt_pending (src dst : Nat) (cls : BitVec 3) (pay : BitVec 17) :
    (s.sendPkt src dst cls pay).pending = s.pending := by simp [State.sendPkt]
@[simp] theorem State.rootCast_pending (cls : BitVec 3) (pay : BitVec 17) : (s.rootCast cls pay).pending = s.pending := by
  simp [State.rootCast]
@[simp] theorem State.ackPkt_pending (node src : Nat) (cls : BitVec 3) (pay : BitVec 17) :
    (s.ackPkt node src cls pay).pending = s.pending := by simp [State.ackPkt]
@[simp] theorem State.losePkt_pending (o : CourierOut) : (s.losePkt o).pending = s.pending := by simp [State.losePkt]
@[simp] theorem State.courEvent_pending (code : Code) (hop : Nat) : (s.courEvent code hop).pending = s.pending := by
  simp [State.courEvent]
@[simp] theorem State.spoilArrives_pending (d : SpoilDue) : (s.spoilArrives d).pending = s.pending := by
  unfold State.spoilArrives
  split <;> simp
@[simp] theorem State.spoilsOf_pending (j : Nat) : (s.spoilsOf j).pending = s.pending := by simp [State.spoilsOf]
@[simp] theorem State.spoilDone_pending (step : Bool) : (s.spoilDone step).pending = s.pending := by
  simp [State.spoilDone]

/-! #### What takes effect between two frames -/

@[simp] theorem State.tickWrites_pending : (s.tickWrites).pending = s.pending := by simp [State.tickWrites]
@[simp] theorem State.writeTickSrc_pending (v : BitVec 4) : (s.writeTickSrc v).pending = s.pending := by
  simp [State.writeTickSrc]
@[simp] theorem State.writePeriod_pending (v : Nat) : (s.writePeriod v).1.pending = s.pending := by
  simp [State.writePeriod]
@[simp] theorem State.powerChanges_pending : (s.powerChanges).pending = s.pending := by simp [State.powerChanges]
@[simp] theorem State.askPower_pending (f : PowerSt → PowerSt) : (s.askPower f).pending = s.pending := by
  simp [State.askPower]
@[simp] theorem State.raiseVdd_pending (mv : Nat) : (s.raiseVdd mv).pending = s.pending := by simp [State.raiseVdd]
@[simp] theorem State.applyClock_pending (mhz mem dep : Nat) : (s.applyClock mhz mem dep).pending = s.pending := by
  simp [State.applyClock]
@[simp] theorem State.clockAnswers_pending : (s.clockAnswers).pending = s.pending := by simp [State.clockAnswers]
@[simp] theorem State.clockStep_pending : (s.clockStep).pending = s.pending := by
  unfold State.clockStep
  split <;> simp

/-! #### Ticks, frames, the commit gate and stops -/

@[simp] theorem State.frmEvent_pending (code : Code) (detail : Nat) : (s.frmEvent code detail).pending = s.pending := by
  simp [State.frmEvent]
@[simp] theorem State.unitsStart_pending (h : FrameHdr) : (s.unitsStart h).pending = s.pending := by
  simp [State.unitsStart]
@[simp] theorem State.scalesStart_pending : (s.scalesStart).pending = s.pending := by simp [State.scalesStart]
@[simp] theorem State.obsPending_pending : (s.obsPending).pending = s.pending := by simp [State.obsPending]
@[simp] theorem State.lateStart_pending : (s.lateStart).pending = s.pending := by
  unfold State.lateStart
  split <;> simp
@[simp] theorem State.floorStart_pending : (s.floorStart).pending = s.pending := by simp [State.floorStart]

@[simp] theorem State.startFrame_pending (host : HostView) : (s.startFrame host).pending = s.pending := by
  unfold State.startFrame
  split
  · rfl
  next g _ =>
  extract_lets s1 f n first bad s2 s3 s4
  have h4 : s4.pending = s.pending := by simp [s4, s3, s2, s1]
  split
  · exact h4
  next h _ =>
  extract_lets t1 t2 t3 t4 t5 t6 t7
  have ht2 : t2.pending = s.pending := by
    rw [foldl_pending, foldl_pending, State.unitsStart_pending, h4]
    · exact fun u p => u.fetchCheck_pending p
    · intro u p
      rw [State.planIdle_pending, State.planIdle_pending]
  simp [t7, t6, t5, t4, t3, ht2]

@[simp] theorem State.stopAtTick_pending : (s.stopAtTick).pending = s.pending := by simp [State.stopAtTick]
@[simp] theorem State.abandon_pending : (s.abandon).pending = s.pending := by simp [State.abandon]
@[simp] theorem State.immediate_pending (forced : Bool) : (s.immediate forced).pending = s.pending := by
  simp [State.immediate]
@[simp] theorem State.banksOff_pending : (s.banksOff).pending = s.pending := by simp [State.banksOff]
@[simp] theorem State.overrideAnswers_pending : (s.overrideAnswers).pending = s.pending := by simp [State.overrideAnswers]

@[simp] theorem State.endInvocation_pending (keep : Bool) : (s.endInvocation keep).pending = s.pending := by
  unfold State.endInvocation
  split
  · rfl
  · refine (State.clockStep_pending _).trans ?_
    refine (State.powerChanges_pending _).trans ?_
    refine (State.overrideAnswers_pending _).trans ?_
    refine (State.obsPending_pending _).trans ?_
    refine (State.updPending_pending _).trans ?_
    refine (State.tickWrites_pending _).trans ?_
    dsimp only
    rw [State.onFrm_pending, State.banksOff_pending, State.onPost_pending]

@[simp] theorem State.stopFinish_pending : (s.stopFinish).pending = s.pending := by
  unfold State.stopFinish
  dsimp only
  (repeat' split) <;> simp

@[simp] theorem State.stopCheck_pending : (s.stopCheck).pending = s.pending := by
  unfold State.stopCheck
  dsimp only
  (repeat' split) <;> simp

@[simp] theorem State.resume_pending (step : Bool) : (s.resume step).pending = s.pending := by simp [State.resume]
@[simp] theorem State.resumeNow_pending (n : Nat) (step : Bool) : (s.resumeNow n step).pending = s.pending := by
  simp [State.resumeNow]
@[simp] theorem State.resumeOr_pending (n : Nat) (step : Bool) : (s.resumeOr n step).pending = s.pending := by
  simp [State.resumeOr]
@[simp] theorem State.overrun_pending (host : HostView) : (s.overrun host).pending = s.pending := by simp [State.overrun]
@[simp] theorem State.strike_pending (host : HostView) : (s.strike host).pending = s.pending := by simp [State.strike]
@[simp] theorem State.coreEnd_pending (p : Nat) (last : Bool) : (s.coreEnd p last).pending = s.pending := by
  simp [State.coreEnd]

@[simp] theorem State.stopEndMark_pending (p : Nat) (arr : Arr) : (s.stopEndMark p arr).pending = s.pending := by
  unfold State.stopEndMark
  dsimp only
  (repeat' split) <;> simp

@[simp] theorem State.routerEndMark_pending (p : Nat) : (s.routerEndMark p).pending = s.pending := by
  unfold State.routerEndMark
  extract_lets x q s1 s2 s3
  have hq (t : State) (port n ej) : (q t port n ej).pending = t.pending := by simp [q]
  have h1 : s1.pending = s.pending := by
    unfold s1
    split <;> simp
  simp only [s3, s2, hq, h1]

@[simp] theorem State.frameDone_pending (host : HostView) : (s.frameDone host).pending = s.pending := by
  simp [State.frameDone]
@[simp] theorem State.stopNow_pending (j : Nat) : (s.stopNow j).pending = s.pending := by simp [State.stopNow]

/-! #### Images -/

@[simp] theorem State.placeTables_pending (img : Image) (i : Nat) : (s.placeTables img i).pending = s.pending := by
  unfold State.placeTables
  dsimp only
  rw [foldl_pending, foldl_pending]
  · intro t c
    split <;> rfl
  · intro t f
    rfl

@[simp] theorem State.placeDeck_pending (img : Image) (lost : Bool) : (s.placeDeck img lost).pending = s.pending := by
  unfold State.placeDeck
  extract_lets put s1
  have hput (t : State) (p : Nat) (bs) : (put t p bs).pending = t.pending :=
    foldl_pending _ _ _ fun u k => by simp
  have h1 : s1.pending = s.pending := foldl_pending _ _ _ fun u c => by
    split
    · exact hput _ _ _
    · rfl
  exact (foldl_pending _ _ _ fun u f => hput _ _ _).trans h1

@[simp] theorem State.place_pending (b : Nat) (img : Image) : (s.place b img).pending = s.pending := by simp [State.place]

/-! #### The program and berth commands -/

@[simp] theorem State.selectCounters_pending (img : Image) : (s.selectCounters img).pending = s.pending := by
  simp [State.selectCounters]
@[simp] theorem State.initScales_pending (img : Image) (step : Nat) : (s.initScales img step).pending = s.pending := by
  simp [State.initScales]

@[simp] theorem State.startRun_pending (g : Prog) (p : PghSt) (mask : List (Nat × Retained)) :
    (s.startRun g p mask).pending = s.pending := by
  unfold State.startRun
  extract_lets img b start step others kept near post s1 s2 s3 s4 upd depot pont obs host s5 s6 s7
  have h2 : s2.pending = s.pending := by rw [State.placeDeck_pending, State.placeTables_pending]
  have h4 : s4.pending = s.pending := by
    rw [State.initScales_pending, State.selectCounters_pending]
    exact h2
  have h6 : s6.pending = s.pending := by
    unfold s6
    split
    · exact (foldl_pending _ _ _ fun t i => by rw [State.planWake_pending, State.planWake_pending]).trans h4
    · exact h4
  have h7 : s7.pending = s.pending := h6
  split
  · exact h7
  · exact h7

@[simp] theorem State.openRange_pending (r : Nat × Nat × Nat) : (s.openRange r).pending = s.pending := by
  unfold State.openRange
  split <;> simp

@[simp] theorem State.leave_pending (n : Nat) : (s.leave n).pending = s.pending := by
  unfold State.leave
  dsimp only
  (repeat' split) <;> simp

@[simp] theorem State.failOthers_pending (n : Nat) (q : PghSt → Bool) : (s.failOthers n q).pending = s.pending := by
  simp [State.failOthers]
@[simp] theorem State.scrubCore_pending (p : Nat) : (s.scrubCore p).pending = s.pending := by simp [State.scrubCore]
@[simp] theorem State.startScrub_pending (b : Nat) (cores : List Nat) (decks lps : List (Nat × Nat)) :
    (s.startScrub b cores decks lps).pending = s.pending := by simp [State.startScrub]
@[simp] theorem State.endByForce_pending : (s.endByForce).pending = s.pending := by simp [State.endByForce]

/-! #### Berth-table commits -/

@[simp] theorem State.berthLoses_pending (old : Tab Byte) (b : Nat) : (s.berthLoses old b).pending = s.pending := by
  simp [State.berthLoses]
@[simp] theorem State.noteGrants_pending (old : Tab Byte) : (s.noteGrants old).pending = s.pending := by
  unfold State.noteGrants
  split <;> simp
@[simp] theorem State.commitTable_pending : (s.commitTable).1.pending = s.pending := by
  unfold State.commitTable
  split <;> simp

/-! #### The memory commands -/

@[simp] theorem State.spacesOn_pending (rs : List (Nat × Nat × Nat)) : (s.spacesOn rs).pending = s.pending := by
  simp [State.spacesOn]

@[simp] theorem State.spaceRead_pending (space a n : Nat) (host : HostView) :
    (s.spaceRead space a n host).1.pending = s.pending := by
  unfold State.spaceRead
  split <;> simp

@[simp] theorem State.spaceWrite_pending (space a : Nat) (bs : List Byte) (poison : Bool) :
    (s.spaceWrite space a bs poison).pending = s.pending := by
  unfold State.spaceWrite
  split <;> simp

@[simp] theorem State.moveBlocks_pending (a b : Nat × Nat) (n : Nat) (host : HostView) (k : Nat) :
    (s.moveBlocks a b n host k).pending = s.pending := by
  induction k generalizing s a b n with
  | zero => rfl
  | succ k ih => simp [State.moveBlocks, ih]

@[simp] theorem State.flipPage_pending (n page : Nat) : (s.flipPage n page).pending = s.pending := by
  simp [State.flipPage]

@[simp] theorem State.flipNext_pending (n : Nat) : (s.flipNext n).pending = s.pending := by
  unfold State.flipNext
  dsimp only
  (repeat' split) <;> simp

@[simp] theorem State.marchFor_pending (p : Nat) (deck : Bool) (cells : List BadCell) :
    (s.marchFor p deck cells).1.pending = s.pending := by simp [State.marchFor]

/-! #### The Depot commands -/

@[simp] theorem State.sanitize_pending (held : List (Nat × Nat)) : (s.sanitize held).pending = s.pending := by
  simp [State.sanitize]
@[simp] theorem State.nsGet_pending (ns off : Nat) : (s.nsGet ns off).1.pending = s.pending := by simp [State.nsGet]
@[simp] theorem State.nsPut_pending (ns off : Nat) (v : Row) (poison : Bool) :
    (s.nsPut ns off v poison).pending = s.pending := by simp [State.nsPut]

@[simp] theorem State.nsToSpace_pending (ns off space a n k : Nat) :
    (s.nsToSpace ns off space a n k).pending = s.pending := by
  induction k generalizing s off a n with
  | zero => rfl
  | succ k ih => simp [State.nsToSpace, ih]

@[simp] theorem State.spaceToNs_pending (space a ns off size n : Nat) (host : HostView) (k : Nat) :
    (s.spaceToNs space a ns off size n host k).1.pending = s.pending := by
  induction k generalizing s a off n with
  | zero => rfl
  | succ k ih => simp [State.spaceToNs, ih]

@[simp] theorem State.saveRanges_pending (ns off : Nat) (rs : List (Nat × Nat × Nat)) :
    (s.saveRanges ns off rs).1.pending = s.pending := by
  induction rs generalizing s off with
  | nil => rfl
  | cons r rs ih => simp [State.saveRanges, ih]

@[simp] theorem State.loadRanges_pending (ns off : Nat) (rs : List (Nat × Nat × Nat)) :
    (s.loadRanges ns off rs).pending = s.pending := by
  induction rs generalizing s off with
  | nil => rfl
  | cons r rs ih => simp [State.loadRanges, ih]

@[simp] theorem State.quiesceNext_pending (n : Nat) : (s.quiesceNext n).pending = s.pending := by simp [State.quiesceNext]

/-! #### The commands of the other groups -/

@[simp] theorem State.bringUp_pending (p : Nat) (trains : Bool) (rtNs : Nat) (peer : BitVec 18) :
    (s.bringUp p trains rtNs peer).pending = s.pending := by simp [State.bringUp]
@[simp] theorem State.disablePort_pending (p : Nat) (force : Bool) : (s.disablePort p force).pending = s.pending := by
  simp [State.disablePort]
@[simp] theorem State.configurePont_pending (p : PghSt) : (s.configurePont p).pending = s.pending := by
  simp [State.configurePont]

/-! #### Posted commands -/

@[simp] theorem State.abandonCmd_pending (n : Nat) (a : Answer) : (s.abandonCmd n a).pending = s.pending := by
  simp [State.abandonCmd]

/-! #### Writes of registers -/

@[simp] theorem State.writeAdmin_pending (off w : Nat) : (s.writeAdmin off w).pending = s.pending := by
  unfold State.writeAdmin
  split <;> simp
@[simp] theorem State.writeTree_pending (off w : Nat) : (s.writeTree off w).pending = s.pending := by
  simp [State.writeTree]
@[simp] theorem State.writePgh_pending (n off w : Nat) : (s.writePgh n off w).pending = s.pending := by
  simp [State.writePgh]
@[simp] theorem State.writeSel_pending (p : Nat) (hi : Bool) (w : Nat) : (s.writeSel p hi w).pending = s.pending := by
  simp [State.writeSel]
@[simp] theorem State.writeCnt_pending (off w : Nat) : (s.writeCnt off w).pending = s.pending := by
  unfold State.writeCnt
  (repeat' split) <;> simp
@[simp] theorem State.writeCto_pending (w : Nat) : (s.writeCto w).pending = s.pending := by simp [State.writeCto]
@[simp] theorem State.writeReg_pending (off w : Nat) (viaAdmin : Bool) :
    (s.writeReg off w viaAdmin).pending = s.pending := by simp [State.writeReg]
@[simp] theorem State.writeWide_pending (off v : Nat) (viaAdmin : Bool) :
    (s.writeWide off v viaAdmin).pending = s.pending := by simp [State.writeWide]

/-! #### RESET_N, power-up and delivery -/

@[simp] theorem State.afterReset_pending : (s.afterReset).pending = s.pending := by simp [State.afterReset]
@[simp] theorem State.isolate_pending : (s.isolate).pending = s.pending := by simp [State.isolate]
@[simp] theorem State.march_pending (f : BootFindings) : (s.march f).pending = s.pending := by simp [State.march]
@[simp] theorem State.trainLink_pending (f : BootFindings) : (s.trainLink f).pending = s.pending := by
  simp [State.trainLink]
@[simp] theorem State.takeIdentity_pending (host : HostView) : (s.takeIdentity host).pending = s.pending := by
  simp [State.takeIdentity]
@[simp] theorem State.takeGrade_pending (host : HostView) : (s.takeGrade host).pending = s.pending := by
  simp [State.takeGrade]
@[simp] theorem State.settleShape_pending : (s.settleShape).pending = s.pending := by simp [State.settleShape]
@[simp] theorem State.voltageSearch_pending (v : VoltageFinding) : (s.voltageSearch v).pending = s.pending := by
  unfold State.voltageSearch
  (repeat' split) <;> simp
@[simp] theorem State.startFirmware_pending (volt : VoltageFinding) : (s.startFirmware volt).pending = s.pending := by
  simp [State.startFirmware]
@[simp] theorem State.rejectDelivery_pending (res : Nat) : (s.rejectDelivery res).pending = s.pending := by
  simp [State.rejectDelivery]

/-! #### The network slot -/

@[simp] theorem State.receive_pending (p : Nat) (i : Instr) (op : Nat) (a : Option Nat) (k : State → Flit → State)
    (hk : ∀ t x, (k t x).pending = t.pending) : (s.receive p i op a k).pending = s.pending := by
  refine State.whenIssued_pending _ _ _ _ _ fun t => ?_
  extract_lets u
  have hu : u.pending = t.pending := by
    unfold u
    split <;> simp
  split
  · simp [hu]
  · simp [hk, hu]

@[simp] theorem State.receiveAdd_pending (p : Nat) (i : Instr) (a : BitVec 4) (fmt : BitVec 1) :
    (s.receiveAdd p i a fmt).pending = s.pending := by simp [State.receiveAdd]

/-! #### Clocks, time and power -/

@[simp] theorem State.cluEvent_pending (code : Code) (j : Nat) : (s.cluEvent code j).pending = s.pending := by
  simp [State.cluEvent]
@[simp] theorem State.pwrEvent_pending (code : Code) (detail : Nat) : (s.pwrEvent code detail).pending = s.pending := by
  simp [State.pwrEvent]
@[simp] theorem State.endLost_pending : (s.endLost).pending = s.pending := by simp [State.endLost]
@[simp] theorem State.emergency_pending (which : Nat) : (s.emergency which).pending = s.pending := by
  simp [State.emergency]
@[simp] theorem State.avsFailed_pending : (s.avsFailed).pending = s.pending := by simp [State.avsFailed]
@[simp] theorem State.dropSensor_pending (k reading : Nat) : (s.dropSensor k reading).pending = s.pending := by
  simp [State.dropSensor]

/-! #### The pins, the management and the test ports -/

@[simp] theorem State.failSelf_pending : (s.failSelf).pending = s.pending := by simp [State.failSelf]

end

/-! ### How a command is answered -/

/-- A command is answered as it must be: with a next state that has the waiting commands of `s` when its operands lie within
their fields (`ok`), and with a refusal of that command when they do not. -/
def Answers (s : State) (ok : Bool) (o : Host.Outcome State Fault Refusal) : Prop :=
  (ok = true → ∃ t, o = .next t ∧ t.pending = s.pending) ∧ (ok = false → ∃ m, o = .refused (.illFormed m))

theorem Answers.next {s t : State} (h : t.pending = s.pending) : Answers s true (.next t) :=
  ⟨fun _ => ⟨t, rfl, h⟩, fun h => Bool.noConfusion h⟩

/-- A meaning that checks its operands itself. -/
theorem Answers.of_ite {s t : State} {ok : Bool} {m : String} (h : t.pending = s.pending) :
    Answers s ok (if ok then .next t else .refused (.illFormed m)) := by
  cases ok
  · exact ⟨fun h => Bool.noConfusion h, fun _ => ⟨m, rfl⟩⟩
  · exact .next h

/-- The meaning of a table entry, which must name the entry's own operation (R140, R185). -/
theorem Answers.of_entryCmd {s t : State} {ok : Bool} {m : String} (h : t.pending = s.pending) :
    Answers s ok (entryCmd m ok t) :=
  .of_ite h

/-! #### The Ferry ring -/

theorem execPass_answers (p : Pos) (arr : Arr) (e : BitVec 128) (i : BitVec 8) (s : State) :
    Answers s (wfEntry 1 e) (execPass p arr e i s) :=
  .of_entryCmd (s.stopOp_pending _ _ _ _ _ _ fun t => by
    dsimp only
    split <;> simp)

theorem execTake_answers (p : Pos) (arr : Arr) (e : BitVec 128) (i : BitVec 8) (s : State) :
    Answers s (wfEntry 2 e) (execTake p arr e i s) :=
  .of_entryCmd (s.stopOp_pending _ _ _ _ _ _ fun t => by
    dsimp only
    split <;> simp)

theorem execSink_answers (p : Pos) (arr : Arr) (e : BitVec 128) (i : BitVec 8) (s : State) :
    Answers s (wfEntry 3 e) (execSink p arr e i s) := .of_entryCmd (s.stopOp_pending _ _ _ _ _ _ fun t => by simp)

theorem execFerrySend_answers (p : Pos) (arr : Arr) (e : BitVec 128) (i : BitVec 8) (s : State) :
    Answers s (wfEntry 4 e) (execFerrySend p arr e i s) :=
  .of_entryCmd (s.stopOp_pending _ _ _ _ _ _ fun t => by
    extract_lets k c lane b me
    split
    next u f hu =>
    have h0 : u.pending = t.pending := State.pending_of_eq_mk hu (t.arrival_pending _ _ _ _)
    extract_lets s1 x starts mk s2 s3 y mine inMk s4
    have h1 : s1.pending = t.pending := by simp [s1, h0]
    have h3 : s3.pending = t.pending := by simp [s3, s2, h1]
    have h4 : s4.pending = t.pending := by
      unfold s4
      split
      · simp [h3]
      · split
        · exact h3
        · split <;> simp [h3]
    simp [h4])

theorem execFetch_answers (p : Pos) (arr : Arr) (e : BitVec 128) (s : State) :
    Answers s (wfEntry 5 e) (execFetch p arr e s) := .of_entryCmd (s.stopOp_pending _ _ _ _ _ _ fun t => by simp)
theorem execAccept_answers (p : Pos) (arr : Arr) (e : BitVec 128) (s : State) :
    Answers s (wfEntry 6 e) (execAccept p arr e s) := .of_entryCmd (s.stopOp_pending _ _ _ _ _ _ fun t => by simp)
theorem execTrainTableLoad_answers (p : Pos) (arr : Arr) (e : BitVec 128) (s : State) :
    Answers s (wfEntry 7 e) (execTrainTableLoad p arr e s) := .of_entryCmd (s.stopOp_pending _ _ _ _ _ _ fun t => by simp)

/-! #### The array slot -/

theorem execFeed_answers (p : Pos) (arr : Arr) (acc : Bool) (field : BitVec 4) (s : State) :
    Answers s true (execFeed p arr acc field s) :=
  .next (s.whenIssued_pending _ _ _ _ fun t => by
    extract_lets cfg m a tile en row s1 s2 begun r pairs afmt
    have h1 : s1.pending = t.pending := by simp [s1]
    have h2 : s2.pending = t.pending := by simpa [s2] using h1
    have hb (u : State) (sclp used srow) : (begun u sclp used srow).pending = u.pending := by simp [begun]
    split
    · simp [r, hb, h2]
    next i _ =>
    have h3 := s2.readRows_pending p.val row ((i.actBytes + 63) / 64)
    generalize s2.readRows p.val row ((i.actBytes + 63) / 64) = x at h3
    obtain ⟨u, bytes⟩ := x
    dsimp only at h3 ⊢
    have h4 : (if i.mx then u.feedScales p.val arr (i.depth / 32)
        else (u, [], u.sclReg p.val arr, a.sclUsed, a.sclRow)).1.pending = t.pending := by simp [h3, h2]
    generalize (if i.mx then u.feedScales p.val arr (i.depth / 32)
      else (u, [], u.sclReg p.val arr, a.sclUsed, a.sclRow)) = y at h4
    obtain ⟨v, sx, sclp, used, srow⟩ := y
    dsimp only at h4 ⊢
    split
    · simp [hb, h4]
    · split <;> simp [hb, h4])

theorem execCfg_answers (p : Pos) (arr : Arr) (field : BitVec 4) (s : State) : Answers s true (execCfg p arr field s) :=
  .next (s.whenIssued_pending _ _ _ _ fun t => by simp)

theorem execSwap_answers (p : Pos) (arr : Arr) (s : State) : Answers s true (execSwap p arr s) :=
  .next (s.whenIssued_pending _ _ _ _ fun t => by
    dsimp only
    split <;> simp)

theorem execLatch_answers (p : Pos) (arr : Arr) (s : State) : Answers s true (execLatch p arr s) :=
  .next (s.whenIssued_pending _ _ _ _ fun t => by
    dsimp only
    (repeat' split) <;> simp)

/-! #### Bank power and the accesses of a bank -/

theorem execBankWakeComplete_answers (p : Pos) (deck : Bool) (bank : Fin 16) (s : State) :
    Answers s true (execBankWakeComplete p deck bank s) :=
  .next (by
    dsimp only
    (repeat' split) <;> simp)

theorem execBgtGroupStart_answers (p : Pos) (deck : Bool) (cells : List BadCell) (s : State) :
    Answers s true (execBgtGroupStart p deck cells s) := .next (by simp)
theorem execBgtStepStart_answers (p : Pos) (deck : Bool) (s : State) : Answers s true (execBgtStepStart p deck s) :=
  .next (by simp)

/-! #### The mesh -/

theorem execFwd_answers (p : Pos) (e : BitVec 128) (i : BitVec 8) (s : State) :
    Answers s (wfEntry 1 e) (execFwd p e i s) := .of_entryCmd (s.rtrOp_pending _ _ _ _ _ fun t => by simp)
theorem execMerge32_answers (p : Pos) (e1 e2 : BitVec 128) (s : State) :
    Answers s (wfEntry 2 e1 && wfEntry 2 e2) (execMerge32 p e1 e2 s) := .of_entryCmd (s.merge_pending ..)
theorem execMerge16_answers (p : Pos) (e1 e2 : BitVec 128) (s : State) :
    Answers s (wfEntry 3 e1 && wfEntry 3 e2) (execMerge16 p e1 e2 s) := .of_entryCmd (s.merge_pending ..)
theorem execPoolrd_answers (p : Pos) (e : BitVec 128) (s : State) : Answers s (wfEntry 4 e) (execPoolrd p e s) :=
  .of_entryCmd (s.rtrOp_pending _ _ _ _ _ fun t => by simp)
theorem execSlotTableLoad_answers (p : Pos) (e : BitVec 128) (s : State) :
    Answers s (wfEntry 5 e) (execSlotTableLoad p e s) := .of_entryCmd (s.rtrOp_pending _ _ _ _ _ fun t => by simp)
theorem execZombieFlit_answers (p : Pos) (s : State) : Answers s true (execZombieFlit p s) := .next (by simp)

/-! #### The memory slot -/

theorem execLd_answers (p : Pos) (v : BitVec 5) (a : BitVec 4) (w : BitVec 2) (s : State) :
    Answers s true (execLd p v a w s) := .next (s.mSlot_pending _ _ _ _ fun t => by simp)
theorem execSt_answers (p : Pos) (v : BitVec 5) (a : BitVec 4) (w pm : BitVec 2) (s : State) :
    Answers s true (execSt p v a w pm s) := .next (s.mSlot_pending _ _ _ _ fun t => by simp)
theorem execSta_answers (p : Pos) (v : BitVec 5) (a : BitVec 4) (fmt : BitVec 1) (s : State) :
    Answers s true (execSta p v a fmt s) := .next (s.mSlot_pending _ _ _ _ fun t => by simp)
theorem execPsd_answers (p : Pos) (a : BitVec 4) (arr : Arr) (entry : BitVec 7) (s : State) :
    Answers s true (execPsd p a arr entry s) := .next (s.mSlot_pending _ _ _ _ fun t => by simp)
theorem execDkrd_answers (p : Pos) (a : BitVec 4) (dp : BitVec 3) (s : State) : Answers s true (execDkrd p a dp s) :=
  .next (s.portSlot_pending _ _ _ _ fun t => by simp)
theorem execDkwr_answers (p : Pos) (a : BitVec 4) (dp : BitVec 3) (s : State) : Answers s true (execDkwr p a dp s) :=
  .next (s.portSlot_pending _ _ _ _ fun t => by simp)

theorem execLdl_answers (p : Pos) (a : BitVec 4) (dp : BitVec 3) (d : BitVec 6) (s : State) :
    Answers s true (execLdl p a dp d s) :=
  .next (s.portSlot_pending _ _ _ _ fun t => State.port_pending _ _ _ _ fun u => by
    dsimp only
    split <;> simp)

theorem execStl_answers (p : Pos) (a : BitVec 4) (dp : BitVec 3) (d : BitVec 6) (s : State) :
    Answers s true (execStl p a dp d s) :=
  .next (s.portSlot_pending _ _ _ _ fun t => State.port_pending _ _ _ _ fun u => by
    dsimp only
    split <;> simp)

theorem execDkrt_answers (p : Pos) (a : BitVec 4) (dp : BitVec 3) (dest : BitVec 1) (s : State) :
    Answers s true (execDkrt p a dp dest s) :=
  .next (s.portSlot_pending _ _ _ _ fun t => by
    dsimp only
    refine State.port_pending _ _ _ _ fun u => ?_
    simp [State.foldl_pending])

theorem execPush_answers (p : Pos) (a : BitVec 4) (s : State) : Answers s true (execPush p a s) :=
  .next (s.portSlot_pending _ _ _ _ fun t => State.port_pending _ _ _ _ fun u => by
    dsimp only
    (repeat' split) <;> simp)

theorem execPop_answers (p : Pos) (a : BitVec 4) (s : State) : Answers s true (execPop p a s) :=
  .next (s.portSlot_pending _ _ _ _ fun t => by simp)

/-! #### The vector slot -/

theorem execVadd_answers (p : Pos) (o : VOp) (s : State) : Answers s true (execVadd p o s) := .next (s.arith_pending ..)
theorem execVsub_answers (p : Pos) (o : VOp) (s : State) : Answers s true (execVsub p o s) := .next (s.arith_pending ..)
theorem execVmul_answers (p : Pos) (o : VOp) (s : State) : Answers s true (execVmul p o s) := .next (s.arith_pending ..)
theorem execVfma_answers (p : Pos) (o : VOp) (s : State) : Answers s true (execVfma p o s) := .next (s.arith_pending ..)
theorem execVmax_answers (p : Pos) (o : VOp) (s : State) : Answers s true (execVmax p o s) :=
  .next (s.lanewise_pending ..)
theorem execVmin_answers (p : Pos) (o : VOp) (s : State) : Answers s true (execVmin p o s) :=
  .next (s.lanewise_pending ..)
theorem execVabs_answers (p : Pos) (o : VOp) (s : State) : Answers s true (execVabs p o s) :=
  .next (s.lanewise_pending ..)
theorem execVneg_answers (p : Pos) (o : VOp) (s : State) : Answers s true (execVneg p o s) :=
  .next (s.lanewise_pending ..)
theorem execVcmp_answers (p : Pos) (o : VOp) (s : State) : Answers s true (execVcmp p o s) :=
  .next (s.vOp_pending _ _ _ _ _ _ fun t => by simp)
theorem execVsel_answers (p : Pos) (o : VOp) (s : State) : Answers s true (execVsel p o s) :=
  .next (s.lanewise_pending ..)
theorem execVmov_answers (p : Pos) (o : VOp) (s : State) : Answers s true (execVmov p o s) :=
  .next (s.lanewise_pending ..)
theorem execVbc_answers (p : Pos) (o : VOp) (s : State) : Answers s true (execVbc p o s) := .next (s.lanewise_pending ..)
theorem execVrdp_answers (p : Pos) (o : VOp) (s : State) : Answers s true (execVrdp p o s) :=
  .next (s.vOp_pending _ _ _ _ _ _ fun t => by simp)
theorem execVlane_answers (p : Pos) (o : VOp) (s : State) : Answers s true (execVlane p o s) :=
  .next (s.lanewise_pending ..)
theorem execVrcp_answers (p : Pos) (o : VOp) (s : State) : Answers s true (execVrcp p o s) := .next (s.trans_pending ..)
theorem execVsqrt_answers (p : Pos) (o : VOp) (s : State) : Answers s true (execVsqrt p o s) := .next (s.trans_pending ..)
theorem execVrsqrt_answers (p : Pos) (o : VOp) (s : State) : Answers s true (execVrsqrt p o s) :=
  .next (s.trans_pending ..)
theorem execVdiv_answers (p : Pos) (o : VOp) (s : State) : Answers s true (execVdiv p o s) := .next (s.trans_pending ..)
theorem execVexp2_answers (p : Pos) (o : VOp) (s : State) : Answers s true (execVexp2 p o s) := .next (s.trans_pending ..)
theorem execVlog2_answers (p : Pos) (o : VOp) (s : State) : Answers s true (execVlog2 p o s) := .next (s.trans_pending ..)
theorem execVtanh_answers (p : Pos) (o : VOp) (s : State) : Answers s true (execVtanh p o s) := .next (s.trans_pending ..)
theorem execVsigm_answers (p : Pos) (o : VOp) (s : State) : Answers s true (execVsigm p o s) := .next (s.trans_pending ..)
theorem execVerf_answers (p : Pos) (o : VOp) (s : State) : Answers s true (execVerf p o s) := .next (s.trans_pending ..)
theorem execVsin_answers (p : Pos) (o : VOp) (s : State) : Answers s true (execVsin p o s) := .next (s.trans_pending ..)
theorem execVcos_answers (p : Pos) (o : VOp) (s : State) : Answers s true (execVcos p o s) := .next (s.trans_pending ..)
theorem execVrsum_answers (p : Pos) (o : VOp) (s : State) : Answers s true (execVrsum p o s) :=
  .next (s.reduce_pending ..)
theorem execVrmax_answers (p : Pos) (o : VOp) (s : State) : Answers s true (execVrmax p o s) :=
  .next (s.reduce_pending ..)
theorem execVrmin_answers (p : Pos) (o : VOp) (s : State) : Answers s true (execVrmin p o s) :=
  .next (s.reduce_pending ..)
theorem execVrdot_answers (p : Pos) (o : VOp) (s : State) : Answers s true (execVrdot p o s) :=
  .next (s.reduce_pending ..)
theorem execViadd_answers (p : Pos) (o : VOp) (s : State) : Answers s true (execViadd p o s) :=
  .next (s.lanewise_pending ..)
theorem execVisub_answers (p : Pos) (o : VOp) (s : State) : Answers s true (execVisub p o s) :=
  .next (s.lanewise_pending ..)
theorem execVand_answers (p : Pos) (o : VOp) (s : State) : Answers s true (execVand p o s) :=
  .next (s.lanewise_pending ..)
theorem execVor_answers (p : Pos) (o : VOp) (s : State) : Answers s true (execVor p o s) := .next (s.lanewise_pending ..)
theorem execVxor_answers (p : Pos) (o : VOp) (s : State) : Answers s true (execVxor p o s) :=
  .next (s.lanewise_pending ..)
theorem execVshl_answers (p : Pos) (o : VOp) (s : State) : Answers s true (execVshl p o s) :=
  .next (s.lanewise_pending ..)
theorem execVshr_answers (p : Pos) (o : VOp) (s : State) : Answers s true (execVshr p o s) :=
  .next (s.lanewise_pending ..)
theorem execDadd_answers (p : Pos) (o : VOp) (s : State) : Answers s true (execDadd p o s) := .next (s.fp64Op_pending ..)
theorem execDmul_answers (p : Pos) (o : VOp) (s : State) : Answers s true (execDmul p o s) := .next (s.fp64Op_pending ..)
theorem execDfma_answers (p : Pos) (o : VOp) (s : State) : Answers s true (execDfma p o s) := .next (s.fp64Op_pending ..)
theorem execDrsum_answers (p : Pos) (o : VOp) (s : State) : Answers s true (execDrsum p o s) :=
  .next (s.vOp_pending _ _ _ _ _ _ fun t => by simp)
theorem execDcvt_answers (p : Pos) (o : VOp) (s : State) : Answers s true (execDcvt p o s) := .next (by simp)
theorem execVcvf_answers (p : Pos) (o : VOp) (s : State) : Answers s true (execVcvf p o s) :=
  .next (s.vOp_pending _ _ _ _ _ _ fun t => by simp)
theorem execVcvm_answers (p : Pos) (o : VOp) (s : State) : Answers s true (execVcvm p o s) :=
  .next (s.vOp_pending _ _ _ _ _ _ fun t => by simp)
theorem execVcvb_answers (p : Pos) (o : VOp) (s : State) : Answers s true (execVcvb p o s) :=
  .next (s.vOp_pending _ _ _ _ _ _ fun t => by simp)
theorem execVcvi_answers (p : Pos) (o : VOp) (s : State) : Answers s true (execVcvi p o s) := .next (by simp)

/-! #### Stream contexts, the memory ports and their requests -/

theorem execMemoryPortRequest_answers (i : Port) (s : State) : Answers s true (execMemoryPortRequest i s) :=
  .next (by
    dsimp only
    (repeat' split) <;> simp)

theorem execLpddr5xRequestTimeout_answers (i : Port) (id : Nat) (s : State) :
    Answers s true (execLpddr5xRequestTimeout i id s) :=
  .next (by
    dsimp only
    (repeat' split) <;> simp)

theorem execRefresh_answers (i : Port) (chan : Fin 4) (bank : Fin 16) (s : State) :
    Answers s true (execRefresh i chan bank s) := .next (by simp)
theorem execMr4Poll_answers (i : Port) (mult : BitVec 2) (s : State) : Answers s true (execMr4Poll i mult s) :=
  .next (by simp)
theorem execWckOscillatorRead_answers (i : Port) (chan : Fin 4) (drifted : Bool) (s : State) :
    Answers s true (execWckOscillatorRead i chan drifted s) := .next (by simp)
theorem execPortFullRetrain_answers (i : Port) (s : State) : Answers s true (execPortFullRetrain i s) :=
  .next (s.retrainPort_pending ..)
theorem execLpddr5xPatrol_answers (i : Port) (line : Nat) (s : State) : Answers s true (execLpddr5xPatrol i line s) :=
  .next (by simp)
theorem execSelfRefreshEntry_answers (i : Port) (s : State) : Answers s true (execSelfRefreshEntry i s) := .next (by simp)

theorem execRemoteAccumulate_answers (space : Fin 2) (addr : Nat) (vals : Row) (zero poison adderAgrees : Bool)
    (s : State) : Answers s (wfAccumulate addr) (execRemoteAccumulate space addr vals zero poison adderAgrees s) :=
  .of_ite (by
    extract_lets i p g
    split
    · simp
    split
    · simp
    split
    · simp
    split
    · simp
    split
    next t ht => simpa using State.pending_of_eq_mk ht (s.takeBank_pending _ _)
    · simp)

theorem execStackSpillStart_answers (p : Pos) (s : State) : Answers s true (execStackSpillStart p s) :=
  .next (by
    dsimp only
    (repeat' split) <;> simp)

theorem execStackFillStart_answers (p : Pos) (s : State) : Answers s true (execStackFillStart p s) :=
  .next (by
    dsimp only
    (repeat' split) <;> simp)

theorem execStackChunkComplete_answers (p : Pos) (s : State) : Answers s true (execStackChunkComplete p s) :=
  .next (by
    dsimp only
    (repeat' split) <;> simp)

/-! #### The Depot -/

theorem execDepotWriteRequest_answers (ch : Chan) (s : State) : Answers s true (execDepotWriteRequest ch s) :=
  .next (by split <;> simp)
theorem execUnitCloseTimeout_answers (ns : Fin 64) (unit : Nat) (s : State) :
    Answers s true (execUnitCloseTimeout ns unit s) := .next rfl
theorem execBlockRetire_answers (b : BlockId) (reason : Fin 5) (s : State) :
    Answers s true (execBlockRetire b reason s) := .next (by simp)
theorem execLunFailed_answers (ch : Chan) (target lun : Fin 8) (s : State) :
    Answers s true (execLunFailed ch target lun s) := .next (s.failLun_pending ..)
theorem execOnfiTimeout_answers (ch : Chan) (target lun : Fin 8) (s : State) :
    Answers s true (execOnfiTimeout ch target lun s) := .next (by simp)

theorem execOnfiStatusPoll_answers (ch : Chan) (opFailed : Bool) (s : State) :
    Answers s true (execOnfiStatusPoll ch opFailed s) :=
  .next (by
    split
    · rfl
    · split
      · rfl
      · dsimp only
        split
        · exact (State.foldl_pending _ _ _ fun t y => t.onDepot_pending _).trans (State.retireBlock_pending _ _ _)
        · simp)

theorem execJournalProgram_answers (s : State) : Answers s true (execJournalProgram s) := .next (by simp)
theorem execDepotReadRequest_answers (ch : Chan) (recovery : Fin 6) (s : State) :
    Answers s true (execDepotReadRequest ch recovery s) := .next (by split <;> simp)

theorem execDepotRequestTimeout_answers (ch : Chan) (id : Nat) (s : State) :
    Answers s true (execDepotRequestTimeout ch id s) :=
  .next (by
    dsimp only
    (repeat' split) <;> simp)

theorem execDepotPatrol_answers (b : BlockId) (bitsCorrected : Nat) (s : State) :
    Answers s true (execDepotPatrol b bitsCorrected s) := .next (by simp)
theorem execDepotRefresh_answers (b : BlockId) (s : State) : Answers s true (execDepotRefresh b s) := .next (by simp)
theorem execGarbageCollection_answers (ns : Fin 64) (unit : Nat) (s : State) :
    Answers s true (execGarbageCollection ns unit s) := .next (by simp)
theorem execWearLevelling_answers (ch : Chan) (s : State) : Answers s true (execWearLevelling ch s) := .next (by simp)
theorem execDepotChannelRetrain_answers (ch : Chan) (s : State) : Answers s true (execDepotChannelRetrain ch s) :=
  .next (by simp)
theorem execDepotChannelStandby_answers (ch : Chan) (s : State) : Answers s true (execDepotChannelStandby ch s) :=
  .next (by simp)

theorem execDepotBringUp_answers (uids : List Nat) (s : State) : Answers s (wfUids uids) (execDepotBringUp uids s) :=
  .of_ite (by
    dsimp only
    (repeat' split) <;> simp)

/-! #### Pontoon's links -/

theorem execNak_answers (p : Port) (expected : BitVec 14) (s : State) : Answers s true (execNak p expected s) :=
  .next (by simp)
theorem execAckTimer_answers (p : Port) (s : State) : Answers s true (execAckTimer p s) := .next (by simp)

theorem execPontFlitReceive_answers (p : Port) (hdr : BitVec 64) (body : BitVec 1984) (rsFixed : BitVec 4) (rsBad : Bool)
    (s : State) : Answers s true (execPontFlitReceive p hdr body rsFixed rsBad s) :=
  .next (by
    dsimp only
    (repeat' split) <;> simp)

theorem execLaneFailure_answers (p : Port) (lane : Fin 4) (s : State) : Answers s true (execLaneFailure p lane s) :=
  .next (by simp)
theorem execSpareLaneTrained_answers (p : Port) (s : State) : Answers s true (execSpareLaneTrained p s) := .next (by simp)
theorem execLinkDown_answers (p : Port) (s : State) : Answers s true (execLinkDown p s) := .next (by simp)
theorem execLinkRetrainComplete_answers (p : Port) (ok : Bool) (s : State) :
    Answers s true (execLinkRetrainComplete p ok s) := .next (by simp)
theorem execHeartbeat_answers (p : Port) (s : State) : Answers s true (execHeartbeat p s) := .next (s.setPport_pending ..)
theorem execHeartbeatTimer_answers (s : State) : Answers s true (execHeartbeatTimer s) := .next (by simp)

/-! #### The control slot -/

theorem execWaitc_answers (p : Pos) (target : BitVec 20) (s : State) : Answers s true (execWaitc p target s) :=
  .next (s.waitFor_pending ..)
theorem execWaits_answers (p : Pos) (sa : BitVec 4) (s : State) : Answers s true (execWaits p sa s) :=
  .next (s.waitFor_pending ..)
theorem execRpt_answers (p : Pos) (n : BitVec 16) (s : State) : Answers s true (execRpt p n s) :=
  .next (s.cSlot_pending _ _ _ fun t => by simp)
theorem execLoop_answers (p : Pos) (level : BitVec 2) (count : BitVec 10) (len : BitVec 8) (s : State) :
    Answers s true (execLoop p level count len s) := .next (s.openLoop_pending ..)
theorem execLoops_answers (p : Pos) (level : BitVec 2) (sa : BitVec 4) (len : BitVec 8) (s : State) :
    Answers s true (execLoops p level sa len s) := .next (s.openLoop_pending ..)
theorem execJmp_answers (p : Pos) (addr : BitVec 13) (s : State) : Answers s true (execJmp p addr s) :=
  .next (s.cSlot_pending _ _ _ fun t => by simp)
theorem execBnz_answers (p : Pos) (sa : BitVec 4) (addr : BitVec 13) (s : State) : Answers s true (execBnz p sa addr s) :=
  .next (s.cSlot_pending _ _ _ fun t => by simp)

theorem execPage_answers (p : Pos) (slot : BitVec 4) (code : BitVec 12) (s : State) :
    Answers s true (execPage p slot code s) :=
  .next (s.cSlot_pending _ _ _ fun t => State.port_pending _ _ _ _ fun u => by
    rw [State.pendOp_pending]
    exact State.foldl_pending _ _ _ fun v k => v.pendOp_pending _ _ _ _ _ _)

theorem execSetl_answers (p : Pos) (sd : BitVec 4) (imm : BitVec 16) (s : State) : Answers s true (execSetl p sd imm s) :=
  .next (s.cSlot_pending _ _ _ fun t => by simp)
theorem execSeth_answers (p : Pos) (sd : BitVec 4) (imm : BitVec 16) (s : State) : Answers s true (execSeth p sd imm s) :=
  .next (s.cSlot_pending _ _ _ fun t => by simp)
theorem execSalu_answers (p : Pos) (sd sa sb func : BitVec 4) (s : State) : Answers s true (execSalu p sd sa sb func s) :=
  .next (s.cSlot_pending _ _ _ fun t => by split <;> simp)
theorem execMovx_answers (p : Pos) (sa : BitVec 4) (target : BitVec 5) (s : State) :
    Answers s true (execMovx p sa target s) := .next (s.cSlot_pending _ _ _ fun t => by simp)
theorem execEnd_answers (p : Pos) (s : State) : Answers s true (execEnd p s) :=
  .next (s.cSlot_pending _ _ _ fun t => by simp)

/-! #### Trace records -/

theorem execMark_answers (p : Pos) (val : BitVec 16) (s : State) : Answers s true (execMark p val s) :=
  .next (s.cSlot_pending _ _ _ fun t => by simp)

/-! #### Pontoon's operations -/

theorem execPortFlitBoundary_answers (p : Port) (s : State) : Answers s true (execPortFlitBoundary p s) := .next (by simp)

theorem execReadResp_answers (p : Port) (pkt : Packet) (s : State) : Answers s true (execReadResp p pkt s) :=
  .next (by
    dsimp only
    (repeat' split) <;> simp)

theorem execCompletion_answers (p : Port) (pkt : Packet) (s : State) : Answers s true (execCompletion p pkt s) :=
  .next (by
    dsimp only
    (repeat' split) <;> simp)

theorem execRemoteOpTimeout_answers (id : Nat) (s : State) : Answers s true (execRemoteOpTimeout id s) :=
  .next (by split <;> simp)
theorem execWrite_answers (p : Port) (pkt : Packet) (s : State) : Answers s true (execWrite p pkt s) :=
  .next (s.arrive_pending _ _ _ fun t => by simp)
theorem execRead_answers (p : Port) (pkt : Packet) (s : State) : Answers s true (execRead p pkt s) :=
  .next (s.arrive_pending _ _ _ fun t => by simp)
theorem execRaccF32_answers (p : Port) (pkt : Packet) (s : State) : Answers s true (execRaccF32 p pkt s) :=
  .next (s.arrive_pending _ _ _ fun t => by simp)
theorem execRaccAs8_answers (p : Port) (pkt : Packet) (s : State) : Answers s true (execRaccAs8 p pkt s) :=
  .next (s.arrive_pending _ _ _ fun t => by simp)
theorem execRmax8_answers (p : Port) (pkt : Packet) (s : State) : Answers s true (execRmax8 p pkt s) :=
  .next (s.arrive_pending _ _ _ fun t => by simp)
theorem execDone_answers (p : Port) (pkt : Packet) (s : State) : Answers s true (execDone p pkt s) := .next (by simp)

theorem execDecide_answers (p : Port) (pkt : Packet) (s : State) : Answers s true (execDecide p pkt s) :=
  .next (by
    dsimp only
    (repeat' split) <;> simp)

theorem execCollectiveDeadline_answers (coll : BitVec 16) (s : State) : Answers s true (execCollectiveDeadline coll s) :=
  .next (by split <;> simp)
theorem execDecisionWaitExpiry_answers (coll : BitVec 16) (s : State) : Answers s true (execDecisionWaitExpiry coll s) :=
  .next (by split <;> simp)
theorem execReservedOpcPacket_answers (p : Port) (pkt : Packet) (s : State) :
    Answers s true (execReservedOpcPacket p pkt s) := .next (by simp)
theorem execUnreachablePacket_answers (p : Port) (pkt : Packet) (s : State) :
    Answers s true (execUnreachablePacket p pkt s) := .next (by simp)
theorem execFailed_answers (p : Port) (dev : BitVec 18) (s : State) : Answers s true (execFailed p dev s) :=
  .next (by simp)
theorem execNeighbourFailure_answers (p : Port) (s : State) : Answers s true (execNeighbourFailure p s) := .next (by simp)
theorem execTime_answers (p : Port) (pkt : Packet) (sysTime : Nat) (fromNewMaster : Bool) (s : State) :
    Answers s true (execTime p pkt sysTime fromNewMaster s) := .next (by simp)
theorem execTimeDistribution_answers (s : State) : Answers s true (execTimeDistribution s) := .next (by simp)
theorem execLinkDelayMeasurement_answers (p : Port) (t1 t2 t3 t4 : Nat) (s : State) :
    Answers s true (execLinkDelayMeasurement p t1 t2 t3 t4 s) := .next rfl
theorem execTick_answers (p : Port) (sv : BitVec 48) (inst period : Nat) (s : State) :
    Answers s (wfPeriod period) (execTick p sv inst period s) := .of_ite (by simp)
theorem execTickFlood_answers (s : State) : Answers s true (execTickFlood s) := .next (by split <;> simp)
theorem execLockLoss_answers (s : State) : Answers s true (execLockLoss s) := .next (by split <;> simp)

/-! #### The host link -/

theorem execDeviceRequestCompletion_answers (id : Nat) (data : List Byte) (poison : Bool) (s : State) :
    Answers s (wfCompletion data) (execDeviceRequestCompletion id data poison s) :=
  .of_ite (by
    dsimp only
    (repeat' split) <;> simp)

theorem execDeviceRequestTimeout_answers (id : Nat) (s : State) : Answers s true (execDeviceRequestTimeout id s) :=
  .next (by
    split
    · rfl
    · split
      · split
        · rw [State.hostEvent_pending]
          exact State.foldl_pending _ _ _ fun t k => rfl
        · rfl
      · simp)

theorem execUcieLinkError_answers (s : State) : Answers s true (execUcieLinkError s) := .next (by simp)
theorem execUcieRetrainComplete_answers (ok : Bool) (s : State) : Answers s true (execUcieRetrainComplete ok s) :=
  .next (by simp)
theorem execHostSnoop_answers (hpa : Nat) (s : State) : Answers s true (execHostSnoop hpa s) := .next rfl
theorem execUnsupportedRequest_answers (hpa : Nat) (s : State) : Answers s true (execUnsupportedRequest hpa s) :=
  .next (by simp)
theorem execHostMemAccess_answers (write : Bool) (da : Nat) (data : Row) (s : State) :
    Answers s (wfHostMem da) (execHostMemAccess write da data s) := .of_ite (by simp)

theorem execBar2Access_answers (write : Bool) (off : Nat) (data : List Byte) (len : Nat) (s : State) :
    Answers s (wfBar2 write off data len) (execBar2Access write off data len s) :=
  .of_ite (by
    split
    next t ht => simpa using State.pending_of_eq_mk ht (s.bar2_pending _ _ _ _)
    next t ht => exact State.pending_of_eq_mk ht (s.bar2_pending _ _ _ _))

theorem execHostIdxWrite_answers (b : Port) (which : Fin 3) (val : Word) (s : State) :
    Answers s true (execHostIdxWrite b which val s) :=
  .next (by
    dsimp only
    (repeat' split) <;> simp)

/-! #### Waybills -/

theorem execWaybillEnd_answers (c : CtxId) (s : State) : Answers s true (execWaybillEnd c s) :=
  .next (s.wbGo_pending _ _ _ fun t x => by simp)
theorem execSetb_answers (c : CtxId) (reg : BitVec 3) (val : BitVec 56) (s : State) :
    Answers s true (execSetb c reg val s) := .next (s.wbGo_pending _ _ _ fun t x => by simp)
theorem execWaybillLoop_answers (c : CtxId) (level : BitVec 3) (count : BitVec 20) (fs : BitVec 24) (ns : BitVec 12)
    (s : State) : Answers s true (execWaybillLoop c level count fs ns s) :=
  .next (s.wbGo_pending _ _ _ fun t x => by simp)

theorem execEndl_answers (c : CtxId) (level : BitVec 3) (s : State) : Answers s true (execEndl c level s) :=
  .next (s.wbGo_pending _ _ _ fun t x => by
    split
    · simp
    · simp)

theorem execXfer_answers (c : CtxId) (len : BitVec 7) (foff : BitVec 24) (noff : BitVec 16) (s : State) :
    Answers s true (execXfer c len foff noff s) := .next (s.wbGo_pending _ _ _ fun t x => by simp)

theorem execGather_answers (c : CtxId) (len : BitVec 7) (scale noff : BitVec 16) (x : BitVec 6) (s : State) :
    Answers s true (execGather c len scale noff x s) :=
  .next (s.wbGo_pending _ _ _ fun t _ => by
    split
    next u hu => exact State.pending_of_eq_mk hu (t.nextIndex_pending _ _)
    next u i hu => simpa using State.pending_of_eq_mk hu (t.nextIndex_pending _ _))

theorem execScatter_answers (c : CtxId) (len : BitVec 7) (scale noff : BitVec 16) (x : BitVec 6) (s : State) :
    Answers s true (execScatter c len scale noff x s) :=
  .next (s.wbGo_pending _ _ _ fun t _ => by
    split
    next u hu => exact State.pending_of_eq_mk hu (t.nextIndex_pending _ _)
    next u i hu =>
      have h : u.pending = t.pending := State.pending_of_eq_mk hu (t.nextIndex_pending _ _)
      simp [h])

theorem execPred_answers (c : CtxId) (cond level : BitVec 3) (arg : BitVec 20) (s : State) :
    Answers s true (execPred c cond level arg s) := .next (s.wbGo_pending _ _ _ fun t x => by simp)
theorem execWaybillMark_answers (c : CtxId) (s : State) : Answers s true (execWaybillMark c s) :=
  .next (s.wbGo_pending _ _ _ fun t x => by simp)
theorem execFence_answers (c : CtxId) (s : State) : Answers s true (execFence c s) :=
  .next (s.wbGo_pending _ _ _ fun t x => by simp)

theorem execGranulePublish_answers (c : CtxId) (s : State) : Answers s true (execGranulePublish c s) :=
  .next (by
    dsimp only
    (repeat' split) <;> simp)

theorem execWaybillWaitLimit_answers (c : CtxId) (s : State) : Answers s true (execWaybillWaitLimit c s) :=
  .next (by
    dsimp only
    (repeat' split) <;> simp)

/-! #### The parameter update -/

theorem execUpdate_answers (p : Pos) (o : VOp) (s : State) : Answers s true (execUpdate p o s) :=
  .next (s.whenIssued_pending _ _ _ _ fun t => by simp)

/-! #### The counter collector and the trace writer -/

theorem execCntLatch_answers (s : State) : Answers s true (execCntLatch s) := .next s.adminLatch_pending
theorem execCourierCounterLatch_answers (node : Fin 64) (s : State) : Answers s true (execCourierCounterLatch node s) :=
  .next rfl
theorem execBwWindowBoundary_answers (s : State) : Answers s true (execBwWindowBoundary s) := .next (by simp)
theorem execCounterParityError_answers (c : CounterId) (s : State) : Answers s true (execCounterParityError c s) :=
  .next (by simp)

theorem execTraceRecordWrite_answers (s : State) : Answers s true (execTraceRecordWrite s) :=
  .next (by
    dsimp only
    (repeat' split) <;> simp)

theorem execTraceControlUpdate_answers (region : Fin 17) (s : State) : Answers s true (execTraceControlUpdate region s) :=
  .next (by
    dsimp only
    rw [State.ite_pending, State.lpWriteBytes_pending, ite_self])

/-! #### Pigeonholes -/

theorem execRing_answers (n : Pgh) (s : State) : Answers s true (execRing n s) := .next (by simp)
theorem execOwnerChangeDiscard_answers (n : Pgh) (s : State) : Answers s true (execOwnerChangeDiscard n s) :=
  .next (by simp)

theorem execCounterPageWrite_answers (s : State) : Answers s true (execCounterPageWrite s) := by
  refine .next ?_
  split
  · rfl
  next j r _ =>
  extract_lets pop finish
  have hpop (t : State) : (pop t).pending = t.pending := rfl
  have hfin (x : State × Option Nat) : (finish x).pending = x.1.pending := by simp [finish]
  split
  next t ht => rw [hfin, State.storePage_pending, hpop, State.takeShare_pending _ _ _ ht]
  · split
    · rw [hfin, State.skipPage_pending, hpop]
    · rfl

/-! #### The Courier network -/

theorem execAck_answers (src dst : Fin 64) (cls : BitVec 3) (pay : BitVec 14) (s : State) :
    Answers s true (execAck src dst cls pay s) := .next rfl
theorem execNotify_answers (src : Fin 64) (code : Code) (spoils : Bool) (s : State) :
    Answers s true (execNotify src code spoils s) := .next rfl
theorem execCloseInjectionGate_answers (p : Pos) (s : State) : Answers s true (execCloseInjectionGate p s) :=
  .next (s.onRtr_pending ..)
theorem execReservedClassPacket_answers (pkt : Word) (s : State) : Answers s true (execReservedClassPacket pkt s) :=
  .next (by simp)
theorem execCourierCrcMismatch_answers (hop : Fin 128) (s : State) : Answers s true (execCourierCrcMismatch hop s) :=
  .next (by split <;> simp)
theorem execCourierResendTimer_answers (src : Fin 64) (s : State) : Answers s true (execCourierResendTimer src s) :=
  .next (by simp)
theorem execSpoil_answers (code : Code) (inClkOfDone : Bool) (s : State) :
    Answers s true (execSpoil code inClkOfDone s) := .next (by split <;> simp)

/-! #### Ticks, frames, the commit gate and stops -/

theorem execInternalTick_answers (host : HostView) (s : State) : Answers s true (execInternalTick host s) :=
  .next (by split <;> simp)
theorem execTickDoorbellStrike_answers (viaAdmin : Bool) (host : HostView) (s : State) :
    Answers s true (execTickDoorbellStrike viaAdmin host s) := .next (by simp)
theorem execFtickInEdge_answers (highNs : Nat) (host : HostView) (s : State) :
    Answers s true (execFtickInEdge highNs host s) := .next (by simp)
theorem execSystemTickDelivery_answers (host : HostView) (s : State) : Answers s true (execSystemTickDelivery host s) :=
  .next (by split <;> simp)
theorem execTickLoss_answers (host : HostView) (s : State) : Answers s true (execTickLoss host s) := .next (by simp)

theorem execEndMarkReached_answers (j : Clu) (s : State) : Answers s true (execEndMarkReached j s) :=
  .next (by
    dsimp only
    (repeat' split) <;> simp)

theorem execFrameDone_answers (host : HostView) (s : State) : Answers s true (execFrameDone host s) := .next (by simp)
theorem execImmediateStop_answers (j : Clu) (s : State) : Answers s true (execImmediateStop j s) := .next (by simp)
theorem execStopReached_answers (j : Clu) (s : State) : Answers s true (execStopReached j s) := .next (by simp)
theorem execStopDrainTimeout_answers (s : State) : Answers s true (execStopDrainTimeout s) := .next (by split <;> simp)
theorem execRelease_answers (j : Clu) (s : State) : Answers s true (execRelease j s) := .next (by simp)
theorem execCommit_answers (j : Clu) (frame : BitVec 16) (s : State) : Answers s true (execCommit j frame s) :=
  .next (by simp)
theorem execGateDecision_answers (dupAgrees : Bool) (s : State) : Answers s true (execGateDecision dupAgrees s) :=
  .next (by simp)
theorem execGate_answers (j : Clu) (frame : BitVec 16) (isOpen : Bool) (s : State) :
    Answers s true (execGate j frame isOpen s) := .next (by simp)
theorem execGateHoldTimeout_answers (j : Clu) (s : State) : Answers s true (execGateHoldTimeout j s) :=
  .next (by split <;> simp)

/-! #### The program and berth commands -/

theorem execLoad_answers (n : Pgh) (img : Image) (s : State) : Answers s true (execLoad n img s) :=
  .next (s.command_pending _ _ _ fun t p => by simp)
theorem execBindCheck_answers (n : Pgh) (img : Image) (s : State) : Answers s true (execBindCheck n img s) :=
  .next (s.command_pending _ _ _ fun t p => by simp)

theorem execRun_answers (n : Pgh) (s : State) : Answers s true (execRun n s) :=
  .next (s.command_pending _ _ _ fun t p => by
    dsimp only
    (repeat' split) <;> simp)

theorem execStop_answers (n : Pgh) (s : State) : Answers s true (execStop n s) :=
  .next (s.command_pending _ _ _ fun t p => by simp)
theorem execStepCmd_answers (n : Pgh) (s : State) : Answers s true (execStepCmd n s) :=
  .next (s.command_pending _ _ _ fun t p => by simp)
theorem execResume_answers (n : Pgh) (s : State) : Answers s true (execResume n s) :=
  .next (s.command_pending _ _ _ fun t p => by simp)
theorem execSetPolicy_answers (n : Pgh) (s : State) : Answers s true (execSetPolicy n s) :=
  .next (s.command_pending _ _ _ fun t p => by simp)
theorem execLrOverride_answers (n : Pgh) (s : State) : Answers s true (execLrOverride n s) :=
  .next (s.command_pending _ _ _ fun t p => by simp)
theorem execBerthState_answers (n : Pgh) (s : State) : Answers s true (execBerthState n s) :=
  .next (s.command_pending _ _ _ fun t p => by simp)
theorem execKill_answers (n : Pgh) (s : State) : Answers s true (execKill n s) :=
  .next (s.command_pending _ _ _ fun t p => by simp)
theorem execKillScrubComplete_answers (b : Port) (s : State) : Answers s true (execKillScrubComplete b s) :=
  .next (by split <;> simp)

/-! #### Berth-table commits -/

theorem execBrtCommitGo_answers (viaAdmin : Bool) (s : State) : Answers s true (execBrtCommitGo viaAdmin s) :=
  .next (by simp)
theorem execBrtCommitRevert_answers (s : State) : Answers s true (execBrtCommitRevert s) := .next rfl

/-! #### The memory commands -/

theorem execAlloc_answers (n : Pgh) (s : State) : Answers s true (execAlloc n s) :=
  .next (s.command_pending _ _ _ fun t p => by
    dsimp only
    (repeat' split) <;> simp)

theorem execFree_answers (n : Pgh) (s : State) : Answers s true (execFree n s) :=
  .next (s.command_pending _ _ _ fun t p => by
    dsimp only
    (repeat' split) <;> simp)

theorem execScrub_answers (n : Pgh) (s : State) : Answers s true (execScrub n s) :=
  .next (s.command_pending _ _ _ fun t p => by
    dsimp only
    (repeat' split) <;> simp)

theorem execCopy_answers (n : Pgh) (host : HostView) (s : State) : Answers s true (execCopy n host s) :=
  .next (s.command_pending _ _ _ fun t p => by simp)
theorem execBiasFlip_answers (n : Pgh) (s : State) : Answers s true (execBiasFlip n s) := .next (by simp)
theorem execMarch_answers (n : Pgh) (nstCells deckCells : List BadCell) (s : State) :
    Answers s true (execMarch n nstCells deckCells s) := .next (s.command_pending _ _ _ fun t p => by simp)

theorem execBgt_answers (n : Pgh) (s : State) : Answers s true (execBgt n s) :=
  .next (s.command_pending _ _ _ fun t p => by
    rw [State.finishCmd_pending]
    exact State.foldl_pending _ _ _ fun u i => rfl)

theorem execInject_answers (n : Pgh) (s : State) : Answers s true (execInject n s) :=
  .next (s.command_pending _ _ _ fun t p => by
    dsimp only
    (repeat' split) <;> simp)

/-! #### The Depot commands -/

theorem execDepotStatus_answers (n : Pgh) (s : State) : Answers s true (execDepotStatus n s) :=
  .next (s.command_pending _ _ _ fun t p => by simp)
theorem execFormat_answers (n : Pgh) (defects : List BlockId) (s : State) : Answers s true (execFormat n defects s) :=
  .next (s.command_pending _ _ _ fun t p => by simp)
theorem execNsCreate_answers (n : Pgh) (s : State) : Answers s true (execNsCreate n s) :=
  .next (s.command_pending _ _ _ fun t p => by simp)
theorem execNsDelete_answers (n : Pgh) (s : State) : Answers s true (execNsDelete n s) :=
  .next (s.command_pending _ _ _ fun t p => by simp)
theorem execNsRelease_answers (n : Pgh) (s : State) : Answers s true (execNsRelease n s) :=
  .next (s.command_pending _ _ _ fun t p => by simp)
theorem execNsRead_answers (n : Pgh) (s : State) : Answers s true (execNsRead n s) :=
  .next (s.command_pending _ _ _ fun t p => by simp)

theorem execNsWrite_answers (n : Pgh) (host : HostView) (s : State) : Answers s true (execNsWrite n host s) :=
  .next (s.command_pending _ _ _ fun t p => by
    dsimp only
    (repeat' split) <;> simp)

theorem execCheckpoint_answers (n : Pgh) (s : State) : Answers s true (execCheckpoint n s) :=
  .next (s.command_pending _ _ _ fun t p => by
    dsimp only
    (repeat' split) <;> simp)

theorem execRestore_answers (n : Pgh) (s : State) : Answers s true (execRestore n s) :=
  .next (s.command_pending _ _ _ fun t p => by
    dsimp only
    (repeat' split) <;> simp)

theorem execVersions_answers (n : Pgh) (s : State) : Answers s true (execVersions n s) :=
  .next (s.command_pending _ _ _ fun t p => by simp)
theorem execDeadLetter_answers (n : Pgh) (s : State) : Answers s true (execDeadLetter n s) :=
  .next (s.command_pending _ _ _ fun t p => by simp)
theorem execDepotQuiesce_answers (n : Pgh) (s : State) : Answers s true (execDepotQuiesce n s) := .next (by simp)

/-! #### The commands of the other groups -/

theorem execIdentify_answers (n : Pgh) (s : State) : Answers s true (execIdentify n s) :=
  .next (s.command_pending _ _ _ fun t p => by simp)
theorem execStatus_answers (n : Pgh) (s : State) : Answers s true (execStatus n s) :=
  .next (s.command_pending _ _ _ fun t p => by simp)
theorem execFaultLog_answers (n : Pgh) (s : State) : Answers s true (execFaultLog n s) :=
  .next (s.command_pending _ _ _ fun t p => by simp)
theorem execConfigure_answers (n : Pgh) (linkUp : BitVec 16) (roundTripNs : List Nat) (peers : List (BitVec 18))
    (s : State) : Answers s (wfConfigure roundTripNs peers) (execConfigure n linkUp roundTripNs peers s) :=
  .of_ite (by simp)
theorem execPontStatus_answers (n : Pgh) (s : State) : Answers s true (execPontStatus n s) :=
  .next (s.command_pending _ _ _ fun t p => by simp)
theorem execCounters_answers (n : Pgh) (s : State) : Answers s true (execCounters n s) :=
  .next (s.command_pending _ _ _ fun t p => by simp)

theorem execContextCnt_answers (n : Pgh) (s : State) : Answers s true (execContextCnt n s) :=
  .next (s.command_pending _ _ _ fun t p => by
    dsimp only
    (repeat' split) <;> simp)

theorem execTrace_answers (n : Pgh) (s : State) : Answers s true (execTrace n s) :=
  .next (s.command_pending _ _ _ fun t p => by simp)
theorem execSetFrame_answers (n : Pgh) (s : State) : Answers s true (execSetFrame n s) :=
  .next (s.command_pending _ _ _ fun t p => by simp)
theorem execSetClock_answers (n : Pgh) (s : State) : Answers s true (execSetClock n s) :=
  .next (s.command_pending _ _ _ fun t p => by simp)
theorem execPowerLimit_answers (n : Pgh) (s : State) : Answers s true (execPowerLimit n s) :=
  .next (s.command_pending _ _ _ fun t p => by simp)
theorem execThermal_answers (n : Pgh) (s : State) : Answers s true (execThermal n s) :=
  .next (s.command_pending _ _ _ fun t p => by simp)
theorem execAttest_answers (n : Pgh) (s : State) : Answers s true (execAttest n s) :=
  .next (s.command_pending _ _ _ fun t p => by simp)
theorem execGradeRecord_answers (n : Pgh) (s : State) : Answers s true (execGradeRecord n s) :=
  .next (s.command_pending _ _ _ fun t p => by simp)

/-! #### Posted commands -/

theorem execCommandTakeUp_answers (s : State) : Answers s true (execCommandTakeUp s) :=
  .next (by
    dsimp only
    (repeat' split) <;> simp)

theorem execCommandTimeout_answers (n : Pgh) (s : State) : Answers s true (execCommandTimeout n s) := .next (by simp)
theorem execCancel_answers (n : Pgh) (s : State) : Answers s true (execCancel n s) := .next (by simp)

/-! #### Writes of registers -/

theorem execLogAckFree_answers (log : Fin 13) (n : BitVec 9) (s : State) : Answers s true (execLogAckFree log n s) :=
  .next rfl
theorem execClrSupp_answers (log : Fin 13) (s : State) : Answers s true (execClrSupp log s) := .next rfl
theorem execClrLost_answers (log : Fin 13) (s : State) : Answers s true (execClrLost log s) := .next rfl
theorem execLeafW1cClear_answers (off : BitVec 20) (val : Word) (s : State) :
    Answers s true (execLeafW1cClear off val s) := .next (by simp)
theorem execRegisterWrite_answers (off : BitVec 21) (val : DWord) (wide viaAdmin : Bool) (s : State) :
    Answers s true (execRegisterWrite off val wide viaAdmin s) := .next (by simp)

/-! #### RESET_N, power-up and delivery -/

theorem execResetNAssert_answers (lowNs : Nat) (s : State) : Answers s true (execResetNAssert lowNs s) := .next (by simp)
theorem execVddAonPowerUp_answers (s : State) : Answers s true (execVddAonPowerUp s) := .next rfl
theorem execPwrFailNFall_answers (lowNs : Nat) (s : State) : Answers s true (execPwrFailNFall lowNs s) := .next (by simp)

theorem execDepotFlushComplete_answers (s : State) : Answers s true (execDepotFlushComplete s) :=
  .next (by
    dsimp only
    (repeat' split) <;> simp)

theorem execResetNRelease_answers (f : BootFindings) (s : State) : Answers s true (execResetNRelease f s) :=
  .next (by simp)
theorem execDeliverGo_answers (host : HostView) (volt : VoltageFinding) (s : State) :
    Answers s true (execDeliverGo host volt s) := .next (by simp)
theorem execReenter_answers (s : State) : Answers s true (execReenter s) := .next (by simp)

/-! #### The network slot -/

theorem execSend_answers (p : Pos) (a sa : BitVec 4) (cond : Bool) (s : State) :
    Answers s true (execSend p a sa cond s) := .next (s.whenIssued_pending _ _ _ _ fun t => by simp)
theorem execRecv_answers (p : Pos) (a : BitVec 4) (s : State) : Answers s true (execRecv p a s) :=
  .next (s.receive_pending _ _ _ _ _ fun t f => by simp)
theorem execRecva_answers (p : Pos) (a : BitVec 4) (s : State) : Answers s true (execRecva p a s) :=
  .next (s.receiveAdd_pending ..)
theorem execRecvaB_answers (p : Pos) (a : BitVec 4) (s : State) : Answers s true (execRecvaB p a s) :=
  .next (s.receiveAdd_pending ..)
theorem execDrop_answers (p : Pos) (s : State) : Answers s true (execDrop p s) :=
  .next (s.receive_pending _ _ _ _ _ fun t f => by simp)

/-! #### Clocks, time and power -/

theorem execDroopStretch_answers (j : Clu) (s : State) : Answers s true (execDroopStretch j s) := .next (by simp)
theorem execSlowLoopWindow_answers (j : Clu) (s : State) : Answers s true (execSlowLoopWindow j s) := .next (by simp)
theorem execClockLoss_answers (j : Clu) (s : State) : Answers s true (execClockLoss j s) := .next (by simp)

theorem execClockRestored_answers (j : Clu) (s : State) : Answers s true (execClockRestored j s) :=
  .next (by
    dsimp only
    (repeat' split) <;> simp)

theorem execClockRestoreTimeout_answers (j : Clu) (s : State) : Answers s true (execClockRestoreTimeout j s) :=
  .next (by
    dsimp only
    (repeat' split) <;> simp)

theorem execTimeSample_answers (s : State) : Answers s true (execTimeSample s) := .next (by simp)
theorem execRefclkLoss_answers (s : State) : Answers s true (execRefclkLoss s) := .next (by simp)
theorem execPontRefclkLoss_answers (s : State) : Answers s true (execPontRefclkLoss s) := .next (by simp)
theorem execEmergencyTrigger_answers (which : Fin 4) (s : State) : Answers s true (execEmergencyTrigger which s) :=
  .next (s.emergency_pending ..)
theorem execEmergencyFloorRaise_answers (s : State) : Answers s true (execEmergencyFloorRaise s) :=
  .next (by split <;> simp)
theorem execReplicaWarning_answers (j : Clu) (s : State) : Answers s true (execReplicaWarning j s) := .next (by simp)
theorem execVoltageLowerTimer_answers (s : State) : Answers s true (execVoltageLowerTimer s) := .next (by simp)
theorem execPowerLimitCheck_answers (avgW msW : Nat) (s : State) : Answers s true (execPowerLimitCheck avgW msW s) :=
  .next (by simp)

theorem execAvsTelemetry_answers (mv : Nat) (milliAmp tempC : Int) (s : State) :
    Answers s true (execAvsTelemetry mv milliAmp tempC s) :=
  .next (by
    dsimp only
    (repeat' split) <;> simp)

theorem execAvsResponseTimeout_answers (s : State) : Answers s true (execAvsResponseTimeout s) := .next (by simp)
theorem execThermalSample_answers (readings : List (BitVec 16)) (disagree : List (Fin 56)) (s : State) :
    Answers s (wfSensors readings) (execThermalSample readings disagree s) := .of_ite (by simp)
theorem execThermtrip_answers (s : State) : Answers s true (execThermtrip s) := .next (by simp)

/-! #### The pins, the management and the test ports -/

theorem execTickRailMismatch_answers (j : Clu) (rail : Fin 2) (s : State) :
    Answers s true (execTickRailMismatch j rail s) := .next (by simp)
theorem execPostmasterMismatch_answers (s : State) : Answers s true (execPostmasterMismatch s) := .next (by simp)
theorem execSparePairInService_answers (s : State) : Answers s true (execSparePairInService s) := .next (by simp)
theorem execFirmwareCheckerTest_answers (failedTrips : Bool) (s : State) :
    Answers s true (execFirmwareCheckerTest failedTrips s) := .next (by simp)
theorem execIdleCheckerExercise_answers (j : Clu) (failing : List Pos) (s : State) :
    Answers s true (execIdleCheckerExercise j failing s) := .next (by simp)
theorem execI3cRead_answers (off : BitVec 16) (s : State) : Answers s true (execI3cRead off s) := .next (by simp)
theorem execI3cBusHeld_answers (s : State) : Answers s true (execI3cBusHeld s) := .next (by simp)
theorem execI3cTransactionTimeout_answers (s : State) : Answers s true (execI3cTransactionTimeout s) := .next (by simp)
theorem execBypass_answers (s : State) : Answers s true (execBypass s) := .next rfl
theorem execIdcode_answers (s : State) : Answers s true (execIdcode s) := .next rfl
theorem execSamplePreload_answers (s : State) : Answers s true (execSamplePreload s) := .next rfl
theorem execExtest_answers (s : State) : Answers s true (execExtest s) := .next rfl
theorem execTrstNAssert_answers (lowNs : Nat) (s : State) : Answers s true (execTrstNAssert lowNs s) := .next (by simp)

/-! ### Every command -/

/-- The arms of `exec`, each by the answer of its meaning. -/
theorem exec_answers : ∀ (c : Instr) (s : State), Answers s (wellFormed c) (exec c s)
  | .ring n, s => execRing_answers n s
  | .cancel n, s => execCancel_answers n s
  | .commandTakeUp, s => execCommandTakeUp_answers s
  | .commandTimeout n, s => execCommandTimeout_answers n s
  | .ownerChangeDiscard n, s => execOwnerChangeDiscard_answers n s
  | .identify n, s => execIdentify_answers n s
  | .status n, s => execStatus_answers n s
  | .faultLog n, s => execFaultLog_answers n s
  | .berthState n, s => execBerthState_answers n s
  | .kill n, s => execKill_answers n s
  | .load n img, s => execLoad_answers n img s
  | .bindCheck n img, s => execBindCheck_answers n img s
  | .run n, s => execRun_answers n s
  | .stop n, s => execStop_answers n s
  | .stepCmd n, s => execStepCmd_answers n s
  | .resume n, s => execResume_answers n s
  | .setPolicy n, s => execSetPolicy_answers n s
  | .lrOverride n, s => execLrOverride_answers n s
  | .alloc n, s => execAlloc_answers n s
  | .free n, s => execFree_answers n s
  | .scrub n, s => execScrub_answers n s
  | .copy n host, s => execCopy_answers n host s
  | .biasFlip n, s => execBiasFlip_answers n s
  | .depotStatus n, s => execDepotStatus_answers n s
  | .format n defects, s => execFormat_answers n defects s
  | .nsCreate n, s => execNsCreate_answers n s
  | .nsDelete n, s => execNsDelete_answers n s
  | .nsRelease n, s => execNsRelease_answers n s
  | .nsRead n, s => execNsRead_answers n s
  | .nsWrite n host, s => execNsWrite_answers n host s
  | .checkpoint n, s => execCheckpoint_answers n s
  | .restore n, s => execRestore_answers n s
  | .versions n, s => execVersions_answers n s
  | .deadLetter n, s => execDeadLetter_answers n s
  | .depotQuiesce n, s => execDepotQuiesce_answers n s
  | .configure n linkUp roundTripNs peers, s => execConfigure_answers n linkUp roundTripNs peers s
  | .pontStatus n, s => execPontStatus_answers n s
  | .counters n, s => execCounters_answers n s
  | .contextCnt n, s => execContextCnt_answers n s
  | .trace n, s => execTrace_answers n s
  | .setFrame n, s => execSetFrame_answers n s
  | .setClock n, s => execSetClock_answers n s
  | .powerLimit n, s => execPowerLimit_answers n s
  | .thermal n, s => execThermal_answers n s
  | .march n nstCells deckCells, s => execMarch_answers n nstCells deckCells s
  | .bgt n, s => execBgt_answers n s
  | .inject n, s => execInject_answers n s
  | .attest n, s => execAttest_answers n s
  | .gradeRecord n, s => execGradeRecord_answers n s
  | .tickDoorbellStrike viaAdmin host, s => execTickDoorbellStrike_answers viaAdmin host s
  | .brtCommitGo viaAdmin, s => execBrtCommitGo_answers viaAdmin s
  | .brtCommitRevert, s => execBrtCommitRevert_answers s
  | .deliverGo host volt, s => execDeliverGo_answers host volt s
  | .reenter, s => execReenter_answers s
  | .cntLatch, s => execCntLatch_answers s
  | .logAckFree log n, s => execLogAckFree_answers log n s
  | .clrSupp log, s => execClrSupp_answers log s
  | .clrLost log, s => execClrLost_answers log s
  | .leafW1cClear off val, s => execLeafW1cClear_answers off val s
  | .hostIdxWrite b which val, s => execHostIdxWrite_answers b which val s
  | .registerWrite off val wide viaAdmin, s => execRegisterWrite_answers off val wide viaAdmin s
  | .resetNRelease f, s => execResetNRelease_answers f s
  | .resetNAssert lowNs, s => execResetNAssert_answers lowNs s
  | .pwrFailNFall lowNs, s => execPwrFailNFall_answers lowNs s
  | .depotFlushComplete, s => execDepotFlushComplete_answers s
  | .depotBringUp uids, s => execDepotBringUp_answers uids s
  | .internalTick host, s => execInternalTick_answers host s
  | .ftickInEdge highNs host, s => execFtickInEdge_answers highNs host s
  | .systemTickDelivery host, s => execSystemTickDelivery_answers host s
  | .tickLoss host, s => execTickLoss_answers host s
  | .endMarkReached j, s => execEndMarkReached_answers j s
  | .frameDone host, s => execFrameDone_answers host s
  | .bankWakeComplete p deck bank, s => execBankWakeComplete_answers p deck bank s
  | .stopDrainTimeout, s => execStopDrainTimeout_answers s
  | .immediateStop j, s => execImmediateStop_answers j s
  | .release j, s => execRelease_answers j s
  | .stopReached j, s => execStopReached_answers j s
  | .commit j frame, s => execCommit_answers j frame s
  | .spoil code inClkOfDone, s => execSpoil_answers code inClkOfDone s
  | .gateDecision dupAgrees, s => execGateDecision_answers dupAgrees s
  | .gate j frame isOpen, s => execGate_answers j frame isOpen s
  | .ack src dst cls pay, s => execAck_answers src dst cls pay s
  | .notify src code spoils, s => execNotify_answers src code spoils s
  | .courierCounterLatch node, s => execCourierCounterLatch_answers node s
  | .closeInjectionGate p, s => execCloseInjectionGate_answers p s
  | .bgtStepStart p deck, s => execBgtStepStart_answers p deck s
  | .reservedClassPacket pkt, s => execReservedClassPacket_answers pkt s
  | .courierCrcMismatch hop, s => execCourierCrcMismatch_answers hop s
  | .courierResendTimer src, s => execCourierResendTimer_answers src s
  | .gateHoldTimeout j, s => execGateHoldTimeout_answers j s
  | .waitc p target, s => execWaitc_answers p target s
  | .waits p sa, s => execWaits_answers p sa s
  | .rpt p n, s => execRpt_answers p n s
  | .loop p level count len, s => execLoop_answers p level count len s
  | .loops p level sa len, s => execLoops_answers p level sa len s
  | .jmp p addr, s => execJmp_answers p addr s
  | .bnz p sa addr, s => execBnz_answers p sa addr s
  | .page p slot code, s => execPage_answers p slot code s
  | .setl p sd imm, s => execSetl_answers p sd imm s
  | .seth p sd imm, s => execSeth_answers p sd imm s
  | .salu p sd sa sb func, s => execSalu_answers p sd sa sb func s
  | .movx p sa target, s => execMovx_answers p sa target s
  | .mark p val, s => execMark_answers p val s
  | .endOp p, s => execEnd_answers p s
  | .ld p v a w, s => execLd_answers p v a w s
  | .st p v a w pm, s => execSt_answers p v a w pm s
  | .sta p v a fmt, s => execSta_answers p v a fmt s
  | .psd p a arr entry, s => execPsd_answers p a arr entry s
  | .dkrd p a dp, s => execDkrd_answers p a dp s
  | .dkwr p a dp, s => execDkwr_answers p a dp s
  | .ldl p a dp d, s => execLdl_answers p a dp d s
  | .stl p a dp d, s => execStl_answers p a dp d s
  | .dkrt p a dp dest, s => execDkrt_answers p a dp dest s
  | .push p a, s => execPush_answers p a s
  | .pop p a, s => execPop_answers p a s
  | .feed p arr acc field, s => execFeed_answers p arr acc field s
  | .cfg p arr field, s => execCfg_answers p arr field s
  | .swap p arr, s => execSwap_answers p arr s
  | .latch p arr, s => execLatch_answers p arr s
  | .vadd p o, s => execVadd_answers p o s
  | .vsub p o, s => execVsub_answers p o s
  | .vmul p o, s => execVmul_answers p o s
  | .vfma p o, s => execVfma_answers p o s
  | .vmax p o, s => execVmax_answers p o s
  | .vmin p o, s => execVmin_answers p o s
  | .vabs p o, s => execVabs_answers p o s
  | .vneg p o, s => execVneg_answers p o s
  | .vcmp p o, s => execVcmp_answers p o s
  | .vsel p o, s => execVsel_answers p o s
  | .vmov p o, s => execVmov_answers p o s
  | .vbc p o, s => execVbc_answers p o s
  | .vrdp p o, s => execVrdp_answers p o s
  | .vlane p o, s => execVlane_answers p o s
  | .vrcp p o, s => execVrcp_answers p o s
  | .vsqrt p o, s => execVsqrt_answers p o s
  | .vrsqrt p o, s => execVrsqrt_answers p o s
  | .vdiv p o, s => execVdiv_answers p o s
  | .vexp2 p o, s => execVexp2_answers p o s
  | .vlog2 p o, s => execVlog2_answers p o s
  | .vtanh p o, s => execVtanh_answers p o s
  | .vsigm p o, s => execVsigm_answers p o s
  | .verf p o, s => execVerf_answers p o s
  | .vsin p o, s => execVsin_answers p o s
  | .vcos p o, s => execVcos_answers p o s
  | .vrsum p o, s => execVrsum_answers p o s
  | .vrmax p o, s => execVrmax_answers p o s
  | .vrmin p o, s => execVrmin_answers p o s
  | .vrdot p o, s => execVrdot_answers p o s
  | .viadd p o, s => execViadd_answers p o s
  | .visub p o, s => execVisub_answers p o s
  | .vand p o, s => execVand_answers p o s
  | .vor p o, s => execVor_answers p o s
  | .vxor p o, s => execVxor_answers p o s
  | .vshl p o, s => execVshl_answers p o s
  | .vshr p o, s => execVshr_answers p o s
  | .dadd p o, s => execDadd_answers p o s
  | .dmul p o, s => execDmul_answers p o s
  | .dfma p o, s => execDfma_answers p o s
  | .drsum p o, s => execDrsum_answers p o s
  | .dcvt p o, s => execDcvt_answers p o s
  | .vcvf p o, s => execVcvf_answers p o s
  | .vcvm p o, s => execVcvm_answers p o s
  | .vcvb p o, s => execVcvb_answers p o s
  | .vcvi p o, s => execVcvi_answers p o s
  | .update p o, s => execUpdate_answers p o s
  | .send p a sa cond, s => execSend_answers p a sa cond s
  | .recv p a, s => execRecv_answers p a s
  | .recva p a, s => execRecva_answers p a s
  | .recvaB p a, s => execRecvaB_answers p a s
  | .drop p, s => execDrop_answers p s
  | .pass p arr e iv, s => execPass_answers p arr e iv s
  | .take p arr e iv, s => execTake_answers p arr e iv s
  | .sink p arr e iv, s => execSink_answers p arr e iv s
  | .ferrySend p arr e iv, s => execFerrySend_answers p arr e iv s
  | .fetch p arr e, s => execFetch_answers p arr e s
  | .accept p arr e, s => execAccept_answers p arr e s
  | .trainTableLoad p arr e, s => execTrainTableLoad_answers p arr e s
  | .fwd p e iv, s => execFwd_answers p e iv s
  | .merge32 p e1 e2, s => execMerge32_answers p e1 e2 s
  | .merge16 p e1 e2, s => execMerge16_answers p e1 e2 s
  | .poolrd p e, s => execPoolrd_answers p e s
  | .slotTableLoad p e, s => execSlotTableLoad_answers p e s
  | .zombieFlit p, s => execZombieFlit_answers p s
  | .waybillEnd c, s => execWaybillEnd_answers c s
  | .setb c reg val, s => execSetb_answers c reg val s
  | .waybillLoop c level count fs ns, s => execWaybillLoop_answers c level count fs ns s
  | .endl c level, s => execEndl_answers c level s
  | .xfer c len foff noff, s => execXfer_answers c len foff noff s
  | .gather c len scale noff x, s => execGather_answers c len scale noff x s
  | .scatter c len scale noff x, s => execScatter_answers c len scale noff x s
  | .pred c cond level arg, s => execPred_answers c cond level arg s
  | .waybillMark c, s => execWaybillMark_answers c s
  | .fence c, s => execFence_answers c s
  | .granulePublish c, s => execGranulePublish_answers c s
  | .waybillWaitLimit c, s => execWaybillWaitLimit_answers c s
  | .stackSpillStart p, s => execStackSpillStart_answers p s
  | .stackFillStart p, s => execStackFillStart_answers p s
  | .stackChunkComplete p, s => execStackChunkComplete_answers p s
  | .memoryPortRequest iv, s => execMemoryPortRequest_answers iv s
  | .remoteAccumulate space addr vals zero poison adderAgrees, s =>
      execRemoteAccumulate_answers space addr vals zero poison adderAgrees s
  | .lpddr5xRequestTimeout iv id, s => execLpddr5xRequestTimeout_answers iv id s
  | .refresh iv chan bank, s => execRefresh_answers iv chan bank s
  | .mr4Poll iv mult, s => execMr4Poll_answers iv mult s
  | .wckOscillatorRead iv chan drifted, s => execWckOscillatorRead_answers iv chan drifted s
  | .portFullRetrain iv, s => execPortFullRetrain_answers iv s
  | .lpddr5xPatrol iv line, s => execLpddr5xPatrol_answers iv line s
  | .bgtGroupStart p deck cells, s => execBgtGroupStart_answers p deck cells s
  | .killScrubComplete b, s => execKillScrubComplete_answers b s
  | .depotWriteRequest ch, s => execDepotWriteRequest_answers ch s
  | .unitCloseTimeout ns unit, s => execUnitCloseTimeout_answers ns unit s
  | .depotReadRequest ch recovery, s => execDepotReadRequest_answers ch recovery s
  | .journalProgram, s => execJournalProgram_answers s
  | .blockRetire b reason, s => execBlockRetire_answers b reason s
  | .onfiTimeout ch target lun, s => execOnfiTimeout_answers ch target lun s
  | .lunFailed ch target lun, s => execLunFailed_answers ch target lun s
  | .depotRequestTimeout ch id, s => execDepotRequestTimeout_answers ch id s
  | .depotPatrol b bitsCorrected, s => execDepotPatrol_answers b bitsCorrected s
  | .depotRefresh b, s => execDepotRefresh_answers b s
  | .garbageCollection ns unit, s => execGarbageCollection_answers ns unit s
  | .wearLevelling ch, s => execWearLevelling_answers ch s
  | .depotChannelRetrain ch, s => execDepotChannelRetrain_answers ch s
  | .laneFailure p lane, s => execLaneFailure_answers p lane s
  | .spareLaneTrained p, s => execSpareLaneTrained_answers p s
  | .pontFlitReceive p hdr body rsFixed rsBad, s => execPontFlitReceive_answers p hdr body rsFixed rsBad s
  | .nak p expected, s => execNak_answers p expected s
  | .ackTimer p, s => execAckTimer_answers p s
  | .linkDown p, s => execLinkDown_answers p s
  | .linkRetrainComplete p ok, s => execLinkRetrainComplete_answers p ok s
  | .write p pkt, s => execWrite_answers p pkt s
  | .read p pkt, s => execRead_answers p pkt s
  | .readResp p pkt, s => execReadResp_answers p pkt s
  | .raccF32 p pkt, s => execRaccF32_answers p pkt s
  | .raccAs8 p pkt, s => execRaccAs8_answers p pkt s
  | .rmax8 p pkt, s => execRmax8_answers p pkt s
  | .completion p pkt, s => execCompletion_answers p pkt s
  | .done p pkt, s => execDone_answers p pkt s
  | .decide p pkt, s => execDecide_answers p pkt s
  | .time p pkt sysTime fromNewMaster, s => execTime_answers p pkt sysTime fromNewMaster s
  | .tick p sv inst period, s => execTick_answers p sv inst period s
  | .heartbeat p, s => execHeartbeat_answers p s
  | .failed p dev, s => execFailed_answers p dev s
  | .reservedOpcPacket p pkt, s => execReservedOpcPacket_answers p pkt s
  | .unreachablePacket p pkt, s => execUnreachablePacket_answers p pkt s
  | .remoteOpTimeout id, s => execRemoteOpTimeout_answers id s
  | .collectiveDeadline coll, s => execCollectiveDeadline_answers coll s
  | .decisionWaitExpiry coll, s => execDecisionWaitExpiry_answers coll s
  | .heartbeatTimer, s => execHeartbeatTimer_answers s
  | .neighbourFailure p, s => execNeighbourFailure_answers p s
  | .timeDistribution, s => execTimeDistribution_answers s
  | .linkDelayMeasurement p t1 t2 t3 t4, s => execLinkDelayMeasurement_answers p t1 t2 t3 t4 s
  | .tickFlood, s => execTickFlood_answers s
  | .lockLoss, s => execLockLoss_answers s
  | .ucieLinkError, s => execUcieLinkError_answers s
  | .hostMemAccess write da data, s => execHostMemAccess_answers write da data s
  | .bar2Access write off data len, s => execBar2Access_answers write off data len s
  | .hostSnoop hpa, s => execHostSnoop_answers hpa s
  | .unsupportedRequest hpa, s => execUnsupportedRequest_answers hpa s
  | .deviceRequestTimeout id, s => execDeviceRequestTimeout_answers id s
  | .droopStretch j, s => execDroopStretch_answers j s
  | .slowLoopWindow j, s => execSlowLoopWindow_answers j s
  | .clockLoss j, s => execClockLoss_answers j s
  | .clockRestored j, s => execClockRestored_answers j s
  | .clockRestoreTimeout j, s => execClockRestoreTimeout_answers j s
  | .replicaWarning j, s => execReplicaWarning_answers j s
  | .timeSample, s => execTimeSample_answers s
  | .refclkLoss, s => execRefclkLoss_answers s
  | .pontRefclkLoss, s => execPontRefclkLoss_answers s
  | .avsTelemetry mv milliAmp tempC, s => execAvsTelemetry_answers mv milliAmp tempC s
  | .avsResponseTimeout, s => execAvsResponseTimeout_answers s
  | .voltageLowerTimer, s => execVoltageLowerTimer_answers s
  | .powerLimitCheck avgW msW, s => execPowerLimitCheck_answers avgW msW s
  | .emergencyTrigger which, s => execEmergencyTrigger_answers which s
  | .emergencyFloorRaise, s => execEmergencyFloorRaise_answers s
  | .thermalSample readings disagree, s => execThermalSample_answers readings disagree s
  | .thermtrip, s => execThermtrip_answers s
  | .tickRailMismatch j rail, s => execTickRailMismatch_answers j rail s
  | .postmasterMismatch, s => execPostmasterMismatch_answers s
  | .firmwareCheckerTest failedTrips, s => execFirmwareCheckerTest_answers failedTrips s
  | .counterParityError c, s => execCounterParityError_answers c s
  | .counterPageWrite, s => execCounterPageWrite_answers s
  | .bwWindowBoundary, s => execBwWindowBoundary_answers s
  | .traceControlUpdate region, s => execTraceControlUpdate_answers region s
  | .traceRecordWrite, s => execTraceRecordWrite_answers s
  | .i3cRead off, s => execI3cRead_answers off s
  | .i3cBusHeld, s => execI3cBusHeld_answers s
  | .i3cTransactionTimeout, s => execI3cTransactionTimeout_answers s
  | .bypass, s => execBypass_answers s
  | .idcode, s => execIdcode_answers s
  | .samplePreload, s => execSamplePreload_answers s
  | .extest, s => execExtest_answers s
  | .trstNAssert lowNs, s => execTrstNAssert_answers lowNs s
  | .deviceRequestCompletion id data poison, s => execDeviceRequestCompletion_answers id data poison s
  | .onfiStatusPoll ch opFailed, s => execOnfiStatusPoll_answers ch opFailed s
  | .selfRefreshEntry iv, s => execSelfRefreshEntry_answers iv s
  | .depotChannelStandby ch, s => execDepotChannelStandby_answers ch s
  | .ucieRetrainComplete ok, s => execUcieRetrainComplete_answers ok s
  | .sparePairInService, s => execSparePairInService_answers s
  | .idleCheckerExercise j failing, s => execIdleCheckerExercise_answers j failing s
  | .vddAonPowerUp, s => execVddAonPowerUp_answers s
  | .portFlitBoundary p, s => execPortFlitBoundary_answers p s

end Sys2Proof.Machine

/-- Settles O2: each arm of `exec` calls one meaning, and each meaning answers as `Answers` says. That a command with operands
beyond its fields is refused by name is the model's choice (log entry 81). -/
theorem wellFormedCommandsComplete : Obligations.WellFormedCommandsComplete := by
  intro c s
  exact Sys2Proof.Machine.exec_answers c s
end

section
/-! The part after RESET_N (R226, R238, R396, R472): no unit has left its reset value, so a register that each
position, pigeonhole or log has reads the same for every one of them. -/

namespace Sys2Proof.Machine

/-- A summary register reads 0 while no leaf has a bit set (R472). -/
theorem State.treeVal_of_no_leaf {s : State} (h : s.flt.leaves = []) (off n : Nat) : s.treeVal off n = 0 := by
  induction n generalizing off with
  | zero => simp [State.treeVal, h, tget]
  | succ n ih =>
    unfold State.treeVal
    split
    · simp [h, tget]
    · simp [ih, ← List.sum_eq_foldl]

theorem State.reset_bgtReg_nst (p : Nat) : State.reset.bgtReg p false = 0x01F40001 := by
  have h : State.reset.bankAt p false = .resetNst := rfl
  rw [State.bgtReg, h]
  decide

theorem State.reset_bgtReg_deck (p : Nat) : State.reset.bgtReg p true = 0x003C0001 := by
  have h : State.reset.bankAt p true = .resetDeck := rfl
  rw [State.bgtReg, h]
  decide

/-- Every bank and window of a unit that is off reads off (R226). -/
theorem BankSt.stateOf_of_all_off {b : BankSt} (h : b.pwr = 0xAAAAAAAA) (k : Nat) : b.stateOf k = 2 := by
  rw [BankSt.stateOf, h]
  have hk : k % 16 < 16 := Nat.mod_lt _ (by decide)
  revert hk
  generalize k % 16 = m
  revert m
  decide

theorem State.reset_nstState (p row : Nat) : State.reset.nstState p row = 2 := BankSt.stateOf_of_all_off rfl _
theorem State.reset_deckState (p g : Nat) : State.reset.deckState p g = 2 := BankSt.stateOf_of_all_off rfl _

/-- A pigeonhole that nobody has rung shows its owner alone, in bits [15:8] (R396). -/
theorem State.reset_pghState (n : Nat) : State.reset.pghState n = 256 * (State.reset.owner n % 256) := by
  have h : State.reset.pghAt n = .reset := rfl
  have hp : State.reset.pghState n = pack [(2, 0), (6, 0), (8, State.reset.owner n), (16, 0)] := by
    rw [State.pghState, h]
    rfl
  rw [hp]
  simp only [pack]
  omega

theorem State.reset_summary : State.reset.readReg 0x10000 = 0 := by
  have h : isSummary 0x10000 = true := rfl
  simp [State.readReg, State.readTree, h, State.tree, State.treeVal_of_no_leaf (s := .reset) rfl]

/-- The mask of the tick leaf holds the notices of its class (R472). -/
theorem State.reset_tickMask : State.reset.readReg 0x1F00C = 0x4BC := by
  show (maskReset 0x1F008).toNat = 0x4BC
  rfl

end Sys2Proof.Machine

open Sys2Proof.Machine

/-- Settles O4: a register of its own is evaluated on the reset state; one that every position, log or pigeonhole has reads
the same for any number, as no unit of a table has left its reset value. -/
theorem resetState : Obligations.ResetState := by
  refine ⟨⟨rfl, rfl, rfl⟩, rfl, rfl, rfl, rfl, rfl, rfl, rfl, rfl, rfl, rfl, fun p _ => ?banks, rfl, rfl, rfl, rfl, rfl, rfl, rfl,
    rfl, fun _ _ => rfl, fun n _ => ?pigeonholes, rfl, rfl, rfl, rfl, rfl, State.reset_summary, State.reset_tickMask⟩
  case banks =>
    exact ⟨State.reset_bgtReg_nst p, State.reset_bgtReg_deck p, rfl, rfl,
      fun k _ => ⟨State.reset_nstState p k, State.reset_deckState p _⟩⟩
  case pigeonholes =>
    rw [State.reset_pghState]
    omega
end

section
/-! The commit gate (R60-R63): what an event leaves of the frame machinery, and what a decision leaves there. -/

namespace Sys2Proof.Machine

section
variable (s : State)

@[simp] theorem State.rootCast_frm (cls : BitVec 3) (pay : BitVec 17) : (s.rootCast cls pay).frm = s.frm := rfl
@[simp] theorem State.updOpen_frm : s.updOpen.frm = { s.frm with stepNum := s.frm.frameStep + 1 } := rfl

/-- Raising an event: the frame machinery sees nothing of it before the spoil that its code may send (R457, R462). -/
theorem State.raise_eq_sendSpoil (e : Ev) : ∃ t : State, t.frm = s.frm ∧
    s.raise e = if e.quiet || codeSpoil e.code == 0 then t else t.sendSpoil e := by
  refine ⟨_, ?_, rfl⟩
  simp [apply_ite State.frm]

theorem State.raise_frm_of_no_spoil {e : Ev} (h : codeSpoil e.code = 0) : (s.raise e).frm = s.frm := by
  obtain ⟨t, ht, hr⟩ := s.raise_eq_sendSpoil e
  rw [hr, h, if_pos (by simp), ht]

@[simp] theorem State.frmEvent_gateShut_frm (detail : Nat) : (s.frmEvent 0x1407#16 detail).frm = s.frm :=
  s.raise_frm_of_no_spoil (by decide : codeSpoil 0x1407#16 = 0)

/-- A spoil that meets no open gate decision leaves the step counter alone (R61). -/
theorem State.rootSpoil_stepNum {s : State} (h : s.frm.decision ≠ some true) (step : Bool) :
    (s.rootSpoil step).frm.stepNum = s.frm.stepNum := by
  unfold State.rootSpoil
  simp only [h, if_false]
  repeat' split
  all_goals rfl

theorem State.raise_stepNum {s : State} (h : s.frm.decision ≠ some true) (e : Ev) :
    (s.raise e).frm.stepNum = s.frm.stepNum := by
  obtain ⟨t, ht, hr⟩ := s.raise_eq_sendSpoil e
  rw [← ht] at h ⊢
  rw [hr]
  split
  · rfl
  · unfold State.sendSpoil
    split
    · rw [State.cluSpoil_frm]
    · exact State.rootSpoil_stepNum h _

end

/-- The decision of the root, as the frame machinery keeps it: one that opens the gate and one that leaves it shut. -/
theorem execGateDecision_frm {s : State} (dup : Bool) (hruns : s.runs = true) (hcommit : s.isCommitFrame = true)
    (hnone : s.frm.decision = none) (hall : s.frm.reports.length = 48) : ∃ t, execGateDecision dup s = .next t ∧
      t.frm.decision = some (dup && !s.frm.stepSpoiled) ∧
      t.frm.stepNum = (if dup && !s.frm.stepSpoiled then s.frm.frameStep + 1 else s.frm.stepNum) := by
  have hstep (e : Ev) : (s.raise e).frm.stepNum = s.frm.stepNum := State.raise_stepNum (by simp [hnone]) e
  refine ⟨_, congrArg Host.Outcome.next (if_pos (by simp [hruns, hcommit, hnone, hall])), ?_⟩
  cases dup
  case false => simp [hstep]
  case true => cases hs : s.frm.stepSpoiled <;> simp [hs]

end Sys2Proof.Machine

/-- Settles O39: a shut gate's notice 0x14.07 and, before any decision, the record of a duplicate that disagrees leave the step
counter alone; the open gate sets it. -/
theorem gateDecides : Obligations.GateDecides := fun dup _ hruns hcommit hnone hall =>
  Sys2Proof.Machine.execGateDecision_frm dup hruns hcommit hnone hall
end

section
/-! Frame ends and stops (R39, R48, R67-R71): what each of these commands leaves, one lemma for each. -/

namespace Sys2Proof.Machine

section
variable (s : State)

@[simp] theorem State.sendPkt_cluAt (src dst : Nat) (cls : BitVec 3) (pay : BitVec 17) (j : Nat) :
    (s.sendPkt src dst cls pay).cluAt j = s.cluAt j := rfl
@[simp] theorem State.onClu_cluAt_same (j : Nat) (f : CluSt → CluSt) : (s.onClu j f).cluAt j = f (s.cluAt j) := by
  rw [State.onClu_cluAt, if_pos rfl]

/-- Whether a cluster has a tcyc, and whether it holds, does not depend on what has left the part. -/
@[simp] theorem State.ackPkt_inTcyc (node src : Nat) (cls : BitVec 3) (pay : BitVec 17) (j : Nat) :
    (s.ackPkt node src cls pay).inTcyc j = s.inTcyc j := rfl
@[simp] theorem State.ackPkt_holds (node src : Nat) (cls : BitVec 3) (pay : BitVec 17) (j : Nat) :
    (s.ackPkt node src cls pay).holds j = s.holds j := rfl

theorem State.stopNow_cluAt (j : Nat) :
    (s.stopNow j).cluAt j = { s.cluAt j with stopped := true, stopping := false } := by
  simp [State.stopNow]

theorem State.mem_stopNow_out (j : Nat) : courierMsg j 52 0 2 ∈ (s.stopNow j).out := by
  simp [State.stopNow, State.sendPkt]

end

theorem execEndMarkReached_atEnd {j : Clu} {h : FrameHdr} {s : State} (hh : s.hdr = some h) (hphase : s.frm.phase = 1)
    (hrun : (s.cluAt j.val).running = true) (hend : (s.cluAt j.val).atEnd = false) (hstop : (s.cluAt j.val).stopped = false)
    (hclk : (s.cluAt j.val).clockLost = none) (hmark : h.endMark ≤ (s.cluAt j.val).slot) :
    ∃ t, execEndMarkReached j s = .next t ∧ (t.cluAt j.val).atEnd = true := by
  refine ⟨_, rfl, ?_⟩
  simp only [hh]
  rw [if_pos (by simp [hphase, hrun, hend, hstop, hclk, hmark]), State.onClu_cluAt_same]

theorem execFrameDone_due {host : HostView} {s : State} (hphase : s.frm.phase = 1) (hend : ∀ k < 48, (s.cluAt k).atEnd = true)
    (hdone : s.frm.doneAt = none) : execFrameDone host s = .next (s.frameDone host) := by
  have hall : ((List.range 48).all fun k => (s.cluAt k).atEnd) = true := by simpa using hend
  exact congrArg Host.Outcome.next (if_pos (by simp [hphase, hall, hdone]))

/-- STOP reaches a cluster (R68): one that executes a tcyc, or serves a bank conflict in it, completes it first, any other
stops and answers. -/
theorem execImmediateStop_reaches {j : Clu} {s : State} (hkind : s.frm.stopKind = .immediate)
    (hdrain : s.frm.drainFrom.isSome = true) (hstop : (s.cluAt j.val).stopped = false)
    (hclk : (s.cluAt j.val).clockLost = none) : execImmediateStop j s = .next
      (if s.executes j.val = true ∨ (s.inTcyc j.val = true ∧ 0 < (s.cluAt j.val).bankHold) then
        (s.ackPkt j.val 52 0 0).setClu j.val { s.cluAt j.val with stopping := true }
      else (s.ackPkt j.val 52 0 0).stopNow j.val) := by
  unfold execImmediateStop
  dsimp only
  rw [if_pos (by simp [hkind, hdrain, hstop, hclk])]
  congr 2
  grind [State.executes, State.ackPkt_inTcyc, State.ackPkt_holds]

theorem execStopReached_records {j : Clu} {s : State} (hkind : s.frm.stopKind = .immediate)
    (hdrain : s.frm.drainFrom.isSome = true) (hstop : (s.cluAt j.val).stopped = true)
    (hnew : s.frm.stopSlots.any (fun e => e.1 == j.val) = false) : execStopReached j s =
      .next (((s.ackPkt 52 j.val 0 2).onFrm
        (fun f => { f with stopSlots := f.stopSlots ++ [(j.val, (s.cluAt j.val).slot)] })).stopCheck) :=
  congrArg Host.Outcome.next (if_pos (by simp [hkind, hdrain, hstop, hnew]))

theorem execRelease_stopped {j : Clu} {s : State} (hstop : (s.cluAt j.val).stopped = true) (hkind : s.frm.stopKind = .none) :
    execRelease j s = .next ((s.ackPkt j.val 52 0 1).setClu j.val { s.cluAt j.val with stopped := false }) :=
  congrArg Host.Outcome.next (if_pos (by simp [hstop, hkind]))

theorem execStopDrainTimeout_due {s : State} {t0 : Nat} (hdrain : s.frm.drainFrom = some t0) (hdue : t0 + 80000 ≤ s.time) :
    execStopDrainTimeout s = .next s.stopCheck := by
  simp [execStopDrainTimeout, hdrain, hdue]

end Sys2Proof.Machine

open Sys2Proof.Machine

/-- Settles O38: one lemma a command. STOP splits on whether the cluster has a tcyc to complete. -/
theorem frameEndsAndStops : Obligations.FrameEndsAndStops := by
  intro j host h s c
  refine ⟨execEndMarkReached_atEnd, execFrameDone_due, fun hkind hdrain hclk => ⟨fun hstop => ?stop, fun hstop hnew =>
    execStopReached_records hkind hdrain hstop hnew⟩, fun hstop hkind => ?release, fun t0 => execStopDrainTimeout_due⟩
  case stop =>
    refine ⟨_, execImmediateStop_reaches hkind hdrain hstop hclk, ?_⟩
    split
    · rw [State.setClu_cluAt_same]
      exact ⟨rfl, rfl, hstop⟩
    · rw [State.stopNow_cluAt]
      exact ⟨rfl, rfl, State.mem_stopNow_out _ _⟩
  case release =>
    refine ⟨_, execRelease_stopped hstop hkind, ?_⟩
    rw [State.setClu_cluAt_same]
    exact ⟨rfl, rfl⟩
end

section
/-! Accesses of near store and deck by the memory slot (R115-R117, R217, R228): what an access and the records it raises
leave, what a read delivers, and the results that the slot begins. -/

namespace Sys2Proof.Machine

/-! ### Memory reads cut into parts -/

theorem Mem.read_lt (m : Mem) (a n : Nat) : m.read a n < 2 ^ (8 * n) := by
  induction n generalizing a with
  | zero => simp [Mem.read]
  | succ n ih =>
    have hb := (m.get a).isLt
    have hr := ih (a + 1)
    rw [Mem.read, show 8 * (n + 1) = 8 * n + 8 by omega, Nat.pow_add]
    omega

theorem Mem.read_add (m : Mem) (a i j : Nat) : m.read a (i + j) = m.read a i + 2 ^ (8 * i) * m.read (a + i) j := by
  induction i generalizing a with
  | zero => simp [Mem.read]
  | succ i ih =>
    rw [show i + 1 + j = i + j + 1 by omega, Mem.read, Mem.read, ih (a + 1), show a + 1 + i = a + (i + 1) by omega,
      show 8 * (i + 1) = 8 + 8 * i by omega, Nat.pow_add]
    ring

/-- The bytes from `i` to `i + j` of a longer read. -/
theorem Mem.read_part (m : Mem) (a i j n : Nat) (h : i + j ≤ n) :
    m.read a n / 2 ^ (8 * i) % 2 ^ (8 * j) = m.read (a + i) j := by
  obtain ⟨r, rfl⟩ := Nat.exists_eq_add_of_le h
  rw [Nat.add_assoc, Mem.read_add, Nat.add_mul_div_left _ _ (Nat.two_pow_pos _), Nat.div_eq_of_lt (m.read_lt a i), Nat.zero_add,
    Mem.read_add, Nat.add_mul_mod_self_left, Nat.mod_eq_of_lt (m.read_lt _ j)]

/-! ### What an access leaves -/

/-- `t` holds what the memory slot reads as `s` does: address registers, results under way, slot counters, memories, banks,
contexts and scrubs. -/
structure State.SameSlot (s t : State) : Prop where
  pend : ∀ p, (t.coreAt p).pend = (s.coreAt p).pend
  aReg : ∀ p n, t.aReg p n = s.aReg p n
  dpReg : ∀ p n, t.dpReg p n = s.dpReg p n
  tcyc : ∀ p, t.tcyc p = s.tcyc p
  nst : t.nst = s.nst
  deck : t.deck = s.deck
  nstBank : t.nstBank = s.nstBank
  deckBank : t.deckBank = s.deckBank
  shape : t.shape = s.shape
  ctx : t.ctx = s.ctx
  post : t.post = s.post

namespace State.SameSlot
variable {s t u : State}

theorem refl (s : State) : s.SameSlot s :=
  ⟨fun _ => rfl, fun _ _ => rfl, fun _ _ => rfl, fun _ => rfl, rfl, rfl, rfl, rfl, rfl, rfl, rfl⟩

theorem trans (h : s.SameSlot t) (k : t.SameSlot u) : s.SameSlot u where
  pend p := (k.pend p).trans (h.pend p)
  aReg p n := (k.aReg p n).trans (h.aReg p n)
  dpReg p n := (k.dpReg p n).trans (h.dpReg p n)
  tcyc p := (k.tcyc p).trans (h.tcyc p)
  nst := k.nst.trans h.nst
  deck := k.deck.trans h.deck
  nstBank := k.nstBank.trans h.nstBank
  deckBank := k.deckBank.trans h.deckBank
  shape := k.shape.trans h.shape
  ctx := k.ctx.trans h.ctx
  post := k.post.trans h.post

theorem ite {c : Prop} [Decidable c] (h : s.SameSlot t) (k : s.SameSlot u) : s.SameSlot (if c then t else u) := by
  split
  · exact h
  · exact k

theorem nstState (h : s.SameSlot t) (p row : Nat) : t.nstState p row = s.nstState p row := by
  simp only [State.nstState, State.nstB, h.nstBank]
theorem deckState (h : s.SameSlot t) (p g : Nat) : t.deckState p g = s.deckState p g := by
  simp only [State.deckState, State.deckB, h.deckBank]
theorem deckPresent (h : s.SameSlot t) (p g : Nat) : t.deckPresent p g = s.deckPresent p g := by
  rw [State.deckPresent, State.deckWindows, h.shape]
  rfl
theorem underScrub (h : s.SameSlot t) (mem a : Nat) : t.underScrub mem a = s.underScrub mem a := by
  simp only [State.underScrub, h.post]
theorem granOn (h : s.SameSlot t) {p : Pos} {g : Nat} (hon : s.granOn p g) : t.granOn p g := by
  rwa [State.granOn, h.deckPresent, h.deckState, h.underScrub]
theorem rowsOn (h : s.SameSlot t) {p : Pos} {row n : Nat} (hon : s.rowsOn p row n) : t.rowsOn p row n := fun k hk => by
  rw [h.nstState, h.underScrub]
  exact hon k hk
theorem result (h : s.SameSlot t) (p : Pos) : t.result p = s.result p := by
  funext dst lat rank val mask
  rw [State.result, State.result, h.tcyc]
theorem landing (h : s.SameSlot t) (p d dp : Nat) (fill : Bool) : t.landing p d dp fill = s.landing p d dp fill := by
  rw [State.landing, State.ctxAt, h.ctx, h.dpReg]
  rfl

end State.SameSlot

/-- The same for a step that touches no core. -/
theorem State.SameSlot.of_core {s t : State} (hcore : t.core = s.core) (hepoch : t.epoch = s.epoch)
    (htcyc : ∀ p, t.tcyc p = s.tcyc p) (hnst : t.nst = s.nst) (hdeck : t.deck = s.deck) (hnstBank : t.nstBank = s.nstBank)
    (hdeckBank : t.deckBank = s.deckBank) (hshape : t.shape = s.shape) (hctx : t.ctx = s.ctx) (hpost : t.post = s.post) :
    s.SameSlot t where
  pend p := by simp only [State.coreAt, hcore]
  aReg p n := by simp only [State.aReg, State.undef, State.coreAt, hcore, hepoch]
  dpReg p n := by simp only [State.dpReg, State.undef, State.coreAt, hcore, hepoch]
  tcyc := htcyc
  nst := hnst
  deck := hdeck
  nstBank := hnstBank
  deckBank := hdeckBank
  shape := hshape
  ctx := hctx
  post := hpost

section
variable (s : State)

theorem State.count_sameSlot (b u i n : Nat) : s.SameSlot (s.count b u i n) := by
  apply State.SameSlot.of_core <;> simp [State.tcyc, State.cluAt]
theorem State.event_sameSlot (p ev n : Nat) : s.SameSlot (s.event p ev n) := by
  apply State.SameSlot.of_core <;> simp [State.tcyc, State.cluAt]
theorem State.raiseAt_sameSlot (code : Code) (p unit aux detail : Nat) : s.SameSlot (s.raiseAt code p unit aux detail) := by
  apply State.SameSlot.of_core <;> simp [State.raiseAt, State.tcyc]
theorem State.bw_sameSlot (k : Nat) (out : Bool) (n : Nat) : s.SameSlot (s.bw k out n) := by
  apply State.SameSlot.of_core <;> simp [State.tcyc, State.cluAt]

theorem State.access_sameSlot (p key : Nat) : s.SameSlot (s.access p key) := by
  have h : s.SameSlot (s.setClu (posClu p) { s.cluAt (posClu p) with acc := (s.cluAt (posClu p)).acc ++ [(key, p)] }) := by
    refine State.SameSlot.of_core rfl rfl (fun q => ?_) rfl rfl rfl rfl rfl rfl rfl
    rw [State.tcyc, State.setClu_cluAt]
    split
    · next hq => rw [State.tcyc, hq]
    · rfl
  exact .ite (h.trans (State.event_sameSlot ..)) (h.trans (State.count_sameSlot ..))

theorem State.accessRow_sameSlot (p row : Nat) : s.SameSlot (s.accessRow p row) :=
  .ite (.refl s) (s.access_sameSlot ..)
theorem State.accessGran_sameSlot (p g : Nat) : s.SameSlot (s.accessGran p g) :=
  .ite (.refl s) (s.access_sameSlot ..)

end

/-! ### What a read delivers -/

/-- A read from `s` that answers `x` delivers `v`, and leaves what the memory slot reads. -/
def State.Delivers {β : Type} (s : State) (x : State × β) (v : β) : Prop := s.SameSlot x.1 ∧ x.2 = v

/-- A row of a bank that is on, under no scrub (R217, R228). -/
theorem State.readRow_on {s : State} {p row : Nat} (hon : s.nstState p row = 0)
    (hscrub : s.underScrub 0 (nstAddr p row) = false) :
    s.Delivers (s.readRow p row) (BitVec.ofNat 512 (s.nst.read (nstAddr p row) 64)) := by
  have h1 := s.accessRow_sameSlot p row
  unfold State.readRow
  extract_lets s1 aux a
  rw [if_neg (by simp [s1, h1.underScrub, hscrub]), if_pos (by rw [h1.nstState, hon])]
  split
  next co un _ =>
  extract_lets s2 s3
  have h2 : s.SameSlot s2 := h1.trans (.ite (s1.raiseAt_sameSlot ..) (.refl s1))
  have h3 : s.SameSlot s3 := h2.trans (.ite (s2.raiseAt_sameSlot ..) (.refl s2))
  exact ⟨h3, by rw [h3.nst]⟩

/-- A granule of a present window that is on, under no scrub (R216, R217, R228). -/
theorem State.readGran_on {s : State} {p : Pos} {g : Nat} (hon : s.granOn p g) :
    s.Delivers (s.readGran p.val g) (BitVec.ofNat 2048 (s.deck.read (deckAddr p.val g) 256)) := by
  obtain ⟨hhere, hpwr, hscrub⟩ := hon
  have h1 := s.accessGran_sameSlot p.val g
  unfold State.readGran
  extract_lets s1 aux d a
  rw [if_neg (by simp [s1, h1.underScrub, hscrub]), if_neg (by simp [s1, h1.deckPresent, hhere]),
    if_pos (by rw [h1.deckState, hpwr])]
  split
  next co un _ =>
  extract_lets s2 s3
  have h2 : s.SameSlot s2 :=
    h1.trans (.ite ((s1.raiseAt_sameSlot ..).trans (State.count_sameSlot ..)) (.refl s1))
  have h3 : s.SameSlot s3 := h2.trans (.ite (s2.raiseAt_sameSlot ..) (.refl s2))
  exact ⟨h3.trans (s3.bw_sameSlot ..), by rw [h3.deck]⟩

/-! A row of 512 bits below `v`, which holds the rows that follow it. -/

theorem row_add_lt {r v n : Nat} (hr : r < 2 ^ 512) (hv : v < 2 ^ (512 * n)) : r + 2 ^ 512 * v < 2 ^ (512 * (n + 1)) :=
  calc r + 2 ^ 512 * v < 2 ^ 512 + 2 ^ 512 * v := Nat.add_lt_add_right hr _
    _ = 2 ^ 512 * (v + 1) := by rw [Nat.mul_succ, Nat.add_comm]
    _ ≤ 2 ^ 512 * 2 ^ (512 * n) := Nat.mul_le_mul_left _ hv
    _ = 2 ^ (512 * (n + 1)) := by rw [← Nat.pow_add, Nat.mul_succ, Nat.add_comm]

theorem row_add_part_zero {r : Nat} (hr : r < 2 ^ 512) (v : Nat) : (r + 2 ^ 512 * v) / 2 ^ (512 * 0) % 2 ^ 512 = r := by
  rw [Nat.mul_zero, Nat.pow_zero, Nat.div_one, Nat.add_mul_mod_self_left, Nat.mod_eq_of_lt hr]

theorem row_add_part_succ {r : Nat} (hr : r < 2 ^ 512) (v k : Nat) :
    (r + 2 ^ 512 * v) / 2 ^ (512 * (k + 1)) % 2 ^ 512 = v / 2 ^ (512 * k) % 2 ^ 512 := by
  rw [Nat.mul_succ, Nat.add_comm (512 * k), Nat.pow_add, ← Nat.div_div_eq_div_mul, Nat.add_mul_div_left _ _ (Nat.two_pow_pos _),
    Nat.div_eq_of_lt hr, Nat.zero_add]

theorem State.readRows_succ (s : State) (p row n : Nat) : s.readRows p row (n + 1) =
    (((s.readRow p row).1.readRows p (row + 1) n).1,
      (s.readRow p row).2.toNat + 2 ^ 512 * ((s.readRow p row).1.readRows p (row + 1) n).2) := rfl

/-- Rows of banks that are on, each in its 512 bits, the first lowest (R214). -/
theorem State.readRows_on {s : State} {p row n : Nat}
    (hon : ∀ k < n, s.nstState p (row + k) = 0 ∧ s.underScrub 0 (nstAddr p (row + k)) = false) :
    s.SameSlot (s.readRows p row n).1 ∧ (s.readRows p row n).2 < 2 ^ (512 * n) ∧
      ∀ k < n, (s.readRows p row n).2 / 2 ^ (512 * k) % 2 ^ 512 = s.nst.read (nstAddr p (row + k)) 64 := by
  induction n generalizing s row with
  | zero => exact ⟨.refl s, Nat.one_pos, fun k hk => absurd hk k.not_lt_zero⟩
  | succ n ih =>
    obtain ⟨hpwr, hscrub⟩ := hon 0 n.succ_pos
    obtain ⟨hs, hr⟩ := State.readRow_on hpwr hscrub
    rw [Nat.add_zero] at hs hr
    have hread : (s.readRow p row).2.toNat = s.nst.read (nstAddr p row) 64 := by
      rw [hr, BitVec.toNat_ofNat, Nat.mod_eq_of_lt (s.nst.read_lt _ 64)]
    obtain ⟨hs', hlt, hrest⟩ := ih (s := (s.readRow p row).1) (row := row + 1) fun k hk => by
      rw [hs.nstState, hs.underScrub, Nat.add_right_comm]
      exact hon (k + 1) (Nat.succ_lt_succ hk)
    rw [State.readRows_succ]
    refine ⟨hs.trans hs', row_add_lt (BitVec.isLt _) hlt, fun k hk => ?_⟩
    match k with
    | 0 => exact (row_add_part_zero (BitVec.isLt _) _).trans hread
    | k + 1 =>
      rw [← Nat.add_assoc, Nat.add_right_comm, ← hs.nst, ← hrest k (Nat.lt_of_succ_lt_succ hk)]
      exact row_add_part_succ (BitVec.isLt _) _ k

/-! ### The memory slot and the deck port -/

section
variable {s : State} {p : Pos}

theorem State.onCore_sameSlot (s : State) (p : Nat) {f : CoreSt → CoreSt}
    (hf : ∀ c, (f c).pend = c.pend ∧ (f c).a = c.a ∧ (f c).dp = c.dp) : s.SameSlot (s.onCore p f) := by
  have hcore (q : Nat) : ((s.onCore p f).coreAt q).pend = (s.coreAt q).pend ∧ ((s.onCore p f).coreAt q).a = (s.coreAt q).a ∧
      ((s.onCore p f).coreAt q).dp = (s.coreAt q).dp := by
    rw [State.onCore_coreAt]
    split
    · next hq => rw [hq]; exact hf _
    · exact ⟨rfl, rfl, rfl⟩
  refine ⟨fun q => (hcore q).1, fun q n => ?_, fun q n => ?_, fun _ => rfl, rfl, rfl, rfl, rfl, rfl, rfl, rfl⟩
  · obtain ⟨_, ha, _⟩ := hcore q
    rw [State.aReg, State.aReg, ha]
    rfl
  · obtain ⟨_, _, hdp⟩ := hcore q
    rw [State.dpReg, State.dpReg, hdp]
    rfl

theorem State.useA_sameSlot (s : State) (p n tag : Nat) : s.SameSlot (s.useA p n tag) :=
  s.onCore_sameSlot p fun _ => ⟨rfl, rfl, rfl⟩
theorem State.useD_sameSlot (s : State) (p n tag : Nat) : s.SameSlot (s.useD p n tag) :=
  s.onCore_sameSlot p fun _ => ⟨rfl, rfl, rfl⟩

/-- The memory slot of a core taken in this tcyc (R105). -/
def State.slotTaken (s : State) (p : Nat) : State :=
  s.onCore p (fun c => { c with mBusy := s.tcyc p + 1, mAt := some (s.tcyc p), mWas := c.mBusy })
/-- The deck port taken for `n` tcyc (R116). -/
def State.portTaken (s : State) (p n : Nat) : State :=
  (s.onCore p (fun c => { c with portBusy := s.tcyc p + n, portAt := some (s.tcyc p) })).event p 0x22 n

theorem State.slotTaken_sameSlot (s : State) (p : Nat) : s.SameSlot (s.slotTaken p) :=
  s.onCore_sameSlot p fun _ => ⟨rfl, rfl, rfl⟩
theorem State.portTaken_sameSlot (s : State) (p n : Nat) : s.SameSlot (s.portTaken p n) := by
  refine .trans ?_ (State.event_sameSlot _ p 0x22 n)
  exact s.onCore_sameSlot p fun _ => ⟨rfl, rfl, rfl⟩

theorem State.whenIssued_none {p : Nat} (h : s.issues p = true) (i : Instr) (k : State → State) :
    s.whenIssued p i none k = k s := by
  unfold State.whenIssued
  rw [if_pos h]
theorem State.whenIssued_some {p : Nat} (h : s.issues p = true) (i : Instr) (c : HoldCause) (k : State → State) :
    s.whenIssued p i (some c) k = s.wait p i (some c) := by
  unfold State.whenIssued
  rw [if_pos h]

theorem State.mTaken_of_memFree (h : s.memFree p) : s.mTaken p.val = false := by
  obtain ⟨_, hupd, hbusy⟩ := h
  simp [State.mTaken, hupd, hbusy]

/-- A free memory slot takes an operation without a cause to wait. -/
theorem State.mSlot_free (h : s.memFree p) (i : Instr) (k : State → State) :
    s.mSlot p.val i none k = k (s.slotTaken p.val) := by
  obtain ⟨hissues, hupd, hbusy⟩ := h
  rw [State.mSlot, ite_self, State.whenIssued_none hissues]
  dsimp only
  rw [if_neg hupd, if_neg (Nat.not_lt.mpr hbusy)]
  rfl

/-- An operation with a cause to wait holds the cluster (R50). -/
theorem State.mSlot_waits (h : s.memFree p) (i : Instr) (c : HoldCause) (k : State → State) :
    s.mSlot p.val i (some c) k = s.wait p.val i (some c) := by
  rw [State.mSlot, State.mTaken_of_memFree h]
  exact State.whenIssued_some h.1 i c _

theorem State.portSlot_waits (h : s.memFree p) (hport : s.portFree p) (i : Instr) (c : HoldCause) (k : State → State) :
    s.portSlot p.val i (some c) k = s.wait p.val i (some c) := by
  rw [State.portSlot, if_neg (Nat.not_lt.mpr hport), State.mSlot_waits h]

theorem State.slotTaken_portBusy (s : State) (p : Nat) : ((s.slotTaken p).coreAt p).portBusy = (s.coreAt p).portBusy := by
  rw [State.slotTaken, State.onCore_coreAt, if_pos rfl]

/-- A free deck port takes an operation of `n` tcyc without a cause to wait: it acts on a state with the slot and the port
taken. -/
theorem State.portSlot_free (h : s.memFree p) (hport : s.portFree p) (n : Nat) : ∃ u, s.SameSlot u ∧
    ∀ (i : Instr) (k : State → State), s.portSlot p.val i none (fun s => s.port p.val n k) = k u := by
  have hslot := s.slotTaken_sameSlot p.val
  have hfree : ¬ (s.slotTaken p.val).tcyc p.val < ((s.slotTaken p.val).coreAt p.val).portBusy := by
    rw [hslot.tcyc, State.slotTaken_portBusy]
    exact Nat.not_lt.mpr hport
  refine ⟨_, hslot.trans ((s.slotTaken p.val).portTaken_sameSlot p.val n), fun i k => ?_⟩
  rw [State.portSlot, ite_self, State.mSlot_free h, if_neg hfree, State.port, if_neg hfree]
  rfl

/-! ### Results on their way -/

/-- A result that has begun does not move the tcyc in which the next one begins. -/
theorem State.pendOp_result (s : State) (p q : Pos) (dst : Dst) (lat rank : Nat) (val : Vec) (mask : BitVec 256) :
    (s.pendOp p.val dst lat rank val mask).result q = s.result q := rfl

theorem State.pendOp_pend (s : State) (p : Pos) (dst : Dst) (lat rank : Nat) (val : Vec) (mask : BitVec 256) :
    ((s.pendOp p.val dst lat rank val mask).coreAt p.val).pend = (s.coreAt p.val).pend ++ [s.result p dst lat rank val mask] := by
  rw [State.pendOp, State.onCore_coreAt, if_pos rfl]
  rfl

theorem State.foldl_pendOp_pend (s : State) (p : Pos) (l : List Nat) (dst : Nat → Dst) (lat rank : Nat) (val : Nat → Vec)
    (mask : Nat → BitVec 256) :
    ((l.foldl (fun s k => s.pendOp p.val (dst k) lat rank (val k) (mask k)) s).coreAt p.val).pend =
      (s.coreAt p.val).pend ++ l.map (fun k => s.result p (dst k) lat rank (val k) (mask k)) := by
  induction l generalizing s with
  | nil => simp
  | cons k l ih =>
    rw [List.foldl_cons, ih, State.pendOp_pend, State.pendOp_result, List.append_assoc]
    rfl

theorem State.pendRows_pend (s : State) (p : Pos) (row v mask lat tier n : Nat) :
    ((s.pendRows p.val row v mask lat tier n).coreAt p.val).pend = (s.coreAt p.val).pend ++ (List.range n).map (fun k =>
      s.result p (.nst ((row + k) % 32768) tier) lat 1 (BitVec.ofNat 2048 (v / 2 ^ (512 * k) % 2 ^ 512))
        (BitVec.ofNat 256 (mask / 2 ^ (64 * k) % 2 ^ 64))) :=
  s.foldl_pendOp_pend p _ _ lat 1 _ _

theorem fullMask_parts : ∀ k < 4, (2 ^ 256 - 1) / 2 ^ (64 * k) % 2 ^ 64 = 2 ^ 64 - 1 := by decide

/-- A granule of a memory on its way into four rows, all bytes written. -/
theorem State.pendRows_gran_pend (s : State) (p : Pos) (row : Nat) (m : Mem) (a lat tier : Nat) :
    ((s.pendRows p.val row (BitVec.ofNat 2048 (m.read a 256)).toNat (2 ^ 256 - 1) lat tier 4).coreAt p.val).pend =
      (s.coreAt p.val).pend ++ (List.range 4).map (fun k => s.result p (.nst ((row + k) % 32768) tier) lat 1
        (BitVec.ofNat 2048 (m.read (a + 64 * k) 64)) (BitVec.ofNat 256 (2 ^ 64 - 1))) := by
  rw [State.pendRows_pend]
  refine congrArg _ (List.map_congr_left fun k hk => ?_)
  have hk : k < 4 := List.mem_range.mp hk
  have hpart : m.read a 256 / 2 ^ (512 * k) % 2 ^ 512 = m.read (a + 64 * k) 64 := by
    rw [show 512 * k = 8 * (64 * k) by omega]
    exact m.read_part a (64 * k) 64 256 (by omega)
  rw [fullMask_parts k hk, BitVec.toNat_ofNat, Nat.mod_eq_of_lt (m.read_lt a 256), hpart]

end

/-! ### Landing buffers (R117, R249-R251) -/

section
variable {s : State} {p : Pos} {a : BitVec 4} {dp : BitVec 3} {d : BitVec 6} {b : BufDesc}

theorem State.landing_eq {p d dp : Nat} {fill : Bool} (hdesc : (s.ctxAt (ctxKey 0 p d)).desc = some b)
    (hused : (s.ctxAt (ctxKey 0 p d)).status ≠ .unused) (halive : (s.ctxAt (ctxKey 0 p d)).status ≠ .aborted)
    (hkind : if fill then b.kind = 1 else b.kind = 2 ∨ b.kind = 3) :
    s.landing p d dp fill = some (b, granOf (s.dpReg p dp) % max b.size 1,
      tget (s.ctxAt (ctxKey 0 p d)).grans (granOf (s.dpReg p dp) % max b.size 1) .free) := by
  unfold State.landing
  dsimp only
  rw [hdesc]
  refine if_neg ?_
  cases fill <;> grind

theorem State.granWake_of_granOn {g : Nat} (h : s.granOn p g) : s.granWake p.val g = false := by
  obtain ⟨_, hpwr, _⟩ := h
  simp [State.granWake, hpwr]
theorem State.rowsWake_of_rowsOn {row n : Nat} (h : s.rowsOn p row n) : s.rowsWake p.val row n = false := by
  simp only [State.rowsWake, List.any_eq_false, List.mem_range]
  intro k hk
  simp [(h k hk).1]

/-- LDL of a published granule (R117, R249, R251). -/
theorem execLdl_published {o n : Nat} (hmem : s.memFree p) (hport : s.portFree p)
    (hland : s.landing p.val d.toNat dp.toNat true = some (b, o, .published n)) (hon : s.granOn p (b.base + o)) :
    s.begins p (.ldl p a dp d) (s.result p (.used d.toNat o) 1 1 0 fullMask :: (List.range 4).map (fun k =>
      s.result p (.nst ((rowOf (s.aReg p.val a.toNat) + k) % 32768) 2) 3 1
        (BitVec.ofNat 2048 (s.deck.read (deckAddr p.val (b.base + o) + 64 * k) 64)) (BitVec.ofNat 256 (2 ^ 64 - 1)))) := by
  have hcause : s.ldlCause p.val d.toNat dp.toNat = none := by
    rw [State.ldlCause, hland]
    exact congrArg wakeCause (State.granWake_of_granOn hon)
  obtain ⟨u, hu, hrun⟩ := State.portSlot_free hmem hport 1
  obtain ⟨hr, hv⟩ := State.readGran_on (hu.granOn hon)
  refine ⟨_, congrArg Host.Outcome.next (by rw [hcause, hrun]), ?_⟩
  rw [hu.landing, hland]
  dsimp only
  rw [hv, (State.event_sameSlot ..).pend, (State.useD_sameSlot ..).pend, (State.useA_sameSlot ..).pend,
    State.pendRows_gran_pend, State.pendOp_pend, State.pendOp_result, (hu.trans hr).pend, (hu.trans hr).result, hu.deck,
    hu.aReg, List.append_assoc, List.singleton_append]

/-- STL of a free granule (R117, R250, R251). -/
theorem execStl_free {o : Nat} (hmem : s.memFree p) (hport : s.portFree p)
    (hland : s.landing p.val d.toNat dp.toNat false = some (b, o, .free))
    (hon : s.rowsOn p (rowOf (s.aReg p.val a.toNat)) 4) :
    ∃ v : Vec, s.begins p (.stl p a dp d) [s.result p (.gran (b.base + o)) 3 1 v fullMask,
        s.result p (.produced d.toNat o) 3 1 0 fullMask] ∧
      ∀ k < 4, v.toNat / 2 ^ (512 * k) % 2 ^ 512 = s.nst.read (nstAddr p.val (rowOf (s.aReg p.val a.toNat) + k)) 64 := by
  have hcause : s.stlCause p.val d.toNat dp.toNat (rowOf (s.aReg p.val a.toNat)) = none := by
    rw [State.stlCause, hland]
    exact congrArg wakeCause (State.rowsWake_of_rowsOn hon)
  obtain ⟨u, hu, hrun⟩ := State.portSlot_free hmem hport 1
  obtain ⟨hr, hlt, hparts⟩ := State.readRows_on (hu.rowsOn hon)
  refine ⟨BitVec.ofNat 2048 (u.readRows p.val (rowOf (s.aReg p.val a.toNat)) 4).2,
    ⟨_, congrArg Host.Outcome.next (by rw [hcause, hrun]), ?_⟩, fun k hk => ?_⟩
  · rw [hu.landing, hland]
    dsimp only
    rw [(State.event_sameSlot ..).pend, (State.useD_sameSlot ..).pend, (State.useA_sameSlot ..).pend,
      State.pendOp_pend, State.pendOp_pend, State.pendOp_result, (hu.trans hr).pend, (hu.trans hr).result, List.append_assoc,
      List.singleton_append]
  · rw [BitVec.toNat_ofNat, Nat.mod_eq_of_lt hlt, hparts k hk, hu.nst]

/-- A deck-port operation that has a cause to wait stands in its cluster's list, the cluster holds for a cause, and no result
begins (R49, R50). -/
theorem portSlot_cause_holds (hmem : s.memFree p) (hport : s.portFree p) {i : Instr} {k : State → State}
    {cause : Option HoldCause} {c : HoldCause} (hi : exec i s = .next (s.portSlot p.val i cause k)) (hc : cause = some c) :
    ∃ t x, exec i s = .next t ∧ (t.cluAt (posClu p.val)).held = (s.cluAt (posClu p.val)).held ++ [i] ∧
      (t.cluAt (posClu p.val)).cause = some x ∧ (t.coreAt p.val).pend = (s.coreAt p.val).pend := by
  refine ⟨s.wait p.val i (some c), c.join (s.cluAt (posClu p.val)).cause, ?_, ?_⟩
  · rw [hi, hc, State.portSlot_waits hmem hport]
  · rw [State.wait, State.setClu_cluAt_same]
    exact ⟨rfl, rfl, rfl⟩

theorem State.ldlCause_of_not_published {p d dp o : Nat} {g : GranSt} (hland : s.landing p d dp true = some (b, o, g))
    (hg : ∀ n, g ≠ .published n) : s.ldlCause p d dp = some (farCause b.far) := by
  rw [State.ldlCause, hland]
  cases g with
  | published n => exact absurd rfl (hg n)
  | free => rfl
  | produced _ => rfl

theorem State.stlCause_of_not_free {p d dp row o : Nat} {g : GranSt} (hland : s.landing p d dp false = some (b, o, g))
    (hg : g ≠ .free) : s.stlCause p d dp row = some (farCause b.far) := by
  rw [State.stlCause, hland]
  cases g with
  | free => exact absurd rfl hg
  | published _ => rfl
  | produced _ => rfl

end

end Sys2Proof.Machine

open Sys2Proof Sys2Proof.Machine

/-- Settles O19: the state of the granule that the descriptor names decides. LDL finds it published and STL free and begins
its results, or the operation has the buffer's far space as its cause and waits. -/
theorem landingBufferAccess : Obligations.LandingBufferAccess := by
  intro p a dp d b s hmem hport x row o hdesc hused halive
  have hland {fill : Bool} (hkind : if fill then b.kind = 1 else b.kind = 2 ∨ b.kind = 3) :
      s.landing p.val d.toNat dp.toNat fill = some (b, o, tget x.grans o .free) :=
    State.landing_eq hdesc hused halive hkind
  refine ⟨fun n hkind hg hon => ?_, fun hkind hg hon => ?_, fun hkind hg => ?_, fun hkind hg => ?_⟩
  · exact execLdl_published hmem hport (hg ▸ hland (fill := true) hkind) hon
  · exact execStl_free hmem hport (hg ▸ hland (fill := false) (by simpa using hkind)) hon
  · exact portSlot_cause_holds hmem hport rfl (State.ldlCause_of_not_published (hland (fill := true) hkind) hg)
  · exact portSlot_cause_holds hmem hport rfl
      (State.stlCause_of_not_free (hland (fill := false) (by simpa using hkind)) hg)
end

section
/-! What an operation of a core begins when it issues (R102, R103, R105): the results that it puts on their way and the address
registers that it names. Its registers, its tcyc and the step number read on as before. -/

namespace Sys2Proof.Machine

/-! ### The registers of a core -/

/-- The fields of a core that its registers and its arrays are read from (R102). -/
def CoreSt.regs (c : CoreSt) :
    Tab Word × Tab Word × Tab Word × Tab Vec × Tab DWord × Tab DWord × Tab DWord × ArraySt × ArraySt :=
  (c.s, c.a, c.dp, c.v, c.m, c.seed, c.idx, c.arr0, c.arr1)

theorem CoreSt.arr_of_regs {c d : CoreSt} (h : d.regs = c.regs) (arr : Arr) : d.arr arr = c.arr arr := by
  simp only [CoreSt.regs, Prod.mk.injEq] at h
  obtain ⟨-, -, -, -, -, -, -, h0, h1⟩ := h
  rw [CoreSt.arr, CoreSt.arr, h0, h1]

/-- The fields of `CoreSt.regs` and the invocation decide what every register reads as (R102). -/
theorem State.sameRegs_of_regs {s t : State} (h : ∀ q, (t.coreAt q).regs = (s.coreAt q).regs) (hepoch : t.epoch = s.epoch) :
    s.sameRegs t := by
  intro q n
  have harr := CoreSt.arr_of_regs (h q)
  have hq := h q
  simp only [CoreSt.regs, Prod.mk.injEq] at hq
  obtain ⟨hs, ha, hdp, hv, hm, hseed, hidx, -, -⟩ := hq
  simp only [State.sReg, State.aReg, State.dpReg, State.vReg, State.mReg, State.seedReg, State.idxReg, State.cfgReg, State.entReg,
    State.sclReg, State.psum, State.undef, hs, ha, hdp, hv, hm, hseed, hidx, harr, hepoch, and_self, implies_true]

/-! ### What an operation begins -/

/-- `t` is `s` after operations at `p` that begin the results `rs` and name the address registers `ns`, and no others. -/
structure State.Begun (s : State) (p : Pos) (rs : List Pend) (ns : List (Nat × Nat)) (t : State) : Prop where
  pend : (t.coreAt p.val).pend = (s.coreAt p.val).pend ++ rs
  advA : (t.coreAt p.val).advA = (s.coreAt p.val).advA ++ ns
  regs : ∀ q, (t.coreAt q).regs = (s.coreAt q).regs
  epoch : t.epoch = s.epoch
  tcyc : t.tcyc p.val = s.tcyc p.val
  frameStep : t.frm.frameStep = s.frm.frameStep

namespace State.Begun
variable {s t u : State} {p : Pos} {rs rs' : List Pend} {ns ns' : List (Nat × Nat)}

/-- A step that touches no core. -/
theorem of_core (hcore : t.core = s.core) (hepoch : t.epoch = s.epoch) (htcyc : t.tcyc p.val = s.tcyc p.val)
    (hstep : t.frm.frameStep = s.frm.frameStep) : s.Begun p [] [] t where
  pend := by simp [State.coreAt, hcore]
  advA := by simp [State.coreAt, hcore]
  regs q := by simp only [State.coreAt, hcore]
  epoch := hepoch
  tcyc := htcyc
  frameStep := hstep

/-- A step on the core at `p` that leaves its registers. -/
theorem of_onCore (s : State) (p : Pos) {f : CoreSt → CoreSt}
    (hf : ∀ c, (f c).pend = c.pend ++ rs ∧ (f c).advA = c.advA ++ ns ∧ (f c).regs = c.regs) :
    s.Begun p rs ns (s.onCore p.val f) := by
  have hcore : (s.onCore p.val f).coreAt p.val = f (s.coreAt p.val) := by rw [State.onCore_coreAt, if_pos rfl]
  obtain ⟨hpend, hadv, hregs⟩ := hf (s.coreAt p.val)
  refine ⟨by rw [hcore, hpend], by rw [hcore, hadv], fun q => ?_, rfl, rfl, rfl⟩
  rw [State.onCore_coreAt]
  split
  · next hq => rw [hq, hregs]
  · rfl

theorem refl (s : State) (p : Pos) : s.Begun p [] [] s := of_core rfl rfl rfl rfl

theorem trans (h : s.Begun p rs ns t) (k : t.Begun p rs' ns' u) : s.Begun p (rs ++ rs') (ns ++ ns') u where
  pend := by rw [k.pend, h.pend, List.append_assoc]
  advA := by rw [k.advA, h.advA, List.append_assoc]
  regs q := (k.regs q).trans (h.regs q)
  epoch := k.epoch.trans h.epoch
  tcyc := k.tcyc.trans h.tcyc
  frameStep := k.frameStep.trans h.frameStep

/-- A step that begins nothing after one that may. -/
theorem quiet (h : s.Begun p rs ns t) (k : t.Begun p [] [] u) : s.Begun p rs ns u := by
  simpa using h.trans k

/-- A branch that begins nothing. -/
theorem ite_quiet {c : Prop} [Decidable c] (h : s.Begun p rs ns t) (k : t.Begun p [] [] u) :
    s.Begun p rs ns (if c then u else t) := by
  split
  · exact h.quiet k
  · exact h

theorem sameRegs (h : s.Begun p rs ns t) : s.sameRegs t := State.sameRegs_of_regs h.regs h.epoch

theorem result (h : s.Begun p rs ns t) : t.result p = s.result p := by
  funext dst lat rank val mask
  rw [State.result, State.result, h.tcyc]

end State.Begun

/-! ### Operations that begin nothing -/

section
variable (s : State) (p : Pos)

theorem State.count_begun (b u i n : Nat) : s.Begun p [] [] (s.count b u i n) := by
  apply State.Begun.of_core <;> simp [State.tcyc, State.cluAt]
theorem State.event_begun (q ev n : Nat) : s.Begun p [] [] (s.event q ev n) := by
  apply State.Begun.of_core <;> simp [State.tcyc, State.cluAt]
theorem State.raise_begun (e : Ev) : s.Begun p [] [] (s.raise e) := by
  apply State.Begun.of_core <;> simp [State.tcyc]
theorem State.raiseAt_begun (code : Code) (q unit aux detail : Nat) : s.Begun p [] [] (s.raiseAt code q unit aux detail) :=
  s.raise_begun p _
theorem State.arrFault_begun (q : Nat) (arr : Arr) (code : Code) : s.Begun p [] [] (s.arrFault q arr code) :=
  s.raiseAt_begun p ..
theorem State.vFault_begun (q : Nat) (code : Code) : s.Begun p [] [] (s.vFault q code) := s.raiseAt_begun p ..
theorem State.heal_begun (place : Place) (unit lo n : Nat) : s.Begun p [] [] (s.heal place unit lo n) :=
  .of_core rfl rfl rfl rfl

theorem State.scrubRefuse_begun (mem a q : Nat) : s.Begun p [] [] (s.scrubRefuse mem a q) := by
  unfold State.scrubRefuse
  split
  · exact .refl s p
  · next x _ =>
    split
    · exact .refl s p
    · exact State.Begun.quiet (t := { s with post := { s.post with scrubNoted := x.1 :: s.post.scrubNoted } })
        (.of_core rfl rfl rfl rfl) (State.raise_begun _ p _)

theorem State.access_begun (q key : Nat) : s.Begun p [] [] (s.access q key) := by
  have h : s.Begun p [] [] (s.setClu (posClu q) { s.cluAt (posClu q) with acc := (s.cluAt (posClu q)).acc ++ [(key, q)] }) := by
    refine .of_core rfl rfl ?_ rfl
    rw [State.tcyc, State.setClu_cluAt]
    split
    · next hq => rw [State.tcyc, hq]
    · rfl
  unfold State.access
  dsimp only
  split
  · exact h.quiet (State.event_begun _ p ..)
  · exact h.quiet (State.count_begun _ p ..)

theorem State.accessRow_begun (q row : Nat) : s.Begun p [] [] (s.accessRow q row) := by
  unfold State.accessRow
  split
  · exact .refl s p
  · exact s.access_begun p ..

/-- A near-store read, whatever its bank and its row hold (R217, R218, R228). -/
theorem State.readRow_begun (q row : Nat) : s.Begun p [] [] (s.readRow q row).1 := by
  have h1 := s.accessRow_begun p q row
  unfold State.readRow
  extract_lets s1 aux a
  split
  · exact h1.quiet (s1.scrubRefuse_begun p ..)
  split
  · split
    next co un _ =>
    extract_lets s2 s3
    exact (h1.ite_quiet (s1.raiseAt_begun p ..)).ite_quiet (s2.raiseAt_begun p ..)
  · exact h1.quiet (s1.raiseAt_begun p ..)

theorem State.readRows_begun (q row n : Nat) : s.Begun p [] [] (s.readRows q row n).1 := by
  induction n generalizing s row with
  | zero => exact .refl s p
  | succ n ih =>
    rw [State.readRows_succ]
    dsimp only
    exact (s.readRow_begun p q row).quiet (ih (s.readRow q row).1 (row + 1))

end

/-! ### Operations that begin a result or name a register -/

section
variable (s : State) (p : Pos)

theorem State.pendOp_begun (dst : Dst) (lat rank : Nat) (val : Vec) (mask : BitVec 256) :
    s.Begun p [s.result p dst lat rank val mask] [] (s.pendOp p.val dst lat rank val mask) := by
  unfold State.pendOp
  exact .of_onCore s p fun c => ⟨rfl, (List.append_nil c.advA).symm, rfl⟩

theorem State.useA_begun (n tag : Nat) : s.Begun p [] [(n, tag)] (s.useA p.val n tag) :=
  .of_onCore s p fun c => ⟨(List.append_nil c.pend).symm, rfl, rfl⟩

end

/-- A result begun after others, in the terms of the state that they began from. -/
theorem State.Begun.pendOp {s t : State} {p : Pos} {rs : List Pend} {ns : List (Nat × Nat)} (h : s.Begun p rs ns t) (dst : Dst)
    (lat rank : Nat) (val : Vec) (mask : BitVec 256) :
    s.Begun p (rs ++ [s.result p dst lat rank val mask]) ns (t.pendOp p.val dst lat rank val mask) := by
  have hp := t.pendOp_begun p dst lat rank val mask
  rw [h.result] at hp
  simpa using h.trans hp

/-- A command that answers such a state begins its results. -/
theorem State.Begun.begins {s t : State} {p : Pos} {rs : List Pend} {ns : List (Nat × Nat)} {i : Instr} (h : s.Begun p rs ns t)
    (hexec : exec i s = .next t) : s.begins p i rs :=
  ⟨t, hexec, h.pend⟩

end Sys2Proof.Machine
end

section
/-! The vector slot (R122, R123, R128): the lanes of a register, an operation that issues on a free slot, and the conversions. -/

namespace Sys2Proof.Machine

/-! ### Lanes -/

theorem lane_ofLanes_cons_zero (w : Word) (ws : List Word) : lane (ofLanes (w :: ws)) 0 = w := by
  apply BitVec.eq_of_getLsbD_eq
  intro i hi
  simp [lane, ofLanes, hi]

theorem lane_ofLanes_cons_succ (w : Word) (ws : List Word) {k : Nat} (hk : k + 1 < 64) :
    lane (ofLanes (w :: ws)) (k + 1) = lane (ofLanes ws) k := by
  apply BitVec.eq_of_getLsbD_eq
  intro i hi
  have hwide : 32 * (k + 1) + i < 2048 := by omega
  have hsub : 32 * (k + 1) + i - 32 = 32 * k + i := by omega
  have hhigh : ¬ 32 * (k + 1) + i < 32 := by omega
  have hword : w.getLsbD (32 * (k + 1) + i) = false := BitVec.getLsbD_of_ge _ _ (by omega)
  simp [lane, ofLanes, hi, hwide, hhigh, hsub, hword, BitVec.getLsbD_eq_getElem (show 32 * k + i < 2048 by omega)]

/-- Lane k of a register made from its lanes. -/
theorem lane_ofLanes (ws : List Word) {k : Nat} (hk : k < 64) : lane (ofLanes ws) k = ws.getD k 0 := by
  induction ws generalizing k with
  | nil => simp [lane, ofLanes]
  | cons w ws ih =>
    match k with
    | 0 => exact lane_ofLanes_cons_zero w ws
    | k + 1 => rw [lane_ofLanes_cons_succ w ws hk, ih (Nat.lt_of_succ_lt hk), List.getD_cons_succ]

theorem lane_ofLanes_map (f : Nat → Word) {k : Nat} (hk : k < 64) : lane (ofLanes ((List.range 64).map f)) k = f k := by
  rw [lane_ofLanes _ hk]
  simp [hk]

theorem map_lanesOf (f : Word → Word) (v : Vec) : (lanesOf v).map f = (List.range 64).map (fun k => f (lane v k)) :=
  List.map_map

/-! ### An operation on a free slot -/

section
variable {s u : State} {p : Pos} {o : VOp}

/-- The slot of a core taken for `occ` tcyc (R123). -/
def State.vTaken (s : State) (p occ : Nat) : State :=
  (s.onCore p (fun c => { c with vBusy := s.tcyc p + occ, vAt := some (s.tcyc p), vWas := c.vBusy })).event p 0x18 1

theorem State.vTaken_begun (s : State) (p : Pos) (occ : Nat) : s.Begun p [] [] (s.vTaken p.val occ) := by
  refine State.Begun.quiet (.of_onCore s p fun c => ?_) (State.event_begun _ p ..)
  exact ⟨(List.append_nil c.pend).symm, (List.append_nil c.advA).symm, rfl⟩

theorem State.readV_begun (s : State) (p : Pos) (rs : List Nat) : s.Begun p [] [] (s.readV p.val rs) :=
  ((State.Begun.refl s p).ite_quiet (s.vFault_begun p ..)).ite_quiet (State.vFault_begun _ p ..)

theorem State.readM_begun (s : State) (p : Pos) (ms : List Nat) : s.Begun p [] [] (s.readM p.val ms) :=
  ((State.Begun.refl s p).ite_quiet (s.vFault_begun p ..)).ite_quiet (State.vFault_begun _ p ..)

theorem State.vCheck_begun (s : State) (p : Pos) (i : Instr) (o : VOp) : s.Begun p [] [] (s.vCheck p.val i o) :=
  ((s.readV_begun p _).quiet (State.readM_begun _ p _)).ite_quiet
    ((State.vFault_begun _ p ..).quiet (State.heal_begun _ p ..))

/-- A legal operation on a free slot acts on a state in which its checks have begun nothing. -/
theorem State.vOp_free (h : s.vecFree p) {ok : Bool} (hok : ok = true) (i : Instr) (o : VOp) (occ : Nat) :
    ∃ u, s.Begun p [] [] u ∧ ∀ k : State → State, s.vOp p.val i o ok occ k = k u := by
  obtain ⟨hissues, hfree⟩ := h
  refine ⟨(s.vTaken p.val occ).vCheck p.val i o, (s.vTaken_begun p occ).quiet (State.vCheck_begun _ p i o), fun k => ?_⟩
  rw [State.vOp, State.whenIssued_none hissues, if_pos hok, State.vSlot]
  exact if_neg (Nat.not_lt.mpr hfree)

/-- A legal operation on a free slot begins what its action begins. -/
theorem begins_of_vOp (h : s.vecFree p) {i : Instr} {ok : Bool} {occ : Nat} {k : State → State} {rs : List Pend}
    (hexec : exec i s = .next (s.vOp p.val i o ok occ k)) (hok : ok = true)
    (hk : ∀ u, s.Begun p [] [] u → s.Begun p rs [] (k u)) : s.begins p i rs := by
  obtain ⟨u, hu, hrun⟩ := State.vOp_free h hok i o occ
  exact (hk u hu).begins (by rw [hexec, hrun])

/-! ### What an operation reads, in a state where nothing has begun -/

namespace State.Begun

theorem vReg {rs ns} (h : s.Begun p rs ns u) (q n : Nat) : u.vReg q n = s.vReg q n := by
  obtain ⟨-, -, -, hv, -⟩ := h.sameRegs q n
  exact hv
theorem mReg {rs ns} (h : s.Begun p rs ns u) (q n : Nat) : u.mReg q n = s.mReg q n := by
  obtain ⟨-, -, -, -, hm, -⟩ := h.sameRegs q n
  exact hm
theorem seedReg {rs ns} (h : s.Begun p rs ns u) (q n : Nat) : u.seedReg q n = s.seedReg q n := by
  obtain ⟨-, -, -, -, -, hseed, -⟩ := h.sameRegs q n
  exact hseed
theorem idxReg {rs ns} (h : s.Begun p rs ns u) (q n : Nat) : u.idxReg q n = s.idxReg q n := by
  obtain ⟨-, -, -, -, -, -, hidx, -⟩ := h.sameRegs q n
  exact hidx

theorem vMask {rs ns} (h : s.Begun p rs ns u) (q : Nat) (o : VOp) : u.vMask q o = s.vMask q o := by
  rw [State.vMask, State.predicate, h.mReg]
  rfl
theorem rndOf {rs ns} (h : s.Begun p rs ns u) (q : Nat) (o : VOp) (i : Nat) : u.rndOf q o i = s.rndOf q o i := by
  rw [State.rndOf, h.seedReg, h.frameStep, h.idxReg]
  rfl

/-- A vector result under the predicate (R123). -/
theorem vWrite (h : s.Begun p [] [] u) (o : VOp) (lat : Nat) (ws : List Word) :
    s.Begun p [s.result p (.v o.vd.toNat) lat 2 (ofLanes ws) (s.vMask p.val o)] [] (u.vWrite p.val o lat ws) := by
  rw [State.vWrite, h.vMask]
  exact h.pendOp ..

/-- The advance of IDX after a stochastic draw (R128). -/
theorem drawIdx {rs} (h : s.Begun p rs [] u) (o : VOp) : s.Begun p (rs ++ s.drawn p o) [] (u.drawIdx p.val o) := by
  rw [State.drawIdx, State.drawn, h.idxReg]
  split
  · exact h.pendOp ..
  · rw [List.append_nil]
    exact h

end State.Begun

/-- A legal operation on a free slot whose action writes the lanes `f`. -/
theorem vecDoes_of_vOp (h : s.vecFree p) {i : Instr} {ok : Bool} {occ lat : Nat} {k : State → State} {f : Nat → Word}
    {more : List Pend} (hexec : exec i s = .next (s.vOp p.val i o ok occ k)) (hok : ok = true)
    (hk : ∀ u, s.Begun p [] [] u → s.Begun p
      ([s.result p (.v o.vd.toNat) lat 2 (ofLanes ((List.range 64).map f)) (s.vMask p.val o)] ++ more) [] (k u)) :
    s.vecDoes p o lat i f more :=
  ⟨_, fun _ => lane_ofLanes_map f, begins_of_vOp h hexec hok hk⟩

/-! ### Conversions (R91, R123, R128) -/

/-- VCVF (R128): the exact value of an element times its block's scale, NaN for a scale of 0xFF. -/
theorem execVcvf_lanes (h : s.vecFree p) (hmod : modOk o .none = true) {e : Elem} (he : elemOf (o.imm % 16) = some e) :
    s.vecDoes p o 4 (.vcvf p o) (fun k =>
      let sc := (lane (s.vReg p.val o.vb.toNat) (k / 32)).toNat % 256
      if sc = 0xFF then 0x7FC00000
      else f32 ((e.dec (packedCode e (s.vReg p.val o.va.toNat) k)).scale ((sc : Int) - 127))) := by
  refine vecDoes_of_vOp h rfl (by rw [hmod, he]; rfl) fun u hu => ?_
  dsimp only
  rw [hu.vReg, hu.vReg, he, Option.getD_some, List.append_nil]
  exact hu.vWrite ..

/-- VCVM (R91, R128): two blocks of 32 lanes, their packed codes in vd and their scales in lanes 0 and 1 of vc. -/
theorem execVcvm_begins (h : s.vecFree p) (hmod : modOk o .sr = true) {e : Elem} (he : elemOf (o.imm % 16) = some e) :
    let vs := (lanesOf (s.vReg p.val o.va.toNat)).map (fun w => fp32.dec w.toNat)
    let x := convBlock e (fun i => s.rndOf p.val o i) (vs.take 32)
    let y := convBlock e (fun i => s.rndOf p.val o (32 + i)) (vs.drop 32)
    s.begins p (.vcvm p o) ([s.result p (.v o.vd.toNat) 4 2
        (BitVec.ofNat 2048 (((x.1 ++ y.1).zipIdx.map (fun c => c.1 * 2 ^ (e.bits * c.2))).foldl (· + ·) 0)) (s.vMask p.val o),
      s.result p (.v o.vc.toNat) 4 2 (BitVec.ofNat 2048 (x.2.1 + 2 ^ 32 * y.2.1)) 3] ++ s.drawn p o) := by
  refine begins_of_vOp h rfl (by rw [hmod, he]; rfl) fun u hu => ?_
  simp only [hu.vReg, hu.rndOf, hu.vMask, he, Option.getD_some]
  exact (((hu.pendOp ..).pendOp ..).quiet (State.count_begun _ p ..)).drawIdx o

/-- VCVB (R91, R123): BF16 in bits [31:16], rounded as RND says. -/
theorem execVcvb_lanes (h : s.vecFree p) (hmod : modOk o .sr = true) :
    s.vecDoes p o 4 (.vcvb p o)
      (fun k => laneCode 1 (s.rndOf p.val o k) (fp32.dec (lane (s.vReg p.val o.va.toNat) k).toNat)) (s.drawn p o) := by
  refine vecDoes_of_vOp h rfl hmod fun u hu => ?_
  simp only [hu.vReg, hu.rndOf]
  exact (hu.vWrite ..).drawIdx o

/-- VCVI toward INT32 (R123). -/
theorem execVcvi_toInt (h : s.vecFree p) (hdir : o.imm % 2 = 0) (hmod : modOk o .noSr = true) :
    s.vecDoes p o 4 (.vcvi p o)
      (fun k => toInt32 (if o.rnd = 2 then .rz else .rne) (fp32.dec (lane (s.vReg p.val o.va.toNat) k).toNat)) := by
  refine vecDoes_of_vOp h (congrArg Host.Outcome.next (if_pos hdir)) hmod fun u hu => ?_
  rw [hu.vReg, map_lanesOf, List.append_nil]
  exact hu.vWrite ..

/-- VCVI from INT32 (R123). -/
theorem execVcvi_ofInt (h : s.vecFree p) (hdir : o.imm % 2 = 1) (hmod : modOk o .none = true) :
    s.vecDoes p o 4 (.vcvi p o) (fun k => f32 (.ofInt (lane (s.vReg p.val o.va.toNat) k).toInt 0)) := by
  have hne : ¬ o.imm % 2 = 0 := by omega
  refine vecDoes_of_vOp h (congrArg Host.Outcome.next (if_neg hne)) hmod fun u hu => ?_
  rw [hu.vReg, map_lanesOf, List.append_nil]
  exact hu.vWrite ..

end

end Sys2Proof.Machine

open Sys2Proof Sys2Proof.Machine

/-- Settles O15: each conversion is one operation of the vector slot, whose checks change no register that it reads. -/
theorem conversionLanes : Obligations.ConversionLanes := by
  intro p o s h a b
  exact ⟨fun hmod e he => execVcvf_lanes h hmod he, fun hmod e he => execVcvm_begins h hmod he, fun hmod => execVcvb_lanes h hmod,
    fun hdir hmod => execVcvi_toInt h hdir hmod, fun hdir hmod => execVcvi_ofInt h hdir hmod⟩
end

section
/-! The array slot (R77, R79, R80, R120, R121, R146): FEED, CFG, SWAP and LATCH where their array lets them act. -/

namespace Sys2Proof.Machine

section
variable {s t : State} {p : Pos} {arr : Arr}

/-! ### FEED: the steps that every row takes -/

/-- The upsets of an array's feeder and of its output code that a FEED meets (R79, R101): a fault now, an event that rides with
the result. -/
def State.feedChecks (s : State) (p : Nat) (arr : Arr) : State :=
  let s := if s.upset .feeder (2 * p + arr.val) 0 != .good then
    (s.arrFault p arr 0x2105).heal .feeder (2 * p + arr.val) 0 1 else s
  if s.upset .output (2 * p + arr.val) 0 != .good then
    (s.pendOp p (.event 0x2104 (2 + arr.val) ((s.coreAt p).pc.setWidth 16) 0) 15 3 0).heal .output (2 * p + arr.val) 0 1
  else s

/-- A row enters (R79, R121): the FEED names address register `n`, and the feeder's state `x` after it lands with the tcyc. -/
def State.feedEnters (s : State) (p : Nat) (arr : Arr) (n : Nat) (x : Dst) : State :=
  (((s.useA p n 3).pendOp p x 1 3 0).count 8 p (8 + arr.val) 1).event p (0x10 + arr.val) 1

theorem State.feedChecks_begun (s : State) (p : Pos) (arr : Arr) : ∃ rs, s.Begun p rs [] (s.feedChecks p.val arr) := by
  have h1 : s.Begun p [] [] (if s.upset .feeder (2 * p.val + arr.val) 0 != .good then
      (s.arrFault p.val arr 0x2105).heal .feeder (2 * p.val + arr.val) 0 1 else s) :=
    (State.Begun.refl s p).ite_quiet ((s.arrFault_begun p ..).quiet (State.heal_begun _ p ..))
  unfold State.feedChecks
  extract_lets s1
  split
  · exact ⟨_, State.Begun.quiet (State.Begun.pendOp h1 ..) (State.heal_begun _ p ..)⟩
  · exact ⟨_, h1⟩

theorem State.Begun.feedEnters {rs : List Pend} (h : s.Begun p rs [] t) (arr : Arr) (n : Nat) (x : Dst) :
    s.Begun p (rs ++ [s.result p x 1 3 0 fullMask]) [(n, 3)] (t.feedEnters p.val arr n x) := by
  have hnamed : s.Begun p rs [(n, 3)] (t.useA p.val n 3) := by simpa using h.trans (t.useA_begun p n 3)
  exact ((hnamed.pendOp ..).quiet (State.count_begun _ p ..)).quiet (State.event_begun _ p ..)

/-- The scales that a row's feeder takes (R78). -/
theorem State.feedScales_begun (s : State) (p : Pos) (q : Nat) (arr : Arr) (nb : Nat) :
    s.Begun p [] [] (s.feedScales q arr nb).1 := by
  unfold State.feedScales
  dsimp only
  cases ((s.coreAt q).arr arr).sclRow with
  | some r =>
    dsimp only
    split
    · exact .refl s p
    · exact .refl s p
  | none =>
    dsimp only
    split
    · exact s.readRow_begun p ..
    · exact s.readRow_begun p ..

theorem State.feedWakes_of_no_mode (field : Nat) (h : modeInfo ((s.cfgReg p.val arr).toNat % 16) = none) :
    s.feedWakes p.val arr field = false := by
  rw [State.feedWakes, h]

/-! ### FEED: what it begins -/

/-- The lanes of its entry that a FEED in mode `m` writes: the columns of the mode (R80), all of them under a reserved MODE (log
entry 86). -/
def feedLanes (m : Nat) : BitVec 256 :=
  match modeInfo m with
  | none => fullMask
  | some i => colMask i.cols

theorem feedLanes_of_none {m : Nat} (h : modeInfo m = none) : feedLanes m = fullMask := by rw [feedLanes, h]
theorem feedLanes_of_some {m : Nat} {i : ModeInfo} (h : modeInfo m = some i) : feedLanes m = colMask i.cols := by
  rw [feedLanes, h]

/-- The feeder's step with a row (R78, R121): to the next entry, with its scale pointer and what it holds of a scale row. -/
def State.feederStep (s : State) (p : Pos) (arr : Arr) (sclp : Word) (used : Nat) (row : Option Row) : Pend :=
  s.result p (.feeder arr (nextEntry (s.cfgReg p.val arr) (s.entReg p.val arr)) sclp used row) 1 3 0 fullMask

/-- A row's result `v` on its way to the entry that the array's pointer names (R79). -/
def State.rowResult (s : State) (p : Pos) (arr : Arr) (acc : Bool) (v : Vec) (mask : BitVec 256) : Pend :=
  s.result p (.psum arr (s.entReg p.val arr) acc) 15 3 v mask

/-- `t` is `s` after a FEED of `arr`: the row's result `v` and the feeder's step are among the results begun, and address register
`n` is named once. -/
def State.Feeds (s : State) (p : Pos) (arr : Arr) (acc : Bool) (n : Nat) (v : Vec) (mask : BitVec 256) (t : State) : Prop :=
  ∃ rs, s.Begun p rs [(n, 3)] t ∧ s.rowResult p arr acc v mask ∈ rs ∧ ∃ sclp used row, s.feederStep p arr sclp used row ∈ rs

/-- The row's result, after the feeder's step. -/
theorem State.Begun.feeds {rs : List Pend} {n : Nat} {sclp : Word} {used : Nat} {row : Option Row}
    (h : s.Begun p (rs ++ [s.feederStep p arr sclp used row]) [(n, 3)] t) (acc : Bool) (v : Vec) (mask : BitVec 256) :
    s.Feeds p arr acc n v mask (t.pendOp p.val (.psum arr (s.entReg p.val arr) acc) 15 3 v mask) :=
  ⟨_, h.pendOp .., by simp [State.rowResult], sclp, used, row, by simp⟩

theorem State.Feeds.trans {u : State} {acc : Bool} {n : Nat} {v : Vec} {mask : BitVec 256} {rs : List Pend}
    (h : s.Feeds p arr acc n v mask t) (k : t.Begun p rs [] u) : s.Feeds p arr acc n v mask u := by
  obtain ⟨rs0, hbegun, hrow, sclp, used, row, hstep⟩ := h
  exact ⟨_, hbegun.trans k, List.mem_append_left _ hrow, sclp, used, row, List.mem_append_left _ hstep⟩

/-- A FEED that no waking bank holds (R79, R80, R121). -/
theorem execFeed_feeds (h : s.issues p.val = true) (acc : Bool) (f : BitVec 4) (hwake : s.feedWakes p.val arr f.toNat = false) :
    ∃ t, exec (.feed p arr acc f) s = .next t ∧ ∃ v,
      s.Feeds p arr acc f.toNat v (feedLanes ((s.cfgReg p.val arr).toNat % 16)) t ∧
      (modeInfo ((s.cfgReg p.val arr).toNat % 16) = none → v = nanRow) := by
  refine ⟨_, rfl, ?_⟩
  obtain ⟨rs, hchecks⟩ := s.feedChecks_begun p arr
  rw [hwake, show wakeCause false = none from rfl, State.whenIssued_none h]
  extract_lets cfg m a tile en row s1 s2 begun r pairs afmt
  have henters {u : State} (hu : s.Begun p rs [] u) (sclp : Word) (used : Nat) (srow : Option Row) :
      s.Begun p (rs ++ [s.feederStep p arr sclp used srow]) [(f.toNat, 3)] (begun u sclp used srow) :=
    hu.feedEnters arr f.toNat _
  split
  · next hmode =>
    rw [feedLanes_of_none hmode]
    exact ⟨nanRow, ((henters hchecks _ _ _).quiet (State.arrFault_begun _ p ..)).feeds .., fun _ => rfl⟩
  next i hmode =>
  rw [feedLanes_of_some hmode, hmode]
  have hrows := hchecks.quiet (s2.readRows_begun p p.val row ((i.actBytes + 63) / 64))
  generalize s2.readRows p.val row ((i.actBytes + 63) / 64) = x at hrows
  obtain ⟨u, bytes⟩ := x
  dsimp only at hrows ⊢
  have hscales : s.Begun p rs [] (if i.mx then u.feedScales p.val arr (i.depth / 32)
      else (u, [], u.sclReg p.val arr, a.sclUsed, a.sclRow)).1 := by
    split
    · exact hrows.quiet (u.feedScales_begun p ..)
    · exact hrows
  generalize (if i.mx then u.feedScales p.val arr (i.depth / 32)
    else (u, [], u.sclReg p.val arr, a.sclUsed, a.sclRow)) = y at hscales
  obtain ⟨v, sx, sclp, used, srow⟩ := y
  dsimp only at hscales ⊢
  have hentered := henters hscales sclp used srow
  split
  · exact ⟨nanRow, (hentered.quiet (State.arrFault_begun _ p ..)).feeds .., nofun⟩
  · have hgated (n : Nat) := hentered.quiet (State.event_begun _ p p.val (0x12 + arr.val) n)
    split
    · exact ⟨_, (hgated _).feeds .., nofun⟩
    · exact ⟨_, ((hgated _).feeds ..).trans (State.pendOp_begun _ p ..), nofun⟩

/-! ### CFG, SWAP and LATCH -/

theorem execCfg_begins (h : s.issues p.val = true) {f : BitVec 4} (heven : f.toNat % 2 = 0)
    (hgood : badCfg (s.sReg p.val f.toNat) (s.sReg p.val (f.toNat + 1)) = false) :
    s.begins p (.cfg p arr f) [s.result p (.cfg arr) 1 3
      ((s.sReg p.val f.toNat).setWidth 2048 ||| ((s.sReg p.val (f.toNat + 1)).setWidth 2048 <<< 32)) fullMask] := by
  refine State.Begun.begins ?_ rfl (ns := [])
  rw [State.whenIssued_none h]
  dsimp only
  rw [if_neg (by simp [heven, hgood])]
  exact s.pendOp_begun p ..

theorem execSwap_begins (h : s.issues p.val = true) {tile : Tile} (hwhole : ((s.coreAt p.val).arr arr).shadow = .full tile) :
    s.begins p (.swap p arr) [s.result p (.swap arr) 1 3 0 fullMask] := by
  have hevent := s.event_begun p p.val 0x14 1
  refine State.Begun.begins ?_ rfl (ns := [])
  rw [State.whenIssued_none h]
  dsimp only
  rw [CoreSt.arr_of_regs (hevent.regs p.val), hwhole]
  exact hevent.pendOp ..

/-- The slot that a LATCH takes: of two tiles that qualify the older (R146). -/
theorem StopSt.latchSlot_of_ready {x : StopSt} {t : Nat} (h : (x.slot0.ready t || x.slot1.ready t) = true) :
    x.latchSlot t = some (if x.slot0.ready t && (!x.slot1.ready t || decide (x.slot0.order ≤ x.slot1.order)) then 0 else 1) := by
  unfold StopSt.latchSlot
  split
  · next h0 h1 => simp [h0, h1]
  · next h0 h1 => simp [h0, h1]
  · next h0 h1 => simp [h0, h1]
  · next h0 h1 => simp [h0, h1] at h

theorem execLatch_begins (h : s.issues p.val = true) (hidle : ((s.coreAt p.val).arr arr).isLatching = false)
    {b : Nat} (hslot : (s.stopAt (2 * p.val + arr.val)).latchSlot (s.tcyc p.val) = some b) :
    s.begins p (.latch p arr) [s.result p (.latch arr b) 1 5 0 fullMask] := by
  refine State.Begun.begins ?_ rfl (ns := [])
  rw [State.whenIssued_none h]
  dsimp only
  rw [if_neg (by simp [hidle]), hslot]
  exact s.pendOp_begun p ..

end

end Sys2Proof.Machine

open Sys2Proof Sys2Proof.Machine

/-- Settles O22: a FEED begins its row's result and the feeder's step after its checks and reads, which begin at most an event; the
other three begin one result. -/
theorem arraySlotOperations : Obligations.ArraySlotOperations := by
  refine ⟨fun p arr acc f s h => ?_, fun p arr s h => ⟨fun f => execCfg_begins h, fun tile => execSwap_begins h, ?_⟩⟩
  · intro m e enters
    have hfeed (hwake : s.feedWakes p.val arr f.toNat = false) : ∃ v, enters (fun rs =>
        s.result p (.psum arr e acc) 15 3 v (feedLanes m) ∈ rs) ∧ (modeInfo m = none → v = nanRow) := by
      obtain ⟨t, hexec, v, ⟨rs, hbegun, hrow, hstep⟩, hnan⟩ := execFeed_feeds h acc f hwake
      exact ⟨v, ⟨t, rs, hexec, hbegun.pend, hrow, hstep, hbegun.advA⟩, hnan⟩
    refine ⟨fun hmode => ?_, fun i hmode hwake => ?_⟩
    · obtain ⟨v, henters, hnan⟩ := hfeed (State.feedWakes_of_no_mode _ hmode)
      rw [hnan hmode, feedLanes_of_none hmode] at henters
      exact henters
    · obtain ⟨v, ⟨t, rs, hexec, hpend, hrow, hrest⟩, -⟩ := hfeed hwake
      rw [feedLanes_of_some hmode] at hrow
      exact ⟨t, rs, hexec, hpend, ⟨v, hrow⟩, hrest⟩
  · intro x r0 r1 hidle hready
    exact execLatch_begins h hidle (StopSt.latchSlot_of_ready hready)
end

section
/-! The control slot (R105, R107-R113, R513): what each operation does in the tcyc in which its core issues. -/

namespace Sys2Proof.Machine

section
variable {s : State} {p : Pos}

/-! ### The sequencer's operations (R107-R111) -/

/-- An operation of the control slot acts in the tcyc in which its core issues. -/
theorem State.cSlot_issues (h : s.issues p.val = true) (i : Instr) (k : State → State) : s.cSlot p.val i k = k s :=
  State.whenIssued_none h i k

/-- A wait for a later tcyc; one that is not later is a schedule fault (R109). -/
theorem State.waitFor_issues (h : s.issues p.val = true) (i : Instr) (target : Nat) :
    s.waitFor p.val i target = if target ≤ s.tcyc p.val then s.seqFault p.val 0x2202
      else s.onCore p.val (fun c => { c with waitNew := some target }) :=
  State.cSlot_issues h i _

theorem execRpt_eq (h : s.issues p.val = true) (n : BitVec 16) (hoff : (s.coreAt p.val).rptOn = false) :
    exec (.rpt p n) s = .next (s.onCore p.val (fun c => { c with rpt := n.toNat })) := by
  refine congrArg Host.Outcome.next ?_
  rw [State.cSlot_issues h, State.onCore, State.onCore, hoff]
  rfl

theorem execBnz_eq (h : s.issues p.val = true) (a : BitVec 4) (g : BitVec 13) : exec (.bnz p a g) s =
    .next (if s.sReg p.val a.toNat = 0 then s else s.onCore p.val (fun c => { c with jump := some g })) :=
  congrArg Host.Outcome.next (State.cSlot_issues h ..)

/-- A loop at the level after the active ones whose body ends within the innermost (R108). -/
theorem State.openLoop_issues (h : s.issues p.val = true) (i : Instr) {level : Nat} (count len : Nat)
    (hlevel : level = (s.coreAt p.val).loops.length)
    (hends : ∀ l ∈ (s.coreAt p.val).loops, ((s.coreAt p.val).pc + BitVec.ofNat 13 len - l.first).toNat < l.len) :
    s.openLoop p.val i level count len = s.onCore p.val (fun c =>
      { c with loopNew := some { first := c.pc + 1, len := len, left := count } }) := by
  rw [State.openLoop, State.cSlot_issues h]
  dsimp only
  rw [if_neg]
  · rfl
  cases hl : (s.coreAt p.val).loops with
  | nil => simp [hlevel, hl]
  | cons l r => simpa [hlevel, hl] using hends l (by simp [hl])

/-! ### Illegal bundles (R105) -/

theorem State.illegal_eq (s : State) (p : Nat) : s.illegal p = s.bundleNop p 0x2201 := rfl

/-- An operation of the vector slot with an illegal encoding. -/
theorem State.vOp_illegal (h : s.issues p.val = true) {ok : Bool} (hok : ok = false) (i : Instr) (o : VOp) (occ : Nat)
    (k : State → State) : s.vOp p.val i o ok occ k = s.bundleNop p.val 0x2201 := by
  rw [State.vOp, State.whenIssued_none h, hok]
  rfl

theorem modOk_fmt_three {o : VOp} (h : o.fmt = 3) (u : RndUse) : modOk o u = false := by simp [modOk, h]

theorem saluOp_reserved {f : Nat} (h : 8 ≤ f) (a b : Word) : saluOp f a b = none := by
  match f, h with
  | n + 8, _ => rfl

theorem execSalu_reserved (h : s.issues p.val = true) (d a b f : BitVec 4) (hf : 8 ≤ f.toNat) :
    exec (.salu p d a b f) s = .next (s.bundleNop p.val 0x2201) := by
  refine congrArg Host.Outcome.next ?_
  rw [State.cSlot_issues h, saluOp_reserved hf]
  rfl

theorem execMovx_oddPair (h : s.issues p.val = true) (a : BitVec 4) (d : BitVec 5) (hd : 24 ≤ d.toNat) (ha : a.toNat % 2 = 1) :
    exec (.movx p a d) s = .next (s.bundleNop p.val 0x2201) := by
  refine congrArg Host.Outcome.next ?_
  rw [State.cSlot_issues h]
  dsimp only
  rw [if_neg (by omega), if_neg (by omega), if_pos ha]
  rfl

/-- The results that a NOP bundle leaves are those of other tcyc, and those that are no slot's (R105). -/
theorem State.bundleNop_pend (s : State) (p : Pos) (code : Code) : ((s.bundleNop p.val code).coreAt p.val).pend =
    (s.coreAt p.val).pend.filter (fun x => x.issue != s.tcyc p.val || x.rank == 4) := by
  have hfault : (s.seqFault p.val code).coreAt p.val = s.coreAt p.val := by
    rw [State.seqFault, State.coreAt, State.raiseAt_core]
    rfl
  rw [State.bundleNop, ← hfault, State.coreAt, State.setClu_core, ← State.coreAt, State.onCore_coreAt, if_pos rfl]

/-! ### Scalar operations and PAGE (R107, R113) -/

theorem State.cSlot_begins (h : s.issues p.val = true) {i : Instr} {k : State → State} {rs : List Pend}
    (hexec : exec i s = .next (s.cSlot p.val i k)) (hk : s.Begun p rs [] (k s)) : s.begins p i rs :=
  hk.begins (by rw [hexec, State.cSlot_issues h])

/-- The scalar functions in the order of their codes (R107). -/
theorem saluOp_defined {f : Nat} (h : f < 8) (x y : Word) : saluOp f x y = some (([x + y, x - y, x &&& y, x ||| y, x ^^^ y,
    x <<< (y.toNat % 32), x >>> (y.toNat % 32), x * y] : List Word).getD f 0) := by
  match f, h with
  | 0, _ | 1, _ | 2, _ | 3, _ | 4, _ | 5, _ | 6, _ | 7, _ => rfl

theorem execSalu_begins (h : s.issues p.val = true) (d a b f : BitVec 4) (hf : f.toNat < 8) : s.begins p (.salu p d a b f)
    (let x := s.sReg p.val a.toNat
     let y := s.sReg p.val b.toNat
     [s.result p (.s d.toNat) 1 0 ((([x + y, x - y, x &&& y, x ||| y, x ^^^ y, x <<< (y.toNat % 32), x >>> (y.toNat % 32),
       x * y] : List Word).getD f.toNat 0).setWidth 2048) fullMask]) := by
  refine State.cSlot_begins h rfl ?_
  rw [saluOp_defined hf]
  exact s.pendOp_begun p ..

/-- MOVX to an address register or a deck pointer. -/
theorem execMovx_word (h : s.issues p.val = true) (a : BitVec 4) (d : BitVec 5) (hd : d.toNat < 24) : s.begins p (.movx p a d)
    [s.result p (if d.toNat < 16 then .a d.toNat else .dp (d.toNat - 16)) 1 0 ((s.sReg p.val a.toNat).setWidth 2048) fullMask] := by
  refine State.cSlot_begins h rfl ?_
  dsimp only
  split
  · exact s.pendOp_begun p ..
  · exact s.pendOp_begun p ..

/-- MOVX to a seed or an index, from a register pair. -/
theorem execMovx_pair (h : s.issues p.val = true) (a : BitVec 4) (d : BitVec 5) (hd : 24 ≤ d.toNat) (ha : a.toNat % 2 = 0) :
    s.begins p (.movx p a d) [s.result p (if d.toNat < 28 then .seed (d.toNat - 24) else .idx (d.toNat - 28)) 1 0
      ((s.sReg p.val (a.toNat + 1) ++ s.sReg p.val a.toNat : DWord).setWidth 2048) fullMask] := by
  refine State.cSlot_begins h rfl ?_
  dsimp only
  rw [if_neg (show ¬ d.toNat < 16 by omega), if_neg (show ¬ d.toNat < 24 by omega), if_neg (show ¬ a.toNat % 2 = 1 by omega)]
  exact s.pendOp_begun p ..

/-- Results begun one after the other. -/
theorem State.Begun.foldl_pendOp {t : State} {rs : List Pend} {ns : List (Nat × Nat)} (h : s.Begun p rs ns t) (l : List Nat)
    (dst : Nat → Dst) (lat : Nat → Nat) (rank : Nat) (val : Nat → Vec) (mask : Nat → BitVec 256) :
    s.Begun p (rs ++ l.map fun k => s.result p (dst k) (lat k) rank (val k) (mask k)) ns
      (l.foldl (fun t k => t.pendOp p.val (dst k) (lat k) rank (val k) (mask k)) t) := by
  induction l generalizing rs t with
  | nil => simpa using h
  | cons k l ih => simpa using ih (h.pendOp (dst k) (lat k) rank (val k) (mask k))

/-- A free deck port takes an operation of the control slot or of the memory slot for `n` tcyc (R116). -/
theorem State.port_free (h : s.portFree p) (n : Nat) (k : State → State) : s.port p.val n k = k (s.portTaken p.val n) :=
  if_neg (Nat.not_lt.mpr h)

theorem State.portTaken_begun (s : State) (p : Pos) (n : Nat) : s.Begun p [] [] (s.portTaken p.val n) := by
  refine State.Begun.quiet (.of_onCore s p fun c => ?_) (State.event_begun _ p ..)
  exact ⟨(List.append_nil c.pend).symm, (List.append_nil c.advA).symm, rfl⟩

theorem State.portTaken_codeBase (s : State) (p : Pos) (n : Nat) :
    ((s.portTaken p.val n).coreAt p.val).codeBase = (s.coreAt p.val).codeBase := by
  rw [State.portTaken, State.coreAt, State.event_core, ← State.coreAt, State.onCore_coreAt, if_pos rfl]

theorem execPage_begins (h : s.issues p.val = true) (hport : s.portFree p) (slot : BitVec 4) (code : BitVec 12) :
    let g := ((s.coreAt p.val).codeBase + 8192 * code.toNat) / 256
    s.begins p (.page p slot code) ((List.range 32).map (fun k =>
      s.result p (.page slot.toNat k (g + k)) (k + 1) 0 0 fullMask) ++ [s.result p (.pageValid slot.toNat) 32 0 0 fullMask]) := by
  intro g
  have hfill := (s.portTaken_begun p 32).foldl_pendOp (List.range 32) (fun k => .page slot.toNat k (g + k)) (· + 1) 0
    (fun _ => 0) (fun _ => fullMask)
  refine State.cSlot_begins h rfl ?_
  rw [State.port_free hport]
  dsimp only
  rw [State.portTaken_codeBase]
  exact hfill.pendOp ..

/-! ### MARK (R107, R513) -/

/-- A record of a core with no region to take it. -/
theorem State.coreRec_none {ty : Nat} (h : s.recRegions ty ((s.coreBerth p.val).getD 0xFF) = []) (tcyc : Nat) (body : List Byte) :
    s.coreRec p.val ty tcyc body = s := by
  rw [State.coreRec, State.holdRec]
  dsimp only
  rw [h]

/-- The first byte of a record is its type (R515). -/
theorem State.formRec_type (s : State) (e : TrcEv) (hty : e.ty < 256) : (s.formRec e).2.toNat % 256 = e.ty := by
  rw [State.formRec]
  simp only [bytesOf, ofBytes, List.range_succ, List.range_zero]
  simp [BitVec.toNat_ofNat]
  omega

/-- A record of a core that a region takes, in the free holding register of its position (R514). -/
theorem State.coreRec_held {ty : Nat} (h : s.recRegions ty ((s.coreBerth p.val).getD 0xFF) ≠ [])
    (hfree : (s.rtrAt p.val).trace = none) (hty : ty < 256) (tcyc : Nat) (body : List Byte) :
    ∃ f, ((s.coreRec p.val ty tcyc body).rtrAt p.val).trace = some f ∧ f.pay.toNat % 256 = ty := by
  rw [State.coreRec, State.holdRec]
  dsimp only
  split
  · contradiction
  · rw [hfree, if_neg (by simp), State.setRtr_rtrAt_same]
    exact ⟨_, rfl, State.formRec_type _ _ hty⟩

end

end Sys2Proof.Machine

open Sys2Proof Sys2Proof.Machine

/-- Settles O5: in the tcyc in which its core issues, each operation is one update of the sequencer. -/
theorem sequencerOperations : Obligations.SequencerOperations := by
  intro p s h
  refine ⟨fun g hg => ?_, fun a ha => ?_, fun n => execRpt_eq h n, fun g => ?_, execBnz_eq h, ?_,
    fun level len hlevel hends => ⟨fun count => ?_, fun a => ?_⟩, fun g hg => ?_, fun a ha => ?_⟩
  · exact congrArg Host.Outcome.next ((State.waitFor_issues h ..).trans (if_neg (Nat.not_le.mpr hg)))
  · exact congrArg Host.Outcome.next ((State.waitFor_issues h ..).trans (if_neg (Nat.not_le.mpr ha)))
  · exact congrArg Host.Outcome.next (State.cSlot_issues h ..)
  · exact congrArg Host.Outcome.next (State.cSlot_issues h ..)
  · exact congrArg Host.Outcome.next (State.openLoop_issues h _ _ _ hlevel hends)
  · exact congrArg Host.Outcome.next (State.openLoop_issues h _ _ _ hlevel hends)
  · exact congrArg Host.Outcome.next ((State.waitFor_issues h ..).trans (if_pos hg))
  · exact congrArg Host.Outcome.next ((State.waitFor_issues h ..).trans (if_pos ha))

/-- Settles O7: a scalar operation begins one result, PAGE one for each granule and one for the slot; MARK's record goes where
a region takes it. -/
theorem controlSlotWrites : Obligations.ControlSlotWrites := by
  refine ⟨fun p s h => ⟨fun d x => ?_, fun d x => ?_, execSalu_begins h, execMovx_word h, execMovx_pair h, fun slot code hport =>
    execPage_begins h hport slot code⟩, fun p val s h => ⟨fun hnone => ?_, fun hsome hfree => ?_⟩⟩
  · exact State.cSlot_begins h rfl (s.pendOp_begun p ..)
  · exact State.cSlot_begins h rfl (s.pendOp_begun p ..)
  · exact congrArg Host.Outcome.next ((State.cSlot_issues h ..).trans (State.coreRec_none hnone ..))
  · obtain ⟨f, hheld, htype⟩ := State.coreRec_held hsome hfree (by decide) (s.tcyc p.val)
      (bytesOf val.toNat 2 ++ bytesOf (s.coreAt p.val).pc.toNat 2)
    exact ⟨_, f, congrArg Host.Outcome.next (State.cSlot_issues h ..), hheld, htype⟩

/-- Settles O8: each of these encodings is illegal before anything of the operation is done. -/
theorem illegalBundleIsNop : Obligations.IllegalBundleIsNop := by
  intro p s h nop
  refine ⟨execSalu_reserved h, execMovx_oddPair h, fun o hfmt => ?_, fun r hr => ?_⟩
  · have hmod := modOk_fmt_three hfmt
    have hillegal {i : Instr} {ok : Bool} {occ : Nat} {k : State → State} (hexec : exec i s = .next (s.vOp p.val i o ok occ k))
        (hok : ok = false) : nop i := hexec.trans (congrArg Host.Outcome.next (State.vOp_illegal h hok ..))
    exact ⟨hillegal rfl (hmod _), hillegal rfl (hmod _), hillegal rfl (hmod _), hillegal rfl (by simp [hmod]), hillegal rfl (hmod _)⟩
  · rw [State.bundleNop_pend] at hr
    simpa using (List.mem_filter.mp hr).2
end

section
/-! Runs of the sequencer (R107-R111): what one tcyc does to the pc and the active loops, and what repeats and loops come to. -/

namespace Sys2Proof.Machine

/-! ### One tcyc -/

/-- The sequencer moves on to the bundle that follows: no END, no repeat left, no branch and no loop that opens. -/
structure CoreSt.Straight (c : CoreSt) : Prop where
  endNew : c.endNew = false
  rpt : c.rpt = 0
  jump : c.jump = none
  loopNew : c.loopNew = none

/-- The bundle at the pc, with the active loops. -/
def CoreSt.place (c : CoreSt) : BitVec 13 × List LoopLvl := (c.pc, c.loops)

/-- The bundle that follows a place (R108). -/
def nextPlace (x : BitVec 13 × List LoopLvl) : BitVec 13 × List LoopLvl := afterBundle x.1 x.2

theorem CoreSt.sequence_of_endNew {c : CoreSt} (h : c.endNew = true) :
    c.sequence = { c with ended := true, endNew := false, loops := [], rpt := 0, rptOn := false } := by
  rw [CoreSt.sequence, if_pos h]

theorem CoreSt.sequence_of_rpt {c : CoreSt} (hend : c.endNew = false) (hrpt : 0 < c.rpt) :
    c.sequence = { c with rpt := c.rpt - 1, rptOn := true } := by
  rw [CoreSt.sequence, if_neg (by simp [hend]), if_pos hrpt]

theorem CoreSt.sequence_of_jump {c : CoreSt} (hend : c.endNew = false) (hrpt : c.rpt = 0) {g : BitVec 13}
    (hjump : c.jump = some g) :
    c.sequence.place = (g, (c.loops.reverse.takeWhile (fun l => l.holds g)).reverse) := by
  rw [CoreSt.sequence, if_neg (by simp [hend]), if_neg (by simp [hrpt]), hjump]
  rfl

theorem CoreSt.sequence_waitTo {c : CoreSt} (hend : c.endNew = false) (hrpt : c.rpt = 0) {w : Nat} (hwait : c.waitNew = some w) :
    c.sequence.waitTo = w := by
  rw [CoreSt.sequence, if_neg (by simp [hend]), if_neg (by simp [hrpt]), hwait]

/-- A straight tcyc leads to the next place, and the sequencer stays straight. -/
theorem CoreSt.Straight.sequence {c : CoreSt} (h : c.Straight) : c.sequence.Straight ∧ c.sequence.place = nextPlace c.place := by
  obtain ⟨hend, hrpt, hjump, hnew⟩ := h
  rw [CoreSt.sequence, if_neg (by simp [hend]), if_neg (by simp [hrpt]), hjump, hnew]
  exact ⟨⟨hend, rfl, rfl, rfl⟩, rfl⟩

theorem CoreSt.Straight.sequence_pc {c : CoreSt} (h : c.Straight) (hloops : c.loops = []) : c.sequence.pc = c.pc + 1 := by
  obtain ⟨-, hplace⟩ := h.sequence
  rw [CoreSt.place, CoreSt.place, hloops] at hplace
  exact congrArg Prod.fst hplace

/-! ### Repeats (R107) -/

theorem CoreSt.repeat_of_rpt {c : CoreSt} (hend : c.endNew = false) {k : Nat} (hk : k ≤ c.rpt) :
    ∃ on, Nat.repeat CoreSt.sequence k c = { c with rpt := c.rpt - k, rptOn := on } := by
  induction k with
  | zero => exact ⟨c.rptOn, rfl⟩
  | succ k ih =>
    obtain ⟨on, hc⟩ := ih (Nat.le_of_succ_le hk)
    refine ⟨true, ?_⟩
    rw [Nat.repeat, hc, CoreSt.sequence_of_rpt (by exact hend) (by exact Nat.sub_pos_of_lt hk)]
    rfl

/-! ### Loops (R108) -/

theorem repeat_add {α : Type} (f : α → α) (m n : Nat) (a : α) : Nat.repeat f (m + n) a = Nat.repeat f n (Nat.repeat f m a) := by
  induction n with
  | zero => rfl
  | succ n ih => exact congrArg f ih

theorem CoreSt.Straight.repeat {c : CoreSt} (h : c.Straight) (k : Nat) : (Nat.repeat CoreSt.sequence k c).Straight ∧
    (Nat.repeat CoreSt.sequence k c).place = Nat.repeat nextPlace k c.place := by
  induction k with
  | zero => exact ⟨h, rfl⟩
  | succ k ih =>
    obtain ⟨hstraight, hplace⟩ := ih
    obtain ⟨hnext, hp⟩ := hstraight.sequence
    exact ⟨hnext, by rw [Nat.repeat, Nat.repeat, hp, hplace]⟩

/-- In the body of the one active loop: bundle `r` of it, in an iteration with `left` to run. -/
def inBody (first : BitVec 13) (len left r : Nat) : BitVec 13 × List LoopLvl :=
  (first + BitVec.ofNat 13 r, [{ first := first, len := len, left := left }])

section
variable {first : BitVec 13} {len left r : Nat}

/-- The last bundle of a body is the one that its length names (R108). -/
theorem pc_eq_last_iff (hlen : len ≤ 256) (hr : r < len) :
    first + BitVec.ofNat 13 r = first + BitVec.ofNat 13 (len - 1) ↔ r + 1 = len := by
  rw [BitVec.add_right_inj, ← BitVec.toNat_inj, BitVec.toNat_ofNat, BitVec.toNat_ofNat, Nat.mod_eq_of_lt (by omega),
    Nat.mod_eq_of_lt (by omega)]
  omega

theorem add_ofNat_succ (first : BitVec 13) (r : Nat) : first + BitVec.ofNat 13 r + 1 = first + BitVec.ofNat 13 (r + 1) := by
  rw [BitVec.add_assoc, BitVec.ofNat_add]
  rfl

theorem nextPlace_inBody (hlen : len ≤ 256) (hr : r + 1 < len) :
    nextPlace (inBody first len left r) = inBody first len left (r + 1) := by
  have hlast := (pc_eq_last_iff (first := first) hlen (Nat.lt_of_succ_lt hr)).not.mpr (Nat.ne_of_lt hr)
  rw [nextPlace, inBody, afterBundle, if_neg hlast, add_ofNat_succ]
  rfl

theorem nextPlace_inBody_last (hlen : len ≤ 256) (hr : r + 1 = len) :
    nextPlace (inBody first len left r) =
      if 1 < left then inBody first len (left - 1) 0 else (first + BitVec.ofNat 13 len, []) := by
  have hlast := (pc_eq_last_iff (first := first) hlen (by omega)).mpr hr
  rw [nextPlace, inBody, afterBundle, if_pos hlast]
  split
  · simp [inBody]
  · rw [afterBundle, add_ofNat_succ, hr]

theorem repeat_inBody (hlen : len ≤ 256) (hr : r < len) :
    Nat.repeat nextPlace r (inBody first len left 0) = inBody first len left r := by
  induction r with
  | zero => rfl
  | succ r ih => rw [Nat.repeat, ih (Nat.lt_of_succ_lt hr), nextPlace_inBody hlen hr]

/-- One iteration. -/
theorem repeat_iteration (hpos : 0 < len) (hlen : len ≤ 256) : Nat.repeat nextPlace len (inBody first len left 0) =
    if 1 < left then inBody first len (left - 1) 0 else (first + BitVec.ofNat 13 len, []) := by
  obtain ⟨r, rfl⟩ := Nat.exists_eq_add_one.mpr hpos
  rw [Nat.repeat, repeat_inBody hlen r.lt_succ_self, nextPlace_inBody_last hlen rfl]

/-- Whole iterations, while at least one is left. -/
theorem repeat_iterations (hpos : 0 < len) (hlen : len ≤ 256) {q : Nat} (hq : q < left) :
    Nat.repeat nextPlace (q * len) (inBody first len left 0) = inBody first len (left - q) 0 := by
  induction q with
  | zero => rw [Nat.zero_mul]; rfl
  | succ q ih =>
    rw [Nat.succ_mul, repeat_add, ih (Nat.lt_of_succ_lt hq), repeat_iteration hpos hlen, if_pos (by omega), Nat.sub_sub]

/-- A place before the loop's end. -/
theorem repeat_inLoop (hpos : 0 < len) (hlen : len ≤ 256) {k : Nat} (hk : k < left * len) :
    Nat.repeat nextPlace k (inBody first len left 0) = inBody first len (left - k / len) (k % len) := by
  have hq : k / len < left := Nat.div_lt_of_lt_mul (by rwa [Nat.mul_comm])
  conv_lhs => rw [← Nat.div_add_mod' k len]
  rw [repeat_add, repeat_iterations hpos hlen hq, repeat_inBody hlen (Nat.mod_lt k hpos)]

/-- The end of the loop. -/
theorem repeat_loop (hpos : 0 < len) (hlen : len ≤ 256) (hleft : 0 < left) :
    Nat.repeat nextPlace (left * len) (inBody first len left 0) = (first + BitVec.ofNat 13 len, []) := by
  obtain ⟨q, rfl⟩ := Nat.exists_eq_add_one.mpr hleft
  rw [Nat.succ_mul, repeat_add, repeat_iterations hpos hlen q.lt_succ_self, repeat_iteration hpos hlen, if_neg (by omega)]

end

end Sys2Proof.Machine

open Sys2Proof Sys2Proof.Machine

/-- Settles O6: a repeat counts down at its bundle; a loop's place is found by iterations and the bundle within one; the rest
is one tcyc. -/
theorem sequencerRuns : Obligations.SequencerRuns := by
  refine ⟨fun c n hend hrpt => ⟨fun k hk => ?_, fun hjump hnew hloops => ?_⟩,
    fun c len left hpos hlen hleft hend hrpt hjump hnew hloops => ?_, fun c => ⟨fun hend => ?_, fun hend hrpt g hjump => ?_,
      fun hend hrpt hjump hnew hloops => ?_, fun hend hrpt w => CoreSt.sequence_waitTo hend hrpt⟩⟩
  · obtain ⟨on, hc⟩ := CoreSt.repeat_of_rpt hend (hrpt ▸ hk)
    rw [hc]
    exact ⟨rfl, congrArg (· - k) hrpt⟩
  · obtain ⟨on, hc⟩ := CoreSt.repeat_of_rpt hend hrpt.ge
    have hstraight : (Nat.repeat CoreSt.sequence n c).Straight := by
      rw [hc, hrpt]
      exact ⟨hend, Nat.sub_self n, hjump, hnew⟩
    rw [Nat.repeat, hstraight.sequence_pc (hc ▸ hloops), hc]
  · have hrun := (CoreSt.Straight.mk hend hrpt hjump hnew).repeat
    have hstart : c.place = inBody c.pc len left 0 := by simp [CoreSt.place, inBody, hloops]
    have hplace (k : Nat) := hstart ▸ (hrun k).2
    refine ⟨fun k hk => ?_, ?_, ?_⟩
    · exact congrArg Prod.fst ((hplace k).trans (repeat_inLoop hpos hlen hk))
    · exact congrArg Prod.fst ((hplace (left * len)).trans (repeat_loop hpos hlen hleft))
    · exact congrArg Prod.snd ((hplace (left * len)).trans (repeat_loop hpos hlen hleft))
  · rw [CoreSt.sequence_of_endNew hend]
    exact ⟨rfl, rfl, rfl⟩
  · have hplace := CoreSt.sequence_of_jump hend hrpt hjump
    refine ⟨congrArg Prod.fst hplace, fun l hl => ?_⟩
    rw [show c.sequence.loops = _ from congrArg Prod.snd hplace, List.mem_reverse] at hl
    exact ⟨List.mem_reverse.mp ((List.takeWhile_sublist _).subset hl), List.mem_takeWhile_imp (p := (LoopLvl.holds · g)) hl⟩
  · exact (CoreSt.Straight.mk hend hrpt hjump hnew).sequence_pc hloops
end

section
/-! The vector slot (R122-R127): arithmetic, comparisons, transcendental operations, reductions and double precision on a free
slot. -/

namespace Sys2Proof.Machine

section
variable {s : State} {p : Pos} {o : VOp} {i : Instr} {lat : Nat}

/-! ### Lane-wise operations -/

/-- An operation without rounding (R123), each lane from those of va and vb. -/
theorem vecDoes_of_lanewise (h : s.vecFree p) (hmod : modOk o .none = true) {f : Nat → Word → Word → Word} {g : Nat → Word}
    (hexec : exec i s = .next (s.lanewise p.val i o lat f))
    (hg : ∀ k, g k = f k (lane (s.vReg p.val o.va.toNat) k) (lane (s.vReg p.val o.vb.toNat) k)) : s.vecDoes p o lat i g := by
  obtain rfl : g = _ := funext hg
  refine vecDoes_of_vOp h hexec hmod fun u hu => ?_
  dsimp only
  rw [hu.vReg, hu.vReg, List.append_nil]
  exact hu.vWrite ..

/-- The advance of IDX with a stochastic rounding, which FMT 1 alone has (R122, R128). -/
theorem State.Begun.drawIdx_bf16 {u : State} {rs : List Pend} (h : s.Begun p rs [] u) (o : VOp) :
    s.Begun p (rs ++ if o.fmt = 1 then s.drawn p o else []) [] (if o.fmt = 1 then u.drawIdx p.val o else u) := by
  split
  · exact h.drawIdx o
  · rwa [List.append_nil]

/-- An operation that rounds once as RND says (R122, R123). -/
theorem vecDoes_of_arith (h : s.vecFree p)
    (hmod : modOk o (if o.fmt = 1 then .sr else if o.fmt = 0 then .noSr else .none) = true)
    {f : FpVal → FpVal → FpVal → FpVal} {g : Word → Word → Word → Word} {w : Nat → Word}
    (hexec : exec i s = .next (s.arith p.val i o f g))
    (hw : ∀ k, w k = arithLane o.fmt (s.rndOf p.val o k) f g (lane (s.vReg p.val o.va.toNat) k)
      (lane (s.vReg p.val o.vb.toNat) k) (lane (s.vReg p.val o.vc.toNat) k)) :
    s.vecDoes p o 4 i w (if o.fmt = 1 then s.drawn p o else []) := by
  obtain rfl : w = _ := funext hw
  refine vecDoes_of_vOp h hexec hmod fun u hu => ?_
  simp only [hu.vReg, hu.rndOf]
  exact (hu.vWrite ..).drawIdx_bf16 o

/-! ### Comparisons and partial sums -/

theorem ofBits_concat (bs : List Bool) (b : Bool) : ofBits (bs ++ [b]) = 2 ^ bs.length * b.toNat + ofBits bs := by
  cases b <;> simp [ofBits, List.zipIdx_append, Nat.add_comm]

theorem ofBits_lt (bs : List Bool) : ofBits bs < 2 ^ bs.length := by
  induction bs using List.reverseRecOn with
  | nil => simp [ofBits]
  | append_singleton bs b ih =>
    have hb : 2 ^ bs.length * b.toNat ≤ 2 ^ bs.length * 1 := Nat.mul_le_mul_left _ b.toNat_le
    rw [ofBits_concat, List.length_append, List.length_singleton, Nat.pow_succ]
    omega

/-- Bit k of a mask value is its k-th bit. -/
theorem testBit_ofBits (bs : List Bool) (k : Nat) : (ofBits bs).testBit k = bs.getD k false := by
  induction bs using List.reverseRecOn with
  | nil => simp [ofBits]
  | append_singleton bs b ih =>
    rw [ofBits_concat, Nat.testBit_two_pow_mul_add _ (ofBits_lt bs)]
    split
    · next hk => rw [ih, List.getD_append _ _ _ _ hk]
    · next hk =>
      rw [List.getD_append_right _ _ _ _ (Nat.le_of_not_lt hk)]
      cases b <;> cases k - bs.length <;> simp [Nat.testBit_succ]

/-- VCMP (R123): each bit of its mask from the lane of the same number. -/
theorem execVcmp_begins (h : s.vecFree p) (hmod : modOk o .none = true) (hcond : o.imm / 4 % 8 ≠ 7) :
    ∃ m : Vec, (∀ k < 64, m.getLsbD k = cmpCond o.fmt (o.imm / 4 % 8) (lane (s.vReg p.val o.va.toNat) k)
        (lane (s.vReg p.val o.vb.toNat) k)) ∧
      s.begins p (.vcmp p o) [s.result p (.m (o.imm % 4)) 2 2 m (s.vMask p.val o)] := by
  refine ⟨BitVec.ofNat 2048 (ofBits ((List.range 64).map fun k => cmpCond o.fmt (o.imm / 4 % 8)
    (lane (s.vReg p.val o.va.toNat) k) (lane (s.vReg p.val o.vb.toNat) k))), fun k hk => ?_,
    begins_of_vOp h rfl (by simp [hmod, hcond]) fun u hu => ?_⟩
  · have hwide : k < 2048 := by omega
    rw [BitVec.getLsbD_ofNat, testBit_ofBits]
    simp [hk, hwide]
  · dsimp only
    rw [hu.vReg, hu.vReg, hu.vMask]
    exact hu.pendOp ..

theorem State.readPsum_begun (s : State) (p : Pos) (q : Nat) (arr : Arr) (e : Nat) :
    s.Begun p [] [] (s.readPsum q arr e) :=
  ((State.Begun.refl s p).ite_quiet (s.arrFault_begun p ..)).ite_quiet (State.arrFault_begun _ p ..)

theorem State.Begun.sReg {u : State} {rs ns} (h : s.Begun p rs ns u) (q n : Nat) : u.sReg q n = s.sReg q n := by
  obtain ⟨hs, -⟩ := h.sameRegs q n
  exact hs
theorem State.Begun.aReg {u : State} {rs ns} (h : s.Begun p rs ns u) (q n : Nat) : u.aReg q n = s.aReg q n := by
  obtain ⟨-, ha, -⟩ := h.sameRegs q n
  exact ha
theorem State.Begun.psum {u : State} {rs ns} (h : s.Begun p rs ns u) (q : Nat) (arr : Arr) (e : Nat) :
    u.psum q arr e = s.psum q arr e := by
  obtain ⟨-, -, -, -, -, -, -, harr⟩ := h.sameRegs q e
  obtain ⟨-, -, -, hpsum⟩ := harr arr
  exact hpsum

/-- VRDP (R80, R123): a partial-sum entry as it stands. -/
theorem execVrdp_lanes (h : s.vecFree p) (hmod : modOk o .none = true) :
    s.vecDoes p o 2 (.vrdp p o) (lane (s.psum p.val (if o.imm % 2 = 0 then 0 else 1)
      ((s.sReg p.val (o.va.toNat % 16)).toNat % 128))) := by
  refine vecDoes_of_vOp h rfl hmod fun u hu => ?_
  dsimp only
  rw [hu.psum, hu.sReg, List.append_nil]
  exact (hu.quiet (u.readPsum_begun p ..)).vWrite ..

/-! ### Transcendental operations (R126) -/

/-- The FP32 result of each lane, rounded once more under FMT 1. -/
theorem vecDoes_of_trans (h : s.vecFree p) (hmod : modOk o (if o.fmt = 1 then .sr else .none) = true) (hfmt : o.fmt ≠ 2)
    {f : Word → Word → Word} {w : Nat → Word} (hexec : exec i s = .next (s.trans p.val i o lat f))
    (hw : ∀ k, w k = f (if o.fmt = 1 then lane (s.vReg p.val o.va.toNat) k &&& 0xFFFF0000 else lane (s.vReg p.val o.va.toNat) k)
      (if o.fmt = 1 then lane (s.vReg p.val o.vb.toNat) k &&& 0xFFFF0000 else lane (s.vReg p.val o.vb.toNat) k)) :
    s.vecDoes p o lat i
      (fun k => if o.fmt = 1 then laneCode 1 (s.rndOf p.val o k) (fp32.dec (w k).toNat) else w k)
      (if o.fmt = 1 then s.drawn p o else []) := by
  obtain rfl : w = _ := funext hw
  refine vecDoes_of_vOp h hexec (by simp [hmod, hfmt]) fun u hu => ?_
  simp only [hu.vReg, hu.rndOf]
  exact ((hu.vWrite ..).quiet (State.event_begun _ p ..)).drawIdx_bf16 o

/-! ### Row reductions (R125) -/

theorem lane_ofLanes_replicate (w : Word) {k : Nat} (hk : k < 64) : lane (ofLanes (List.replicate 64 w)) k = w := by
  rw [lane_ofLanes _ hk, List.getD_replicate _ hk]

theorem State.Begun.predLanes {u : State} {rs ns} (h : s.Begun p rs ns u) (o : VOp) (d : Word) :
    u.predLanes p.val o d = s.predLanes p.val o d := by
  rw [State.predLanes, State.predicate, h.vReg, h.mReg]
  rfl

/-- The tree's result in every lane and, with IMM[4], in a scalar register. -/
theorem reduce_begins (h : s.vecFree p) (hmod : modOk o .none = true) {f : FpVal → FpVal → FpVal} {g : Word → Word → Word}
    {xs : State → List Word} {num : Word → Word → Word} (hexec : exec i s = .next (s.reduce p.val i o lat xs f g))
    (hnum : ∀ a b, num a b = arithLane o.fmt .rne (fun a b _ => f a b) (fun a b _ => g a b) a b 0)
    {x : Nat → Word} (hxs : ∀ u, s.Begun p [] [] u → xs u = (List.range 64).map x) :
    ∃ (w : Word) (v : Vec), w = rowReduce num ((List.range 64).map x) 0 ∧ (∀ k < 64, lane v k = w) ∧
      s.begins p i (s.result p (.v o.vd.toNat) lat 2 v fullMask ::
        (if o.imm / 16 % 2 = 1 then [s.result p (.s (o.imm % 16)) lat 2 (w.setWidth 2048) fullMask] else [])) := by
  obtain rfl : num = _ := funext₂ hnum
  refine ⟨_, _, rfl, fun k hk => lane_ofLanes_replicate _ hk, begins_of_vOp h hexec hmod fun u hu => ?_⟩
  dsimp only
  rw [hxs u hu]
  split
  · exact (hu.pendOp ..).pendOp ..
  · exact hu.pendOp ..

/-! ### Double precision (R127) -/

theorem State.Begun.pairAt {u : State} {rs ns} (h : s.Begun p rs ns u) (q n k : Nat) : u.pairAt q n k = s.pairAt q n k := by
  rw [State.pairAt, h.vReg, h.vReg]
  rfl

/-- The two registers of a pair: the low words, then the high words. -/
theorem State.Begun.writePair {u : State} (h : s.Begun p [] [] u) (o : VOp) (lat : Nat) (xs : List Nat) (mask : BitVec 256) :
    s.Begun p [s.result p (.v o.vd.toNat) lat 2 (ofLanes (xs.map (BitVec.ofNat 32))) mask,
      s.result p (.v (o.vd.toNat + 1)) lat 2 (ofLanes (xs.map fun x => BitVec.ofNat 32 (x / 2 ^ 32))) mask] []
      (u.writePair p.val o lat xs mask) :=
  (h.pendOp ..).pendOp ..

/-- An operation on a free slot that writes the pair `f`. -/
theorem pair_of_vOp (h : s.vecFree p) {ok : Bool} {occ : Nat} {mask : BitVec 256} {act : State → State} {f : Nat → Nat}
    (hexec : exec i s = .next (s.vOp p.val i o ok occ act)) (hok : ok = true)
    (hact : ∀ u, s.Begun p [] [] u → act u = u.writePair p.val o lat ((List.range 64).map f) mask) :
    ∃ lo hi : Vec, (∀ k < 64, lane lo k = BitVec.ofNat 32 (f k) ∧ lane hi k = BitVec.ofNat 32 (f k / 2 ^ 32)) ∧
      s.begins p i [s.result p (.v o.vd.toNat) lat 2 lo mask, s.result p (.v (o.vd.toNat + 1)) lat 2 hi mask] := by
  refine ⟨_, _, fun k hk => ⟨?_, ?_⟩, begins_of_vOp h hexec hok fun u hu => hact u hu ▸ hu.writePair ..⟩
  · rw [List.map_map, lane_ofLanes_map _ hk]
    rfl
  · rw [List.map_map, lane_ofLanes_map _ hk]
    rfl

/-- A lane-wise FP64 operation. -/
theorem pair_of_fp64Op (h : s.vecFree p) (hmod : modOk o .none = true) {useC : Bool} {f : FpVal → FpVal → FpVal → FpVal}
    {x : Nat → Nat} (hexec : exec i s = .next (s.fp64Op p.val i o useC f)) (hd : evenReg o.vd = true) (ha : evenReg o.va = true)
    (hb : evenReg o.vb = true) (hc : useC = true → evenReg o.vc = true)
    (hx : ∀ k, x k = fp64.enc .rne (f (fp64.dec (s.pairAt p.val o.va.toNat k)) (fp64.dec (s.pairAt p.val o.vb.toNat k))
      (fp64.dec (s.pairAt p.val o.vc.toNat k)))) :
    ∃ lo hi : Vec, (∀ k < 64, lane lo k = BitVec.ofNat 32 (x k) ∧ lane hi k = BitVec.ofNat 32 (x k / 2 ^ 32)) ∧
      s.begins p i [s.result p (.v o.vd.toNat) 8 2 lo (s.vMask p.val o), s.result p (.v (o.vd.toNat + 1)) 8 2 hi (s.vMask p.val o)] := by
  obtain rfl : x = _ := funext hx
  refine pair_of_vOp h hexec ?_ fun u hu => ?_
  · cases useC <;> simp_all
  · simp only [hu.pairAt, hu.vMask]

/-- DRSUM (R125, R127): the tree in FP64, in every element. -/
theorem execDrsum_pair (h : s.vecFree p) (hmod : modOk o .none = true) (hd : evenReg o.vd = true) (ha : evenReg o.va = true) :
    let w := rowReduce (fun x y => fp64.enc .rne (FpVal.add (fp64.dec x) (fp64.dec y)))
      ((List.range 64).map (fun k => if (s.predicate p.val o.pm).getLsbD k then s.pairAt p.val o.va.toNat k else 0)) 0
    ∃ lo hi : Vec, (∀ k < 64, lane lo k = BitVec.ofNat 32 w ∧ lane hi k = BitVec.ofNat 32 (w / 2 ^ 32)) ∧
      s.begins p (.drsum p o) [s.result p (.v o.vd.toNat) 12 2 lo fullMask, s.result p (.v (o.vd.toNat + 1)) 12 2 hi fullMask] := by
  intro w
  refine pair_of_vOp h (f := fun _ => w) rfl (by simp [hmod, hd, ha]) fun u hu => ?_
  have hpred : u.predicate p.val o.pm = s.predicate p.val o.pm := by
    rw [State.predicate, hu.mReg]
    rfl
  simp only [hpred, hu.pairAt]
  rw [List.map_const', List.length_range]

/-- DCVT toward FP64 (R123, R127). -/
theorem execDcvt_pair (h : s.vecFree p) (hmod : modOk o .none = true) (hdir : o.imm % 2 = 0) (hd : evenReg o.vd = true) :
    ∃ lo hi : Vec, (∀ k < 64, lane lo k = BitVec.ofNat 32 (fp64.enc .rne (fp32.dec (lane (s.vReg p.val o.va.toNat) k).toNat)) ∧
        lane hi k = BitVec.ofNat 32 (fp64.enc .rne (fp32.dec (lane (s.vReg p.val o.va.toNat) k).toNat) / 2 ^ 32)) ∧
      s.begins p (.dcvt p o) [s.result p (.v o.vd.toNat) 8 2 lo (s.vMask p.val o),
        s.result p (.v (o.vd.toNat + 1)) 8 2 hi (s.vMask p.val o)] := by
  refine pair_of_vOp h (congrArg Host.Outcome.next (if_pos hdir)) (by simp [hmod, hd]) fun u hu => ?_
  rw [hu.vReg, hu.vMask, lanesOf, List.map_map]
  rfl

/-- DCVT toward FP32 (R123, R127). -/
theorem execDcvt_lanes (h : s.vecFree p) (hmod : modOk o .none = true) (hdir : o.imm % 2 = 1) (ha : evenReg o.va = true) :
    s.vecDoes p o 8 (.dcvt p o) (fun k => f32 (fp64.dec (s.pairAt p.val o.va.toNat k))) := by
  have hne : ¬ o.imm % 2 = 0 := by omega
  refine vecDoes_of_vOp h (congrArg Host.Outcome.next (if_neg hne)) (by simp [hmod, ha]) fun u hu => ?_
  simp only [hu.pairAt, List.append_nil]
  exact hu.vWrite ..

end

end Sys2Proof.Machine

open Sys2Proof Sys2Proof.Machine

/-- Settles O9: each operation is lane-wise, without rounding. -/
theorem vectorIntegerLanes : Obligations.VectorIntegerLanes := by
  intro p o s h hmod a b
  have does {i : Instr} {f : Nat → Word → Word → Word} {g : Nat → Word} (hexec : exec i s = .next (s.lanewise p.val i o 1 f))
      (hg : ∀ k, g k = f k (a k) (b k)) : s.vecDoes p o 1 i g := vecDoes_of_lanewise h hmod hexec hg
  exact ⟨does rfl fun _ => rfl, does rfl fun _ => rfl, does rfl fun _ => rfl, does rfl fun _ => rfl, does rfl fun _ => rfl,
    does rfl fun _ => rfl, does rfl fun _ => rfl, does rfl fun _ => rfl, does rfl fun _ => rfl, does rfl fun _ => rfl,
    does rfl fun _ => rfl⟩

/-- Settles O10: each operation is exact on its lanes and rounded once. -/
theorem vectorArithmeticLanes : Obligations.VectorArithmeticLanes := by
  intro p o s h hmod a b c x does
  exact ⟨vecDoes_of_arith h hmod rfl fun _ => rfl, vecDoes_of_arith h hmod rfl fun _ => rfl,
    vecDoes_of_arith h hmod rfl fun _ => rfl, vecDoes_of_arith h hmod rfl fun _ => rfl⟩

/-- Settles O11: VMAX to VNEG are lane-wise; VCMP forms a mask and VRDP reads an entry. -/
theorem vectorCompareLanes : Obligations.VectorCompareLanes := by
  intro p o s h hmod a b x
  refine ⟨vecDoes_of_lanewise h hmod rfl fun _ => rfl, vecDoes_of_lanewise h hmod rfl fun _ => rfl,
    vecDoes_of_lanewise h hmod rfl fun k => ?_, vecDoes_of_lanewise h hmod rfl fun k => ?_,
    fun hcond => execVcmp_begins h hmod hcond, execVrdp_lanes h hmod⟩
  · rcases o.fmt with _ | _ | n <;> rfl
  · rcases o.fmt with _ | _ | n <;> rfl

/-- Settles O12: each operation is one FP32 function of its lanes. -/
theorem transcendentalLanes : Obligations.TranscendentalLanes := by
  intro p o s h hmod hfmt cut a b does
  have doesOf {i : Instr} {lat : Nat} {f : Word → Word → Word} {w : Nat → Word}
      (hexec : exec i s = .next (s.trans p.val i o lat f)) (hw : ∀ k, w k = f (a k) (b k)) : does i lat w :=
    vecDoes_of_trans h hmod hfmt hexec hw
  exact ⟨doesOf rfl fun _ => rfl, doesOf rfl fun _ => rfl, doesOf rfl fun _ => rfl, doesOf rfl fun _ => rfl,
    doesOf rfl fun _ => rfl, doesOf rfl fun _ => rfl, doesOf rfl fun _ => rfl, doesOf rfl fun _ => rfl,
    doesOf rfl fun _ => rfl, doesOf rfl fun _ => rfl, doesOf rfl fun _ => rfl⟩

/-- Settles O13: each reduction is the tree over its lanes; VRDOT's lanes are products. -/
theorem rowReductions : Obligations.RowReductions := by
  intro p o s h hmod m a b num does
  refine ⟨reduce_begins h hmod rfl (fun _ _ => rfl) fun u hu => hu.predLanes ..,
    reduce_begins h hmod rfl (fun _ _ => rfl) fun u hu => hu.predLanes ..,
    reduce_begins h hmod rfl (fun _ _ => rfl) fun u hu => hu.predLanes ..,
    reduce_begins h hmod rfl (fun _ _ => rfl) fun u hu => ?_⟩
  rw [hu.vReg, hu.vReg, State.predicate, hu.mReg]
  rfl

/-- Settles O14: an operation that writes a pair forms each element once and cuts it in two words. -/
theorem doubleOperations : Obligations.DoubleOperations := by
  intro p o s h hmod d does
  exact ⟨fun hd ha hb => ⟨pair_of_fp64Op h hmod rfl hd ha hb nofun fun _ => rfl, pair_of_fp64Op h hmod rfl hd ha hb nofun fun _ => rfl⟩,
    fun hd ha hb hc => pair_of_fp64Op h hmod rfl hd ha hb (fun _ => hc) fun _ => rfl,
    fun hd ha => execDrsum_pair h hmod hd ha, fun hdir hd => execDcvt_pair h hmod hdir hd,
    fun hdir ha => execDcvt_lanes h hmod hdir ha⟩
end

section
/-! The memory slot (R115, R118, R160-R162, R224): loads, stores, copies between deck and near store, and the activation stack. -/

namespace Sys2Proof.Machine

/-! ### Bytes of the rows read -/

/-- A field of a field. -/
theorem mod_div_mod_two_pow (x : Nat) {a b c : Nat} (h : b + c ≤ a) : x % 2 ^ a / 2 ^ b % 2 ^ c = x / 2 ^ b % 2 ^ c := by
  obtain ⟨d, rfl⟩ := Nat.exists_eq_add_of_le h
  rw [Nat.add_assoc, Nat.pow_add, Nat.mod_mul_right_div_self, Nat.mod_mod_of_dvd _ (Nat.pow_dvd_pow 2 (Nat.le_add_right c d))]

/-- Some bytes of the rows read, which lie in one row (R214). -/
theorem State.readRows_bytes {s : State} {p row n : Nat}
    (hon : ∀ k < n, s.nstState p (row + k) = 0 ∧ s.underScrub 0 (nstAddr p (row + k)) = false) {b j : Nat} (hrow : b / 64 < n)
    (hin : b % 64 + j ≤ 64) :
    (s.readRows p row n).2 / 2 ^ (8 * b) % 2 ^ (8 * j) = s.nst.read (nstAddr p (row + b / 64) + b % 64) j := by
  obtain ⟨-, -, hparts⟩ := State.readRows_on hon
  have hb : 8 * b = 512 * (b / 64) + 8 * (b % 64) := by omega
  rw [hb, Nat.pow_add, ← Nat.div_div_eq_div_mul, ← mod_div_mod_two_pow (a := 512) _ (by omega), hparts _ hrow,
    Mem.read_part _ _ _ _ _ hin]

theorem lane_ofNat {v : Nat} (hv : v < 2 ^ (512 * 4)) (k : Nat) : lane (BitVec.ofNat 2048 v) k = BitVec.ofNat 32 (v / 2 ^ (32 * k)) := by
  apply BitVec.eq_of_toNat_eq
  rw [lane, BitVec.toNat_setWidth, BitVec.toNat_ushiftRight, BitVec.toNat_ofNat, BitVec.toNat_ofNat, Nat.mod_eq_of_lt hv,
    Nat.shiftRight_eq_div_pow]

theorem ofNat_mod_word (x : Nat) : BitVec.ofNat 32 (x % 2 ^ 32) = BitVec.ofNat 32 x := by
  apply BitVec.eq_of_toNat_eq
  simp

/-! The lanes of a loaded register (R115), by the width of the load. -/

theorem lane_loadValue_word {v : Nat} (hv : v < 2 ^ (512 * 4)) (k : Nat) :
    lane (loadValue 0 v) k = BitVec.ofNat 32 (v / 2 ^ (8 * (4 * k)) % 2 ^ (8 * 4)) := by
  rw [show 8 * (4 * k) = 32 * k by omega, ofNat_mod_word]
  exact lane_ofNat hv k

theorem lane_loadValue_bf16 (v : Nat) {k : Nat} (hk : k < 64) :
    lane (loadValue 1 v) k = BitVec.ofNat 32 (65536 * (v / 2 ^ (8 * (2 * k)) % 2 ^ (8 * 2))) := by
  rw [show 8 * (2 * k) = 16 * k by omega, Nat.mul_comm]
  exact lane_ofLanes_map _ hk

theorem lane_loadValue_byte (v : Nat) {k : Nat} (hk : k < 64) :
    lane (loadValue 2 v) k = BitVec.ofNat 32 (v / 2 ^ (8 * k) % 2 ^ (8 * 1)) :=
  lane_ofLanes_map _ hk

theorem lane_loadValue_row (n : Nat) {v : Nat} (hv : v < 2 ^ 512) (k : Nat) : lane (loadValue (n + 3) v) k =
    if k < 16 then BitVec.ofNat 32 (v / 2 ^ (8 * (4 * k)) % 2 ^ (8 * 4)) else 0 := by
  have hwide : v < 2 ^ (512 * 4) := hv.trans (Nat.pow_lt_pow_right (by decide) (by decide))
  have hlane : lane (loadValue (n + 3) v) k = BitVec.ofNat 32 (v / 2 ^ (32 * k)) := by
    rw [← lane_ofNat hwide]
    exact congrArg (fun x => lane (BitVec.ofNat 2048 x) k) (Nat.mod_eq_of_lt hv)
  rw [hlane]
  split
  · rw [show 8 * (4 * k) = 32 * k by omega, ofNat_mod_word]
  · rw [Nat.div_eq_of_lt (hv.trans_le (Nat.pow_le_pow_right (by decide) (by omega)))]
    rfl

section
variable {s : State} {p : Pos}

/-! ### LD -/

/-- Rows and granules that are on hold nothing (R228). -/
theorem State.rowsOn_cause {row n : Nat} (h : s.rowsOn p row n) : wakeCause (s.rowsWake p.val row n) = none :=
  congrArg wakeCause (State.rowsWake_of_rowsOn h)
theorem State.granOn_cause {g : Nat} (h : s.granOn p g) : wakeCause (s.granWake p.val g) = none :=
  congrArg wakeCause (State.granWake_of_granOn h)

/-- LD of rows that are on (R115). -/
theorem execLd_begins (h : s.memFree p) (v : BitVec 5) (a : BitVec 4) (w : BitVec 2)
    (hon : s.rowsOn p (rowOf (s.aReg p.val a.toNat)) (widthRows w.toNat)) :
    ∃ u, s.SameSlot u ∧ s.begins p (.ld p v a w) [s.result p (.v v.toNat) 3 1
      (loadValue w.toNat (u.readRows p.val (rowOf (s.aReg p.val a.toNat)) (widthRows w.toNat)).2) fullMask] := by
  have hu := s.slotTaken_sameSlot p.val
  obtain ⟨hr, -, -⟩ := State.readRows_on (hu.rowsOn hon)
  refine ⟨_, hu, _, congrArg Host.Outcome.next (by rw [State.rowsOn_cause hon, State.mSlot_free h]), ?_⟩
  dsimp only
  rw [(State.useA_sameSlot ..).pend, State.pendOp_pend, (hu.trans hr).pend, (hu.trans hr).result]

/-! ### Stores -/

theorem State.slotTaken_begun (s : State) (p : Pos) : s.Begun p [] [] (s.slotTaken p.val) :=
  .of_onCore s p fun c => ⟨(List.append_nil c.pend).symm, (List.append_nil c.advA).symm, rfl⟩

theorem State.Begun.useA {t : State} {rs : List Pend} {ns : List (Nat × Nat)} (h : s.Begun p rs ns t) (n tag : Nat) :
    s.Begun p rs (ns ++ [(n, tag)]) (t.useA p.val n tag) := by
  simpa using h.trans (t.useA_begun p n tag)

/-- The writes of rows from a value of as many times 512 bits, under a byte mask (R217). -/
def State.rowWrites (s : State) (p : Pos) (row lat n x mask : Nat) : List Pend :=
  (List.range n).map fun k => s.result p (.nst ((row + k) % 32768) 2) lat 1 (BitVec.ofNat 2048 (x / 2 ^ (512 * k) % 2 ^ 512))
    (BitVec.ofNat 256 (mask / 2 ^ (64 * k) % 2 ^ 64))

theorem State.Begun.pendRows {t : State} {rs : List Pend} {ns : List (Nat × Nat)} (h : s.Begun p rs ns t)
    (row x mask lat n : Nat) :
    s.Begun p (rs ++ s.rowWrites p row lat n x mask) ns (t.pendRows p.val row x mask lat 2 n) :=
  h.foldl_pendOp (List.range n) (fun k => .nst ((row + k) % 32768) 2) (fun _ => lat) 1
    (fun k => BitVec.ofNat 2048 (x / 2 ^ (512 * k) % 2 ^ 512)) (fun k => BitVec.ofNat 256 (mask / 2 ^ (64 * k) % 2 ^ 64))

/-- `i` begins the results `rs` and names address register `n`, and no other. -/
def State.stores (s : State) (p : Pos) (i : Instr) (n : Nat) (rs : List Pend) : Prop :=
  ∃ t, exec i s = .next t ∧ (t.coreAt p.val).pend = (s.coreAt p.val).pend ++ rs ∧
    (t.coreAt p.val).advA = (s.coreAt p.val).advA ++ [(n, 1)]

/-- An operation on the free memory slot, without a cause to wait. -/
theorem stores_of_mSlot (h : s.memFree p) {i : Instr} {k : State → State} {n : Nat} {rs : List Pend}
    (hexec : exec i s = .next (s.mSlot p.val i none k)) (hk : ∀ u, s.Begun p [] [] u → s.Begun p rs [(n, 1)] (k u)) :
    s.stores p i n rs := by
  have hbegun := hk _ (s.slotTaken_begun p)
  exact ⟨_, by rw [hexec, State.mSlot_free h], hbegun.pend, hbegun.advA⟩

theorem State.Begun.predicate {u : State} {rs ns} (h : s.Begun p rs ns u) (q pm : Nat) : u.predicate q pm = s.predicate q pm := by
  rw [State.predicate, h.mReg]
  rfl

theorem State.Begun.cfgReg {u : State} {rs ns} (h : s.Begun p rs ns u) (q : Nat) (arr : Arr) : u.cfgReg q arr = s.cfgReg q arr := by
  obtain ⟨-, -, -, -, -, -, -, harr⟩ := h.sameRegs q 0
  exact (harr arr).1

theorem execSt_stores (h : s.memFree p) (v : BitVec 5) (a : BitVec 4) (w pm : BitVec 2) :
    let x := storeValue w.toNat (s.vReg p.val v.toNat) (s.predicate p.val pm.toNat)
    s.stores p (.st p v a w pm) a.toNat (s.rowWrites p (rowOf (s.aReg p.val a.toNat)) 1 (widthRows w.toNat) x.1 x.2) := by
  intro x
  refine stores_of_mSlot h rfl fun u hu => ?_
  have hread := hu.quiet (u.readV_begun p [v.toNat])
  dsimp only
  rw [hread.vReg, hread.predicate, hu.aReg]
  exact (hread.pendRows ..).useA ..

/-- The accumulations of the rows of a value (R224). -/
theorem State.Begun.foldl_nstAdd {u : State} (h : s.Begun p [] [] u) (row n x : Nat) (fmt : BitVec 1) :
    s.Begun p ((List.range n).map fun k => s.result p (.nstAdd ((row + k) % 32768) fmt 1) 1 1
      (BitVec.ofNat 2048 (x / 2 ^ (512 * k) % 2 ^ 512)) fullMask) []
      ((List.range n).foldl (fun u k => u.pendOp p.val (.nstAdd ((row + k) % 32768) fmt 1) 1 1
        (BitVec.ofNat 2048 (x / 2 ^ (512 * k) % 2 ^ 512))) u) :=
  h.foldl_pendOp (List.range n) (fun k => .nstAdd ((row + k) % 32768) fmt 1) (fun _ => 1) 1
    (fun k => BitVec.ofNat 2048 (x / 2 ^ (512 * k) % 2 ^ 512)) (fun _ => fullMask)

/-- The value and the number of rows that an STA accumulates (R115). -/
def staValue (fmt : BitVec 1) (v : Vec) : Nat × Nat :=
  if fmt = 0 then (v.toNat, 4) else ((storeValue 1 v (BitVec.allOnes 64)).1, 2)

theorem execSta_stores (h : s.memFree p) (v : BitVec 5) (a : BitVec 4) (fmt : BitVec 1) :
    let x := staValue fmt (s.vReg p.val v.toNat)
    s.stores p (.sta p v a fmt) a.toNat ((List.range x.2).map fun k =>
      s.result p (.nstAdd ((rowOf (s.aReg p.val a.toNat) + k) % 32768) fmt 1) 1 1
        (BitVec.ofNat 2048 (x.1 / 2 ^ (512 * k) % 2 ^ 512)) fullMask) := by
  intro x
  refine stores_of_mSlot h rfl fun u hu => ?_
  have hread := hu.quiet (u.readV_begun p [v.toNat])
  dsimp only
  rw [hread.vReg, hu.aReg]
  exact (hread.foldl_nstAdd ..).useA ..

theorem execPsd_stores (h : s.memFree p) (a : BitVec 4) (arr : Arr) (e : BitVec 7) : s.stores p (.psd p a arr e) a.toNat
    (s.rowWrites p (rowOf (s.aReg p.val a.toNat)) 2 4
      ((s.psum p.val arr e.toNat).toNat % (if s.isBf16 p.val arr then 2 ^ 1024 else 2 ^ 2048)) (2 ^ 256 - 1)) := by
  refine stores_of_mSlot h rfl fun u hu => ?_
  have hread := hu.quiet (u.readPsum_begun p p.val arr e.toNat)
  have hbf : (u.readPsum p.val arr e.toNat).isBf16 p.val arr = s.isBf16 p.val arr := by
    rw [State.isBf16, hread.cfgReg]
    rfl
  have hvalue : (if s.isBf16 p.val arr then (s.psum p.val arr e.toNat).toNat % 2 ^ 1024 else (s.psum p.val arr e.toNat).toNat) =
      (s.psum p.val arr e.toNat).toNat % (if s.isBf16 p.val arr then 2 ^ 1024 else 2 ^ 2048) := by
    split
    · rfl
    · exact (Nat.mod_eq_of_lt (BitVec.isLt _)).symm
  dsimp only
  rw [hbf, hu.psum, hu.aReg, hvalue]
  exact (hread.pendRows _ _ (2 ^ 256 - 1) 2 4).useA ..

/-! ### Copies over the deck port (R115) -/

theorem execDkrd_begins (h : s.memFree p) (hport : s.portFree p) (a : BitVec 4) (dp : BitVec 3)
    (hon : s.granOn p (granOf (s.dpReg p.val dp.toNat))) :
    s.begins p (.dkrd p a dp) ((List.range 4).map (fun k =>
      s.result p (.nst ((rowOf (s.aReg p.val a.toNat) + k) % 32768) 2) 3 1
        (BitVec.ofNat 2048 (s.deck.read (deckAddr p.val (granOf (s.dpReg p.val dp.toNat)) + 64 * k) 64))
        (BitVec.ofNat 256 (2 ^ 64 - 1)))) := by
  obtain ⟨u, hu, hrun⟩ := State.portSlot_free h hport 1
  obtain ⟨hr, hv⟩ := State.readGran_on (hu.granOn hon)
  refine ⟨_, congrArg Host.Outcome.next (by rw [State.granOn_cause hon, hrun]), ?_⟩
  dsimp only
  rw [hv, (State.useD_sameSlot ..).pend, (State.useA_sameSlot ..).pend, State.pendRows_gran_pend, (hu.trans hr).pend,
    (hu.trans hr).result, (hu.trans hr).aReg, hu.deck]

theorem execDkwr_begins (h : s.memFree p) (hport : s.portFree p) (a : BitVec 4) (dp : BitVec 3)
    (hon : s.rowsOn p (rowOf (s.aReg p.val a.toNat)) 4) :
    ∃ x : Vec, s.begins p (.dkwr p a dp) [s.result p (.gran (granOf (s.dpReg p.val dp.toNat))) 3 1 x fullMask] ∧
      ∀ k < 4, x.toNat / 2 ^ (512 * k) % 2 ^ 512 = s.nst.read (nstAddr p.val (rowOf (s.aReg p.val a.toNat) + k)) 64 := by
  obtain ⟨u, hu, hrun⟩ := State.portSlot_free h hport 1
  obtain ⟨hr, hlt, hparts⟩ := State.readRows_on (hu.rowsOn hon)
  refine ⟨BitVec.ofNat 2048 (u.readRows p.val (rowOf (s.aReg p.val a.toNat)) 4).2,
    ⟨_, congrArg Host.Outcome.next (by rw [State.rowsOn_cause hon, hrun]), ?_⟩, fun k hk => ?_⟩
  · dsimp only
    rw [(State.useD_sameSlot ..).pend, (State.useA_sameSlot ..).pend, State.pendOp_pend, (hu.trans hr).pend, (hu.trans hr).result,
      (hu.trans hr).dpReg]
  · rw [BitVec.toNat_ofNat, Nat.mod_eq_of_lt hlt, hparts k hk, hu.nst]

end

end Sys2Proof.Machine

open Sys2Proof Sys2Proof.Machine

/-- Settles O17: the bytes of a lane lie in one of the rows read. -/
theorem loadLanes : Obligations.LoadLanes := by
  intro p v a w s h row hon at_
  obtain ⟨u, hu, hbegins⟩ := execLd_begins h v a w hon
  refine ⟨_, hbegins, fun k hk => ?_⟩
  obtain ⟨-, hlt, -⟩ := State.readRows_on (hu.rowsOn hon)
  have hbytes (b j : Nat) (hrow : b / 64 < widthRows w.toNat) (hin : b % 64 + j ≤ 64) :
      (u.readRows p.val row (widthRows w.toNat)).2 / 2 ^ (8 * b) % 2 ^ (8 * j) = at_ b j := by
    rw [State.readRows_bytes (hu.rowsOn hon) hrow hin, hu.nst]
  change lane (loadValue w.toNat (u.readRows p.val row (widthRows w.toNat)).2) k = _
  generalize (u.readRows p.val row (widthRows w.toNat)).2 = x at hlt hbytes ⊢
  generalize hr : widthRows w.toNat = r at hlt hbytes
  generalize w.toNat = n at hr ⊢
  match n, hr with
  | 0, hr =>
    obtain rfl : 4 = r := hr
    rw [lane_loadValue_word hlt, hbytes _ _ (by omega) (by omega)]
    rfl
  | 1, hr =>
    obtain rfl : 2 = r := hr
    rw [lane_loadValue_bf16 x hk, hbytes _ _ (by omega) (by omega)]
    rfl
  | 2, hr =>
    obtain rfl : 1 = r := hr
    rw [lane_loadValue_byte x hk, hbytes _ _ (by omega) (by omega)]
    rfl
  | n + 3, hr =>
    obtain rfl : 1 = r := hr
    rw [Nat.mul_one] at hlt
    rw [lane_loadValue_row n hlt]
    change _ = if k < 16 then BitVec.ofNat 32 (at_ (4 * k) 4) else 0
    split
    · rw [hbytes _ _ (by omega) (by omega)]
    · rfl

/-- Settles O18: a store begins the writes of its rows and names its address register; a copy reads on one side what it begins
to write on the other. -/
theorem storesAndCopies : Obligations.StoresAndCopies := by
  refine ⟨fun p v a s h => ⟨fun w pm => execSt_stores h v a w pm, execSta_stores h v a 0, execSta_stores h v a 1,
    fun arr e => execPsd_stores h a arr e⟩, fun p a dp s h hport => ⟨fun hon => execDkrd_begins h hport a dp hon,
      fun hon => execDkwr_begins h hport a dp hon⟩⟩
end

section
/-! The activation stack (R118, R160-R162): PUSH and POP with room, and the schedule faults of a full and of an empty stack. -/

namespace Sys2Proof.Machine

/-! ### Leaf bits (R456, R474) -/

/-- The leaf bits set in `s` are set in `t`. -/
structure State.KeepsLeaves (s t : State) : Prop where
  leaf : ∀ off k, (tget s.flt.leaves off 0).getLsbD k = true → (tget t.flt.leaves off 0).getLsbD k = true

namespace State.KeepsLeaves
variable {s t u : State}

theorem of_leaves (h : t.flt.leaves = s.flt.leaves) : s.KeepsLeaves t := ⟨fun _ _ hset => h ▸ hset⟩

theorem trans (h : s.KeepsLeaves t) (k : t.KeepsLeaves u) : s.KeepsLeaves u :=
  ⟨fun off n hset => k.leaf off n (h.leaf off n hset)⟩

theorem ite {c : Prop} [Decidable c] (h : s.KeepsLeaves t) (k : s.KeepsLeaves u) : s.KeepsLeaves (if c then t else u) := by
  split
  · exact h
  · exact k

theorem leafBit (h : s.KeepsLeaves t) {p : Pos} {code : Code} (hset : s.leafBit p code = true) : t.leafBit p code = true :=
  h.leaf _ _ hset

end State.KeepsLeaves

section
variable (s : State)

theorem State.logEvent_leaves (e : Ev) (suspect : Bool) : (s.logEvent e suspect).flt.leaves =
    tset s.flt.leaves (leafOff e) (tget s.flt.leaves (leafOff e) 0 ||| (1#32 <<< (e.code.toNat % 256))) := rfl

theorem State.KeepsLeaves.logEvent {t : State} (h : s.KeepsLeaves t) (e : Ev) (suspect : Bool) :
    s.KeepsLeaves (t.logEvent e suspect) := by
  refine h.trans ⟨fun off k hset => ?_⟩
  rw [State.logEvent_leaves, tget_tset]
  split
  · next hoff => rw [← hoff, BitVec.getLsbD_or, hset, Bool.true_or]
  · exact hset

/-- The bit of the event's leaf (R457). -/
theorem State.logEvent_sets (e : Ev) (suspect : Bool) (hbit : e.code.toNat % 256 < 32) :
    (tget (s.logEvent e suspect).flt.leaves (leafOff e) 0).getLsbD (e.code.toNat % 256) = true := by
  rw [State.logEvent_leaves, tget_tset_same]
  simp [hbit]

theorem State.count_keepsLeaves (blk unit idx n : Nat) : s.KeepsLeaves (s.count blk unit idx n) := by
  unfold State.count
  dsimp only
  split
  · exact .of_leaves rfl
  · refine State.KeepsLeaves.logEvent s ?_ _ _
    exact .of_leaves rfl

theorem State.event_keepsLeaves (p ev n : Nat) : s.KeepsLeaves (s.event p ev n) := by
  unfold State.event
  split
  · refine foldl_holds (P := s.KeepsLeaves) _ (fun u k hu => ?_) _ _ (.of_leaves rfl)
    split
    · exact hu.trans (u.count_keepsLeaves ..)
    · exact hu
  · exact .of_leaves rfl

theorem State.notify_keepsLeaves (e : Ev) : s.KeepsLeaves (s.notify e) := by
  unfold State.notify
  split <;> exact .of_leaves rfl

theorem State.markSuspect_keepsLeaves (p : Nat) : s.KeepsLeaves (s.markSuspect p) := by
  unfold State.markSuspect
  refine State.KeepsLeaves.logEvent s ?_ _ _
  exact .of_leaves rfl

theorem State.cluSpoil_keepsLeaves (j : Nat) (code : Code) : s.KeepsLeaves (s.cluSpoil j code) := by
  unfold State.cluSpoil
  dsimp only
  split <;> exact .of_leaves rfl

/-- An event that is raised in a tcyc of a position sets the bit of its leaf (R457, R472). -/
theorem State.raiseAt_sets (code : Code) (p : Pos) (unit aux detail : Nat) (hbit : code.toNat % 256 < 32) :
    let e : Ev := { code := code, pos := p.val, unit := unit, tt := some (s.tcyc p.val), aux := aux, detail := detail }
    (tget (s.raiseAt code p.val unit aux detail).flt.leaves (leafOff e) 0).getLsbD (code.toNat % 256) = true := by
  intro e
  have hcluster : e.inCluster = true := by simp [Ev.inCluster, e]
  unfold State.raiseAt State.raise
  extract_lets sus s1 s2 s2' s3 upd s4
  have hlog : (tget s2.flt.leaves (leafOff e) 0).getLsbD (code.toNat % 256) = true := s1.logEvent_sets e sus hbit
  have h2 : s2.KeepsLeaves s2' := .ite (.of_leaves rfl) (s2.notify_keepsLeaves _)
  have h3 : s2'.KeepsLeaves s3 := .ite (s2'.markSuspect_keepsLeaves _) (.of_leaves rfl)
  have h4 : s3.KeepsLeaves s4 := .ite (.of_leaves rfl) (.of_leaves rfl)
  have h5 : s4.KeepsLeaves (if e.quiet || codeSpoil e.code == 0 then s4 else s4.sendSpoil e) := by
    refine .ite (.of_leaves rfl) ?_
    rw [State.sendSpoil, if_pos hcluster]
    exact s4.cluSpoil_keepsLeaves ..
  exact (((h2.trans h3).trans h4).trans h5).leaf _ _ hlog

end

/-! ### A stack's operation on the free slot and port -/

section
variable {s : State} {p : Pos} {a : BitVec 4}

/-- The state on which an operation of the deck port acts. -/
theorem State.portSlot_runs (h : s.memFree p) (hport : s.portFree p) (n : Nat) (i : Instr) (k : State → State) :
    s.portSlot p.val i none (fun s => s.port p.val n k) = k ((s.slotTaken p.val).portTaken p.val n) := by
  have hfree : (s.slotTaken p.val).portFree p := by
    rw [State.portFree, (s.slotTaken_sameSlot p.val).tcyc, State.slotTaken_portBusy]
    exact hport
  rw [State.portSlot, ite_self, State.mSlot_free h, if_neg (Nat.not_lt.mpr hfree), State.port_free hfree]

theorem State.portTaken_stkAt (s : State) (p n : Nat) : ((s.slotTaken p).portTaken p n).stkAt p = s.stkAt p := by
  simp [State.stkAt, State.slotTaken, State.portTaken, State.onCore]

theorem State.slotPort_sameSlot (s : State) (p n : Nat) : s.SameSlot ((s.slotTaken p).portTaken p n) :=
  (s.slotTaken_sameSlot p).trans (State.portTaken_sameSlot _ p n)

/-- What a PUSH or a POP does at its end: its address register, its event. -/
def State.stackEnd (s : State) (p : Pos) (a : BitVec 4) (ev : Nat) : State := (s.useA p.val a.toNat 1).event p.val ev 1

theorem State.stackEnd_sameSlot (s : State) (p : Pos) (a : BitVec 4) (ev : Nat) : s.SameSlot (s.stackEnd p a ev) :=
  (s.useA_sameSlot ..).trans (State.event_sameSlot ..)

theorem State.stackEnd_keepsLeaves (s : State) (p : Pos) (a : BitVec 4) (ev : Nat) : s.KeepsLeaves (s.stackEnd p a ev) :=
  .trans (t := s.useA p.val a.toNat 1) (.of_leaves rfl) (State.event_keepsLeaves ..)

theorem State.pendRows_result (s : State) (p q : Pos) (row v mask lat tier n : Nat) :
    (s.pendRows p.val row v mask lat tier n).result q = s.result q :=
  foldl_keeps (State.result · q) _ (fun _ _ => State.pendOp_result ..) _ s

/-- A stack operation that is a schedule fault begins nothing (R160). -/
theorem stackFault_begins {i : Instr} {u : State} {code : Code} {ev : Nat} (hu : s.SameSlot u)
    (hexec : exec i s = .next ((u.seqFault p.val code).stackEnd p a ev))
    (hleaf : (u.seqFault p.val code).leafBit p code = true) :
    s.begins p i [] ∧ ∃ t, exec i s = .next t ∧ t.leafBit p code = true := by
  have hend := (hu.trans (u.raiseAt_sameSlot code p.val 1 (u.coreAt p.val).pc.toNat 0)).trans (State.stackEnd_sameSlot _ p a ev)
  exact ⟨⟨_, hexec, (hend.pend p.val).trans (List.append_nil _).symm⟩, _, hexec, (State.stackEnd_keepsLeaves ..).leafBit hleaf⟩

/-! ### PUSH -/

section
variable {d : StackDesc} (h : s.memFree p) (hport : s.portFree p) (hdesc : (s.stkAt p.val).desc = some d)
include h hport hdesc

theorem execPush_begins (hdepth : (s.stkAt p.val).depth < d.size + d.spillSize)
    (hroom : (s.stkAt p.val).depth - (s.stkAt p.val).rbSeen < d.size) (hon : s.rowsOn p (rowOf (s.aReg p.val a.toNat)) 4) :
    ∃ v : Vec, s.begins p (.push p a) [s.result p (.gran (d.base + (s.stkAt p.val).depth % max d.size 1)) 3 1 v fullMask,
      s.result p (.depth ((s.stkAt p.val).depth + 1)) 1 1 0 fullMask] ∧
      ∀ j < 4, v.toNat / 2 ^ (512 * j) % 2 ^ 512 = s.nst.read (nstAddr p.val (rowOf (s.aReg p.val a.toNat) + j)) 64 := by
  have hstops : (s.stkAt p.val).stopsPush = false := by simp [StackSt.stopsPush, hdesc, hdepth]
  have hcause : s.pushCause p.val (rowOf (s.aReg p.val a.toNat)) = none := by
    simp [State.pushCause, hstops, hdesc, hroom, State.rowsOn_cause hon]
  have hu := s.slotPort_sameSlot p.val 1
  obtain ⟨hr, hlt, hparts⟩ := State.readRows_on (hu.rowsOn hon)
  refine ⟨BitVec.ofNat 2048 (((s.slotTaken p.val).portTaken p.val 1).readRows p.val (rowOf (s.aReg p.val a.toNat)) 4).2,
    ⟨_, congrArg Host.Outcome.next (by rw [hcause, State.portSlot_runs h hport]), ?_⟩, fun j hj => ?_⟩
  · rw [State.portTaken_stkAt]
    dsimp only
    rw [hdesc]
    dsimp only
    rw [if_neg (by simp [hstops])]
    rw [(State.event_sameSlot ..).pend, (State.useA_sameSlot ..).pend, State.pendOp_pend, State.pendOp_pend,
      State.pendOp_result, (hu.trans hr).pend, (hu.trans hr).result, List.append_assoc, List.singleton_append]
  · rw [BitVec.toNat_ofNat, Nat.mod_eq_of_lt hlt, hparts j hj, hu.nst]

theorem execPush_full (hfull : (s.stkAt p.val).depth = d.size + d.spillSize) :
    s.begins p (.push p a) [] ∧ ∃ t, exec (.push p a) s = .next t ∧ t.leafBit p 0x220C = true := by
  have hstops : (s.stkAt p.val).stopsPush = true := by simp [StackSt.stopsPush, hdesc, hfull]
  have hcause : s.pushCause p.val (rowOf (s.aReg p.val a.toNat)) = none := by rw [State.pushCause, hstops]; rfl
  refine stackFault_begins (a := a) (ev := 0x26) (s.slotPort_sameSlot p.val 1) ?_ (State.raiseAt_sets _ 0x220C p 1 _ _ (by decide))
  refine congrArg Host.Outcome.next ?_
  rw [hcause, State.portSlot_runs h hport, State.portTaken_stkAt]
  dsimp only
  rw [hdesc]
  exact if_pos hstops

/-! ### POP -/

theorem execPop_begins (htop : (s.stkAt p.val).rbSeen < (s.stkAt p.val).depth)
    (hon : s.granOn p (d.base + ((s.stkAt p.val).depth - 1) % max d.size 1)) :
    s.begins p (.pop p a) ((List.range 4).map (fun j =>
        s.result p (.nst ((rowOf (s.aReg p.val a.toNat) + j) % 32768) 2) 3 1 (BitVec.ofNat 2048
          (s.deck.read (deckAddr p.val (d.base + ((s.stkAt p.val).depth - 1) % max d.size 1) + 64 * j) 64))
          (BitVec.ofNat 256 (2 ^ 64 - 1))) ++ [s.result p (.depth ((s.stkAt p.val).depth - 1)) 1 1 0 fullMask]) := by
  have hstops : (s.stkAt p.val).stopsPop = false := by simp [StackSt.stopsPop, hdesc]; omega
  have hgran : (s.stkAt p.val).top = d.base + ((s.stkAt p.val).depth - 1) % max d.size 1 := by rw [StackSt.top, hdesc]
  have hcause : s.popCause p.val = none := by
    simp [State.popCause, hstops, Nat.not_le.mpr htop, hgran, State.granOn_cause hon]
  have hu := s.slotPort_sameSlot p.val 1
  obtain ⟨hr, hv⟩ := State.readGran_on (hu.granOn hon)
  have hread := hu.trans hr
  refine ⟨_, congrArg Host.Outcome.next (by rw [hcause, State.portSlot_runs h hport]), ?_⟩
  rw [State.portTaken_stkAt]
  dsimp only
  rw [if_neg (by simp [hstops]), hgran, hv, hu.aReg]
  generalize State.readGran _ _ _ = x at hread
  have hbad := hread.trans (.ite (c := ((s.stkAt p.val).bad.contains ((s.stkAt p.val).depth - 1)) = true)
    (x.1.raiseAt_sameSlot 0x2602 p.val 9 (x.1.coreAt p.val).pc.toNat 0) (.refl x.1))
  rw [(State.event_sameSlot ..).pend, (State.useA_sameSlot ..).pend, State.pendOp_pend, State.pendRows_result, State.pendRows_gran_pend,
    hbad.pend, hbad.result, hu.deck, List.append_assoc]
end

theorem execPop_empty (h : s.memFree p) (hport : s.portFree p) (hempty : (s.stkAt p.val).depth = 0) :
    s.begins p (.pop p a) [] ∧ ∃ t, exec (.pop p a) s = .next t ∧ t.leafBit p 0x220B = true := by
  have hstops : (s.stkAt p.val).stopsPop = true := by simp [StackSt.stopsPop, hempty]
  have hcause : s.popCause p.val = none := by rw [State.popCause, hstops]; rfl
  refine stackFault_begins (a := a) (ev := 0x27) (s.slotPort_sameSlot p.val 1) ?_ (State.raiseAt_sets _ 0x220B p 1 _ _ (by decide))
  refine congrArg Host.Outcome.next ?_
  rw [hcause, State.portSlot_runs h hport, State.portTaken_stkAt]
  exact if_pos hstops

end

end Sys2Proof.Machine

open Sys2Proof Sys2Proof.Machine

/-- Settles O21: with room and a resident top the operation moves one granule and the depth; on a full or an empty stack it is
a schedule fault. -/
theorem stackPushPop : Obligations.StackPushPop := by
  intro p a d s h hport k row hdesc
  exact ⟨execPush_begins h hport hdesc, fun htop hon => execPop_begins h hport hdesc htop hon, execPush_full h hport hdesc,
    execPop_empty h hport⟩
end

section
/-! The network slot (R119, R204): SEND into the injection queue, the receives from the ejection queue. -/

namespace Sys2Proof.Machine

section
variable {s : State} {p : Pos}

/-! ### Trace records of a core (R203, R511-R514) -/

theorem State.regionLoss_begun (s : State) (p : Pos) (r reason : Nat) : s.Begun p [] [] (s.regionLoss r reason) :=
  .of_core rfl rfl rfl rfl

theorem State.holdRec_begun (s : State) (p : Pos) (q : Nat) (e : TrcEv) : s.Begun p [] [] (s.holdRec q e) := by
  unfold State.holdRec
  split
  · exact .refl s p
  dsimp only
  split
  · have hlost : s.Begun p [] [] ((s.recRegions e.ty e.berth).foldl (fun s r => (s.regionLoss r 0).lossNotice r)
        (s.count 0 0 10 1)) :=
      foldl_holds (P := s.Begun p [] []) _ (fun u r hu => (hu.quiet (u.regionLoss_begun p r 0)).quiet (State.raise_begun _ p _)) _ _
        (s.count_begun p ..)
    exact hlost.quiet (.of_core rfl rfl rfl rfl)
  · exact .of_core rfl rfl rfl rfl

theorem State.arrivalRec_begun (s : State) (p : Pos) (q op : Nat) (f : Flit) : s.Begun p [] [] (s.arrivalRec q op f) := by
  unfold State.arrivalRec
  split
  · exact s.holdRec_begun p ..
  · exact .refl s p

/-! ### SEND -/

/-- SEND of a row that is on. -/
theorem execSend_row (h : s.issues p.val = true) (a sa : BitVec 4) (cond : Bool)
    (hon : s.rowsOn p (rowOf (s.aReg p.val a.toNat)) 1) (hcond : if cond then s.sReg p.val sa.toNat ≠ 0 else sa = 0) :
    s.begins p (.send p a sa cond) [s.result p (.inject false) 1 3
      (BitVec.ofNat 2048 (s.nst.read (nstAddr p.val (rowOf (s.aReg p.val a.toNat))) 64)) fullMask] := by
  have hgood : (!cond && sa != 0) = false := by cases cond <;> simp_all
  have hflit : (cond && s.sReg p.val sa.toNat == 0) = false := by cases cond <;> simp_all
  have hcause : wakeCause (!(!cond && sa != 0) && !(cond && s.sReg p.val sa.toNat == 0) &&
      s.rowsWake p.val (rowOf (s.aReg p.val a.toNat)) 1) = none := by
    rw [State.rowsWake_of_rowsOn hon, Bool.and_false]
    rfl
  have hrow := hon 0 Nat.one_pos
  rw [Nat.add_zero] at hrow
  obtain ⟨hstate, hscrub⟩ := hrow
  obtain ⟨-, hread⟩ := State.readRow_on hstate hscrub
  have hwide : (BitVec.ofNat 512 (s.nst.read (nstAddr p.val (rowOf (s.aReg p.val a.toNat))) 64)).setWidth 2048 =
      BitVec.ofNat 2048 (s.nst.read (nstAddr p.val (rowOf (s.aReg p.val a.toNat))) 64) := by
    apply BitVec.eq_of_toNat_eq
    rw [BitVec.toNat_setWidth, BitVec.toNat_ofNat, BitVec.toNat_ofNat, Nat.mod_eq_of_lt (s.nst.read_lt _ 64)]
  have hsent := (((s.readRow_begun p p.val (rowOf (s.aReg p.val a.toNat))).pendOp (.inject false) 1 3
    ((BitVec.ofNat 512 (s.nst.read (nstAddr p.val (rowOf (s.aReg p.val a.toNat))) 64)).setWidth 2048) fullMask).useA
      a.toNat 2).quiet (State.event_begun _ p p.val 0x30 1)
  rw [hwide] at hsent
  refine hsent.begins (congrArg Host.Outcome.next ?_)
  rw [hcause, State.whenIssued_none h]
  dsimp only
  rw [hgood, hflit, hread, hwide]
  rfl

/-- SEND of a nil. -/
theorem execSend_nil (h : s.issues p.val = true) (a sa : BitVec 4) (hzero : s.sReg p.val sa.toNat = 0) :
    s.begins p (.send p a sa true) [s.result p (.inject true) 1 3 0 fullMask] := by
  refine (((s.pendOp_begun p (.inject true) 1 3 0 fullMask).useA a.toNat 2).quiet
    (State.event_begun _ p p.val 0x32 1)).begins (congrArg Host.Outcome.next ?_)
  have hnil : (true && s.sReg p.val sa.toNat == 0) = true := by simp [hzero]
  rw [hnil]
  exact State.whenIssued_none h ..

/-! ### Receives -/

/-- A pop of flit `f`, and what is done with it unless it is nil. -/
theorem State.Begun.pops {u : State} {ns : List (Nat × Nat)} (h : s.Begun p [] ns u) (op : Nat) (f : Flit)
    {k : State → Flit → State} {rs : List Pend}
    (hk : ∀ v, s.Begun p [s.result p .eject 1 3 0 fullMask] ns v → s.Begun p rs ns (k v f)) :
    let v := (u.pendOp p.val .eject 1 3 0).arrivalRec p.val op f
    s.Begun p (if f.side.getLsbD 0 then rs else [s.result p .eject 1 3 0 fullMask]) ns
      (if f.side.getLsbD 0 then k (if op = 5 then v else v.event p.val 0x31 1) f else v) := by
  intro v
  have hv : s.Begun p [s.result p .eject 1 3 0 fullMask] ns v := (h.pendOp ..).quiet (State.arrivalRec_begun _ p ..)
  split
  · refine hk _ ?_
    split
    · exact hv
    · exact hv.quiet (v.event_begun p ..)
  · exact hv

/-- A receive at a queue with a head that may be popped. -/
theorem receive_begins (h : s.issues p.val = true) {f : Flit} (hhead : s.ejHead p.val = some f) {i : Instr} {op : Nat}
    {a : Option Nat} {k : State → Flit → State} {rs : List Pend} (hexec : exec i s = .next (s.receive p.val i op a k))
    (hk : ∀ ns v, s.Begun p [s.result p .eject 1 3 0 fullMask] ns v → s.Begun p rs ns (k v f)) :
    s.begins p i (if f.side.getLsbD 0 then rs else [s.result p .eject 1 3 0 fullMask]) := by
  have hcalled : s.receive p.val i op a k = _ := State.whenIssued_none h i _
  rw [hcalled] at hexec
  cases a with
  | none => exact ((State.Begun.refl s p).pops op f (hk _)).begins (by rw [hexec]; dsimp only; rw [hhead])
  | some n =>
    have hnamed : (s.useA p.val n 2).ejHead p.val = some f := hhead
    exact ((s.useA_begun p n 2).pops op f (hk _)).begins (by rw [hexec]; dsimp only; rw [hnamed])

end

end Sys2Proof.Machine

open Sys2Proof Sys2Proof.Machine

/-- Settles O23: SEND begins one entry of the injection queue, a receive one pop and the write of a flit that is no nil. -/
theorem networkSlot : Obligations.NetworkSlot := by
  intro p a sa s h row
  refine ⟨fun cond hon hcond => execSend_row h a sa cond hon hcond, execSend_nil h a sa, fun f hf => ?_⟩
  intro pop more
  refine ⟨receive_begins h hf rfl fun ns v hv => ?_, receive_begins h hf rfl fun ns v hv => ?_,
    receive_begins h hf rfl fun ns v hv => ?_, ?_⟩
  · rw [hv.aReg]
    exact hv.pendOp ..
  · rw [hv.aReg]
    exact hv.pendOp ..
  · rw [hv.aReg]
    exact hv.pendOp ..
  · have hdrop := receive_begins (i := .drop p) h hf rfl fun ns v hv => hv
    rwa [ite_self] at hdrop
end

section
/-! The frame of a command of a core's slots, of a Ferry stop or of a router (R105): what it begins lands with the clock. Issued, it
leaves the fields of every core that a register reads from, the invocation and the three memories. `State.kept` holds them
together; each operation that such a command uses keeps them, in the order of the model's definitions. -/

namespace Sys2Proof.Machine

/-- The fields of the cores that registers read from, the invocation, and the memories. -/
def State.kept (s : State) :=
  (fun q => (s.coreAt q).regs, s.epoch, s.nst, s.deck, s.lp)

theorem State.kept_of_fields {s t : State} (hcore : t.core = s.core := by simp) (hepoch : t.epoch = s.epoch := by simp)
    (hnst : t.nst = s.nst := by simp) (hdeck : t.deck = s.deck := by simp) (hlp : t.lp = s.lp := by simp) : t.kept = s.kept := by
  simp only [State.kept, State.coreAt, hcore, hepoch, hnst, hdeck, hlp]

theorem State.frame_of_kept {s t : State} (h : t.kept = s.kept) : s.sameRegs t ∧ s.sameMem t := by
  simp only [State.kept, Prod.mk.injEq] at h
  obtain ⟨hregs, hepoch, hnst, hdeck, hlp⟩ := h
  exact ⟨State.sameRegs_of_regs (congrFun hregs) hepoch, fun a => by rw [hnst, hdeck, hlp]; exact ⟨rfl, rfl, rfl⟩⟩

/-! ### Branches and folds -/

@[simp] theorem State.ite_kept (c : Prop) [Decidable c] (a b : State) :
    (if c then a else b).kept = if c then a.kept else b.kept := apply_ite State.kept c a b

@[simp] theorem State.ite_fst_kept {β : Type} (c : Prop) [Decidable c] (a b : State × β) :
    (if c then a else b).1.kept = if c then a.1.kept else b.1.kept := apply_ite (·.1.kept) c a b

@[simp] theorem State.foldl_kept {α : Type} (f : State → α → State) (l : List α) (s : State)
    (h : ∀ s a, (f s a).kept = s.kept) : (l.foldl f s).kept = s.kept :=
  foldl_keeps (·.kept) f h l s

/-- The state of an answer that carries a value. -/
theorem State.kept_of_eq_mk {β : Type} {x : State × β} {s t : State} {v : β} (h : x = (t, v)) (hx : x.1.kept = s.kept) :
    t.kept = s.kept := by
  rw [h] at hx
  exact hx

section
variable (s : State)

/-! ### The operations every meaning uses -/

/-- Rewriting, not `rfl`: `simp` then meets the condition of `State.onCore_kept` with it. -/
@[simp] theorem CoreSt.regs_eq (c : CoreSt) : c.regs = (c.s, c.a, c.dp, c.v, c.m, c.seed, c.idx, c.arr0, c.arr1) := by
  rw [CoreSt.regs]

/-- A step on one core that leaves the fields of its registers. -/
@[simp] theorem State.onCore_kept (p : Nat) (f : CoreSt → CoreSt) (hf : ∀ c, (f c).regs = c.regs) :
    (s.onCore p f).kept = s.kept := by
  have hregs (q : Nat) : ((s.onCore p f).coreAt q).regs = (s.coreAt q).regs := by
    rw [State.onCore_coreAt]
    split
    · next hq => rw [hf, hq]
    · rfl
  simp only [State.kept, hregs]
  rfl

/-! Steps beside the cores and the memories. -/

@[simp] theorem State.setClu_kept (j : Nat) (c : CluSt) : (s.setClu j c).kept = s.kept := State.kept_of_fields
@[simp] theorem State.setStop_kept (k : Nat) (x : StopSt) : (s.setStop k x).kept = s.kept := State.kept_of_fields
@[simp] theorem State.setRtr_kept (p : Nat) (x : RouterSt) : (s.setRtr p x).kept = s.kept := State.kept_of_fields
@[simp] theorem State.tickFresh_kept : s.tickFresh.kept = s.kept := State.kept_of_fields
@[simp] theorem State.onUpd_kept (f : UpdSt → UpdSt) : (s.onUpd f).kept = s.kept := State.kept_of_fields
@[simp] theorem State.ferryFly_kept (l : List LinkFlit) : State.kept { s with ferryFly := l } = s.kept := State.kept_of_fields
@[simp] theorem State.obs_kept (o : ObsSt) : State.kept { s with obs := o } = s.kept := State.kept_of_fields
@[simp] theorem State.post_kept (o : PostSt) : State.kept { s with post := o } = s.kept := State.kept_of_fields
@[simp] theorem State.upsets_kept (l : List Upset) : State.kept { s with upsets := l } = s.kept := State.kept_of_fields
@[simp] theorem State.setRegion_kept (r : Nat) (x : TrcRegion) : (s.setRegion r x).kept = s.kept := State.kept_of_fields
@[simp] theorem State.bw_kept (k : Nat) (out : Bool) (n : Nat) : (s.bw k out n).kept = s.kept := State.kept_of_fields
@[simp] theorem State.count_kept (b u i n : Nat) : (s.count b u i n).kept = s.kept := State.kept_of_fields
@[simp] theorem State.event_kept (p ev n : Nat) : (s.event p ev n).kept = s.kept := State.kept_of_fields
@[simp] theorem State.raise_kept (e : Ev) : (s.raise e).kept = s.kept := State.kept_of_fields
@[simp] theorem State.raiseAt_kept (code : Code) (p unit aux detail : Nat) : (s.raiseAt code p unit aux detail).kept = s.kept :=
  s.raise_kept _

/-! What a core reads and begins -/

@[simp] theorem State.heal_kept (place : Place) (unit lo n : Nat) : (s.heal place unit lo n).kept = s.kept := by
  simp [State.heal]
@[simp] theorem State.lateCrossing_kept (p : Nat) : (s.lateCrossing p).kept = s.kept := by
  simp [State.lateCrossing]
@[simp] theorem State.scrubRefuse_kept (mem a p : Nat) : (s.scrubRefuse mem a p).kept = s.kept := by
  unfold State.scrubRefuse
  split <;> simp
@[simp] theorem State.seqFault_kept (p : Nat) (code : Code) : (s.seqFault p code).kept = s.kept := by
  simp [State.seqFault]
@[simp] theorem State.bundleNop_kept (p : Nat) (code : Code) : (s.bundleNop p code).kept = s.kept := by
  simp [State.bundleNop]
@[simp] theorem State.illegal_kept (p : Nat) : (s.illegal p).kept = s.kept := by simp [State.illegal]
@[simp] theorem State.arrFault_kept (p : Nat) (arr : Arr) (code : Code) :
    (s.arrFault p arr code).kept = s.kept := by simp [State.arrFault]
@[simp] theorem State.readPsum_kept (p : Nat) (arr : Arr) (e : Nat) : (s.readPsum p arr e).kept = s.kept := by
  simp [State.readPsum]
@[simp] theorem State.pendOp_kept (p : Nat) (dst : Dst) (lat rank : Nat) (val : Vec) (mask : BitVec 256) :
    (s.pendOp p dst lat rank val mask).kept = s.kept := by simp [State.pendOp]
@[simp] theorem State.useA_kept (p n tag : Nat) : (s.useA p n tag).kept = s.kept := by simp [State.useA]
@[simp] theorem State.useD_kept (p n tag : Nat) : (s.useD p n tag).kept = s.kept := by simp [State.useD]
@[simp] theorem State.access_kept (p key : Nat) : (s.access p key).kept = s.kept := by simp [State.access]
@[simp] theorem State.accessRow_kept (p row : Nat) : (s.accessRow p row).kept = s.kept := by
  simp [State.accessRow]
@[simp] theorem State.accessGran_kept (p g : Nat) : (s.accessGran p g).kept = s.kept := by
  simp [State.accessGran]
@[simp] theorem State.readRow_kept (p row : Nat) : (s.readRow p row).1.kept = s.kept := by simp [State.readRow]
@[simp] theorem State.readRows_kept (p row n : Nat) : (s.readRows p row n).1.kept = s.kept := by
  induction n generalizing s row with
  | zero => rfl
  | succ n ih =>
    unfold State.readRows
    dsimp only
    rw [ih, State.readRow_kept]

@[simp] theorem State.readGran_kept (p g : Nat) : (s.readGran p g).1.kept = s.kept := by simp [State.readGran]
@[simp] theorem State.wait_kept (p : Nat) (i : Instr) (cause : Option HoldCause) :
    (s.wait p i cause).kept = s.kept := by simp [State.wait]

/-! The slots of a core and the deck port: an operation keeps what its continuation keeps -/

@[simp] theorem State.whenIssued_kept (p : Nat) (i : Instr) (cause : Option HoldCause) (k : State → State)
    (hk : ∀ t, (k t).kept = t.kept) : (s.whenIssued p i cause k).kept = s.kept := by
  unfold State.whenIssued
  split
  · split
    · exact hk s
    · simp
  · simp

@[simp] theorem State.mSlot_kept (p : Nat) (i : Instr) (cause : Option HoldCause) (k : State → State)
    (hk : ∀ t, (k t).kept = t.kept) : (s.mSlot p i cause k).kept = s.kept :=
  State.whenIssued_kept _ _ _ _ _ fun t => by simp [hk]
@[simp] theorem State.portSlot_kept (p : Nat) (i : Instr) (cause : Option HoldCause) (k : State → State)
    (hk : ∀ t, (k t).kept = t.kept) : (s.portSlot p i cause k).kept = s.kept :=
  State.mSlot_kept _ _ _ _ _ fun t => by simp [hk]
@[simp] theorem State.port_kept (p n : Nat) (k : State → State) (hk : ∀ t, (k t).kept = t.kept) :
    (s.port p n k).kept = s.kept := by
  simp [State.port, hk]
@[simp] theorem State.vSlot_kept (p occ : Nat) (k : State → State) (hk : ∀ t, (k t).kept = t.kept) :
    (s.vSlot p occ k).kept = s.kept := by
  simp [State.vSlot, hk]

/-! The stops of the Ferry ring -/

@[simp] theorem State.ringHop_kept (p lane : Nat) (f : Flit) : (s.ringHop p lane f).kept = s.kept := by
  simp [State.ringHop]
@[simp] theorem State.stopRec_kept (p : Nat) (arr : Arr) (code : Code) (idx : Nat) (e : BitVec 128) :
    (s.stopRec p arr code idx e).kept = s.kept := by simp [State.stopRec]
@[simp] theorem State.stopFault_kept (p : Nat) (arr : Arr) (code : Code) (e : BitVec 128) :
    (s.stopFault p arr code e).kept = s.kept := by simp [State.stopFault]
@[simp] theorem State.onSlot_kept (k b : Nat) (f : TileSlot → TileSlot) : (s.onSlot k b f).kept = s.kept := by
  simp [State.onSlot]
@[simp] theorem State.stopEnd_kept (p : Nat) (arr : Arr) (code : Code) (e : BitVec 128) :
    (s.stopEnd p arr code e).kept = s.kept := by simp [State.stopEnd]
@[simp] theorem State.badStop_kept (p : Nat) (arr : Arr) (e : BitVec 128) : (s.badStop p arr e).kept = s.kept := by
  simp [State.badStop]
@[simp] theorem State.stopOp_kept (p : Nat) (arr : Arr) (c : Instr) (e : BitVec 128) (i : Nat) (k : State → State)
    (hk : ∀ t, (k t).kept = t.kept) : (s.stopOp p arr c e i k).kept = s.kept := by
  simp [State.stopOp, hk]
@[simp] theorem State.arrival_kept (p : Nat) (arr : Arr) (lane : Nat) (e : BitVec 128) :
    (s.arrival p arr lane e).1.kept = s.kept := by
  unfold State.arrival
  dsimp only
  (repeat' split) <;> simp

@[simp] theorem State.sendLane_kept (p : Nat) (arr : Arr) (lane : Nat) (f : Flit) :
    (s.sendLane p arr lane f).kept = s.kept := by simp [State.sendLane]
@[simp] theorem State.checkArrival_kept (p : Nat) (arr : Arr) (e : BitVec 128) (i : Nat) :
    (s.checkArrival p arr e i).1.kept = s.kept := by
  unfold State.checkArrival
  dsimp only
  (repeat' split) <;> simp

@[simp] theorem State.readSlotFlit_kept (p : Nat) (arr : Arr) (b i idx : Nat) (e : BitVec 128) :
    (s.readSlotFlit p arr b i idx e).1.kept = s.kept := by simp [State.readSlotFlit]
@[simp] theorem State.startFill_kept (p : Nat) (arr : Arr) (e : BitVec 128) (mode wfmt kind tag : Nat) (plain : Bool) :
    (s.startFill p arr e mode wfmt kind tag plain).kept = s.kept := by simp [State.startFill]
@[simp] theorem State.storeFlit_kept (p : Nat) (arr : Arr) (e : BitVec 128) (i : Nat) (f : Option Flit) :
    (s.storeFlit p arr e i f).kept = s.kept := by simp [State.storeFlit]
@[simp] theorem State.startTurn_kept (p : Nat) (arr : Arr) (slot : Nat) (e : BitVec 128) (g : Nat) (store : Bool) :
    (s.startTurn p arr slot e g store).kept = s.kept := by simp [State.startTurn]
@[simp] theorem State.stopPort_kept (p : Nat) (arr : Arr) (e : BitVec 128) (n : Nat) (k : State → State)
    (hk : ∀ t, (k t).kept = t.kept) : (s.stopPort p arr e n k).kept = s.kept := by
  simp [State.stopPort, hk]

/-! The array slot -/

@[simp] theorem State.feedScales_kept (p : Nat) (arr : Arr) (nb : Nat) :
    (s.feedScales p arr nb).1.kept = s.kept := by
  unfold State.feedScales
  dsimp only
  (repeat' split) <;> simp

@[simp] theorem State.latchFault_kept (p : Nat) (arr : Arr) (slot : Option Nat) :
    (s.latchFault p arr slot).kept = s.kept := by
  unfold State.latchFault
  split <;> simp

/-! The routers of the mesh -/

@[simp] theorem State.meshFault_kept (p : Nat) (code : Code) (idx port tag : Nat) :
    (s.meshFault p code idx port tag).kept = s.kept := by simp [State.meshFault]
@[simp] theorem State.onRtr_kept (p : Nat) (f : RouterSt → RouterSt) : (s.onRtr p f).kept = s.kept := by
  simp [State.onRtr]
@[simp] theorem State.entryFault_kept (p : Nat) (code : Code) (e : BitVec 128) (port tag : Nat) :
    (s.entryFault p code e port tag).kept = s.kept := by simp [State.entryFault]
@[simp] theorem State.entryEnd_kept (p : Nat) (code : Code) (e : BitVec 128) :
    (s.entryEnd p code e).kept = s.kept := by simp [State.entryEnd]
@[simp] theorem State.badEntry_kept (p : Nat) (e : BitVec 128) : (s.badEntry p e).kept = s.kept := by
  simp [State.badEntry]
@[simp] theorem State.rtrOp_kept (p : Nat) (c : Instr) (e : BitVec 128) (i : Nat) (k : State → State)
    (hk : ∀ t, (k t).kept = t.kept) : (s.rtrOp p c e i k).kept = s.kept := by
  simp [State.rtrOp, hk]
@[simp] theorem State.samplePop_kept (p : Nat) : (s.samplePop p).kept = s.kept := by simp [State.samplePop]
@[simp] theorem State.popRaw_kept (p : Nat) (e : BitVec 128) (x : Expect) : (s.popRaw p e x).1.kept = s.kept := by
  unfold State.popRaw
  dsimp only
  (repeat' split) <;> simp

@[simp] theorem State.popIn_kept (p : Nat) (e : BitVec 128) (x : Expect) (ident : Bool) (need : Option Nat) :
    (s.popIn p e x ident need).1.kept = s.kept := by
  unfold State.popIn
  dsimp only
  (repeat' split) <;> simp

@[simp] theorem State.sendOuts_kept (p inp idx mask row : Nat) (f : Flit) :
    (s.sendOuts p inp idx mask row f).kept = s.kept := by simp [State.sendOuts]
@[simp] theorem State.standby_kept (p : Nat) (e : BitVec 128) (idx row : Nat) :
    (s.standby p e idx row).kept = s.kept := by simp [State.standby]
@[simp] theorem State.mergeAlone_kept (p : Nat) (e : BitVec 128) (fmt : Nat) :
    (s.mergeAlone p e fmt).kept = s.kept := by simp [State.mergeAlone]
@[simp] theorem State.merge_kept (p : Nat) (c : Instr) (e1 e2 : BitVec 128) (fmt : Nat) :
    (s.merge p c e1 e2 fmt).kept = s.kept := by simp [State.merge]
@[simp] theorem State.zombie_kept (p : Nat) : (s.zombie p).kept = s.kept := by simp [State.zombie]

/-! The memory and the vector slot -/

@[simp] theorem State.vFault_kept (p : Nat) (code : Code) : (s.vFault p code).kept = s.kept := by
  simp [State.vFault]
@[simp] theorem State.readV_kept (p : Nat) (rs : List Nat) : (s.readV p rs).kept = s.kept := by
  simp [State.readV]
@[simp] theorem State.readM_kept (p : Nat) (ms : List Nat) : (s.readM p ms).kept = s.kept := by
  simp [State.readM]
@[simp] theorem State.pendRows_kept (p row v mask lat tier n : Nat) :
    (s.pendRows p row v mask lat tier n).kept = s.kept := by simp [State.pendRows]
@[simp] theorem State.badBuffer_kept (p d : Nat) : (s.badBuffer p d).kept = s.kept := by simp [State.badBuffer]
@[simp] theorem State.vCheck_kept (p : Nat) (i : Instr) (o : VOp) : (s.vCheck p i o).kept = s.kept := by
  simp [State.vCheck]
@[simp] theorem State.vOp_kept (p : Nat) (i : Instr) (o : VOp) (ok : Bool) (occ : Nat) (k : State → State)
    (hk : ∀ t, (k t).kept = t.kept) : (s.vOp p i o ok occ k).kept = s.kept := by
  refine State.whenIssued_kept _ _ _ _ _ fun t => ?_
  split
  · exact State.vSlot_kept _ _ _ _ fun u => by simp [hk]
  · simp

@[simp] theorem State.vWrite_kept (p : Nat) (o : VOp) (lat : Nat) (ws : List Word) :
    (s.vWrite p o lat ws).kept = s.kept := by simp [State.vWrite]
@[simp] theorem State.drawIdx_kept (p : Nat) (o : VOp) : (s.drawIdx p o).kept = s.kept := by simp [State.drawIdx]
@[simp] theorem State.arith_kept (p : Nat) (i : Instr) (o : VOp) (f : FpVal → FpVal → FpVal → FpVal)
    (g : Word → Word → Word → Word) : (s.arith p i o f g).kept = s.kept := by simp [State.arith]
@[simp] theorem State.lanewise_kept (p : Nat) (i : Instr) (o : VOp) (lat : Nat) (f : Nat → Word → Word → Word) :
    (s.lanewise p i o lat f).kept = s.kept := by simp [State.lanewise]
@[simp] theorem State.trans_kept (p : Nat) (i : Instr) (o : VOp) (lat : Nat) (f : Word → Word → Word) :
    (s.trans p i o lat f).kept = s.kept := by simp [State.trans]
@[simp] theorem State.reduce_kept (p : Nat) (i : Instr) (o : VOp) (lat : Nat) (xs : State → List Word)
    (f : FpVal → FpVal → FpVal) (g : Word → Word → Word) : (s.reduce p i o lat xs f g).kept = s.kept := by
  simp [State.reduce]
@[simp] theorem State.writePair_kept (p : Nat) (o : VOp) (lat : Nat) (xs : List Nat) (mask : BitVec 256) :
    (s.writePair p o lat xs mask).kept = s.kept := by simp [State.writePair]
@[simp] theorem State.fp64Op_kept (p : Nat) (i : Instr) (o : VOp) (useC : Bool) (f : FpVal → FpVal → FpVal → FpVal) :
    (s.fp64Op p i o useC f).kept = s.kept := by simp [State.fp64Op]

/-! The control slot, trace records, the parameter update and the network slot -/

@[simp] theorem State.cSlot_kept (p : Nat) (i : Instr) (k : State → State) (hk : ∀ t, (k t).kept = t.kept) :
    (s.cSlot p i k).kept = s.kept :=
  State.whenIssued_kept _ _ _ _ _ hk
@[simp] theorem State.waitFor_kept (p : Nat) (i : Instr) (target : Nat) : (s.waitFor p i target).kept = s.kept := by
  simp [State.waitFor]
@[simp] theorem State.openLoop_kept (p : Nat) (i : Instr) (level count len : Nat) :
    (s.openLoop p i level count len).kept = s.kept := by simp [State.openLoop]
@[simp] theorem State.formRec_kept (e : TrcEv) : (s.formRec e).1.kept = s.kept := by simp [State.formRec]
@[simp] theorem State.regionLoss_kept (r reason : Nat) : (s.regionLoss r reason).kept = s.kept := by
  simp [State.regionLoss]
@[simp] theorem State.lossNotice_kept (r : Nat) : (s.lossNotice r).kept = s.kept := by simp [State.lossNotice]
@[simp] theorem State.holdRec_kept (p : Nat) (e : TrcEv) : (s.holdRec p e).kept = s.kept := by
  unfold State.holdRec
  split
  · rfl
  · dsimp only
    split
    · exact (State.obs_kept _ _).trans (by simp)
    · simp

@[simp] theorem State.coreRec_kept (p ty tcyc : Nat) (body : List Byte) :
    (s.coreRec p ty tcyc body).kept = s.kept := by simp [State.coreRec]
@[simp] theorem State.arrivalRec_kept (p op : Nat) (f : Flit) : (s.arrivalRec p op f).kept = s.kept := by
  simp [State.arrivalRec]
@[simp] theorem State.updateBlock_kept (p : Nat) (o : VOp) : (s.updateBlock p o).kept = s.kept := by
  simp [State.updateBlock]
@[simp] theorem State.receive_kept (p : Nat) (i : Instr) (op : Nat) (a : Option Nat) (k : State → Flit → State)
    (hk : ∀ t x, (k t x).kept = t.kept) : (s.receive p i op a k).kept = s.kept := by
  refine State.whenIssued_kept _ _ _ _ _ fun t => ?_
  extract_lets u
  have hu : u.kept = t.kept := by
    unfold u
    split <;> simp
  split
  · simp [hu]
  · simp [hk, hu]

@[simp] theorem State.receiveAdd_kept (p : Nat) (i : Instr) (a : BitVec 4) (fmt : BitVec 1) :
    (s.receiveAdd p i a fmt).kept = s.kept := by simp [State.receiveAdd]
end

/-! ### What the commands leave -/

/-- Whatever next state a meaning answers has the registers, the invocation and the memories of `s`. -/
def State.keptBy (s : State) (o : Host.Outcome State Fault Refusal) : Prop := ∀ t, o = .next t → t.kept = s.kept

theorem keptBy_next {s t : State} (h : t.kept = s.kept) : s.keptBy (.next t) := by
  intro u hu
  obtain rfl : t = u := by simpa using hu
  exact h

/-- The meaning of a table entry (R140, R185). -/
theorem keptBy_entryCmd {s t : State} {m : String} {ok : Bool} (h : t.kept = s.kept) : s.keptBy (entryCmd m ok t) := by
  unfold entryCmd
  split
  · exact keptBy_next h
  · intro u hu
    cases hu

section
variable (s : State) (p : Pos)

/-! Commands with more than a few steps. -/

theorem execPage_kept (slot : BitVec 4) (code : BitVec 12) : s.keptBy (execPage p slot code s) :=
  keptBy_next (s.cSlot_kept _ _ _ fun t => State.port_kept _ _ _ _ fun u => by
    rw [State.pendOp_kept]
    exact State.foldl_kept _ _ _ fun v k => v.pendOp_kept ..)

theorem execDkrt_kept (a : BitVec 4) (dp : BitVec 3) (dest : BitVec 1) : s.keptBy (execDkrt p a dp dest s) :=
  keptBy_next (s.portSlot_kept _ _ _ _ fun t => by
    dsimp only
    exact State.port_kept _ _ _ _ fun u => by simp)

theorem execLdl_kept (a : BitVec 4) (dp : BitVec 3) (d : BitVec 6) : s.keptBy (execLdl p a dp d s) :=
  keptBy_next (s.portSlot_kept _ _ _ _ fun t => State.port_kept _ _ _ _ fun u => by
    dsimp only
    split <;> simp)

theorem execStl_kept (a : BitVec 4) (dp : BitVec 3) (d : BitVec 6) : s.keptBy (execStl p a dp d s) :=
  keptBy_next (s.portSlot_kept _ _ _ _ fun t => State.port_kept _ _ _ _ fun u => by
    dsimp only
    split <;> simp)

theorem execPush_kept (a : BitVec 4) : s.keptBy (execPush p a s) :=
  keptBy_next (s.portSlot_kept _ _ _ _ fun t => State.port_kept _ _ _ _ fun u => by
    dsimp only
    split
    · simp
    · split <;> simp)

theorem execSwap_kept (arr : Arr) : s.keptBy (execSwap p arr s) :=
  keptBy_next (s.whenIssued_kept _ _ _ _ fun t => by
    dsimp only
    split <;> simp)

theorem execLatch_kept (arr : Arr) : s.keptBy (execLatch p arr s) :=
  keptBy_next (s.whenIssued_kept _ _ _ _ fun t => by
    dsimp only
    (repeat' split) <;> simp)

theorem execFeed_kept (arr : Arr) (acc : Bool) (field : BitVec 4) : s.keptBy (execFeed p arr acc field s) :=
  keptBy_next (s.whenIssued_kept _ _ _ _ fun t => by
    extract_lets cfg m a tile en row s1 s2 begun r pairs afmt
    have h2 : s2.kept = t.kept := by simp [s2, s1]
    have hbegun (u : State) (sclp used srow) : (begun u sclp used srow).kept = u.kept := by simp [begun]
    split
    · simp [r, hbegun, h2]
    next i _ =>
    have h3 := s2.readRows_kept p.val row ((i.actBytes + 63) / 64)
    generalize s2.readRows p.val row ((i.actBytes + 63) / 64) = x at h3
    obtain ⟨u, bytes⟩ := x
    dsimp only at h3 ⊢
    have h4 : (if i.mx then u.feedScales p.val arr (i.depth / 32)
        else (u, [], u.sclReg p.val arr, a.sclUsed, a.sclRow)).1.kept = t.kept := by simp [h3, h2]
    generalize (if i.mx then u.feedScales p.val arr (i.depth / 32)
      else (u, [], u.sclReg p.val arr, a.sclUsed, a.sclRow)) = y at h4
    obtain ⟨v, sx, sclp, used, srow⟩ := y
    dsimp only at h4 ⊢
    split
    · simp [hbegun, h4]
    · split <;> simp [hbegun, h4])

theorem execFerrySend_kept (arr : Arr) (e : BitVec 128) (i : BitVec 8) : s.keptBy (execFerrySend p arr e i s) :=
  keptBy_entryCmd (s.stopOp_kept _ _ _ _ _ _ fun t => by
    extract_lets k c lane b me
    split
    next u f hu =>
    have h0 : u.kept = t.kept := State.kept_of_eq_mk hu (t.arrival_kept ..)
    extract_lets s1 x starts mk s2 s3 y mine inMk s4
    have h3 : s3.kept = t.kept := by simp [s3, s2, s1, h0]
    have h4 : s4.kept = t.kept := by
      unfold s4
      split
      · simp [h3]
      · split
        · exact h3
        · split <;> simp [h3]
    simp [h4])

end

/-- Each command of a core's slots, of a stop or of a router. -/
theorem exec_kept (i : Instr) (s : State) (hi : isCoreCommand i = true) : s.keptBy (exec i s) := by
  cases i with
  | waitc | waits => exact keptBy_next (s.waitFor_kept ..)
  | loop | loops => exact keptBy_next (s.openLoop_kept ..)
  | salu => exact keptBy_next (s.cSlot_kept _ _ _ fun t => by split <;> simp)
  | rpt => exact keptBy_next (s.cSlot_kept _ _ _ fun t => t.onCore_kept _ _ fun c => by split <;> rfl)
  | jmp | bnz | setl | seth | movx | endOp | mark => exact keptBy_next (s.cSlot_kept _ _ _ fun t => by simp)
  | page p slot code => exact execPage_kept s p slot code
  | ld | st | sta | psd => exact keptBy_next (s.mSlot_kept _ _ _ _ fun t => by simp)
  | dkrd | dkwr | pop => exact keptBy_next (s.portSlot_kept _ _ _ _ fun t => by simp)
  | ldl p a dp d => exact execLdl_kept s p a dp d
  | stl p a dp d => exact execStl_kept s p a dp d
  | dkrt p a dp dest => exact execDkrt_kept s p a dp dest
  | push p a => exact execPush_kept s p a
  | feed p arr acc field => exact execFeed_kept s p arr acc field
  | cfg => exact keptBy_next (s.whenIssued_kept _ _ _ _ fun t => by simp)
  | swap p arr => exact execSwap_kept s p arr
  | latch p arr => exact execLatch_kept s p arr
  | vadd | vsub | vmul | vfma => exact keptBy_next (s.arith_kept ..)
  | vmax | vmin | vabs | vneg | vsel | vmov | vbc | vlane | viadd | visub | vand | vor | vxor | vshl | vshr =>
    exact keptBy_next (s.lanewise_kept ..)
  | vrcp | vsqrt | vrsqrt | vdiv | vexp2 | vlog2 | vtanh | vsigm | verf | vsin | vcos => exact keptBy_next (s.trans_kept ..)
  | vrsum | vrmax | vrmin | vrdot => exact keptBy_next (s.reduce_kept ..)
  | dadd | dmul | dfma => exact keptBy_next (s.fp64Op_kept ..)
  | vcmp | vrdp | drsum | vcvf | vcvm | vcvb => exact keptBy_next (s.vOp_kept _ _ _ _ _ _ fun t => by simp)
  | dcvt p o => exact keptBy_next (by simp)
  | vcvi p o => exact keptBy_next (by simp)
  | update p o => exact keptBy_next (s.whenIssued_kept _ _ _ _ fun t => by simp)
  | send => exact keptBy_next (s.whenIssued_kept _ _ _ _ fun t => by simp)
  | recv | drop => exact keptBy_next (s.receive_kept _ _ _ _ _ fun t f => by simp)
  | recva | recvaB => exact keptBy_next (s.receiveAdd_kept ..)
  | pass | take => exact keptBy_entryCmd (s.stopOp_kept _ _ _ _ _ _ fun t => by dsimp only; split <;> simp)
  | sink | fetch | accept | trainTableLoad => exact keptBy_entryCmd (s.stopOp_kept _ _ _ _ _ _ fun t => by simp)
  | ferrySend p arr e i => exact execFerrySend_kept s p arr e i
  | fwd | poolrd | slotTableLoad => exact keptBy_entryCmd (s.rtrOp_kept _ _ _ _ _ fun t => by simp)
  | merge32 | merge16 => exact keptBy_entryCmd (s.merge_kept ..)
  | zombieFlit p => exact keptBy_next (by simp)
  | _ => exact Bool.noConfusion hi

end Sys2Proof.Machine

open Sys2Proof Sys2Proof.Machine

/-- Settles O24: no operation of these commands changes a field that a register reads from, or a memory. -/
theorem issueLeavesRegistersAndMemory : Obligations.IssueLeavesRegistersAndMemory :=
  fun i s _ hi ht => State.frame_of_kept (exec_kept i s hi _ ht)
end

section
/-! The Ferry ring (R139-R148): an entry of a train table that its stop applies, the flits that a SEND takes from a slot, and the
deck reads that a stop begins. -/

namespace Sys2Proof.Machine

/-! ### An entry that works now -/

section
variable {s : State} {p : Nat} {arr : Arr} {e : BitVec 128} {i op : Nat}

/-- A command's own OP is the one of its entry (R140). -/
theorem wfEntry_of_enOp (hop : enOp e = op) : wfEntry op e = true :=
  decide_eq_true hop

/-- The command of an entry that the stop applies now acts. -/
theorem entryCmd_stopOp (hruns : s.stopRuns p arr e i = true) (hgood : badTrain e = false) (hop : enOp e = op) (name : String)
    (c : Instr) (k : State → State) : entryCmd name (wfEntry op e) (s.stopOp p arr c e i k) = .next (k s) := by
  rw [entryCmd, if_pos (wfEntry_of_enOp hop), State.stopOp, if_pos hruns, hgood]
  rfl

/-- A reserved encoding, whatever the command would do (R152). -/
theorem entryCmd_stopOp_bad (hruns : s.stopRuns p arr e i = true) (hbad : badTrain e = true) (hop : enOp e = op) (name : String)
    (c : Instr) (k : State → State) : entryCmd name (wfEntry op e) (s.stopOp p arr c e i k) = .next (s.badStop p arr e) := by
  rw [entryCmd, if_pos (wfEntry_of_enOp hop), State.stopOp, if_pos hruns, if_pos hbad]

/-- An entry that acts as END ends its stop's table. -/
theorem State.badStop_tableEnd (s : State) (p : Nat) (arr : Arr) (e : BitVec 128) :
    ((s.badStop p arr e).stopAt (2 * p + arr.val)).tableEnd.isSome = true := by
  rw [State.badStop, State.stopEnd, State.setStop_stopAt_same]
  rfl

@[simp] theorem State.stopRec_ferryFly (s : State) (p : Nat) (arr : Arr) (code : Code) (idx : Nat) (e : BitVec 128) :
    (s.stopRec p arr code idx e).ferryFly = s.ferryFly :=
  s.raise_ferryFly _

theorem State.badStop_ferryFly (s : State) (p : Nat) (arr : Arr) (e : BitVec 128) :
    (s.badStop p arr e).ferryFly = s.ferryFly := by
  rw [State.badStop, State.stopEnd, State.setStop_ferryFly, State.stopFault, State.stopRec_ferryFly]

end

/-! ### The slots of a stop -/

theorem StopSt.setSlot_slotAt (x : StopSt) (b : Nat) (t : TileSlot) : (x.setSlot b t).slotAt b = t := by
  unfold StopSt.setSlot StopSt.slotAt
  split <;> rfl

theorem StopSt.setMk_slotAt (x : StopSt) (lane t b : Nat) : (x.setMk lane t).slotAt b = x.slotAt b := by
  unfold StopSt.setMk
  split <;> rfl

theorem State.onSlot_slotAt (s : State) (k b : Nat) (f : TileSlot → TileSlot) :
    ((s.onSlot k b f).stopAt k).slotAt b = f ((s.stopAt k).slotAt b) := by
  rw [State.onSlot, State.setStop_stopAt_same, StopSt.setSlot_slotAt]

/-- An update of a slot that asks whether the SEND under way is the slot's own, where it is. -/
theorem State.onSlot_of_sending {s : State} {k b : Nat} {me : Option (Nat × BitVec 128)}
    (h : ((s.stopAt k).slotAt b).sending = me) (f : TileSlot → TileSlot) :
    s.onSlot k b (fun x => if x.sending == me then f x else x) = s.onSlot k b f := by
  simp [State.onSlot, h]

/-! ### What a SEND meets and what it leaves -/

/-- A lane without a flit for the stop in this tcyc. -/
theorem State.arrival_none {s : State} {p : Nat} {arr : Arr} {lane : Nat} {e : BitVec 128}
    (h : s.ferryFly.find? (fun l => l.dst == 2 * p + arr.val && l.port == lane && l.due == s.tcyc p) = none) :
    s.arrival p arr lane e = (s, none) := by
  rw [State.arrival]
  dsimp only
  rw [h]

/-- A flit whose words no upset has struck. -/
theorem State.readSlotFlit_good {s : State} {p : Nat} {arr : Arr} {b i : Nat}
    (h : s.upsetIn .stopBuf (2 * p + arr.val) (flitWord b i) 8 = (false, false)) (idx : Nat) (e : BitVec 128) :
    s.readSlotFlit p arr b i idx e = (s, false) := by
  rw [State.readSlotFlit, h]
  rfl

@[simp] theorem State.lateCrossing_stop (s : State) (p : Nat) : (s.lateCrossing p).stop = s.stop := by
  rw [State.lateCrossing, State.tickFresh_stop, State.raise_stop]

/-- A flit that leaves a stop changes no stop. -/
@[simp] theorem State.sendLane_stop (s : State) (p : Nat) (arr : Arr) (lane : Nat) (f : Flit) :
    (s.sendLane p arr lane f).stop = s.stop := by
  simp only [State.sendLane, State.ringHop, apply_ite State.stop, State.lateCrossing_stop, ite_self]

theorem State.sendLane_stopAt (s : State) (p : Nat) (arr : Arr) (lane : Nat) (f : Flit) (k : Nat) :
    (s.sendLane p arr lane f).stopAt k = s.stopAt k := by
  rw [State.stopAt, State.sendLane_stop]
  rfl

/-- The slot that entry `e` of a stop names (R139). -/
def State.entrySlot (s : State) (p : Pos) (arr : Arr) (e : BitVec 128) : TileSlot :=
  (s.stopAt (2 * p.val + arr.val)).slotAt (enBuf e)

/-- Whether a SEND takes slot `x` in its tcyc i (R140, R143). -/
def TileSlot.startsSend (x : TileSlot) (i : BitVec 8) : Bool := i == 0 && x.used && !x.sent && x.sending.isNone

/-- SEND `e`, which begins in tcyc `t`, takes its slot; with `marker` it reserves its lane (R143, R147). -/
def State.takeSlot (s : State) (p : Pos) (arr : Arr) (e : BitVec 128) (t : Nat) (marker : Bool) : State :=
  let k := 2 * p.val + arr.val
  let s := s.onSlot k (enBuf e) (fun x => { x with sending := some (t, e) })
  if marker then s.setStop k ((s.stopAt k).setMk (enLane e) (s.tcyc p.val + enLen e - 1)) else s

/-- SEND `e` sends flit `f` in its tcyc i; its last flit ends it (R140, R143). -/
def State.sendsFlit (s : State) (p : Pos) (arr : Arr) (e : BitVec 128) (i : Nat) (f : Flit) : State :=
  let v := s.sendLane p.val arr (enLane e) f
  if i + 1 = enLen e then
    v.onSlot (2 * p.val + arr.val) (enBuf e) (fun x => { x with sending := none, sent := true })
  else v

/-- Tcyc `t`, tcyc i of SEND `e`, on a slot that it has taken or not: with `marker` the slot goes as an empty-tile
marker (R140, R142, R147). -/
def State.sendTcyc (s : State) (p : Pos) (arr : Arr) (e : BitVec 128) (i t : Nat) (marker : Bool) : State :=
  let k := 2 * p.val + arr.val
  let x := s.entrySlot p arr e
  let mine := x.used && x.sending == some (t - i, e)
  let s :=
    if marker then s.sendLane p.val arr (enLane e) (ferryFlit true x.markBad (enMode e) (enWfmt e) (enKind e) 0 (enTag e) 0)
    else if mine && decide (0 < i) && decide (t ≤ (s.stopAt k).mkUntil (enLane e)) then s
    else
      match (if mine then x.flitAt i t else none) with
      | some g =>
        let (s, un) := s.readSlotFlit p.val arr (enBuf e) i ((s.stopAt k).entryIdx e t) e
        s.sendLane p.val arr (enLane e) (ferryFlit false (g.poison || un) (enMode e) (enWfmt e) (enKind e) i (enTag e) g.pay)
      | none => s.stopFault p.val arr 0x2505 e
  if i + 1 = enLen e then
    s.onSlot k (enBuf e) (fun x => if x.sending == some (t - i, e) then { x with sending := none, sent := true } else x)
  else s

theorem TileSlot.startsSend_of_free {x : TileSlot} (hused : x.used = true) (hsent : x.sent = false)
    (hsending : x.sending = none) : x.startsSend 0 = true := by
  simp [TileSlot.startsSend, hused, hsent, hsending]

theorem TileSlot.startsSend_later (x : TileSlot) {i : BitVec 8} (hi : i ≠ 0) : x.startsSend i = false := by
  rw [TileSlot.startsSend, beq_false_of_ne hi]
  rfl

/-- The slot that a SEND has taken, marker or not. -/
theorem State.takeSlot_entrySlot (s : State) (p : Pos) (arr : Arr) (e : BitVec 128) (t : Nat) (marker : Bool) :
    (s.takeSlot p arr e t marker).entrySlot p arr e = { s.entrySlot p arr e with sending := some (t, e) } := by
  cases marker with
  | false => exact s.onSlot_slotAt (2 * p.val + arr.val) (enBuf e) (fun x => { x with sending := some (t, e) })
  | true =>
    rw [State.entrySlot, State.takeSlot]
    dsimp only
    rw [if_pos rfl, State.setStop_stopAt_same, StopSt.setMk_slotAt, State.onSlot_slotAt]
    rfl

section
variable {s : State} {p : Pos} {arr : Arr} {e : BitVec 128} {i t : Nat}

/-- The SEND under way is the slot's own: its last flit ends it. -/
theorem State.sendsFlit_of_sending (f : Flit)
    (h : (s.entrySlot p arr e).sending = some (t - i, e)) :
    (if i + 1 = enLen e then
      (s.sendLane p.val arr (enLane e) f).onSlot (2 * p.val + arr.val) (enBuf e)
        (fun x => if x.sending == some (t - i, e) then { x with sending := none, sent := true } else x)
    else s.sendLane p.val arr (enLane e) f) = s.sendsFlit p arr e i f := by
  rw [State.onSlot_of_sending ((congrArg (fun x => (x.slotAt (enBuf e)).sending) (s.sendLane_stopAt ..)).trans h)]
  rfl

/-- An empty-tile marker (R147). -/
theorem State.sendTcyc_marker (h : (s.entrySlot p arr e).sending = some (t - i, e)) :
    s.sendTcyc p arr e i t true = s.sendsFlit p arr e i (ferryFlit true
      (s.entrySlot p arr e).markBad (enMode e) (enWfmt e) (enKind e) 0 (enTag e) 0) :=
  State.sendsFlit_of_sending _ h

/-- A flit that is there, in words that are good, on a lane that no marker reserves (R140, R143). -/
theorem State.sendTcyc_flit {g : SlotFlit} (hused : (s.entrySlot p arr e).used = true)
    (hsending : (s.entrySlot p arr e).sending = some (t - i, e))
    (hlane : i = 0 ∨ (s.stopAt (2 * p.val + arr.val)).mkUntil (enLane e) < t)
    (hwords : s.upsetIn .stopBuf (2 * p.val + arr.val) (flitWord (enBuf e) i) 8 = (false, false))
    (hflit : (s.entrySlot p arr e).flitAt i t = some g) :
    s.sendTcyc p arr e i t false = s.sendsFlit p arr e i
      (ferryFlit false g.poison (enMode e) (enWfmt e) (enKind e) i (enTag e) g.pay) := by
  have hmine : ((s.entrySlot p arr e).used &&
      (s.entrySlot p arr e).sending == some (t - i, e)) = true := by
    simp [hused, hsending]
  have hopen : ¬ (decide (0 < i) && decide (t ≤ (s.stopAt (2 * p.val + arr.val)).mkUntil (enLane e))) = true := by
    simp only [Bool.and_eq_true, decide_eq_true_eq]
    omega
  rw [← State.sendsFlit_of_sending _ hsending, State.sendTcyc]
  dsimp only
  rw [hmine, Bool.true_and, if_neg Bool.false_ne_true, if_neg hopen, if_pos rfl, hflit]
  dsimp only
  rw [State.readSlotFlit_good hwords, Bool.or_false]

end

section
variable {s : State} {p : Pos} {arr : Arr} {e : BitVec 128} {i : BitVec 8}
  (hruns : s.stopRuns p.val arr e i.toNat = true) (hgood : badTrain e = false) (hop : enOp e = 4)
  (hlane : s.ferryFly.find? (fun l => l.dst == 2 * p.val + arr.val && l.port == enLane e && l.due == s.tcyc p.val) = none)
include hruns hgood hop hlane

/-- A SEND of an entry that works now, on a lane without a flit. -/
theorem execFerrySend_eq :
    let x := s.entrySlot p arr e
    let mk := x.startsSend i && x.emptyTile (s.tcyc p.val)
    exec (.ferrySend p arr e i) s = .next ((if x.startsSend i then s.takeSlot p arr e (s.tcyc p.val - i.toNat) mk
      else s).sendTcyc p arr e i.toNat (s.tcyc p.val) mk) := by
  intro x mk
  refine (entryCmd_stopOp hruns hgood hop ..).trans (congrArg Host.Outcome.next ?_)
  extract_lets k t lane b me
  rw [show s.arrival p.val arr lane e = (s, none) from State.arrival_none hlane]
  rfl

/-- The first tcyc of a SEND takes a slot that no other SEND has taken. -/
theorem execFerrySend_first {marker : Bool} (hi : i = 0) (hused : (s.entrySlot p arr e).used = true)
    (hsent : (s.entrySlot p arr e).sent = false) (hsending : (s.entrySlot p arr e).sending = none)
    (htile : (s.entrySlot p arr e).emptyTile (s.tcyc p.val) = marker) :
    exec (.ferrySend p arr e i) s =
      .next ((s.takeSlot p arr e (s.tcyc p.val) marker).sendTcyc p arr e i.toNat (s.tcyc p.val) marker) := by
  subst hi htile
  rw [execFerrySend_eq hruns hgood hop hlane, TileSlot.startsSend_of_free hused hsent hsending, if_pos rfl, Bool.true_and]
  rfl

/-- A later tcyc of a SEND finds its slot taken. -/
theorem execFerrySend_later (hi : i ≠ 0) :
    exec (.ferrySend p arr e i) s = .next (s.sendTcyc p arr e i.toNat (s.tcyc p.val) false) := by
  rw [execFerrySend_eq hruns hgood hop hlane, TileSlot.startsSend_later _ hi, if_neg Bool.false_ne_true, Bool.false_and]

end

/-! ### Deck operations of a stop (R141, R143-R145, R148) -/

/-- What a stop begins in this tcyc, to act `lat` tcyc later (R144, R148). -/
def State.stopResult (s : State) (p : Pos) (d : Dst) (lat : Nat) : Pend :=
  { dst := d, due := s.tcyc p.val + lat, issue := s.tcyc p.val, rank := 4, val := 0, mask := 0 }

section
variable {s t : State} {p : Pos} {rs : List Pend}

theorem State.Begun.stopResult (h : s.Begun p rs [] t) : t.stopResult p = s.stopResult p := by
  funext d lat
  rw [State.stopResult, State.stopResult, h.tcyc]

theorem State.setStop_begun (s : State) (p : Pos) (k : Nat) (x : StopSt) : s.Begun p [] [] (s.setStop k x) :=
  .of_core rfl rfl rfl rfl

theorem State.stopFault_begun (s : State) (p : Pos) (q : Nat) (arr : Arr) (code : Code) (e : BitVec 128) :
    s.Begun p [] [] (s.stopFault q arr code e) :=
  s.raiseAt_begun p ..

theorem State.startFill_begun (s : State) (p : Pos) (q : Nat) (arr : Arr) (e : BitVec 128) (mode wfmt kind tag : Nat)
    (plain : Bool) : s.Begun p [] [] (s.startFill q arr e mode wfmt kind tag plain) := by
  unfold State.startFill
  dsimp only
  split
  · exact s.stopFault_begun p ..
  · exact s.setStop_begun p ..

/-- Results put on their way at once. -/
theorem State.adds_begun (s : State) (p : Pos) (rs : List Pend) :
    s.Begun p rs [] (s.onCore p.val (fun c => { c with pend := c.pend ++ rs })) :=
  .of_onCore s p fun c => ⟨rfl, (List.append_nil c.advA).symm, rfl⟩

/-- A free deck port takes an operation of a stop for `n` tcyc (R144). -/
theorem State.stopPort_free (hport : s.portFree p) (arr : Arr) (e : BitVec 128) (n : Nat) :
    ∃ t, s.Begun p [] [] t ∧ (∀ k, t.stopAt k = s.stopAt k) ∧
      ∀ k : State → State, s.stopPort p.val arr e n k = k t := by
  refine ⟨(s.onCore p.val (fun c => { c with portBusy := s.tcyc p.val + n, portAt := none })).event p.val 0x22 n, ?_, fun k => ?_,
    fun k => if_neg (Nat.not_lt.mpr hport)⟩
  · refine State.Begun.quiet (.of_onCore s p fun c => ?_) (State.event_begun _ p ..)
    exact ⟨(List.append_nil c.pend).symm, (List.append_nil c.advA).symm, rfl⟩
  · rw [State.stopAt, State.event_stop]
    rfl

/-! #### Transposed reads (R148, R233, R234) -/

variable {arr : Arr} {e : BitVec 128} {g slot : Nat}

/-- A tile of BF16 within 16 aligned granules. -/
theorem State.Begun.startTurn_bf16 (h : s.Begun p [] [] t) (hmode : enMode e = 8) (halign : g % 16 = 0) :
    s.Begun p ((List.range 16).map (fun k => s.stopResult p (.turn k (g + k)) (k / 2)) ++
      [s.stopResult p (.turnStop arr slot (enLen e) true) 16]) [] (t.startTurn p.val arr slot e g true) := by
  rw [← h.stopResult, State.startTurn, hmode, halign]
  exact h.trans (t.adds_begun p _)

/-- A tile of an MX mode and the granule of scales that follows it. -/
theorem State.Begun.startTurn_mx (h : s.Begun p [] [] t) (hmode : enMode e = 0 ∨ enMode e = 2) (halign : g % 16 = 0)
    (hlast : g % 16384 ≠ 16368) :
    s.Begun p ((List.range 16).map (fun k => s.stopResult p (.turn k (g + k)) (k / 2)) ++
      [s.stopResult p (.turn 16 (g + 16)) 8, s.stopResult p (.turnStop arr slot (enLen e) false) 16]) []
      (t.startTurn p.val arr slot e g true) := by
  rw [← h.stopResult, List.append_cons, State.startTurn, halign, beq_false_of_ne hlast]
  obtain hmode | hmode := hmode
  all_goals
    rw [hmode]
    exact h.trans (t.adds_begun p _)

/-- A mode that the deck does not transpose. -/
theorem State.Begun.startTurn_unsupported (h : s.Begun p [] [] t) (hmx0 : enMode e ≠ 0) (hmx2 : enMode e ≠ 2)
    (hbf : enMode e ≠ 8) :
    s.Begun p [s.stopResult p (.zeroStop arr slot (enLen e)) 16] [] (t.startTurn p.val arr slot e g true) := by
  rw [← h.stopResult, State.startTurn, beq_false_of_ne hmx0, beq_false_of_ne hmx2, beq_false_of_ne hbf]
  exact (h.quiet (t.stopFault_begun p p.val arr 0x2508 e)).trans (State.adds_begun _ p _)

/-! #### FETCH and LOAD -/

variable (hruns : s.stopRuns p.val arr e 0 = true) (hgood : badTrain e = false) (hport : s.portFree p)
include hruns hgood hport

/-- A plain FETCH reads four flits a tcyc; into an occupied slot it delivers nothing (R143, R144). -/
theorem execFetch_plain (hop : enOp e = 5) (hplain : e.getLsbD 35 = false) :
    s.begins p (.fetch p arr e) ((List.range ((enLen e + 3) / 4)).map (fun j => s.stopResult p
      (.fetched arr (enBuf e) j (enGran e + j) (enLen e) (s.entrySlot p arr e).used) j)) := by
  obtain ⟨t, ht, hstop, hrun⟩ := State.stopPort_free hport arr e ((enLen e + 3) / 4)
  have hfill := ht.quiet (t.startFill_begun p p.val arr e (enMode e) (enWfmt e) (enKind e) (enTag e) true)
  rw [State.entrySlot, ← hstop, ← hfill.stopResult]
  refine (hfill.trans (State.adds_begun _ p _)).begins ((entryCmd_stopOp hruns hgood hop ..).trans ?_)
  rw [hplain]
  exact congrArg Host.Outcome.next (hrun _)

/-- A transposed FETCH into a free slot begins what the transposed read begins (R144, R148). -/
theorem execFetch_transposed {rs : List Pend} (hop : enOp e = 5) (htransposed : e.getLsbD 35 = true)
    (hfree : (s.entrySlot p arr e).used = false)
    (hturn : ∀ t, s.Begun p [] [] t → s.Begun p rs [] (t.startTurn p.val arr (enBuf e) e (enGran e) true)) :
    s.begins p (.fetch p arr e) rs := by
  rw [State.entrySlot] at hfree
  obtain ⟨t, ht, hstop, hrun⟩ := State.stopPort_free hport arr e 16
  have hfill := ht.quiet (t.startFill_begun p p.val arr e (enMode e) (enWfmt e) (enKind e) (enTag e) false)
  refine (hturn _ hfill).begins ((entryCmd_stopOp hruns hgood hop ..).trans (congrArg Host.Outcome.next ?_))
  dsimp only
  rw [htransposed, if_pos rfl, hrun, hstop, hfree]
  rfl

/-- The LOAD of a train table reads a granule a tcyc and ends in the tcyc after the last (R141). -/
theorem execTrainTableLoad_begins (hop : enOp e = 7) : s.begins p (.trainTableLoad p arr e)
    ((List.range (enLen e)).map (fun j => s.stopResult p (.trainLoad arr j (enGran e + j)) j) ++
      [s.stopResult p (.trainDone arr) (enLen e)]) := by
  obtain ⟨t, ht, -, hrun⟩ := State.stopPort_free hport arr e (enLen e + 1)
  have hbusy := ht.quiet (t.setStop_begun p (2 * p.val + arr.val)
    { t.stopAt (2 * p.val + arr.val) with loadBusy := some e, loadDone := false })
  rw [← hbusy.stopResult]
  refine State.Begun.begins (hbusy.trans (ns' := []) (.of_onCore _ p fun c => ?_))
    ((entryCmd_stopOp hruns hgood hop ..).trans (congrArg Host.Outcome.next (hrun _)))
  exact ⟨List.append_assoc c.pend _ _, (List.append_nil c.advA).symm, rfl⟩

end

end Sys2Proof.Machine

open Sys2Proof Sys2Proof.Machine

/-- Settles O27: an entry that works now acts on its stop's state, and a SEND's slot is its own from its first tcyc on. -/
theorem ferryLanes : Obligations.FerryLanes := by
  intro p arr e i s hruns k t
  refine ⟨fun hbad c hc => ?_, fun hgood u f hf => ?_, fun hgood hop hlane => ?_⟩
  · refine ⟨s.badStop p.val arr e, ?_, s.badStop_tableEnd .., s.badStop_ferryFly ..⟩
    obtain ⟨hop, rfl⟩ | ⟨hop, rfl⟩ | ⟨hop, rfl⟩ | ⟨hop, rfl⟩ := hc
    all_goals exact entryCmd_stopOp_bad hruns hbad hop ..
  · refine ⟨fun hop => ?_, fun hop => ?_, fun hop => ?_⟩
    all_goals
      refine (entryCmd_stopOp hruns hgood hop ..).trans (congrArg Host.Outcome.next ?_)
      generalize s.checkArrival p.val arr e i.toNat = arrived at hf ⊢
      subst hf
      rfl
  intro x sends flit good taken hused
  refine ⟨fun hi hsent hsending => ⟨fun htile hwords g hg => ?_, fun htile => ?_⟩, fun hi hsending hmk hwords g hg => ?_⟩
  · subst hi
    have hslot := s.takeSlot_entrySlot p arr e t false
    exact (execFerrySend_first hruns hgood hop hlane rfl hused hsent hsending htile).trans (congrArg Host.Outcome.next
      (State.sendTcyc_flit (by rw [hslot]; exact hused) (by rw [hslot]; rfl) (.inl rfl) hwords (by rw [hslot]; exact hg)))
  · subst hi
    have hslot := s.takeSlot_entrySlot p arr e t true
    refine (execFerrySend_first hruns hgood hop hlane rfl hused hsent hsending htile).trans (congrArg Host.Outcome.next
      ((State.sendTcyc_marker (by rw [hslot]; rfl)).trans ?_))
    rw [hslot]
    rfl
  · exact (execFerrySend_later hruns hgood hop hlane hi).trans
      (congrArg Host.Outcome.next (State.sendTcyc_flit hused hsending (.inr hmk) hwords hg))

/-- Settles O28: an operation on a free port begins its reads in the state that has taken the port. -/
theorem ferryDeckOperations : Obligations.FerryDeckOperations := by
  intro p arr e s hruns hgood mk occupied
  refine ⟨fun hop hport => execFetch_plain hruns hgood hport hop, fun hop hport htransposed hfree => ?_,
    fun hop hport => execTrainTableLoad_begins hruns hgood hport hop, fun hop => entryCmd_stopOp hruns hgood hop ..⟩
  have hbegins {rs} := execFetch_transposed (rs := rs) hruns hgood hport hop htransposed hfree
  exact ⟨fun hmode halign => hbegins fun t h => h.startTurn_bf16 hmode halign,
    fun hmode halign hlast => hbegins fun t h => h.startTurn_mx hmode halign hlast,
    fun hmx0 hmx2 hbf => hbegins fun t h => h.startTurn_unsupported hmx0 hmx2 hbf⟩
end

section
/-! The chunks of an activation stack (R161): a start records the chunk at its stack and puts 256 numbered requests on their way, and
a completion moves the boundary to the spill area. -/

namespace Sys2Proof.Machine

/-! ### The requests of a chunk -/

/-- A fold whose every step takes one request number takes as many as its list is long. -/
theorem foldl_reqNo {α : Type} (f : State → α → State) (h : ∀ s a, (f s a).reqNo = s.reqNo + 1) (l : List α) (s : State) :
    (l.foldl f s).reqNo = s.reqNo + l.length := by
  induction l generalizing s with
  | nil => rfl
  | cons a r ih => rw [List.foldl_cons, ih, h, List.length_cons, Nat.add_assoc, Nat.add_comm 1]

section
variable (s : State)

@[simp] theorem State.enqueue_stkAt (qk : Nat) (r : Req) (p : Nat) : (s.enqueue qk r).stkAt p = s.stkAt p := rfl
@[simp] theorem State.enqueue_reqNo (qk : Nat) (r : Req) : (s.enqueue qk r).reqNo = s.reqNo + 1 := rfl

@[simp] theorem State.event_stkAt (q ev n p : Nat) : (s.event q ev n).stkAt p = s.stkAt p := by
  rw [State.stkAt, State.event_stk, State.stkAt]

@[simp] theorem State.chunkReqs_stkAt (q u0 base : Nat) (spill : Bool) (deadline : Option Nat) (p : Nat) :
    (s.chunkReqs q u0 base spill deadline).stkAt p = s.stkAt p :=
  foldl_keeps (·.stkAt p) _ (fun s _ => s.enqueue_stkAt ..) _ s

@[simp] theorem State.chunkReqs_reqNo (p u0 base : Nat) (spill : Bool) (deadline : Option Nat) :
    (s.chunkReqs p u0 base spill deadline).reqNo = s.reqNo + 256 := by
  rw [State.chunkReqs, foldl_reqNo _ (fun s _ => s.enqueue_reqNo ..), List.length_range]

/-! ### The state in which a chunk has started -/

/-- The stack of `p` has started to spill or fill the 64 granules from `first` on, as event `ev`. -/
def State.chunkStarted (p ev base first : Nat) (spill : Bool) (deadline : Option Nat) : State :=
  ((s.setStk p { s.stkAt p with chunk := some (spill, first, 0), spilling := spill }).event p ev 1).chunkReqs p (4 * first) base spill
    deadline

/-- A chunk that has started is recorded at its stack, and its 256 units have each taken a request number. -/
theorem State.chunkStarted_reads (p ev base first : Nat) (spill : Bool) (deadline : Option Nat) :
    let t := s.chunkStarted p ev base first spill deadline
    (t.stkAt p).chunk = some (spill, first, 0) ∧ (t.stkAt p).spilling = spill ∧ t.reqNo = s.reqNo + 256 := by
  intro t
  have hstk : t.stkAt p = { s.stkAt p with chunk := some (spill, first, 0), spilling := spill } := by
    simp only [t, State.chunkStarted, State.chunkReqs_stkAt, State.event_stkAt, State.setStk_stkAt_same]
  have hreqNo : t.reqNo = s.reqNo + 256 := by
    simp only [t, State.chunkStarted, State.chunkReqs_reqNo, State.event_reqNo, State.setStk_reqNo]
  rw [hstk]
  exact ⟨rfl, rfl, hreqNo⟩

end

/-! ### Start and completion -/

section
variable {s : State} {p : Pos} {d : StackDesc} (hdesc : (s.stkAt p.val).desc = some d)
include hdesc

section
variable (hsize : d.spillSize ≠ 0) (hrun : s.streamsRun = true) (hidle : (s.stkAt p.val).chunk = none)
include hsize hrun hidle

/-- A stack over HIGH spills its lowest resident granules, due before its deck area is full at PUSH_RATE (R161, R162). -/
theorem execStackSpillStart_starts (hhigh : d.high < (s.stkAt p.val).depth - (s.stkAt p.val).rb)
    (hroom : s.chunkRoom d.spillBase (4 * (s.stkAt p.val).rb) = true) :
    exec (.stackSpillStart p) s = .next (s.chunkStarted p.val 0x28 d.spillBase (s.stkAt p.val).rb true
      (some (s.time + (d.size - ((s.stkAt p.val).depth - (s.stkAt p.val).rb)) * 327680 / (max d.pushRate 1 * 37)))) := by
  simp only [exec, execStackSpillStart, hdesc, State.chunkStarted]
  rw [if_pos (by simp [hsize, hrun, hidle, hhigh, hroom]), State.setStk_time]

/-- A stack under AHEAD fills the granules below its boundary, due before it is empty at POP_RATE (R161, R162). -/
theorem execStackFillStart_starts (hahead : (s.stkAt p.val).depth - (s.stkAt p.val).rb < d.ahead) (hspilled : 0 < (s.stkAt p.val).rb)
    (hroom : s.chunkRoom d.spillBase (4 * ((s.stkAt p.val).rb - 64)) = true) :
    exec (.stackFillStart p) s = .next (s.chunkStarted p.val 0x29 d.spillBase ((s.stkAt p.val).rb - 64) false
      (some (s.time + ((s.stkAt p.val).depth - (s.stkAt p.val).rb) * 327680 / (max d.popRate 1 * 37)))) := by
  simp only [exec, execStackFillStart, hdesc, State.chunkStarted]
  rw [if_pos (by simp [hsize, hrun, hidle, hahead, hspilled, hroom]), State.setStk_time]

end

/-- The stack after a chunk whose 256 units have moved: spilling ends at LOW, and spilled granules are no longer bad in the deck
(R161). -/
def StackSt.chunkCompleted (k : StackSt) (low : Nat) (spill : Bool) : StackSt :=
  let rb := if spill then k.rb + 64 else k.rb - 64
  { k with chunk := none, rb := rb, spilling := k.spilling && decide (low < k.depth - rb)
           bad := if spill then k.bad.filter (fun g => decide (rb ≤ g)) else k.bad }

theorem execStackChunkComplete_moved {spill : Bool} {u : Nat} (hmoved : (s.stkAt p.val).chunk = some (spill, u, 256)) :
    exec (.stackChunkComplete p) s = .next (s.setStk p.val ((s.stkAt p.val).chunkCompleted d.low spill)) := by
  simp only [exec, execStackChunkComplete, StackSt.chunkCompleted, hdesc, hmoved]

end

end Sys2Proof.Machine

open Sys2Proof Sys2Proof.Machine

/-- Settles O32: each start answers the state in which its chunk has started, a completion the state with the moved boundary. -/
theorem stackChunks : Obligations.StackChunks := by
  intro p d s k hdesc hsize hrun
  refine ⟨fun hidle hhigh hroom => ?_, fun hidle hahead hspilled hroom => ?_, fun spill u hmoved => ?_⟩
  · exact ⟨_, execStackSpillStart_starts hdesc hsize hrun hidle hhigh hroom, s.chunkStarted_reads ..⟩
  · exact ⟨_, execStackFillStart_starts hdesc hsize hrun hidle hahead hspilled hroom, s.chunkStarted_reads ..⟩
  · refine ⟨_, execStackChunkComplete_moved hdesc hmoved, ?_⟩
    rw [State.setStk_stkAt_same]
    exact ⟨rfl, rfl, rfl⟩
end

section
/-! The Courier network (R209, R210, R213): what each of its commands leaves of the packets under way and of the failures on a
hop. -/

namespace Sys2Proof.Machine

/-! ### Records of the network -/

section
variable (s : State)

/-- A record of the network that spoils nothing leaves the network as it was (R213, R457). -/
theorem State.courEvent_cour {code : Code} (hspoil : codeSpoil code = 0) (hgate : code ≠ 0x2804) (hop : Nat) :
    (s.courEvent code hop).cour = s.cour := by
  obtain ⟨-, -, hcour, -⟩ := s.raise_notice { code := code, inst := hop, detail := (Config.choice s.fresh).toNat } hspoil hgate
  rw [State.courEvent, State.tickFresh_cour, hcour]

/-- A spoil at the root puts no packet under way: at most it shuts the gate again, which rewrites the decision's packets (R61). -/
theorem State.rootSpoil_open (step : Bool) : ∃ f, (s.rootSpoil step).cour.open_ = s.cour.open_.map f := by
  have hsame {t : State} (h : t.cour = s.cour) : ∃ f, t.cour.open_ = s.cour.open_.map f := ⟨id, by rw [h, List.map_id]⟩
  have hclose (armed : Bool) (mode : BitVec 1) : ∃ f, (s.closeAgain armed mode).cour.open_ = s.cour.open_.map f := by
    simp only [State.closeAgain, State.logEvent_cour, State.count_cour]
    exact ⟨_, rfl⟩
  unfold State.rootSpoil
  extract_lets f
  split
  · exact hsame rfl
  · split
    · split
      · split
        · exact hclose _ _
        · exact hsame s.damage_cour
      · exact hsame s.damage_cour
    · exact hsame rfl
  all_goals exact hsame (by simp [apply_ite State.cour])

/-- An event of no cluster puts no packet under way (R462). -/
theorem State.raise_open {e : Ev} (h : e.inCluster = false) : ∃ f, (s.raise e).cour.open_ = s.cour.open_.map f := by
  have key (t : State) (ht : t.cour = s.cour) : ∃ f,
      (if e.quiet || codeSpoil e.code == 0 then t else t.sendSpoil e).cour.open_ = s.cour.open_.map f := by
    rw [← ht]
    split
    · exact ⟨id, (List.map_id _).symm⟩
    · rw [State.sendSpoil, h]
      exact t.rootSpoil_open _
  exact key _ (by simp [apply_ite State.cour])

theorem State.courEvent_open_nil {s : State} (h : s.cour.open_ = []) (code : Code) (hop : Nat) :
    (s.courEvent code hop).cour.open_ = [] := by
  obtain ⟨f, hf⟩ := s.raise_open (e := { code := code, inst := hop, detail := (Config.choice s.fresh).toNat })
    (Bool.and_false _)
  rw [State.courEvent, State.tickFresh_cour, hf, h, List.map_nil]

end

/-! ### The commands -/

theorem execAck_open (src dst : Fin 64) (cls : BitVec 3) (pay : BitVec 14) (s : State) :
    ∃ t, exec (.ack src dst cls pay) s = .next t ∧ ∀ o, o ∈ t.cour.open_ ↔ o ∈ s.cour.open_ ∧
      ¬ (o.src = dst.val ∧ o.dst = src.val ∧ o.cls = cls ∧ o.pay.setWidth 14 = pay) := by
  refine ⟨_, rfl, fun o => ?_⟩
  simp only [State.onCour, List.mem_filter, Bool.not_eq_true', ← Bool.not_eq_true, Bool.and_eq_true, beq_iff_eq, and_assoc]

theorem execNotify_notified (src : Fin 64) (code : Code) (sp : Bool) (s : State) :
    ∃ t, exec (.notify src code sp) s = .next t ∧
      tget t.cour.notified src.val 0 = code.setWidth 17 + (if sp then 0x10000 else 0) :=
  ⟨_, rfl, tget_tset_same ..⟩

section
variable {s : State}

theorem execReservedClassPacket_dropped {w : Word} (hcls : w.toNat % 8 = 7) :
    ∃ t, exec (.reservedClassPacket w) s = .next t ∧ t.cour.dropped = s.cour.dropped + 1 := by
  refine ⟨_, congrArg Host.Outcome.next (if_pos hcls), ?_⟩
  rw [State.courEvent_cour _ (by decide) (by decide)]
  rfl

/-- A failure of the packet on a hop before its fourth (R210). -/
theorem execCourierCrcMismatch_counts {hop : Fin 128} (h : s.cour.failsOf hop.val < 3) :
    ∃ t, exec (.courierCrcMismatch hop) s = .next t ∧ tget t.cour.hopFail hop.val 0 = s.cour.failsOf hop.val + 1 ∧
      tget t.cour.hopHead hop.val none = s.cour.headOf hop.val := by
  refine ⟨_, congrArg Host.Outcome.next (if_pos h), ?_⟩
  rw [State.courEvent_cour _ (by decide) (by decide), State.count_cour]
  exact ⟨tget_tset_same .., tget_tset_same ..⟩

/-- The fourth failure of a packet on a hop (R210). -/
theorem execCourierCrcMismatch_switches {hop : Fin 128} (h : 3 ≤ s.cour.failsOf hop.val) :
    ∃ t, exec (.courierCrcMismatch hop) s = .next t ∧ tget t.cour.hopFail hop.val 0 = 0 ∧
      tget t.cour.hopSetB hop.val false = !tget s.cour.hopSetB hop.val false := by
  refine ⟨_, congrArg Host.Outcome.next (if_neg (Nat.not_lt.mpr h)), ?_⟩
  rw [State.courEvent_cour _ (by decide) (by decide)]
  refine ⟨tget_tset_same .., (tget_tset_same ..).trans ?_⟩
  split <;> rfl

section
variable {src : Fin 64} {o : CourierOut} (hopen : s.cour.open_ = [o]) (hsrc : o.src = src.val) (hlate : o.sentAt + 4000 ≤ s.time)
include hopen hsrc hlate

/-- A packet without ACK for 1 µs goes again (R210). -/
theorem execCourierResendTimer_resends (h : o.resends < 8) : ∃ t, exec (.courierResendTimer src) s = .next t ∧
    t.cour.open_ = [{ o with sentAt := s.time, resends := o.resends + 1 }] := by
  refine ⟨_, rfl, ?_⟩
  simp [hopen, hsrc, hlate.not_gt, h, State.onCour]

/-- After 8 resends its sender gives up (R210). -/
theorem execCourierResendTimer_givesUp (h : 8 ≤ o.resends) : ∃ t, exec (.courierResendTimer src) s = .next t ∧
    t.cour.open_ = [] := by
  refine ⟨_, rfl, ?_⟩
  simp [hopen, hsrc, hlate.not_gt, h.not_gt, State.onCour, State.courEvent_open_nil]

end

end

end Sys2Proof.Machine

open Sys2Proof Sys2Proof.Machine

/-- Settles O41: one lemma a command. -/
theorem courierTraffic : Obligations.CourierTraffic := by
  intro src dst cls pay s
  refine ⟨execAck_open src dst cls pay s, fun code sp => execNotify_notified src code sp s,
    fun w => execReservedClassPacket_dropped, fun hop => execCourierCrcMismatch_counts,
    fun hop => execCourierCrcMismatch_switches, fun o hopen hsrc hlate => ?_⟩
  exact ⟨execCourierResendTimer_resends hopen hsrc hlate, execCourierResendTimer_givesUp hopen hsrc hlate⟩
end

section
/-! Banks and their testers (R226, R227, R236-R238): the power state of a bank, what a wake leaves of its bytes, and what the start
of a group leaves of its tester. -/

namespace Sys2Proof.Machine

/-! ### The banks of a position -/

section
variable (s : State) (p : Nat) (deck : Bool)

@[simp] theorem State.setBank_bankAt (b : BankSt) : (s.setBank p deck b).bankAt p deck = b := by
  cases deck
  · exact s.setNstB_nstB_same p b
  · exact s.setDeckB_deckB_same p b

@[simp] theorem State.setBank_kept (b : BankSt) : (s.setBank p deck b).kept = s.kept := by
  cases deck <;> rfl

@[simp] theorem State.count_bankAt (blk unit idx n : Nat) : (s.count blk unit idx n).bankAt p deck = s.bankAt p deck := by
  simp only [State.bankAt, State.nstB, State.deckB, State.count_nstBank, State.count_deckBank]

/-- An operation on the bytes of a bank leaves the banks (R214, R226). -/
@[simp] theorem State.onBank_bankAt (k : Nat) (f : Mem → Nat → Nat → Mem) :
    (s.onBank p deck k f).bankAt p deck = s.bankAt p deck := by
  have hnst : (s.onBank p deck k f).nstBank = s.nstBank := by unfold State.onBank; split <;> rfl
  have hdeck : (s.onBank p deck k f).deckBank = s.deckBank := by unfold State.onBank; split <;> rfl
  simp only [State.bankAt, State.nstB, State.deckB, hnst, hdeck]

@[simp] theorem State.zeroBank_bankAt (k : Nat) : (s.zeroBank p deck k).bankAt p deck = s.bankAt p deck :=
  s.onBank_bankAt ..

@[simp] theorem State.openBank_bankAt (k : Nat) : (s.openBank p deck k).bankAt p deck = s.bankAt p deck := by
  rw [← s.onBank_bankAt p deck k (fun m lo hi => m.open_ lo hi s.fresh)]
  cases deck
  · exact congrArg (tget · p .resetNst) (State.tickFresh_nstBank _)
  · exact congrArg (tget · p .resetDeck) (State.tickFresh_deckBank _)

theorem State.zeroBank_deck (k : Nat) : (s.zeroBank p true k).deck =
    s.deck.zero (67108864 * p + 4194304 * k) (67108864 * p + 4194304 * k + 4194304) := by
  simp only [State.zeroBank, State.onBank, if_true]

/-- A near-store bank is every 16th row (R214, R215). -/
theorem State.zeroBank_nst (k : Nat) : (s.zeroBank p false k).nst =
    (List.range 2048).foldl (fun m r => m.zero (2097152 * p + 64 * (16 * r + k)) (2097152 * p + 64 * (16 * r + k) + 64)) s.nst := by
  simp only [State.zeroBank, State.onBank, Bool.false_eq_true, if_false]

end

/-- The power state that was set (R226). -/
theorem BankSt.setState_stateOf (b : BankSt) (k v : Nat) : (b.setState k v).stateOf k = v % 4 := by
  have hlow (x : Word) : x.toNat % 4 = (x.setWidth 2).toNat := (BitVec.toNat_setWidth 2 x).symm
  have hk : k % 16 < 16 := Nat.mod_lt _ (by decide)
  have hmask : ∀ i < 2, Nat.testBit 3 i = true := by decide
  have hfield : ((b.setState k v).pwr >>> (2 * (k % 16))).setWidth 2 = BitVec.ofNat 2 (v % 4) := by
    ext i hi
    have hbit : 2 * (k % 16) + i < 32 := by omega
    simp [BankSt.setState, hbit, hmask i hi, ← BitVec.getLsbD_eq_getElem, BitVec.getLsbD_ofNat, hi, show i < 32 by omega]
  rw [BankSt.stateOf, hlow, hfield, BitVec.toNat_ofNat, Nat.mod_mod]

/-! ### A wake completes (R227) -/

/-- Ranges zeroed one after another: an address of one of them reads 0. -/
theorem Mem.get_foldl_zero (lo : Nat → Nat) (n : Nat) (rows : List Nat) (m : Mem) {a : Nat}
    (h : m.get a = 0 ∨ ∃ r ∈ rows, lo r ≤ a ∧ a < lo r + n) :
    (rows.foldl (fun m r => m.zero (lo r) (lo r + n)) m).get a = 0 := by
  induction rows generalizing m with
  | nil => simpa using h
  | cons r rows ih =>
    refine ih _ ?_
    by_cases hin : lo r ≤ a ∧ a < lo r + n
    · exact .inl (Mem.get_zero_in _ _ _ _ hin.1 hin.2)
    · rw [Mem.get_zero_out _ _ _ _ (by omega)]
      simpa [hin] using h

section
variable (s : State) (p : Nat)

theorem State.bankUp_bankAt (deck : Bool) (k : Nat) (fromOff : Bool) : (s.bankUp p deck k fromOff).bankAt p deck =
    { (s.bankAt p deck).setState k 0 with
      wakeAt := tdel (s.bankAt p deck).wakeAt k, lost := (s.bankAt p deck).lost &&& ~~~(1#16 <<< (k % 16)) } := by
  unfold State.bankUp
  dsimp only
  repeat' split
  · rw [State.zeroBank_bankAt, State.setBank_bankAt]
  · rw [State.openBank_bankAt, State.setBank_bankAt]
  · rw [State.setBank_bankAt]

theorem State.bankUp_stateOf (deck : Bool) (k : Nat) (fromOff : Bool) :
    ((s.bankUp p deck k fromOff).bankAt p deck).stateOf k = 0 := by
  rw [State.bankUp_bankAt]
  exact (s.bankAt p deck).setState_stateOf k 0

/-- A bank whose contents were kept wakes with them. -/
theorem State.bankUp_kept {deck : Bool} {k : Nat} (hkept : (s.bankAt p deck).lost.getLsbD (k % 16) = false) :
    (s.bankUp p deck k false).kept = s.kept := by
  simp [State.bankUp, hkept]

/-- A deck window that wakes from off. -/
theorem State.bankUp_deck_zero (k : Nat) {a : Nat} (hlo : 67108864 * p + 4194304 * k ≤ a)
    (hhi : a < 67108864 * p + 4194304 * (k + 1)) : (s.bankUp p true k true).deck.get a = 0 := by
  rw [State.bankUp, if_pos rfl, State.zeroBank_deck]
  exact Mem.get_zero_in _ _ _ _ hlo (hhi.trans_eq (by ring))

/-- A near-store bank that wakes from off: every 16th row. -/
theorem State.bankUp_nst_zero (k : Nat) {r i : Nat} (hr : r < 2048) (hi : i < 64) :
    (s.bankUp p false k true).nst.get (2097152 * p + 64 * (16 * r + k) + i) = 0 := by
  rw [State.bankUp, if_pos rfl, State.zeroBank_nst]
  exact Mem.get_foldl_zero (fun r => 2097152 * p + 64 * (16 * r + k)) 64 _ _
    (.inr ⟨r, List.mem_range.mpr hr, Nat.le_add_right .., Nat.add_lt_add_left hi _⟩)

end

theorem execBankWakeComplete_due {s : State} {p : Pos} {deck : Bool} {bank : Fin 16} {due : Nat} {fromOff : Bool}
    (hwake : tfind (s.bankAt p.val deck).wakeAt bank.val = some (due, fromOff)) (hdue : due ≤ s.time) :
    exec (.bankWakeComplete p deck bank) s = .next (s.bankUp p.val deck bank.val fromOff) := by
  simp only [exec, execBankWakeComplete, hwake]
  rw [if_pos hdue]

/-! ### A group starts (R236, R238) -/

section
variable {s : State} {p : Nat} {deck : Bool}

@[simp] theorem State.startGroup_kept (s : State) (p : Nat) (deck : Bool) (cells : List BadCell) :
    (s.startGroup p deck cells).kept = s.kept := by
  simp [State.startGroup]

/-- The tester after the start of its next group, which is skipped in a bank that is not on. -/
theorem State.startGroup_bankAt (hidle : (s.bankAt p deck).test = none) (cells : List BadCell) :
    let b := s.bankAt p deck
    let c := (s.startGroup p deck cells).bankAt p deck
    c.due = b.due ∧
    (b.groupOn deck b.group = true → c.group = b.group ∧ ∃ r, c.test = some r ∧ r.group = b.group ∧ r.done = 0) ∧
    (b.groupOn deck b.group = false → c.test = none ∧ c.group = (b.group + 1) % (if deck then 4608 else 512)) := by
  intro b c
  cases hon : b.groupOn deck b.group with
  | true =>
    have hc : c = { b with owed := none, test := some { group := b.group, done := 0, fails := _ } } :=
      (congrArg (State.bankAt · p deck) (if_pos hon)).trans (State.setBank_bankAt ..)
    rw [hc]
    exact ⟨rfl, fun _ => ⟨rfl, _, rfl, rfl, rfl⟩, nofun⟩
  | false =>
    have hc : c = { b with owed := none }.nextGroup deck :=
      (congrArg (State.bankAt · p deck) (if_neg (ne_true_of_eq_false hon))).trans (by cases deck <;> simp [b])
    rw [hc]
    exact ⟨rfl, nofun, fun _ => ⟨hidle, rfl⟩⟩

end

/-- The tester of a bank with its next group due one PACE from now (R238). -/
def State.paceGroup (s : State) (p : Nat) (deck : Bool) : State :=
  s.setBank p deck { s.bankAt p deck with due := s.time + 400000 * (s.bankAt p deck).bgtPace.toNat }

section
variable {s : State} {p : Pos} {deck : Bool} (htests : s.tests p.val deck = true)
include htests

theorem execBgtStepStart_idle (hidle : (s.bankAt p.val deck).test = none) :
    exec (.bgtStepStart p deck) s = .next (s.startGroup p.val deck []) :=
  congrArg Host.Outcome.next (if_pos (by simp [htests, hidle]))

variable (hdue : (s.bankAt p.val deck).due ≤ s.time)
include hdue

/-- A tester that works and whose next group is due acts. -/
theorem tester_acts : ¬ (!s.tests p.val deck || decide (s.time < (s.bankAt p.val deck).due)) = true := by
  simp [htests, hdue]

variable (cells : List BadCell)

theorem execBgtGroupStart_idle (hidle : (s.bankAt p.val deck).test = none) :
    exec (.bgtGroupStart p deck cells) s = .next ((s.paceGroup p.val deck).startGroup p.val deck cells) :=
  congrArg Host.Outcome.next ((if_neg (tester_acts htests hdue)).trans (if_neg (by simp [hidle])))

/-- A group that is due while another runs is owed to the tester. -/
theorem execBgtGroupStart_owes (hruns : (s.bankAt p.val deck).test.isSome = true) :
    ∃ t, exec (.bgtGroupStart p deck cells) s = .next t ∧ (t.bankAt p.val deck).owed = some cells ∧
      (t.bankAt p.val deck).test = (s.bankAt p.val deck).test ∧ t.kept = s.kept := by
  refine ⟨_, congrArg Host.Outcome.next ((if_neg (tester_acts htests hdue)).trans (if_pos hruns)), ?_⟩
  cases deck <;> simp

end

end Sys2Proof.Machine

open Sys2Proof Sys2Proof.Machine

/-- Settles O36: a wake that is due answers the state with its bank up; a tester's start answers the state in which its next group
has started. -/
theorem banksAndTesters : Obligations.BanksAndTesters := by
  intro p deck s b
  refine ⟨fun bank due fromOff hwake hdue => ?_, fun htests => ?_, ⟨_, rfl, ?_⟩⟩
  · refine ⟨_, execBankWakeComplete_due hwake hdue, s.bankUp_stateOf .., ?_, ?_, ?_⟩
    · rintro rfl hkept
      have hbank : bank.val % 16 = bank.val := Nat.mod_eq_of_lt bank.isLt
      exact (State.frame_of_kept (s.bankUp_kept p.val (by rwa [hbank]))).2
    · rintro rfl rfl a hlo hhi
      exact s.bankUp_deck_zero p.val bank.val hlo hhi
    · rintro rfl rfl r hr k hk
      exact s.bankUp_nst_zero p.val bank.val hr hk
  · refine ⟨fun hidle => ?_, fun cells hdue => ⟨fun hidle => ?_, fun hruns => ?_⟩⟩
    · exact ⟨_, execBgtStepStart_idle htests hidle, (State.frame_of_kept (by simp)).2, State.startGroup_bankAt hidle []⟩
    · have hpaced := State.setBank_bankAt s p.val deck { b with due := s.time + 400000 * b.bgtPace.toNat }
      have hstarts := State.startGroup_bankAt (s := s.paceGroup p.val deck) (p := p.val) (deck := deck)
        ((congrArg BankSt.test hpaced).trans hidle) cells
      rw [State.paceGroup, hpaced] at hstarts
      exact ⟨_, execBgtGroupStart_idle htests hdue cells hidle, (State.frame_of_kept (by simp [State.paceGroup])).2, hstarts⟩
    · obtain ⟨t, hexec, howed, htest, hkept⟩ := execBgtGroupStart_owes htests hdue cells hruns
      exact ⟨t, hexec, howed, htest, (State.frame_of_kept hkept).2⟩
  · rw [State.onRtr_rtrAt, if_pos rfl]
end

section
/-! The mesh (R185-R202): an entry of a slot table that its router applies, a merge pair, and the reads that a router begins. -/

namespace Sys2Proof.Machine

/-! ### An entry that works now -/

section
variable {s : State} {p i op : Nat} {e : BitVec 128}

theorem State.rtrOp_runs (hruns : s.rtrRuns p e i = true) (hgood : badSlot e = false) (c : Instr) (k : State → State) :
    s.rtrOp p c e i k = k s := by
  rw [State.rtrOp, if_pos hruns, hgood]
  rfl

/-- The command of an entry that the router applies now acts. -/
theorem entryCmd_rtrOp (hruns : s.rtrRuns p e i = true) (hgood : badSlot e = false) (hop : enOp e = op) (name : String) (c : Instr)
    (k : State → State) : entryCmd name (wfEntry op e) (s.rtrOp p c e i k) = .next (k s) := by
  rw [entryCmd, if_pos (wfEntry_of_enOp hop), State.rtrOp_runs hruns hgood]

end

/-! ### A merge pair (R193, R194) -/

/-- The pair of `lo` and `hi`, whose heads `f` and `g` are popped, sends them as one flit on the outputs of `lo` (R193). -/
def State.sendMerged (s : State) (r : RouterSt) (p t : Nat) (lo : BitVec 128) (fmt : Nat) (f g : Flit) : State :=
  (s.sendOuts p (seMain lo).inp (r.entryIdx lo t) (seOut lo) ((seRow lo + r.entryStep lo t) % 2 ^ 20)
    (mergeFlits fmt f g ((Config.choice s.fresh).getLsbD 0))).tickFresh

/-- A pair is merged in the order of its IN codes, whichever of its entries the command names first. -/
theorem State.merge_pair {s u w : State} {p : Nat} {lo hi : BitVec 128} {fmt : Nat} {f g : Flit}
    (hlo : s.rtrRuns p lo ((s.rtrAt p).entryStep lo (s.tcyc p)) = true)
    (hhi : s.rtrRuns p hi ((s.rtrAt p).entryStep hi (s.tcyc p)) = true) (hlogood : badSlot lo = false)
    (hhigood : badSlot hi = false) (hin : fld lo 34 32 < fld hi 34 32) (hout : seOut lo = seOut hi)
    (hf : s.popIn p lo (seMain lo) true (some (fmt + 1)) = (u, f))
    (hg : u.popIn p hi (seMain hi) true (some (fmt + 1)) = (w, g)) (hadders : w.upset .adder p 0 = .good) (c : Instr) :
    s.merge p c lo hi fmt = w.sendMerged (s.rtrAt p) p (s.tcyc p) lo fmt f g ∧
      s.merge p c hi lo fmt = w.sendMerged (s.rtrAt p) p (s.tcyc p) lo fmt f g := by
  have hruns := State.rtrOp_runs hlo hlogood
  have hruns' := State.rtrOp_runs hhi hhigood
  constructor
  all_goals simp [State.merge, State.sendMerged, hruns, hruns', hin, hin.not_gt, hout, hf, hg, hadders]

section
variable {s : State} {p : Pos} {a b : BitVec 128}

theorem execMerge32_pair (ha : enOp a = 2) (hb : enOp b = 2) :
    exec (.merge32 p a b) s = .next (s.merge p.val (.merge32 p a b) a b 0) :=
  if_pos (by rw [wfEntry_of_enOp ha, wfEntry_of_enOp hb]; rfl)

theorem execMerge16_pair (ha : enOp a = 3) (hb : enOp b = 3) :
    exec (.merge16 p a b) s = .next (s.merge p.val (.merge16 p a b) a b 1) :=
  if_pos (by rw [wfEntry_of_enOp ha, wfEntry_of_enOp hb]; rfl)

end

/-! ### Reads of the pool column and of a table (R186, R201) -/

/-- What a router begins in this tcyc with value `v`, to act `lat` tcyc later (R186, R201). -/
def State.routerResult (s : State) (p : Pos) (d : Dst) (lat v : Nat) : Pend :=
  { dst := d, due := s.tcyc p.val + lat, issue := s.tcyc p.val, rank := 4, val := BitVec.ofNat 2048 v, mask := 0 }

section
variable {s : State} {p : Pos} {e : BitVec 128}

theorem State.onRtr_begun (s : State) (p : Pos) (q : Nat) (f : RouterSt → RouterSt) : s.Begun p [] [] (s.onRtr q f) :=
  .of_core rfl rfl rfl rfl

/-- Whether a result is a read of the pool column (R201). -/
def Dst.isPoolRead : Dst → Bool
  | .poolRead _ _ => true
  | _ => false

theorem Dst.isPoolRead_iff {d : Dst} : d.isPoolRead = true ↔ ∃ r g, d = .poolRead r g := by
  cases d <;> simp [Dst.isPoolRead]

/-- No read of the pool column stands in this tcyc, and no LOAD of a table (R201). -/
def State.poolFree (s : State) (p : Pos) : Prop :=
  (s.rtrAt p.val).poolBusy ≤ s.tcyc p.val ∧
    ∀ x ∈ (s.coreAt p.val).pend, x.due = s.tcyc p.val → ∀ r g, x.dst ≠ .poolRead r g

/-- Whether the port of a position's table reads is occupied: the deck port of a live one, the pool column of a fenced one. -/
def State.tablePortBusy (s : State) (p : Nat) : Bool :=
  if s.isFenced p then
    decide (s.tcyc p < (s.rtrAt p).poolBusy) || (s.coreAt p).pend.any (fun x => x.due == s.tcyc p && x.dst.isPoolRead)
  else decide (s.tcyc p < (s.coreAt p).portBusy)

theorem State.tablePortBusy_of_free (h : if s.isFenced p.val then s.poolFree p else s.portFree p) :
    s.tablePortBusy p.val = false := by
  unfold State.tablePortBusy
  split at h
  · next hfenced =>
    obtain ⟨hcol, hreads⟩ := h
    have hnone : ((s.coreAt p.val).pend.any (fun x => x.due == s.tcyc p.val && x.dst.isPoolRead)) = false := by
      rw [List.any_eq_false]
      intro x hx hread
      rw [Bool.and_eq_true, beq_iff_eq] at hread
      obtain ⟨r, g, hdst⟩ := Dst.isPoolRead_iff.mp hread.2
      exact hreads x hx hread.1 r g hdst
    rw [if_pos hfenced, hnone, Bool.or_false]
    exact decide_eq_false (Nat.not_lt.mpr hcol)
  · next hlive =>
    rw [if_neg hlive]
    exact decide_eq_false (Nat.not_lt.mpr h)

/-- The port taken for the LOAD of entry `e` (R186). -/
def State.tablePortTaken (s : State) (p : Nat) (e : BitVec 128) : State :=
  if s.isFenced p then
    s.onRtr p (fun r => { r with poolBusy := s.tcyc p + seLen e + 1, loadBusy := some e, loadDone := false })
  else
    ((s.onRtr p (fun r => { r with loadBusy := some e, loadDone := false })).onCore p
      (fun c => { c with portBusy := s.tcyc p + seLen e + 1, portAt := none })).event p 0x22 (seLen e + 1)

theorem State.tablePortTaken_begun (s : State) (p : Pos) (e : BitVec 128) : s.Begun p [] [] (s.tablePortTaken p.val e) := by
  unfold State.tablePortTaken
  split
  · exact s.onRtr_begun p ..
  · refine ((s.onRtr_begun p ..).quiet (.of_onCore _ p fun c => ?_)).quiet (State.event_begun _ p ..)
    exact ⟨(List.append_nil c.pend).symm, (List.append_nil c.advA).symm, rfl⟩

variable (hruns : s.rtrRuns p.val e 0 = true) (hgood : badSlot e = false)
include hruns hgood

theorem execPoolrd_live (hop : enOp e = 4) (hlive : s.isFenced p.val = false) : exec (.poolrd p e) s = .next s := by
  refine (entryCmd_rtrOp hruns hgood hop ..).trans (congrArg Host.Outcome.next (if_neg ?_))
  simp [hlive]

theorem execPoolrd_begins (hop : enOp e = 4) (hfenced : s.isFenced p.val = true) : s.begins p (.poolrd p e)
    ((List.range (seLen e)).map (fun k => s.routerResult p (.poolRead ((seRow e + k) % 2 ^ 20) (seMain e).tag) k
      ((s.rtrAt p.val).entryIdx e (s.tcyc p.val)))) :=
  (s.adds_begun p _).begins
    ((entryCmd_rtrOp hruns hgood hop ..).trans (congrArg Host.Outcome.next (if_pos hfenced)))

theorem execSlotTableLoad_begins (hop : enOp e = 5) (hfree : s.tablePortBusy p.val = false) : s.begins p (.slotTableLoad p e)
    ((List.range (seLen e)).map (fun j => s.routerResult p (.slotLoad j (fld e 122 105 + j)) j 0) ++
      [s.routerResult p .slotDone (seLen e) 0]) := by
  refine State.Begun.begins ((s.tablePortTaken_begun p e).trans (ns' := []) (.of_onCore _ p fun c => ?_))
    ((entryCmd_rtrOp hruns hgood hop ..).trans (congrArg Host.Outcome.next (if_neg (ne_true_of_eq_false hfree))))
  exact ⟨List.append_assoc c.pend _ _, (List.append_nil c.advA).symm, rfl⟩

end

end Sys2Proof.Machine

open Sys2Proof Sys2Proof.Machine

/-- Settles O29: an entry that works now acts on its router's state; a merge pair's command names its entries in either order. -/
theorem routerOperations : Obligations.RouterOperations := by
  refine ⟨?fwd, ?merge, ?reads, ?gate⟩
  case fwd =>
    intro p e i s hruns hgood hop idx row
    refine ⟨fun hprimary u f hpop => ?_, fun hstandby => ?_⟩
    · refine (entryCmd_rtrOp hruns hgood hop ..).trans (congrArg Host.Outcome.next ?_)
      simp only [hprimary, hpop]
      rfl
    · exact (entryCmd_rtrOp hruns hgood hop ..).trans (congrArg Host.Outcome.next (if_pos hstandby))
  case merge =>
    intro p e e2 s r t hruns hruns2 hgood hgood2 hin hout fmt hfmt hop hop2 u w f g hf hg hadders c hc
    obtain ⟨hfirst, hsecond⟩ := State.merge_pair hruns hruns2 hgood hgood2 hin hout hf hg hadders c
    obtain rfl | rfl : fmt = 0 ∨ fmt = 1 := by omega
    · obtain rfl | rfl : c = .merge32 p e e2 ∨ c = .merge32 p e2 e := by simpa using hc
      · exact (execMerge32_pair hop hop2).trans (congrArg Host.Outcome.next hfirst)
      · exact (execMerge32_pair hop2 hop).trans (congrArg Host.Outcome.next hsecond)
    · obtain rfl | rfl : c = .merge16 p e e2 ∨ c = .merge16 p e2 e := by simpa using hc
      · exact (execMerge16_pair hop hop2).trans (congrArg Host.Outcome.next hfirst)
      · exact (execMerge16_pair hop2 hop).trans (congrArg Host.Outcome.next hsecond)
  case reads =>
    intro p e s hruns hgood mk
    refine ⟨execPoolrd_begins hruns hgood, execPoolrd_live hruns hgood, fun hop hfree => ?_⟩
    exact execSlotTableLoad_begins hruns hgood hop (State.tablePortBusy_of_free hfree)
  case gate =>
    intro p s hshut
    exact congrArg Host.Outcome.next (if_pos (by simpa using hshut))
end

section
/-! The canonical form of the three memories (R216, R217, R223, R267) through a step: most operations leave the memories as they
are, and the others put a memory that each of the laws of memories keeps canonical in the place of the old one. -/

namespace Sys2Proof.Machine

/-! ### Memories left alone and memories kept canonical -/

/-- `t` has the three memories of `s`. -/
@[simp] abbrev State.MemsEq (s t : State) : Prop := t.nst = s.nst ∧ t.deck = s.deck ∧ t.lp = s.lp

/-- Each memory of `t` is in canonical form where the same memory of `s` is. -/
@[simp] abbrev State.KeepsWf (s t : State) : Prop :=
  (s.nst.wf = true → t.nst.wf = true) ∧ (s.deck.wf = true → t.deck.wf = true) ∧ (s.lp.wf = true → t.lp.wf = true)

namespace State
variable {s t u : State}

theorem MemsEq.refl (s : State) : s.MemsEq s := ⟨rfl, rfl, rfl⟩

theorem MemsEq.trans (h : s.MemsEq t) (k : t.MemsEq u) : s.MemsEq u :=
  ⟨k.1.trans h.1, k.2.1.trans h.2.1, k.2.2.trans h.2.2⟩

theorem MemsEq.keepsWf (h : s.MemsEq t) : s.KeepsWf t := by
  obtain ⟨hn, hd, hl⟩ := h
  simp only [State.KeepsWf, hn, hd, hl, imp_self, and_self]

theorem KeepsWf.trans (h : s.KeepsWf t) (k : t.KeepsWf u) : s.KeepsWf u :=
  ⟨k.1 ∘ h.1, k.2.1 ∘ h.2.1, k.2.2 ∘ h.2.2⟩

/-- A near store written over what `s` holds there. -/
theorem MemsEq.keepsWf_nst {m : Mem} (h : s.MemsEq t) (hm : s.nst.wf = true → m.wf = true) :
    s.KeepsWf { t with nst := m } := ⟨hm, h.keepsWf.2.1, h.keepsWf.2.2⟩

theorem MemsEq.keepsWf_deck {m : Mem} (h : s.MemsEq t) (hm : s.deck.wf = true → m.wf = true) :
    s.KeepsWf { t with deck := m } := ⟨h.keepsWf.1, hm, h.keepsWf.2.2⟩

theorem MemsEq.keepsWf_lp {m : Mem} (h : s.MemsEq t) (hm : s.lp.wf = true → m.wf = true) :
    s.KeepsWf { t with lp := m } := ⟨h.keepsWf.1, h.keepsWf.2.1, hm⟩

/-- The state of an answer that carries a value. -/
theorem MemsEq.of_eq_mk {β : Type} {x : State × β} {v : β} (h : x = (t, v)) (hx : s.MemsEq x.1) : s.MemsEq t := by
  rwa [h] at hx

theorem KeepsWf.of_eq_mk {β : Type} {x : State × β} {v : β} (h : x = (t, v)) (hx : s.KeepsWf x.1) : s.KeepsWf t := by
  rwa [h] at hx

theorem KeepsWf.fst_ite {β : Type} {c : Prop} [Decidable c] {a b : State × β} (ha : s.KeepsWf a.1) (hb : s.KeepsWf b.1) :
    s.KeepsWf (if c then a else b).1 := by
  split
  · exact ha
  · exact hb

end State

/-! ### Branches and folds -/

@[simp] theorem Mem.ite_wf (c : Prop) [Decidable c] (a b : Mem) : (if c then a else b).wf = if c then a.wf else b.wf :=
  apply_ite Mem.wf c a b

theorem Mem.wf_foldl {α : Type} (f : Mem → α → Mem) (h : ∀ m a, m.wf = true → (f m a).wf = true) (l : List α) (m : Mem)
    (hm : m.wf = true) : (l.foldl f m).wf = true := by
  induction l generalizing m with
  | nil => exact hm
  | cons a r ih => exact ih _ (h _ _ hm)

namespace State

@[simp] theorem ite_mems (c : Prop) [Decidable c] (a b : State) :
    (if c then a else b).nst = (if c then a.nst else b.nst) ∧ (if c then a else b).deck = (if c then a.deck else b.deck) ∧
      (if c then a else b).lp = (if c then a.lp else b.lp) :=
  ⟨apply_ite State.nst c a b, apply_ite State.deck c a b, apply_ite State.lp c a b⟩

@[simp] theorem ite_fst_mems {β : Type} (c : Prop) [Decidable c] (a b : State × β) :
    (if c then a else b).1.nst = (if c then a.1.nst else b.1.nst) ∧
      (if c then a else b).1.deck = (if c then a.1.deck else b.1.deck) ∧
      (if c then a else b).1.lp = (if c then a.1.lp else b.1.lp) :=
  ⟨apply_ite (·.1.nst) c a b, apply_ite (·.1.deck) c a b, apply_ite (·.1.lp) c a b⟩

@[simp] theorem foldl_memsEq {α : Type} (f : State → α → State) (l : List α) (s : State)
    (h : ∀ s a, State.MemsEq s (f s a)) : s.MemsEq (l.foldl f s) :=
  ⟨foldl_keeps (·.nst) f (fun s a => (h s a).1) l s, foldl_keeps (·.deck) f (fun s a => (h s a).2.1) l s,
    foldl_keeps (·.lp) f (fun s a => (h s a).2.2) l s⟩

@[simp] theorem foldl_keepsWf {α : Type} (f : State → α → State) (l : List α) (s : State)
    (h : ∀ s a, State.KeepsWf s (f s a)) : s.KeepsWf (l.foldl f s) :=
  ⟨foldl_holds (P := fun s => s.nst.wf = true) f (fun s a => (h s a).1) l s,
    foldl_holds (P := fun s => s.deck.wf = true) f (fun s a => (h s a).2.1) l s,
    foldl_holds (P := fun s => s.lp.wf = true) f (fun s a => (h s a).2.2) l s⟩

/-! The same for a fold that carries a value beside the state. -/

@[simp] theorem foldl_fst_memsEq {α β : Type} (f : State × β → α → State × β) (l : List α) (x : State × β)
    (h : ∀ x a, State.MemsEq x.1 (f x a).1) : x.1.MemsEq (l.foldl f x).1 := by
  induction l generalizing x with
  | nil => exact .refl _
  | cons a r ih => exact (h x a).trans (ih _)

@[simp] theorem foldl_fst_keepsWf {α β : Type} (f : State × β → α → State × β) (l : List α) (x : State × β)
    (h : ∀ x a, State.KeepsWf x.1 (f x a).1) : x.1.KeepsWf (l.foldl f x).1 := by
  induction l generalizing x with
  | nil => exact (MemsEq.refl _).keepsWf
  | cons a r ih => exact (h x a).trans (ih _)

end State

/-! ### What the operations leave of the memories

`f_memsEq`: the operation leaves the memories; `f_keepsWf`: it may write them, and keeps their canonical form. -/

section
variable (s : State)
open State

/-! Operations whose fields `simp` knows, for chains of steps. -/

theorem State.setCtx_memsEq (k : Nat) (x : CtxSt) : s.MemsEq (s.setCtx k x) := by simp
theorem State.raise_memsEq (e : Ev) : s.MemsEq (s.raise e) := by simp
theorem State.count_memsEq (b u i n : Nat) : s.MemsEq (s.count b u i n) := by simp
theorem State.onPont_memsEq (f : PontSt → PontSt) : s.MemsEq (s.onPont f) := by simp
theorem State.bw_memsEq (k : Nat) (out : Bool) (n : Nat) : s.MemsEq (s.bw k out n) := by simp

/-! #### The operations every meaning uses -/

@[simp] theorem State.heal_memsEq (place : Place) (unit lo n : Nat) : s.MemsEq (s.heal place unit lo n) := by simp [State.heal]
@[simp] theorem State.lateCrossing_memsEq (p : Nat) : s.MemsEq (s.lateCrossing p) := by simp [State.lateCrossing]

/-! #### The berth table -/

@[simp] theorem State.scrubRefuse_memsEq (mem a p : Nat) : s.MemsEq (s.scrubRefuse mem a p) := by
  unfold State.scrubRefuse
  split <;> simp

/-! #### What a core reads and writes -/

@[simp] theorem State.onCore_memsEq (p : Nat) (f : CoreSt → CoreSt) : s.MemsEq (s.onCore p f) := by simp [State.onCore]
@[simp] theorem State.seqFault_memsEq (p : Nat) (code : Code) : s.MemsEq (s.seqFault p code) := by simp [State.seqFault]
@[simp] theorem State.bundleNop_memsEq (p : Nat) (code : Code) : s.MemsEq (s.bundleNop p code) := by simp [State.bundleNop]
@[simp] theorem State.illegal_memsEq (p : Nat) : s.MemsEq (s.illegal p) := by simp [State.illegal]
@[simp] theorem State.arrFault_memsEq (p : Nat) (arr : Arr) (code : Code) : s.MemsEq (s.arrFault p arr code) := by
  simp [State.arrFault]
@[simp] theorem State.readPsum_memsEq (p : Nat) (arr : Arr) (e : Nat) : s.MemsEq (s.readPsum p arr e) := by simp [State.readPsum]
@[simp] theorem State.access_memsEq (p key : Nat) : s.MemsEq (s.access p key) := by simp [State.access]
@[simp] theorem State.accessRow_memsEq (p row : Nat) : s.MemsEq (s.accessRow p row) := by simp [State.accessRow]
@[simp] theorem State.accessGran_memsEq (p g : Nat) : s.MemsEq (s.accessGran p g) := by simp [State.accessGran]
@[simp] theorem State.readGran_memsEq (p g : Nat) : s.MemsEq (s.readGran p g).1 := by simp [State.readGran]

@[simp] theorem State.writeRow_keepsWf (p row : Nat) (v : Row) (mask : BitVec 64) : s.KeepsWf (s.writeRow p row v mask) := by
  unfold State.writeRow
  extract_lets s1 aux a ws
  have h1 : s.MemsEq s1 := s.accessRow_memsEq p row
  split
  · exact MemsEq.keepsWf (by simp [h1])
  split
  · split
    · refine h1.keepsWf_nst fun h => ?_
      rw [Mem.wf_cleanWords]
      exact Mem.wf_write _ _ _ _ (h1.keepsWf.1 h)
    · split
      next co un _ =>
      extract_lets s2 s3
      have h3 : s.MemsEq s3 := by simp [s3, s2, h1]
      refine h3.keepsWf_nst fun h => ?_
      rw [Mem.wf_mergeAt]
      exact Mem.wf_write _ _ _ _ (h3.keepsWf.1 h)
  · exact MemsEq.keepsWf (by simp [h1])

@[simp] theorem State.writeGran_keepsWf (p g : Nat) (v : Vec) : s.KeepsWf (s.writeGran p g v) := by
  unfold State.writeGran
  extract_lets s1 aux d a
  have h1 : s.MemsEq s1 := s.accessGran_memsEq p g
  split
  · exact MemsEq.keepsWf (by simp [h1])
  split
  · exact MemsEq.keepsWf (by simp [h1])
  split
  · refine KeepsWf.trans (h1.keepsWf_deck fun h => ?_) (State.bw_memsEq ..).keepsWf
    rw [Mem.wf_cleanWords]
    exact Mem.wf_write _ _ _ _ (h1.keepsWf.2.1 h)
  · exact MemsEq.keepsWf (by simp [h1])

@[simp] theorem State.accRow_keepsWf (p row : Nat) (v : Row) (fmt : Nat) : s.KeepsWf (s.accRow p row v fmt) := by
  unfold State.accRow
  extract_lets old s1 a
  split
  · split
    · split
      next co un _ =>
      extract_lets s2 s3
      have h3 : s.MemsEq s3 := by simp [s3, s2, s1]
      refine h3.keepsWf_nst fun h => ?_
      rw [Mem.wf_mergeWords]
      exact Mem.wf_write _ _ _ _ (h3.keepsWf.1 h)
    · exact s.writeRow_keepsWf ..
  · exact MemsEq.keepsWf (by simp)

/-! #### The Ferry ring -/

@[simp] theorem State.ringHop_memsEq (p lane : Nat) (f : Flit) : s.MemsEq (s.ringHop p lane f) := by simp [State.ringHop]
@[simp] theorem State.stopRec_memsEq (p : Nat) (arr : Arr) (code : Code) (idx : Nat) (e : BitVec 128) :
    s.MemsEq (s.stopRec p arr code idx e) := by simp [State.stopRec]
@[simp] theorem State.stopFault_memsEq (p : Nat) (arr : Arr) (code : Code) (e : BitVec 128) :
    s.MemsEq (s.stopFault p arr code e) := by simp [State.stopFault]
@[simp] theorem State.onSlot_memsEq (k b : Nat) (f : TileSlot → TileSlot) : s.MemsEq (s.onSlot k b f) := by simp [State.onSlot]
@[simp] theorem State.stopEnd_memsEq (p : Nat) (arr : Arr) (code : Code) (e : BitVec 128) :
    s.MemsEq (s.stopEnd p arr code e) := by simp [State.stopEnd]
@[simp] theorem State.badStop_memsEq (p : Nat) (arr : Arr) (e : BitVec 128) : s.MemsEq (s.badStop p arr e) := by
  simp [State.badStop]
@[simp] theorem State.bypass_memsEq (l : LinkFlit) : s.MemsEq (s.bypass l) := by simp [State.bypass]
@[simp] theorem State.ferryBypass_memsEq (j : Nat) : s.MemsEq (s.ferryBypass j) := by simp [State.ferryBypass]
@[simp] theorem State.readSlotFlit_memsEq (p : Nat) (arr : Arr) (b i idx : Nat) (e : BitVec 128) :
    s.MemsEq (s.readSlotFlit p arr b i idx e).1 := by simp [State.readSlotFlit]
@[simp] theorem State.startFill_memsEq (p : Nat) (arr : Arr) (e : BitVec 128) (mode wfmt kind tag : Nat) (plain : Bool) :
    s.MemsEq (s.startFill p arr e mode wfmt kind tag plain) := by simp [State.startFill]
@[simp] theorem State.startTurn_memsEq (p : Nat) (arr : Arr) (slot : Nat) (e : BitVec 128) (g : Nat) (store : Bool) :
    s.MemsEq (s.startTurn p arr slot e g store) := by simp [State.startTurn]
@[simp] theorem State.turnToStop_memsEq (p g : Nat) : s.MemsEq (s.turnToStop p g) := by
  unfold State.turnToStop
  split <;> simp

/-! #### The array slot -/

@[simp] theorem State.latchFault_memsEq (p : Nat) (arr : Arr) (slot : Option Nat) : s.MemsEq (s.latchFault p arr slot) := by
  unfold State.latchFault
  split <;> simp

/-! #### Bank power and the accesses of a bank -/

@[simp] theorem State.setBank_memsEq (p : Nat) (deck : Bool) (b : BankSt) : s.MemsEq (s.setBank p deck b) := by
  simp [State.setBank]

theorem State.onBank_keepsWf (p : Nat) (deck : Bool) (k : Nat) (f : Mem → Nat → Nat → Mem)
    (hf : ∀ m lo hi, m.wf = true → (f m lo hi).wf = true) : s.KeepsWf (s.onBank p deck k f) := by
  unfold State.onBank
  split
  · exact (MemsEq.refl s).keepsWf_deck (hf _ _ _)
  · exact (MemsEq.refl s).keepsWf_nst (Mem.wf_foldl _ (fun m r => hf _ _ _) _ _)

@[simp] theorem State.zeroBank_keepsWf (p : Nat) (deck : Bool) (k : Nat) : s.KeepsWf (s.zeroBank p deck k) :=
  s.onBank_keepsWf p deck k Mem.zero fun _ _ _ => Mem.wf_zero _ _
@[simp] theorem State.openBank_keepsWf (p : Nat) (deck : Bool) (k : Nat) : s.KeepsWf (s.openBank p deck k) := by
  simpa [State.openBank] using s.onBank_keepsWf p deck k (fun m lo hi => m.open_ lo hi s.fresh) fun _ _ _ => Mem.wf_open_ _ _ _
@[simp] theorem State.bankUp_keepsWf (p : Nat) (deck : Bool) (k : Nat) (fromOff : Bool) :
    s.KeepsWf (s.bankUp p deck k fromOff) := by simp +contextual [State.bankUp]
@[simp] theorem State.planWake_memsEq (p : Nat) (deck : Bool) (h : FrameHdr) : s.MemsEq (s.planWake p deck h) := by
  simp [State.planWake]
@[simp] theorem State.planIdle_memsEq (p : Nat) (deck : Bool) (h : FrameHdr) : s.MemsEq (s.planIdle p deck h) := by
  simp [State.planIdle]
@[simp] theorem State.planClu_memsEq (j : Nat) (op : State → Nat → Bool → State)
    (hop : ∀ t x y, State.MemsEq t (op t x y)) : s.MemsEq (s.planClu j op) := by simp [State.planClu, hop]

@[simp] theorem State.deckTier3_memsEq (p g n : Nat) : s.MemsEq (s.deckTier3 p g n).1 := by
  unfold State.deckTier3
  dsimp only
  (repeat' split) <;> simp

@[simp] theorem State.takeBank_memsEq (p key : Nat) : s.MemsEq (s.takeBank p key).1 := by simp [State.takeBank]

@[simp] theorem State.deckTake_memsEq (p g n : Nat) : s.MemsEq (s.deckTake p g n).1 := by
  unfold State.deckTake
  split
  next t ht =>
    have h : s.MemsEq t := .of_eq_mk ht (s.deckTier3_memsEq p g n)
    split
    · exact h
    · split
      next u hu => exact h.trans (.of_eq_mk hu (t.takeBank_memsEq ..))
      · exact .refl s
  · exact s.deckTier3_memsEq p g n

@[simp] theorem State.waitBank_memsEq (t : State) (i : Instr) : s.MemsEq (s.waitBank t i) := by simp [State.waitBank]

@[simp] theorem State.hostAccess_memsEq (p : Nat) (deck : Bool) (k key : Nat) (saved : Bool) :
    s.MemsEq (s.hostAccess p deck k key saved).1 := by
  have hb : s.MemsEq (if saved then (s, Access.ok) else s.takeBank p key).1 := by simp
  unfold State.hostAccess
  dsimp only
  split
  · split
    next t ht => simpa using MemsEq.of_eq_mk ht hb
    · exact hb
  · exact .refl s
  · simp

@[simp] theorem State.bankOn_keepsWf (p : Nat) (deck : Bool) (k : Nat) : s.KeepsWf (s.bankOn p deck k) := by
  simp +contextual [State.bankOn]

@[simp] theorem State.rangeOn_keepsWf (deck : Bool) (a n : Nat) : s.KeepsWf (s.rangeOn deck a n) := by
  refine State.foldl_keepsWf _ _ _ fun t p => ?_
  extract_lets size lo hi x
  split
  · exact (State.MemsEq.refl t).keepsWf
  · refine State.foldl_keepsWf _ _ _ fun u k => ?_
    extract_lets meets
    split
    · exact u.bankOn_keepsWf p deck k
    · simp

@[simp] theorem State.deckEcc_memsEq (p a n : Nat) (quiet : Bool) : s.MemsEq (s.deckEcc p a n quiet) := by simp [State.deckEcc]
@[simp] theorem State.nstEcc_memsEq (p a n : Nat) (quiet : Bool) : s.MemsEq (s.nstEcc p a n quiet) := by simp [State.nstEcc]
@[simp] theorem State.voidRetained_memsEq (kind lo hi : Nat) : s.MemsEq (s.voidRetained kind lo hi) := by
  simp [State.voidRetained]
@[simp] theorem State.saveRow_keepsWf (p : Nat) (deck : Bool) (a n : Nat) : s.KeepsWf (s.saveRow p deck a n) := by
  simp +contextual [State.saveRow]

@[simp] theorem State.restoreRow_keepsWf (p : Nat) (deck : Bool) (i a n : Nat) :
    s.KeepsWf (s.restoreRow p deck i a n) := by
  have hmarks (m : Mem) (k : Tab Ecc) : { m with marks := k }.wf = m.wf := rfl
  cases deck <;> simp +contextual [State.restoreRow, hmarks]

@[simp] theorem State.startGroup_memsEq (p : Nat) (deck : Bool) (cells : List BadCell) :
    s.MemsEq (s.startGroup p deck cells) := by simp [State.startGroup]
@[simp] theorem State.groupFault_memsEq (p : Nat) (deck : Bool) (g : Nat) (f : Nat × Nat) :
    s.MemsEq (s.groupFault p deck g f) := by simp [State.groupFault]

@[simp] theorem State.endGroup_memsEq (p : Nat) (deck : Bool) (r : GroupRun) : s.MemsEq (s.endGroup p deck r) := by
  unfold State.endGroup
  dsimp only
  (repeat' split) <;> simp

@[simp] theorem State.testAccess_keepsWf (p : Nat) (deck : Bool) (r : GroupRun) : s.KeepsWf (s.testAccess p deck r) := by
  unfold State.testAccess
  extract_lets b row s1 r1 b1 s2
  have h1 : s.KeepsWf s1 := by
    unfold s1
    (repeat' split) <;> simp +contextual
  have h2 : s.KeepsWf s2 := h1.trans (by simp [s2])
  split
  · exact h2.trans (State.endGroup_memsEq ..).keepsWf
  · exact h2

@[simp] theorem State.testClk_keepsWf (p : Nat) (deck : Bool) : s.KeepsWf (s.testClk p deck) := by
  unfold State.testClk
  extract_lets b
  split
  · simp
  · extract_lets busy
    split
    · simp
    · exact s.testAccess_keepsWf ..

@[simp] theorem State.marchUnit_keepsWf (p : Nat) (deck preserve : Bool) : s.KeepsWf (s.marchUnit p deck preserve) := by
  unfold State.marchUnit
  split
  · exact State.foldl_keepsWf _ _ _ fun t g => State.foldl_keepsWf _ _ _ fun u i => by split <;> simp +contextual
  · cases deck <;> simp +contextual [Mem.wf_zero]

/-! #### The mesh -/

@[simp] theorem State.meshFault_memsEq (p : Nat) (code : Code) (idx port tag : Nat) :
    s.MemsEq (s.meshFault p code idx port tag) := by simp [State.meshFault]
@[simp] theorem State.onRtr_memsEq (p : Nat) (f : RouterSt → RouterSt) : s.MemsEq (s.onRtr p f) := by simp [State.onRtr]
@[simp] theorem State.entryFault_memsEq (p : Nat) (code : Code) (e : BitVec 128) (port tag : Nat) :
    s.MemsEq (s.entryFault p code e port tag) := by simp [State.entryFault]
@[simp] theorem State.entryEnd_memsEq (p : Nat) (code : Code) (e : BitVec 128) : s.MemsEq (s.entryEnd p code e) := by
  simp [State.entryEnd]
@[simp] theorem State.badEntry_memsEq (p : Nat) (e : BitVec 128) : s.MemsEq (s.badEntry p e) := by simp [State.badEntry]
@[simp] theorem State.samplePop_memsEq (p : Nat) : s.MemsEq (s.samplePop p) := by simp [State.samplePop]

@[simp] theorem State.popRaw_memsEq (p : Nat) (e : BitVec 128) (x : Expect) : s.MemsEq (s.popRaw p e x).1 := by
  unfold State.popRaw
  dsimp only
  (repeat' split) <;> simp

@[simp] theorem State.popIn_memsEq (p : Nat) (e : BitVec 128) (x : Expect) (ident : Bool) (need : Option Nat) :
    s.MemsEq (s.popIn p e x ident need).1 := by
  unfold State.popIn
  dsimp only
  (repeat' split) <;> simp

@[simp] theorem State.sendOuts_memsEq (p inp idx mask row : Nat) (f : Flit) : s.MemsEq (s.sendOuts p inp idx mask row f) := by
  simp [State.sendOuts]
@[simp] theorem State.mergeAlone_memsEq (p : Nat) (e : BitVec 128) (fmt : Nat) : s.MemsEq (s.mergeAlone p e fmt) := by
  simp [State.mergeAlone]
@[simp] theorem State.zombie_memsEq (p : Nat) : s.MemsEq (s.zombie p) := by simp [State.zombie]
@[simp] theorem State.readPool_memsEq (p row aux : Nat) : s.MemsEq (s.readPool p row aux).1 := by simp [State.readPool]

@[simp] theorem State.writePool_keepsWf (p row aux : Nat) (v : Row) : s.KeepsWf (s.writePool p row aux v) := by
  unfold State.writePool
  extract_lets g s1 a
  split
  · exact MemsEq.keepsWf (by simp [s1])
  split
  · exact MemsEq.keepsWf (by simp [s1])
  split
  · split
    next co un _ =>
    extract_lets s2 s3
    have h3 : s.MemsEq s3 := by simp [s3, s2, s1]
    refine h3.keepsWf_deck fun h => ?_
    rw [Mem.wf_mergeWords]
    exact Mem.wf_write _ _ _ _ (h3.keepsWf.2.1 h)
  · exact MemsEq.keepsWf (by simp [s1])

@[simp] theorem State.deliver_keepsWf (p : Nat) (o : OutFlit) : s.KeepsWf (s.deliver p o) := by
  unfold State.deliver
  dsimp only
  (repeat' split) <;> simp +contextual

@[simp] theorem State.flushRouter_keepsWf (p : Nat) : s.KeepsWf (s.flushRouter p) := by
  refine (s.onRtr_memsEq p _).keepsWf.trans (State.foldl_keepsWf _ _ _ fun t b => ?_)
  dsimp only
  split
  · simp
  · refine State.KeepsWf.trans (MemsEq.keepsWf ?_) (State.deliver_keepsWf ..)
    split <;> simp

@[simp] theorem State.appendIn_memsEq (l : LinkFlit) : s.MemsEq (s.appendIn l) := by simp [State.appendIn]
@[simp] theorem State.meshArrive_memsEq (j : Nat) : s.MemsEq (s.meshArrive j) := by simp [State.meshArrive]

/-! #### Stream contexts, the memory ports and their requests -/

@[simp] theorem State.portUse_memsEq (i : Nat) : s.MemsEq (s.portUse i) := by simp [State.portUse]
@[simp] theorem State.noRow_memsEq : s.MemsEq s.noRow.1 := by simp [State.noRow]

@[simp] theorem State.lpMeet_keepsWf (i da : Nat) (code : Code) : s.KeepsWf (s.lpMeet i da code).1 := by
  unfold State.lpMeet
  split
  next co un _ =>
  extract_lets m s1 s2
  split
  · have h1 : s.MemsEq s1 := by simp [s1]
    exact KeepsWf.trans (h1.keepsWf_lp fun h => (Mem.wf_setPoison ..).trans (h1.keepsWf.2.2 h)) (State.raise_memsEq ..).keepsWf
  · split
    · have h2 : s.MemsEq s2 := by simp [s2]
      exact KeepsWf.trans (h2.keepsWf_lp fun h => (Mem.wf_cleanWords ..).trans (h2.keepsWf.2.2 h)) (State.raise_memsEq ..).keepsWf
    · simp

@[simp] theorem State.lpRead_keepsWf (da : Nat) : s.KeepsWf (s.lpRead da).1 := by
  unfold State.lpRead
  extract_lets i s1 v
  split
  · simp
  split
  · simp
  · have h1 : s.KeepsWf s1 := MemsEq.keepsWf (by simp [s1])
    split
    next t un ht => exact h1.trans (.of_eq_mk ht (s1.lpMeet_keepsWf ..))

@[simp] theorem State.lpWrite_keepsWf (da : Nat) (v : Row) (mask : BitVec 64) (poison : Bool) :
    s.KeepsWf (s.lpWrite da v mask poison) := by
  unfold State.lpWrite
  extract_lets i s1
  split
  · simp
  split
  · simp
  split
  next s2 un hs =>
  extract_lets m
  have h1 : s.KeepsWf s1 := MemsEq.keepsWf (by simp [s1])
  have h2 : s1.KeepsWf s2 := .of_eq_mk hs (by split <;> simp +contextual)
  refine (h1.trans h2).trans ((MemsEq.refl s2).keepsWf_lp fun h => ?_)
  rw [Mem.wf_setPoison, Mem.wf_cleanWords]
  exact Mem.wf_write _ _ _ _ h

@[simp] theorem State.lpReadBytes_keepsWf (da n : Nat) : s.KeepsWf (s.lpReadBytes da n).1 := by
  unfold State.lpReadBytes
  exact State.foldl_fst_keepsWf _ _ (s, [], false) fun x k => x.1.lpRead_keepsWf _
@[simp] theorem State.lpWriteBytes_keepsWf (da : Nat) (bs : List Byte) (poison : Bool) :
    s.KeepsWf (s.lpWriteBytes da bs poison) :=
  State.foldl_keepsWf _ _ _ fun t _ => t.lpWrite_keepsWf ..

@[simp] theorem State.lpReadAny_keepsWf (da : Nat) : s.KeepsWf (s.lpReadAny da).1 := by
  unfold State.lpReadAny
  split
  · exact s.lpRead_keepsWf da
  · exact s.lpReadBytes_keepsWf da 64

@[simp] theorem State.lpWriteAny_keepsWf (da : Nat) (v : Row) (poison : Bool) : s.KeepsWf (s.lpWriteAny da v poison) := by
  unfold State.lpWriteAny
  split
  · exact s.lpWrite_keepsWf ..
  · exact s.lpWriteBytes_keepsWf ..

@[simp] theorem State.deckAccess_memsEq (p g n : Nat) (own : Bool) : s.MemsEq (s.deckAccess p g n own).1 := by
  simp [State.deckAccess]

@[simp] theorem State.deckUnit_memsEq (p g w : Nat) (own : Bool) : s.MemsEq (s.deckUnit p g w own).1 := by
  unfold State.deckUnit
  dsimp only
  (repeat' split) <;> simp

@[simp] theorem State.putDeckUnit_keepsWf (p g w : Nat) (v : Row) (poison full own : Bool) :
    s.KeepsWf (s.putDeckUnit p g w v poison full own).1 := by
  unfold State.putDeckUnit
  split
  next s1 acc hs =>
  have h1 : s.MemsEq s1 := .of_eq_mk hs (s.deckAccess_memsEq ..)
  split
  · extract_lets a s2 m m2 m3
    have h2 : s.MemsEq s2 := by
      unfold s2
      split <;> simp [h1]
    refine KeepsWf.trans (h2.keepsWf_deck fun h => ?_) (State.bw_memsEq ..).keepsWf
    have hm : m.wf = true := Mem.wf_write _ _ _ _ (h2.keepsWf.2.1 h)
    have hm2 : m2.wf = true := by
      unfold m2
      split
      · rw [Mem.wf_cleanWords, hm]
      · rw [Mem.wf_mergeWords, hm]
    unfold m3
    split
    · exact Mem.wf_marks _ hm2
    · exact hm2
  · exact h1.keepsWf

@[simp] theorem State.ctxEvent_memsEq (k : Nat) (code : Code) (far : Nat) : s.MemsEq (s.ctxEvent k code far) := by
  simp [State.ctxEvent]

@[simp] theorem State.nearRead_keepsWf (k near : Nat) (own : Bool) : s.KeepsWf (s.nearRead k near own).1 := by
  unfold State.nearRead
  extract_lets x
  split
  · exact (s.deckUnit_memsEq ..).keepsWf
  · exact s.lpRead_keepsWf _

@[simp] theorem State.nearWrite_keepsWf (k near : Nat) (v : Row) (poison full own : Bool) :
    s.KeepsWf (s.nearWrite k near v poison full own).1 := by
  unfold State.nearWrite
  extract_lets x
  split
  · exact s.putDeckUnit_keepsWf ..
  · exact s.lpWrite_keepsWf ..

@[simp] theorem State.enqueue_memsEq (qk : Nat) (r : Req) : s.MemsEq (s.enqueue qk r) := by simp [State.enqueue]
@[simp] theorem State.dequeue_memsEq (qk id : Nat) : s.MemsEq (s.dequeue qk id) := by simp [State.dequeue]
@[simp] theorem State.served_memsEq (qk : Nat) (r : Req) : s.MemsEq (s.served qk r) := by simp [State.served]

@[simp] theorem State.sourceRow_keepsWf (r : Req) (own : Bool) : s.KeepsWf (s.sourceRow r own).1 := by
  unfold State.sourceRow
  split
  · exact s.nearRead_keepsWf ..
  · split <;> simp
  · simp
  · simp

@[simp] theorem State.sinkRow_keepsWf (r : Req) (v : Row) (poison own : Bool) : s.KeepsWf (s.sinkRow r v poison own).1 := by
  unfold State.sinkRow
  split
  · exact s.nearWrite_keepsWf ..
  · split
    · split
      next t acc ht =>
      have h : s.KeepsWf t := .of_eq_mk ht (s.putDeckUnit_keepsWf ..)
      dsimp only
      split
      · exact h.trans (MemsEq.keepsWf (by simp))
      · exact h
    · simp
  · simp

@[simp] theorem State.unitDone_memsEq (r : Req) : s.MemsEq (s.unitDone r) := by
  unfold State.unitDone
  dsimp only
  (repeat' split) <;> simp

@[simp] theorem State.failReq_keepsWf (qk : Nat) (r : Req) (v : Row) : s.KeepsWf (s.failReq qk r v) := by
  simp +contextual [State.failReq]

@[simp] theorem State.accLp_keepsWf (da : Nat) (v : Row) (poison agrees : Bool) : s.KeepsWf (s.accLp da v poison agrees) := by
  unfold State.accLp
  extract_lets i old s1 s2
  split
  · simp
  split
  · simp
  split
  next s3 un hs =>
  extract_lets m s4
  have h2 : s.KeepsWf s2 := MemsEq.keepsWf (by simp [s2, s1])
  have h4 : s3.KeepsWf s4 := (MemsEq.refl s3).keepsWf_lp fun h => by
    rw [Mem.wf_setPoison, Mem.wf_cleanWords]
    exact Mem.wf_write _ _ _ _ h
  have h : s.KeepsWf s4 := (h2.trans (.of_eq_mk hs (s2.lpMeet_keepsWf ..))).trans h4
  split
  · exact h
  · exact h.trans (MemsEq.keepsWf (by simp))

@[simp] theorem State.blockPort_memsEq (i key until_ : Nat) : s.MemsEq (s.blockPort i key until_) := by simp [State.blockPort]
@[simp] theorem State.retrainPort_memsEq (i key until_ : Nat) : s.MemsEq (s.retrainPort i key until_) := by
  simp [State.retrainPort]
@[simp] theorem State.patrolBlock_keepsWf (i da : Nat) : s.KeepsWf (s.patrolBlock i da) := by
  unfold State.patrolBlock
  (repeat' split) <;> simp

@[simp] theorem State.accDeck_keepsWf (addr : Nat) (v : Row) (poison agrees : Bool) :
    s.KeepsWf (s.accDeck addr v poison agrees) := by
  unfold State.accDeck
  extract_lets p g a
  split
  next s1 acc hs =>
  have h1 : s.MemsEq s1 := .of_eq_mk hs (s.deckTier3_memsEq ..)
  split
  · extract_lets s2 old m m2 s3 s4
    have h2 : s.MemsEq s2 := by simp [s2, h1]
    have h3 : s.KeepsWf s3 := by
      refine KeepsWf.trans (h2.keepsWf_deck fun h => ?_) (State.count_memsEq ..).keepsWf
      have hm : m.wf = true := by
        unfold m
        rw [Mem.wf_mergeWords]
        exact Mem.wf_write _ _ _ _ (h2.keepsWf.2.1 h)
      unfold m2
      split
      · exact Mem.wf_marks _ hm
      · exact hm
    have h4 : s.KeepsWf s4 := h3.trans (MemsEq.keepsWf (by simp [s4]))
    split
    · exact h4
    · exact h4.trans (MemsEq.keepsWf (by simp))
  · exact h1.keepsWf

@[simp] theorem State.accumulate_keepsWf (deck : Bool) (addr : Nat) (v : Row) (zero poison agrees : Bool) :
    s.KeepsWf (s.accumulate deck addr v zero poison agrees) := by
  unfold State.accumulate
  dsimp only
  (repeat' split) <;> simp +contextual

@[simp] theorem State.chunkReqs_memsEq (p u0 base : Nat) (spill : Bool) (deadline : Option Nat) :
    s.MemsEq (s.chunkReqs p u0 base spill deadline) := by simp [State.chunkReqs]

/-! #### The Depot -/

@[simp] theorem State.chanEvent_memsEq (code : Code) (ch ns off : Nat) : s.MemsEq (s.chanEvent code ch ns off) := by
  simp [State.chanEvent]
@[simp] theorem State.depotEvent_memsEq (code : Code) (ns off : Nat) : s.MemsEq (s.depotEvent code ns off) := by
  simp [State.depotEvent]
@[simp] theorem State.chanUse_memsEq (c : Nat) : s.MemsEq (s.chanUse c) := by simp [State.chanUse]
@[simp] theorem State.retireBlock_memsEq (b : BlockId) (reason : Nat) : s.MemsEq (s.retireBlock b reason) := by
  simp [State.retireBlock]
@[simp] theorem State.failLun_memsEq (ch target lun : Nat) : s.MemsEq (s.failLun ch target lun) := by simp [State.failLun]
@[simp] theorem State.recover_memsEq (ch ns off step : Nat) : s.MemsEq (s.recover ch ns off step).1 := by
  unfold State.recover
  split <;> simp
@[simp] theorem State.depotRead_memsEq (ch ns off step : Nat) : s.MemsEq (s.depotRead ch ns off step).1 := by
  simp [State.depotRead]
@[simp] theorem State.wearCheck_memsEq : s.MemsEq s.wearCheck := by
  unfold State.wearCheck
  exact MemsEq.trans (t := s.onDepot _) (by simp) (State.foldl_memsEq _ _ _ fun t c => by split <;> simp)
@[simp] theorem State.eraseBlock_memsEq (k c : Nat) : s.MemsEq (s.eraseBlock k c) := by simp [State.eraseBlock]

/-! #### Pontoon's links -/

@[simp] theorem State.setPport_memsEq (p : Nat) (x : PontPort) : s.MemsEq (s.setPport p x) := by simp [State.setPport]
@[simp] theorem State.linkEvent_memsEq (code : Code) (p detail : Nat) : s.MemsEq (s.linkEvent code p detail) := by
  simp [State.linkEvent]
@[simp] theorem State.pktEvent_memsEq (code : Code) (k : Packet) : s.MemsEq (s.pktEvent code k) := by simp [State.pktEvent]
@[simp] theorem State.sendFlit_memsEq (p : Nat) (hdr : DWord) (body : List Byte) : s.MemsEq (s.sendFlit p hdr body) := by
  simp [State.sendFlit]
@[simp] theorem State.queuePkt_memsEq (p : Nat) (k : Packet) (cls : Nat) : s.MemsEq (s.queuePkt p k cls) := by
  simp [State.queuePkt]
@[simp] theorem State.sendReplay_memsEq (p : Nat) (f : ReplayFlit) : s.MemsEq (s.sendReplay p f) := by simp [State.sendReplay]
@[simp] theorem State.replayCopy_memsEq (p : Nat) (f : ReplayFlit) : s.MemsEq (s.replayCopy p f).1 := by
  unfold State.replayCopy
  split <;> simp

@[simp] theorem State.flitBoundary_memsEq (p : Nat) : s.MemsEq (s.flitBoundary p) := by
  unfold State.flitBoundary
  dsimp only
  (repeat' split) <;> simp

@[simp] theorem State.takeNak_memsEq (p n : Nat) : s.MemsEq (s.takeNak p n) := by simp [State.takeNak]

@[simp] theorem State.route_memsEq (k : Packet) (from_ : Option (Nat × Nat)) : s.MemsEq (s.route k from_) := by
  unfold State.route
  dsimp only
  (repeat' split) <;> simp

@[simp] theorem State.toPorts_memsEq (mk : BitVec 18 → Packet) (ok : Nat → Bool) : s.MemsEq (s.toPorts mk ok) := by
  simp [State.toPorts]
@[simp] theorem State.freeRx_memsEq (p : Nat) (k : Packet) (cls : Nat) : s.MemsEq (s.freeRx p k cls) := by simp [State.freeRx]
@[simp] theorem State.gotPacket_memsEq (p : Nat) (k : Packet) (cls : Nat) : s.MemsEq (s.gotPacket p k cls) := by
  simp [State.gotPacket]
@[simp] theorem State.takeControl_memsEq (p : Nat) (body : Nat) : s.MemsEq (s.takeControl p body) := by simp [State.takeControl]

@[simp] theorem State.takeRx_memsEq (p : Nat) (k : Packet) : s.MemsEq (s.takeRx p k) := by
  unfold State.takeRx
  dsimp only
  (repeat' split) <;> simp

/-! #### The control slot -/

@[simp] theorem State.fetchCheck_memsEq (p : Nat) : s.MemsEq (s.fetchCheck p) := by simp [State.fetchCheck]

/-! #### Trace records -/

@[simp] theorem State.formRec_memsEq (e : TrcEv) : s.MemsEq (s.formRec e).1 := by simp [State.formRec]
@[simp] theorem State.regionLoss_memsEq (r reason : Nat) : s.MemsEq (s.regionLoss r reason) := by simp [State.regionLoss]
@[simp] theorem State.lossNotice_memsEq (r : Nat) : s.MemsEq (s.lossNotice r) := by simp [State.lossNotice]
@[simp] theorem State.holdRec_memsEq (p : Nat) (e : TrcEv) : s.MemsEq (s.holdRec p e) := by
  unfold State.holdRec
  split <;> simp
@[simp] theorem State.coreRec_memsEq (p ty tcyc : Nat) (body : List Byte) : s.MemsEq (s.coreRec p ty tcyc body) := by
  simp [State.coreRec]
@[simp] theorem State.frameRec_memsEq (j : Nat) : s.MemsEq (s.frameRec j) := by
  unfold State.frameRec
  split <;> simp

@[simp] theorem State.streamRec_memsEq (k event : Nat) : s.MemsEq (s.streamRec k event) := by
  unfold State.streamRec
  dsimp only
  (repeat' split) <;> simp

@[simp] theorem State.exportLost_memsEq : s.MemsEq s.exportLost := by simp [State.exportLost]

/-! #### Pontoon's operations -/

@[simp] theorem State.setColl_memsEq (x : CollInst) : s.MemsEq (s.setColl x) := by simp [State.setColl]

@[simp] theorem State.publishDecision_keepsWf (x : CollInst) (outcome : Nat) (clipped : Bool) (total : Nat) :
    s.KeepsWf (s.publishDecision x outcome clipped total) := by
  unfold State.publishDecision
  split
  · simp
  · extract_lets k c
    split
    · exact KeepsWf.trans (State.foldl_keepsWf _ _ _ fun t w => t.putDeckUnit_keepsWf ..) (State.setCtx_memsEq ..).keepsWf
    · simp

@[simp] theorem State.actOn_keepsWf (c outcome : Nat) (clipped : Bool) (total : Nat) :
    s.KeepsWf (s.actOn c outcome clipped total) := by
  unfold State.actOn
  split
  · simp
  split
  · split <;> simp
  · simp
  · split
    · simp
    · exact KeepsWf.trans (MemsEq.keepsWf (by simp)) (State.publishDecision_keepsWf ..)

@[simp] theorem State.broadcast_keepsWf (c : Nat) : s.KeepsWf (s.broadcast c) := by
  unfold State.broadcast
  dsimp only
  (repeat' split) <;> simp +contextual

@[simp] theorem State.decideColl_keepsWf (c outcome : Nat) : s.KeepsWf (s.decideColl c outcome) := by
  unfold State.decideColl
  dsimp only
  (repeat' split) <;> simp +contextual

@[simp] theorem State.holdDone_keepsWf (c : Nat) (src : BitVec 18) (sats : Nat) : s.KeepsWf (s.holdDone c src sats) := by
  unfold State.holdDone
  dsimp only
  (repeat' split) <;> simp +contextual

@[simp] theorem State.memberCheck_keepsWf (c : Nat) : s.KeepsWf (s.memberCheck c) := by
  unfold State.memberCheck
  dsimp only
  (repeat' split) <;> simp +contextual

@[simp] theorem State.trigger_keepsWf (c f : Nat) : s.KeepsWf (s.trigger c f) := by
  unfold State.trigger
  dsimp only
  (repeat' split) <;> simp +contextual

@[simp] theorem State.raiseScale_keepsWf (c : CollDesc) (seg : Nat) (ws : List Nat) : s.KeepsWf (s.raiseScale c seg ws) := by
  unfold State.raiseScale
  dsimp only
  split
  · exact (MemsEq.refl s).keepsWf_lp (Mem.wf_set _ _)
  · simp

theorem State.gather_keepsWf (own : Bool) (rs : List Req) (t : State × List Byte × Bool) (h : s.gather own rs = some t) :
    s.KeepsWf t.1 := by
  induction rs generalizing s own t with
  | nil =>
    cases h
    exact (MemsEq.refl s).keepsWf
  | cons r rs ih =>
    have hr := s.sourceRow_keepsWf r own
    unfold State.gather at h
    dsimp only at h
    split at h
    · cases h
    · obtain ⟨x, hx, rfl⟩ := Option.map_eq_some_iff.mp h
      exact hr.trans (ih _ _ x hx)

@[simp] theorem State.encodeBlock_keepsWf (w : PeerWindow) (off : Nat) (bs : List Byte) :
    s.KeepsWf (s.encodeBlock w off bs).1 := by
  unfold State.encodeBlock
  split <;> simp +contextual

@[simp] theorem State.formPacket_keepsWf (p : Nat) : s.KeepsWf (s.formPacket p) := by
  unfold State.formPacket
  extract_lets qk
  split
  · simp
  split
  · simp
  next w _ =>
  split
  · simp
  next rs _ =>
  extract_lets off addr opc
  split
  · simp
  next t bs po ht =>
  have h : s.KeepsWf t := by
    split at ht
    · exact State.gather_keepsWf _ _ _ _ ht
    · cases ht
      simp
  split
  next u data zmap sats hu =>
  have hu : s.KeepsWf u := h.trans (.of_eq_mk hu (by split <;> simp +contextual))
  extract_lets s1 s2 dl gated k q s3 s4
  have h2 : u.MemsEq s2 := by
    have h1 : u.MemsEq s1 := by simp [s1]
    unfold s2
    split
    · exact h1
    · split <;> simp [h1]
  exact hu.trans (MemsEq.keepsWf (by simp [s4, s3, h2]))

@[simp] theorem State.endOp_keepsWf (o : RemoteOp) (v : Nat → Row) (poison : Bool) : s.KeepsWf (s.endOp o v poison) := by
  refine KeepsWf.trans (KeepsWf.trans (s.onPont_memsEq _).keepsWf (State.foldl_keepsWf _ _ _ fun t n => ?_))
    (State.memberCheck_keepsWf ..)
  split
  · simp
  · split
    · simp
    · split
      · simp
      · simp +contextual

@[simp] theorem State.endDecide_keepsWf (o : RemoteOp) : s.KeepsWf (s.endDecide o) :=
  (s.endOp_keepsWf ..).trans (State.broadcast_keepsWf ..)
@[simp] theorem State.complete_memsEq (k : Packet) (status : Nat) : s.MemsEq (s.complete k status) := by simp [State.complete]
@[simp] theorem State.deckBytes_keepsWf (a : Nat) (bs : List Byte) (poison : Bool) : s.KeepsWf (s.deckBytes a bs poison) :=
  State.foldl_keepsWf _ _ _ fun t _ => t.putDeckUnit_keepsWf ..
@[simp] theorem State.deckBytesAt_memsEq (a n : Nat) : s.MemsEq (s.deckBytesAt a n).1 := by simp [State.deckBytesAt]

@[simp] theorem State.putBytes_keepsWf (deck : Bool) (a : Nat) (bs : List Byte) (poison : Bool) :
    s.KeepsWf (s.putBytes deck a bs poison) := by
  unfold State.putBytes
  split
  · exact s.deckBytes_keepsWf ..
  · exact s.lpWriteBytes_keepsWf ..

@[simp] theorem State.getBytes_keepsWf (deck : Bool) (a n : Nat) : s.KeepsWf (s.getBytes deck a n).1 := by
  unfold State.getBytes
  split
  · exact (s.deckBytesAt_memsEq ..).keepsWf
  · exact s.lpReadBytes_keepsWf ..

@[simp] theorem State.collGot_keepsWf (c : Nat) : s.KeepsWf (s.collGot c) := by
  unfold State.collGot
  split <;> simp +contextual

@[simp] theorem State.arrive_keepsWf (p : Port) (k : Packet) (effect : State → State) (he : ∀ t, State.KeepsWf t (effect t)) :
    s.KeepsWf (s.arrive p k effect) := by
  unfold State.arrive
  split
  · simp
  split
  · simp
  split
  · simp
  extract_lets s1 f other s2 s3 s4 s5 s6
  have h1 : s.KeepsWf s1 := MemsEq.keepsWf (by simp [s1])
  split
  · exact h1.trans (MemsEq.keepsWf (by simp [s2]))
  · have h4 : s1.KeepsWf s4 := (s1.trigger_keepsWf ..).trans (he _)
    have h6 : s4.KeepsWf s6 := MemsEq.keepsWf (by simp [s6, s5])
    exact ((h1.trans h4).trans h6).trans (s6.collGot_keepsWf _)

@[simp] theorem State.accRows_keepsWf (deck : Bool) (a : Nat) (bs : List Byte) (poison : Bool) :
    s.KeepsWf (s.accRows deck a bs poison) :=
  State.foldl_keepsWf _ _ _ fun t _ => t.accumulate_keepsWf ..
@[simp] theorem State.takeOver_memsEq : s.MemsEq s.takeOver := by simp [State.takeOver]

@[simp] theorem State.addFailed_keepsWf (dev : BitVec 18) : s.KeepsWf (s.addFailed dev) := by
  unfold State.addFailed
  split
  · simp
  extract_lets fits s1 s2 k s3 s4 s5
  have h3 : s.KeepsWf s3 := MemsEq.keepsWf (by simp [s3, s2, s1])
  split
  · exact h3
  · have h4 : s3.KeepsWf s4 := MemsEq.keepsWf (by simp [s4])
    have h5 : s4.KeepsWf s5 := State.foldl_keepsWf _ _ _ fun t o => t.endDecide_keepsWf o
    refine ((h3.trans h4).trans h5).trans (State.foldl_keepsWf _ _ _ fun t x => ?_)
    split
    · exact t.decideColl_keepsWf ..
    · simp

@[simp] theorem State.sendTime_memsEq (master : BitVec 18) (now : Nat) : s.MemsEq (s.sendTime master now) := by
  simp [State.sendTime]
@[simp] theorem State.knowTick_memsEq (f inst period : Nat) (came : Option Nat) : s.MemsEq (s.knowTick f inst period came) := by
  simp [State.knowTick]
theorem State.onHost_memsEq (f : HostSt → HostSt) : s.MemsEq (s.onHost f) := by simp
theorem State.onUpd_memsEq (f : UpdSt → UpdSt) : s.MemsEq (s.onUpd f) := by simp
theorem State.setRegion_memsEq (r : Nat) (x : TrcRegion) : s.MemsEq (s.setRegion r x) := by simp
theorem State.onObs_memsEq (f : ObsSt → ObsSt) : s.MemsEq (s.onObs f) := by simp

/-! #### The host link -/

@[simp] theorem State.hostEvent_memsEq (code : Code) (aux detail : Nat) : s.MemsEq (s.hostEvent code aux detail) := by
  simp [State.hostEvent]

@[simp] theorem State.ucieSend_keepsWf (m : Nat) : s.KeepsWf (s.ucieSend m) := by
  unfold State.ucieSend
  split
  · simp
  extract_lets qk q
  split
  · simp
  next r _ =>
  extract_lets mark
  have hmark (t : State) (o : OutMsg) : t.MemsEq ((mark t).emit o) := by simp [mark]
  split
  · exact (hmark s _).keepsWf
  split
  · split
    next t v po acc ht =>
    split
    · simp
    · have h : s.KeepsWf t := .of_eq_mk ht (s.sourceRow_keepsWf ..)
      exact h.trans (hmark t _).keepsWf
  · exact (hmark s _).keepsWf

@[simp] theorem State.refuseHost_memsEq (code : Code) (write : Bool) (n a : Nat) : s.MemsEq (s.refuseHost code write n a) := by
  simp [State.refuseHost]

@[simp] theorem State.bar2_keepsWf (write : Bool) (off : Nat) (data : List Byte) (len : Nat) :
    s.KeepsWf (s.bar2 write off data len).1 := by
  unfold State.bar2
  extract_lets deck p a ok s1 k g row whole
  refine KeepsWf.fst_ite (MemsEq.keepsWf (by simp [s1])) (KeepsWf.fst_ite (MemsEq.keepsWf (by simp)) ?_)
  generalize (if deck then (deckBankKey p g, s.granSaved p g) else (nstBankKey p row, s.rowSaved p row)) = ks
  obtain ⟨key, saved⟩ := ks
  dsimp -zeta only
  split
  next t ht =>
    have h : s.MemsEq t := .of_eq_mk ht (s.hostAccess_memsEq ..)
    extract_lets m s2 m1 m2 s3
    have hmd (hd : deck = true) : m = t.deck := if_pos hd
    have hmn (hd : ¬ deck = true) : m = t.nst := if_neg hd
    have hm (h : m.wf = true) : m2.wf = true := by
      unfold m2
      split
      · exact (Mem.wf_cleanWords ..).trans (Mem.wf_store _ _ h)
      · exact (Mem.wf_mergeWords ..).trans (Mem.wf_store _ _ h)
    have h2 : t.MemsEq s2 := by
      unfold s2
      split
      · simp
      · split <;> simp
    refine h.keepsWf.trans (KeepsWf.fst_ite ?_ (MemsEq.keepsWf (by simp [s3])))
    split
    next hd => exact KeepsWf.trans (h2.keepsWf_deck fun h => hm (by rwa [hmd hd])) (State.bw_memsEq ..).keepsWf
    next hd => exact h2.keepsWf_nst fun h => hm (by rwa [hmn hd])
  next t acc _ ht => exact (MemsEq.of_eq_mk ht (s.hostAccess_memsEq ..)).keepsWf

@[simp] theorem State.mirror_memsEq (b : Nat) (event : Nat) : s.MemsEq (s.mirror b event) := by
  unfold State.mirror
  split <;> simp
@[simp] theorem State.setRollout_memsEq (n : Nat) (r : Rollout) : s.MemsEq (s.setRollout n r) := by simp [State.setRollout]
/-- Bytes stored in the deck and marked clean. -/
theorem State.storeDeck_keepsWf (a n : Nat) (bs : List Byte) : s.KeepsWf { s with deck := (s.deck.store a bs).cleanWords a n } :=
  (MemsEq.refl s).keepsWf_deck fun h => (Mem.wf_cleanWords ..).trans (Mem.wf_store _ _ h)

@[simp] theorem State.rewound_keepsWf (r : Rollout) : s.KeepsWf (s.rewound r) := by
  unfold State.rewound
  split
  · exact s.storeDeck_keepsWf ..
  · simp

@[simp] theorem State.control_keepsWf (kind n : Nat) (payload : List Byte) : s.KeepsWf (s.control kind n payload) := by
  unfold State.control
  dsimp only
  (repeat' split) <;> simp +contextual

@[simp] theorem State.letIn_keepsWf (host : HostView) (b : Nat) (q a : RingDesc) (pi : Word) (n : Nat) :
    s.KeepsWf (s.letIn host b q a pi n) := by
  induction n generalizing s with
  | zero => simp [State.letIn]
  | succ n ih =>
    unfold State.letIn
    extract_lets ci bs kind num on used free
    have hon (t : State) : t.MemsEq (on t) := by simp [on]
    split
    · simp
    split
    · split
      · exact ((hon s).trans (State.onHost_memsEq ..)).keepsWf.trans (ih _)
      · simp
    · exact ((hon s).keepsWf.trans (State.control_keepsWf ..)).trans (ih _)

@[simp] theorem State.fillLane_keepsWf (l : LaneDecl) (qs : List (List Byte)) : s.KeepsWf (s.fillLane l qs) := by
  unfold State.fillLane
  dsimp only
  split
  · simp
  · refine KeepsWf.trans ((MemsEq.refl s).keepsWf_deck fun h => ?_) (State.setCtx_memsEq ..).keepsWf
    exact Mem.wf_store _ _ (Mem.wf_zero _ _ h)

@[simp] theorem State.fillLanes_keepsWf (ls : List LaneDecl) (qs : List (List Byte)) : s.KeepsWf (s.fillLanes ls qs) := by
  induction ls generalizing s qs with
  | nil => simp [State.fillLanes]
  | cons l ls ih => exact (s.fillLane_keepsWf ..).trans (ih _ _)

@[simp] theorem State.ageQueries_memsEq (host : HostView) (b : Nat) (q : RingDesc) (pi : Word) :
    s.MemsEq (s.ageQueries host b q pi) := by simp [State.ageQueries]

@[simp] theorem State.rolloutInputs_keepsWf (len nq : Nat) : s.KeepsWf (s.rolloutInputs len nq) := by
  unfold State.rolloutInputs
  refine State.foldl_keepsWf _ _ _ fun t n => ?_
  split
  · simp
  extract_lets r bs
  split
  · simp
  · exact (t.storeDeck_keepsWf ..).trans (State.setRollout_memsEq ..).keepsWf
  · split
    · simp
    · exact t.storeDeck_keepsWf ..

@[simp] theorem State.hostFrameStart_keepsWf (host : HostView) : s.KeepsWf (s.hostFrameStart host) := by
  unfold State.hostFrameStart
  extract_lets b s1 pi s2
  have h1 : s.MemsEq s1 := by simp [s1]
  have h2 : s1.KeepsWf s2 := by
    unfold s2
    split
    · extract_lets s3 s4
      exact ((s1.letIn_keepsWf ..).trans (State.ageQueries_memsEq ..).keepsWf).trans
        ((State.fillLanes_keepsWf ..).trans (State.rolloutInputs_keepsWf ..))
    · simp
  exact (h1.keepsWf.trans h2).trans (s2.mirror_memsEq ..).keepsWf

@[simp] theorem State.answerOf_memsEq (len n : Nat) : s.MemsEq (s.answerOf len n).1 := by
  unfold State.answerOf
  split <;> simp

@[simp] theorem State.hostFrameDone_memsEq : s.MemsEq s.hostFrameDone := by
  unfold State.hostFrameDone
  extract_lets b act nq s1 s2 s3
  have h1 : s.MemsEq s1 := by
    unfold s1
    split
    · simp
    next a ha =>
    extract_lets len put t1 t2
    have hput (t : State) (n : Nat) (hdr) : t.MemsEq (put t n hdr) := by simp [put]
    have ht1 : s.MemsEq t1 := State.foldl_memsEq _ _ _ fun u n => hput ..
    have ht2 : t1.MemsEq t2 := State.foldl_memsEq _ _ _ fun u n => by
      split
      · simp
      · exact (hput ..).trans (State.setRollout_memsEq ..)
    split
    · exact (ht1.trans ht2).trans (State.hostEvent_memsEq ..)
    · exact ht1.trans ht2
  have h2 : s1.MemsEq s2 := State.foldl_memsEq _ _ _ fun t l => State.setCtx_memsEq ..
  have h3 : s2.MemsEq s3 := by
    unfold s3
    split <;> simp
  exact ((h1.trans h2).trans h3).trans (State.mirror_memsEq ..)

/-! #### Waybills -/

@[simp] theorem State.freePartial_memsEq (k : Nat) : s.MemsEq (s.freePartial k) := by simp [State.freePartial]
@[simp] theorem State.closeFor_memsEq (k : Nat) : s.MemsEq (s.closeFor k) := by simp [State.closeFor]
@[simp] theorem State.wbEnd_memsEq (k : Nat) : s.MemsEq (s.wbEnd k) := by simp [State.wbEnd]
@[simp] theorem State.wbNext_memsEq (k : Nat) : s.MemsEq (s.wbNext k) := by simp [State.wbNext]
@[simp] theorem State.wbWait_memsEq (k : Nat) (full : Option Nat) : s.MemsEq (s.wbWait k full) := by simp [State.wbWait]
@[simp] theorem State.wbGo_memsEq (c : CtxId) (i : Instr) (f : State → CtxSt → State) (hf : ∀ t x, State.MemsEq t (f t x)) :
    s.MemsEq (s.wbGo c i f) := by simp [State.wbGo, hf]

@[simp] theorem State.wbGo_keepsWf (c : CtxId) (i : Instr) (f : State → CtxSt → State)
    (hf : ∀ t x, State.KeepsWf t (f t x)) : s.KeepsWf (s.wbGo c i f) := by
  unfold State.wbGo
  extract_lets k x
  generalize s.upsetIn .context k x.pc 1 = u
  obtain ⟨co, un⟩ := u
  dsimp -zeta only
  extract_lets s2
  have h2 : s.MemsEq s2 := by simp [s2]
  split
  · simp
  split
  · simp
  split
  · exact h2.keepsWf.trans (MemsEq.keepsWf (by simp))
  · exact h2.keepsWf.trans (hf ..)

@[simp] theorem State.wbTrigger_memsEq (k : Nat) : s.MemsEq (s.wbTrigger k) := by
  unfold State.wbTrigger
  dsimp only
  (repeat' split) <;> simp

@[simp] theorem State.triggerWaybills_memsEq (first : Bool) : s.MemsEq (s.triggerWaybills first) := by
  unfold State.triggerWaybills
  refine State.foldl_memsEq _ _ _ fun t e => ?_
  (repeat' split) <;> simp

@[simp] theorem State.farFail_memsEq (k : Nat) (code : Code) (far : Nat) : s.MemsEq (s.farFail k code far) := by
  simp [State.farFail]

@[simp] theorem State.farTake_keepsWf (k : Nat) (b : BufDesc) (far n : Nat) : s.KeepsWf (s.farTake k b far n) := by
  unfold State.farTake
  dsimp only
  (repeat' split) <;> simp +contextual

theorem State.route1_memsEq (k : Nat) (b : BufDesc) (far near : Nat) (full : Bool) (t : State × Nat × Req)
    (h : s.route1 k b far near full = some t) : s.MemsEq t.1 := by
  unfold State.route1 at h
  dsimp only at h
  (repeat' split at h) <;> cases h <;> exact ⟨rfl, rfl, rfl⟩

theorem State.zeroUnit_keepsWf (k : Nat) (fill : Bool) (near : Nat) (full own : Bool) (t : State)
    (h : s.zeroUnit k fill near full own = some t) : s.KeepsWf t := by
  have hw := s.nearWrite_keepsWf k near 0 false full own
  unfold State.zeroUnit at h
  dsimp only at h
  split at h
  · split at h
    · cases h
    · cases h
      exact hw
  · split at h <;> cases h <;> simp

theorem State.issuePiece_keepsWf (k : Nat) (b : BufDesc) (far near : Nat) (full null : Bool) (n : Nat) (t : State)
    (h : s.issuePiece k b far near full null n = some t) : s.KeepsWf t := by
  induction n generalizing s far near with
  | zero =>
    cases h
    simp
  | succ n ih =>
    unfold State.issuePiece at h
    extract_lets code s1 s2 at h
    clear_value code
    have h1 : s.MemsEq s1 := by
      unfold s1
      split <;> simp
    have h2 (u : State) (hu : s2 = some u) : s1.KeepsWf u := by
      unfold s2 at hu
      split at hu
      · exact State.zeroUnit_keepsWf _ _ _ _ _ _ _ hu
      · split at hu
        · cases hu
        next v qk r hr =>
          cases hu
          have hv := State.route1_memsEq _ _ _ _ _ _ _ hr
          exact (State.farTake_keepsWf ..).trans
            ((hv.trans (State.enqueue_memsEq ..)).trans (State.setCtx_memsEq ..)).keepsWf
    clear_value s2 s1
    cases s2 with
    | none => cases h
    | some u => exact h1.keepsWf.trans ((h2 u rfl).trans (ih _ _ _ h))

@[simp] theorem State.transfer_keepsWf (k : Nat) (b : BufDesc) (far near n : Nat) (null : Bool) (fuel : Nat) :
    s.KeepsWf (s.transfer k b far near n null fuel) := by
  induction fuel generalizing s with
  | zero => simp [State.transfer]
  | succ fuel ih =>
    unfold State.transfer
    dsimp only
    split
    · simp
    split
    · simp
    split
    · simp
    next u hu => exact (State.issuePiece_keepsWf _ _ _ _ _ _ _ _ _ hu).trans ((State.setCtx_memsEq ..).keepsWf.trans (ih _))

@[simp] theorem State.wbTransfer_keepsWf (k : Nat) (foff noff : Int) (n : Nat) (null : Bool) :
    s.KeepsWf (s.wbTransfer k foff noff n null) := by
  unfold State.wbTransfer
  dsimp only
  split
  · simp
  · exact s.transfer_keepsWf ..

@[simp] theorem State.nextIndex_memsEq (k x : Nat) : s.MemsEq (s.nextIndex k x).1 := by
  unfold State.nextIndex
  extract_lets c p kx y g
  split
  · simp
  split
  · simp
  split
  · split
    next t v po ht =>
      have h : s.MemsEq t := .of_eq_mk ht (s.deckUnit_memsEq ..)
      exact h.trans (by simp)
    · simp
    next t v po ht => exact (MemsEq.of_eq_mk ht (s.deckUnit_memsEq ..)).trans (State.setCtx_memsEq ..)
  · simp

/-! #### The parameter update -/

@[simp] theorem State.updEvent_memsEq (code : Code) (r aux : Nat) : s.MemsEq (s.updEvent code r aux) := by simp [State.updEvent]
@[simp] theorem State.updPending_memsEq : s.MemsEq (s.updPending) := by simp [State.updPending]

@[simp] theorem State.stepRows_keepsWf : s.KeepsWf s.stepRows := by
  unfold State.stepRows
  split
  · simp
  · refine State.foldl_keepsWf _ _ _ fun t c => ?_
    split
    · refine (MemsEq.refl t).keepsWf_nst fun h => ?_
      rw [Mem.wf_cleanWords]
      exact Mem.wf_write _ _ _ _ h
    · simp

@[simp] theorem State.skewCheck_memsEq (r : Nat) : s.MemsEq (s.skewCheck r) := by
  unfold State.skewCheck
  dsimp only
  (repeat' split) <;> simp

@[simp] theorem State.engineCheck_memsEq (r : Nat) : s.MemsEq (s.engineCheck r) := by simp [State.engineCheck]
@[simp] theorem State.writeConsts_memsEq : s.MemsEq (s.writeConsts) := by simp [State.writeConsts]

@[simp] theorem State.rootRead_memsEq (n : Nat) : s.MemsEq (s.rootRead n) := by
  unfold State.rootRead
  split
  · simp
  extract_lets off a
  split
  next t ht => exact (MemsEq.of_eq_mk ht (s.deckTake_memsEq ..)).trans (State.onUpd_memsEq ..)
  next t ht => exact .of_eq_mk ht (s.deckTake_memsEq ..)
  next t ht =>
    have h : s.MemsEq t := .of_eq_mk ht (s.deckTake_memsEq ..)
    refine h.trans ?_
    dsimp only
    split
    · simp
    · split <;> simp

@[simp] theorem State.rootReads_memsEq : s.MemsEq s.rootReads := by simp [State.rootReads]
@[simp] theorem State.rootRecords_memsEq : s.MemsEq s.rootRecords := by simp [State.rootRecords]

@[simp] theorem State.updFrameStart_keepsWf (commit : Bool) : s.KeepsWf (s.updFrameStart commit) := by
  unfold State.updFrameStart
  have h : s.KeepsWf (s.updPending.onUpd fun u => { u with nfNote := [], arrived := false }).stepRows :=
    (s.updPending_memsEq.trans (State.onUpd_memsEq ..)).keepsWf.trans (State.stepRows_keepsWf _)
  dsimp only
  split
  · exact h.trans (MemsEq.keepsWf (by simp))
  · exact h

@[simp] theorem State.updOpen_memsEq : s.MemsEq (s.updOpen) := by simp [State.updOpen]

/-! #### The counter collector and the trace writer -/

@[simp] theorem State.endLatch_memsEq (j : Nat) : s.MemsEq (s.endLatch j) := by simp [State.endLatch]
@[simp] theorem State.addPage_memsEq (j : PageJob) : s.MemsEq (s.addPage j) := by simp [State.addPage]
@[simp] theorem State.latchPacket_memsEq : s.MemsEq (s.latchPacket) := by simp [State.latchPacket]
@[simp] theorem State.filteredPage_memsEq (b slot trigger pgh opcode tag : Nat) :
    s.MemsEq (s.filteredPage b slot trigger pgh opcode tag) := by simp [State.filteredPage]
@[simp] theorem State.cmdLatch_memsEq (trigger pgh opcode tag b : Nat) : s.MemsEq (s.cmdLatch trigger pgh opcode tag b) := by
  simp [State.cmdLatch]
@[simp] theorem State.frameLatch_memsEq : s.MemsEq (s.frameLatch) := by simp [State.frameLatch]
@[simp] theorem State.adminLatch_memsEq : s.MemsEq (s.adminLatch) := by simp [State.adminLatch]
@[simp] theorem State.refill_memsEq : s.MemsEq (s.refill) := by simp [State.refill]

theorem State.takeShare_memsEq (n : Nat) (t : State) (h : s.takeShare n = some t) : s.MemsEq t := by
  unfold State.takeShare at h
  dsimp only at h
  split at h
  · cases h
    simp
  · cases h

@[simp] theorem State.skipPage_memsEq (j : PageJob) : s.MemsEq (s.skipPage j) := by simp [State.skipPage]

@[simp] theorem State.storePage_keepsWf (j : PageJob) : s.KeepsWf (s.storePage j).1 := by
  unfold State.storePage
  have h (a : Nat) : s.KeepsWf ((s.lpWriteBytes a (s.pageBytes j) false).count 0 0 13 1) :=
    (s.lpWriteBytes_keepsWf ..).trans (State.count_memsEq ..).keepsWf
  split
  · split
    · simp
    · exact (h _).trans (State.onObs_memsEq ..).keepsWf
  · extract_lets r
    split
    · simp
    · exact h _

@[simp] theorem State.putRec_keepsWf (r : Nat) (v : Row) : s.KeepsWf (s.putRec r v) := by simp +contextual [State.putRec]
@[simp] theorem State.exportRec_memsEq (v : Row) : s.MemsEq (s.exportRec v) := by simp [State.exportRec]

@[simp] theorem State.writeRec_keepsWf (r : Nat) (v : Row) : s.KeepsWf (s.writeRec r v) := by
  unfold State.writeRec
  extract_lets lose x step
  have hstep (t : State) : t.KeepsWf (step t) := by
    unfold step
    split
    · simp
    · dsimp only
      exact (State.formRec_memsEq ..).keepsWf.trans ((State.putRec_keepsWf ..).trans (State.setRegion_memsEq ..).keepsWf)
  split
  · simp
  split
  · exact MemsEq.keepsWf (by simp [lose])
  next t ht =>
    have h := (s.takeShare_memsEq _ t ht).keepsWf.trans ((hstep t).trans (State.putRec_keepsWf _ r v))
    dsimp only
    split
    · exact h.trans (State.exportRec_memsEq ..).keepsWf
    · exact h

/-! #### Pigeonholes -/

@[simp] theorem State.respond_memsEq (n : Nat) (a : Answer) : s.MemsEq (s.respond n a) := by simp [State.respond]
@[simp] theorem State.finishCmd_memsEq (n : Nat) (a : Answer) : s.MemsEq (s.finishCmd n a) := by simp [State.finishCmd]
@[simp] theorem State.await_memsEq (n : Nat) (w : List Nat) : s.MemsEq (s.await n w) := by simp [State.await]

@[simp] theorem State.underOld_keepsWf (t : Option (Tab Byte)) (k : State → State) (hk : ∀ t, State.KeepsWf t (k t)) :
    s.KeepsWf (s.underOld t k) := by
  unfold State.underOld
  split
  · exact hk s
  next old =>
    exact hk { s with brt := { s.brt with live := old } }

@[simp] theorem State.command_keepsWf (n : Pgh) (op : Nat) (k : State → PghSt → State)
    (hk : ∀ t x, State.KeepsWf t (k t x)) : s.KeepsWf (s.command n op k) := by simp +contextual [State.command, hk]
@[simp] theorem State.hostPut_memsEq (hpa : Nat) (bs : List Byte) : s.MemsEq (s.hostPut hpa bs) := by simp [State.hostPut]

/-! #### The Courier network -/

@[simp] theorem State.onClu_memsEq (j : Nat) (f : CluSt → CluSt) : s.MemsEq (s.onClu j f) := by simp [State.onClu]
@[simp] theorem State.sendPkt_memsEq (src dst : Nat) (cls : BitVec 3) (pay : BitVec 17) :
    s.MemsEq (s.sendPkt src dst cls pay) := by simp [State.sendPkt]
@[simp] theorem State.rootCast_memsEq (cls : BitVec 3) (pay : BitVec 17) : s.MemsEq (s.rootCast cls pay) := by
  simp [State.rootCast]
@[simp] theorem State.ackPkt_memsEq (node src : Nat) (cls : BitVec 3) (pay : BitVec 17) :
    s.MemsEq (s.ackPkt node src cls pay) := by simp [State.ackPkt]
@[simp] theorem State.losePkt_memsEq (o : CourierOut) : s.MemsEq (s.losePkt o) := by simp [State.losePkt]
@[simp] theorem State.courEvent_memsEq (code : Code) (hop : Nat) : s.MemsEq (s.courEvent code hop) := by simp [State.courEvent]
@[simp] theorem State.spoilArrives_memsEq (d : SpoilDue) : s.MemsEq (s.spoilArrives d) := by
  unfold State.spoilArrives
  split <;> simp
@[simp] theorem State.spoilsOf_memsEq (j : Nat) : s.MemsEq (s.spoilsOf j) := by simp [State.spoilsOf]
@[simp] theorem State.spoilDone_memsEq (step : Bool) : s.MemsEq (s.spoilDone step) := by simp [State.spoilDone]

/-! #### What takes effect between two frames -/

@[simp] theorem State.tickWrites_memsEq : s.MemsEq (s.tickWrites) := by simp [State.tickWrites]
@[simp] theorem State.writeTickSrc_memsEq (v : BitVec 4) : s.MemsEq (s.writeTickSrc v) := by simp [State.writeTickSrc]
@[simp] theorem State.writePeriod_memsEq (v : Nat) : s.MemsEq (s.writePeriod v).1 := by simp [State.writePeriod]
@[simp] theorem State.powerChanges_memsEq : s.MemsEq (s.powerChanges) := by simp [State.powerChanges]
@[simp] theorem State.askPower_memsEq (f : PowerSt → PowerSt) : s.MemsEq (s.askPower f) := by simp [State.askPower]
@[simp] theorem State.raiseVdd_memsEq (mv : Nat) : s.MemsEq (s.raiseVdd mv) := by simp [State.raiseVdd]
@[simp] theorem State.applyClock_memsEq (mhz mem dep : Nat) : s.MemsEq (s.applyClock mhz mem dep) := by simp [State.applyClock]
@[simp] theorem State.clockAnswers_memsEq : s.MemsEq (s.clockAnswers) := by simp [State.clockAnswers]
@[simp] theorem State.clockStep_memsEq : s.MemsEq (s.clockStep) := by
  unfold State.clockStep
  split <;> simp
theorem State.onFrm_memsEq (f : FrameSt → FrameSt) : s.MemsEq (s.onFrm f) := by simp
theorem State.onPost_memsEq (f : PostSt → PostSt) : s.MemsEq (s.onPost f) := by simp

/-! #### Ticks, frames, the commit gate and stops -/

@[simp] theorem State.frmEvent_memsEq (code : Code) (detail : Nat) : s.MemsEq (s.frmEvent code detail) := by simp [State.frmEvent]
@[simp] theorem State.unitsStart_memsEq (h : FrameHdr) : s.MemsEq (s.unitsStart h) := by simp [State.unitsStart]

@[simp] theorem State.scalesStart_keepsWf : s.KeepsWf s.scalesStart := by
  unfold State.scalesStart
  refine State.foldl_keepsWf _ _ _ fun t c => ?_
  split
  · exact t.lpWriteBytes_keepsWf ..
  · simp

@[simp] theorem State.obsPending_memsEq : s.MemsEq (s.obsPending) := by simp [State.obsPending]
@[simp] theorem State.lateStart_memsEq : s.MemsEq (s.lateStart) := by
  unfold State.lateStart
  split <;> simp
@[simp] theorem State.floorStart_memsEq : s.MemsEq (s.floorStart) := by simp [State.floorStart]

@[simp] theorem State.startFrame_keepsWf (host : HostView) : s.KeepsWf (s.startFrame host) := by
  unfold State.startFrame
  split
  · simp
  next g _ =>
  extract_lets s1 f n first bad s2 s3 s4
  have h4 : s.MemsEq s4 := by simp [s4, s3, s2, s1]
  split
  · exact h4.keepsWf
  next h _ =>
  extract_lets t1 t2 t3 t4 t5 t6 t7
  have h1 : s4.MemsEq t1 := (State.unitsStart_memsEq ..).trans (State.foldl_memsEq _ _ _ fun u p => u.fetchCheck_memsEq p)
  have h2 : t1.MemsEq t2 := State.foldl_memsEq _ _ _ fun u p => (u.planIdle_memsEq ..).trans (State.planIdle_memsEq ..)
  have h3 : t2.MemsEq t4 := by simp [t4, t3]
  have h5 : t4.KeepsWf t5 := by
    unfold t5
    split
    · exact t4.scalesStart_keepsWf
    · simp
  have h7 : t5.KeepsWf t7 := (t5.triggerWaybills_memsEq first).keepsWf.trans (t6.updFrameStart_keepsWf h.last)
  exact ((((h4.trans h1).trans h2).trans h3).keepsWf.trans (h5.trans h7)).trans (t7.hostFrameStart_keepsWf host)

@[simp] theorem State.stopAtTick_memsEq : s.MemsEq (s.stopAtTick) := by simp [State.stopAtTick]
@[simp] theorem State.abandon_memsEq : s.MemsEq (s.abandon) := by simp [State.abandon]
@[simp] theorem State.immediate_memsEq (forced : Bool) : s.MemsEq (s.immediate forced) := by simp [State.immediate]
@[simp] theorem State.banksOff_memsEq : s.MemsEq (s.banksOff) := by simp [State.banksOff]
@[simp] theorem State.overrideAnswers_memsEq : s.MemsEq (s.overrideAnswers) := by simp [State.overrideAnswers]

@[simp] theorem State.endInvocation_memsEq (keep : Bool) : s.MemsEq (s.endInvocation keep) := by
  unfold State.endInvocation
  split
  · exact MemsEq.refl s
  · extract_lets mine s1 s2 s3 flt pont obs host s4
    have h3 : s.MemsEq s3 := ((s.onPost_memsEq _).trans s1.banksOff_memsEq).trans (s2.onFrm_memsEq _)
    clear_value s3
    have h4 : s3.MemsEq s4 := ⟨rfl, rfl, rfl⟩
    have h : s.MemsEq s4 := h3.trans h4
    clear_value s4
    have h5 : s4.MemsEq s4.tickWrites.updPending := s4.tickWrites_memsEq.trans (State.updPending_memsEq _)
    have h6 := (h.trans h5).trans (State.obsPending_memsEq _)
    have h7 := h6.trans (State.overrideAnswers_memsEq _)
    have h8 := h7.trans (State.powerChanges_memsEq _)
    exact h8.trans (State.clockStep_memsEq _)

@[simp] theorem State.stopFinish_memsEq : s.MemsEq s.stopFinish := by
  unfold State.stopFinish
  dsimp only
  (repeat' split) <;> simp

@[simp] theorem State.stopCheck_memsEq : s.MemsEq s.stopCheck := by
  unfold State.stopCheck
  dsimp only
  (repeat' split) <;> simp

@[simp] theorem State.resume_memsEq (step : Bool) : s.MemsEq (s.resume step) := by simp [State.resume]
@[simp] theorem State.resumeNow_memsEq (n : Nat) (step : Bool) : s.MemsEq (s.resumeNow n step) := by simp [State.resumeNow]
@[simp] theorem State.resumeOr_memsEq (n : Nat) (step : Bool) : s.MemsEq (s.resumeOr n step) := by simp [State.resumeOr]
@[simp] theorem State.resumeWaiting_memsEq : s.MemsEq (s.resumeWaiting) := by simp [State.resumeWaiting]

@[simp] theorem State.overrun_keepsWf (host : HostView) : s.KeepsWf (s.overrun host) := by
  unfold State.overrun
  extract_lets f s1 s2 e s3
  have h1 : s.MemsEq s1 := by simp [s1]
  have h2 : s.MemsEq s2 := by simp [s2, h1]
  split
  · simp
  split
  · split
    · exact MemsEq.keepsWf (by simp [h1])
    split
    · exact h2.keepsWf.trans (s2.startFrame_keepsWf host)
    · exact h2.keepsWf
  · exact MemsEq.keepsWf (by simp [s3, h1])

@[simp] theorem State.strike_keepsWf (host : HostView) : s.KeepsWf (s.strike host) := by
  unfold State.strike
  extract_lets f s1
  have h1 : s.KeepsWf s1 := MemsEq.keepsWf (by simp [s1])
  split
  · simp
  split
  · split
    · exact h1.trans s1.stopAtTick_memsEq.keepsWf
    · exact h1.trans (s1.startFrame_keepsWf host)
  · exact h1.trans (s1.overrun_keepsWf host)

@[simp] theorem State.coreEnd_memsEq (p : Nat) (last : Bool) : s.MemsEq (s.coreEnd p last) := by simp [State.coreEnd]

@[simp] theorem State.stopEndMark_memsEq (p : Nat) (arr : Arr) : s.MemsEq (s.stopEndMark p arr) := by
  unfold State.stopEndMark
  dsimp only
  (repeat' split) <;> simp

@[simp] theorem State.routerEndMark_memsEq (p : Nat) : s.MemsEq (s.routerEndMark p) := by
  unfold State.routerEndMark
  extract_lets x q s1 s2 s3
  have hq (t : State) (port n : Nat) (ej : Bool) : t.MemsEq (q t port n ej) := by simp [q]
  have h1 : s.MemsEq s1 := by
    unfold s1
    split <;> simp
  simp [s3, s2, hq, h1]

@[simp] theorem State.frameDone_keepsWf (host : HostView) : s.KeepsWf (s.frameDone host) := by
  unfold State.frameDone
  extract_lets last s1 s2 s3 s4 s5 f
  have h5 : s.MemsEq s5 := by simp [s5, s4, s3, s2, s1]
  split
  · exact h5.keepsWf
  split
  · exact h5.keepsWf.trans (MemsEq.keepsWf (by simp))
  split
  · exact h5.keepsWf.trans (s5.startFrame_keepsWf host)
  · exact h5.keepsWf

@[simp] theorem State.stopNow_memsEq (j : Nat) : s.MemsEq (s.stopNow j) := by simp [State.stopNow]

/-! #### Images -/

@[simp] theorem State.placeTables_memsEq (img : Image) (i : Nat) : s.MemsEq (s.placeTables img i) := by
  unfold State.placeTables
  extract_lets r s1 s2
  have h1 : s.MemsEq s1 := ⟨rfl, rfl, rfl⟩
  have h2 : s1.MemsEq s2 := State.foldl_memsEq _ _ _ fun t c => by
    split
    · simp
    · exact ⟨rfl, rfl, rfl⟩
  exact (h1.trans h2).trans (State.foldl_memsEq _ _ _ fun t f => ⟨rfl, rfl, rfl⟩)

@[simp] theorem State.placeDeck_keepsWf (img : Image) (lost : Bool) : s.KeepsWf (s.placeDeck img lost) := by
  unfold State.placeDeck
  extract_lets put s1
  have hput (t : State) (p : Nat) (bs : List (Nat × Byte)) : t.KeepsWf (put t p bs) := by
    refine State.foldl_keepsWf _ _ _ fun u k => ?_
    extract_lets here b kept u1
    split
    · simp
    · have h1 : u.KeepsWf u1 := u.bankOn_keepsWf ..
      refine h1.trans ((MemsEq.refl u1).keepsWf_deck fun h => Mem.wf_foldl _ (fun m x hm => ?_) _ _ h)
      rw [Mem.wf_cleanWords]
      exact Mem.wf_set _ _ hm
  have h1 : s.KeepsWf s1 := State.foldl_keepsWf _ _ _ fun t c => by
    split
    · exact hput ..
    · simp
  exact h1.trans (State.foldl_keepsWf _ _ _ fun t f => hput ..)

@[simp] theorem State.place_keepsWf (b : Nat) (img : Image) : s.KeepsWf (s.place b img) := by
  unfold State.place
  extract_lets s1 s2
  have h1 : s.KeepsWf s1 := (s.placeTables_memsEq img 0).keepsWf.trans (State.placeDeck_keepsWf ..)
  exact h1.trans (MemsEq.keepsWf (by simp [s2]))

/-! #### The program and berth commands -/

@[simp] theorem State.selectCounters_memsEq (img : Image) : s.MemsEq (s.selectCounters img) := by simp [State.selectCounters]

@[simp] theorem State.initScales_keepsWf (img : Image) (step : Nat) : s.KeepsWf (s.initScales img step) := by
  unfold State.initScales
  refine State.foldl_keepsWf _ _ _ fun t c => ?_
  extract_lets kept
  split
  · exact t.lpWriteBytes_keepsWf ..
  · simp

@[simp] theorem State.startRun_keepsWf (g : Prog) (p : PghSt) (mask : List (Nat × Retained)) :
    s.KeepsWf (s.startRun g p mask) := by
  unfold State.startRun
  extract_lets img b start step others kept near post s1 s2 s3 s4 upd depot pont obs host s5 s6 s7
  have h1 : s.KeepsWf s1 := ⟨Mem.wf_forget _ _, Mem.wf_forget _ _, id⟩
  have h2 : s1.KeepsWf s2 := (s1.placeTables_memsEq ..).keepsWf.trans (State.placeDeck_keepsWf ..)
  have h3 : s2.KeepsWf s3 := MemsEq.keepsWf ⟨rfl, rfl, rfl⟩
  have h4 : s3.KeepsWf s4 := (s3.selectCounters_memsEq ..).keepsWf.trans (State.initScales_keepsWf ..)
  have h5 : s4.KeepsWf s5 := MemsEq.keepsWf ⟨rfl, rfl, rfl⟩
  have h6 : s5.MemsEq s6 := by
    unfold s6
    split
    · exact State.foldl_memsEq _ _ _ fun t i => (t.planWake_memsEq ..).trans (State.planWake_memsEq ..)
    · simp
  have h7 : s6.MemsEq s7 := by simp [s7]
  have h : s.KeepsWf s7 := ((h1.trans h2).trans (h3.trans h4)).trans (h5.trans (h6.trans h7).keepsWf)
  split
  · exact h.trans (MemsEq.keepsWf (by simp))
  · exact h

@[simp] theorem State.openRange_keepsWf (r : Nat × Nat × Nat) : s.KeepsWf (s.openRange r) := by
  unfold State.openRange
  extract_lets go
  have hgo (m : Mem) (base : Nat) (h : m.wf = true) : (go m base).wf = true := Mem.wf_open_ _ _ _ h
  split
  · exact ⟨id, id, hgo _ _⟩
  · exact ⟨id, hgo _ _, id⟩
  · exact ⟨hgo _ _, id, id⟩
  · simp

@[simp] theorem State.leave_keepsWf (n : Nat) : s.KeepsWf (s.leave n) := by
  unfold State.leave
  dsimp only
  split
  · simp
  split
  case h_3 | h_4 => exact s.openRange_keepsWf _
  case h_8 => exact State.foldl_keepsWf _ _ _ fun t r => t.openRange_keepsWf r
  all_goals (repeat' split) <;> simp

@[simp] theorem State.failOthers_keepsWf (n : Nat) (q : PghSt → Bool) : s.KeepsWf (s.failOthers n q) := by
  unfold State.failOthers
  refine State.foldl_keepsWf _ _ _ fun t m => ?_
  dsimp only
  refine KeepsWf.trans ?_ (State.finishCmd_memsEq ..).keepsWf
  split
  · simp
  · exact t.leave_keepsWf m

@[simp] theorem State.scrubCore_memsEq (p : Nat) : s.MemsEq (s.scrubCore p) := by simp [State.scrubCore]
@[simp] theorem State.startScrub_memsEq (b : Nat) (cores : List Nat) (decks lps : List (Nat × Nat)) :
    s.MemsEq (s.startScrub b cores decks lps) := by simp [State.startScrub]
@[simp] theorem State.endByForce_memsEq : s.MemsEq s.endByForce := by simp [State.endByForce]

/-! #### Berth-table commits -/

@[simp] theorem State.berthLoses_memsEq (old : Tab Byte) (b : Nat) : s.MemsEq (s.berthLoses old b) := by
  simp [State.berthLoses]
@[simp] theorem State.noteGrants_memsEq (old : Tab Byte) : s.MemsEq (s.noteGrants old) := by
  unfold State.noteGrants
  split <;> simp
@[simp] theorem State.commitTable_memsEq : s.MemsEq (s.commitTable).1 := by
  unfold State.commitTable
  split <;> simp

/-! #### The memory commands -/

@[simp] theorem State.spacesOn_keepsWf (rs : List (Nat × Nat × Nat)) : s.KeepsWf (s.spacesOn rs) := by
  unfold State.spacesOn
  refine State.foldl_keepsWf _ _ _ fun t r => ?_
  split
  · exact t.rangeOn_keepsWf ..
  · simp

@[simp] theorem State.spaceRead_keepsWf (space a n : Nat) (host : HostView) :
    s.KeepsWf (s.spaceRead space a n host).1 := by
  unfold State.spaceRead
  split
  · exact s.lpReadBytes_keepsWf a n
  · simp
  · split <;> simp
  · simp

@[simp] theorem State.spaceWrite_keepsWf (space a : Nat) (bs : List Byte) (poison : Bool) :
    s.KeepsWf (s.spaceWrite space a bs poison) := by
  unfold State.spaceWrite
  split
  · exact s.lpWriteBytes_keepsWf ..
  · exact s.deckBytes_keepsWf ..
  · split
    · simp
    · extract_lets m
      refine (MemsEq.refl s).keepsWf_nst fun h => ?_
      have hm : m.wf = true := (Mem.wf_cleanWords ..).trans (Mem.wf_store _ _ h)
      split
      · exact Mem.wf_marks _ hm
      · exact hm
  · simp

@[simp] theorem State.moveBlocks_keepsWf (a b : Nat × Nat) (n : Nat) (host : HostView) (k : Nat) :
    s.KeepsWf (s.moveBlocks a b n host k) := by
  induction k generalizing s a b n with
  | zero => simp [State.moveBlocks]
  | succ k ih => exact (s.spaceRead_keepsWf ..).trans ((State.spaceWrite_keepsWf ..).trans (ih ..))

@[simp] theorem State.flipPage_memsEq (n page : Nat) : s.MemsEq (s.flipPage n page) := by simp [State.flipPage]

@[simp] theorem State.flipNext_memsEq (n : Nat) : s.MemsEq (s.flipNext n) := by
  unfold State.flipNext
  dsimp only
  (repeat' split) <;> simp

@[simp] theorem State.marchFor_memsEq (p : Nat) (deck : Bool) (cells : List BadCell) : s.MemsEq (s.marchFor p deck cells).1 := by
  simp [State.marchFor]

/-! #### The Depot commands -/

@[simp] theorem State.sanitize_memsEq (held : List (Nat × Nat)) : s.MemsEq (s.sanitize held) := by simp [State.sanitize]
@[simp] theorem State.nsGet_memsEq (ns off : Nat) : s.MemsEq (s.nsGet ns off).1 := by simp [State.nsGet]
@[simp] theorem State.nsPut_memsEq (ns off : Nat) (v : Row) (poison : Bool) : s.MemsEq (s.nsPut ns off v poison) := by
  simp [State.nsPut]

@[simp] theorem State.nsToSpace_keepsWf (ns off space a n k : Nat) : s.KeepsWf (s.nsToSpace ns off space a n k) := by
  induction k generalizing s off a n with
  | zero => simp [State.nsToSpace]
  | succ k ih => exact (s.nsGet_memsEq ns off).keepsWf.trans ((State.spaceWrite_keepsWf ..).trans (ih ..))

@[simp] theorem State.spaceToNs_keepsWf (space a ns off size n : Nat) (host : HostView) (k : Nat) :
    s.KeepsWf (s.spaceToNs space a ns off size n host k).1 := by
  induction k generalizing s a off n with
  | zero => simp [State.spaceToNs]
  | succ k ih => exact (s.spaceRead_keepsWf ..).trans ((State.nsPut_memsEq ..).keepsWf.trans (ih ..))

@[simp] theorem State.saveRanges_keepsWf (ns off : Nat) (rs : List (Nat × Nat × Nat)) :
    s.KeepsWf (s.saveRanges ns off rs).1 := by
  induction rs generalizing s off with
  | nil => simp [State.saveRanges]
  | cons r rs ih => exact (s.spaceToNs_keepsWf ..).trans (ih ..)

@[simp] theorem State.loadRanges_keepsWf (ns off : Nat) (rs : List (Nat × Nat × Nat)) :
    s.KeepsWf (s.loadRanges ns off rs) := by
  induction rs generalizing s off with
  | nil => simp [State.loadRanges]
  | cons r rs ih => exact (s.nsToSpace_keepsWf ..).trans (ih ..)

@[simp] theorem State.quiesceNext_memsEq (n : Nat) : s.MemsEq (s.quiesceNext n) := by simp [State.quiesceNext]

/-! #### The commands of the other groups -/

@[simp] theorem State.bringUp_memsEq (p : Nat) (trains : Bool) (rtNs : Nat) (peer : BitVec 18) :
    s.MemsEq (s.bringUp p trains rtNs peer) := by simp [State.bringUp]
@[simp] theorem State.disablePort_memsEq (p : Nat) (force : Bool) : s.MemsEq (s.disablePort p force) := by
  simp [State.disablePort]

@[simp] theorem State.closePorts_memsEq : s.MemsEq s.closePorts := by
  unfold State.closePorts
  refine State.foldl_memsEq _ _ _ fun t p => ?_
  dsimp only
  (repeat' split) <;> simp

@[simp] theorem State.configurePont_memsEq (p : PghSt) : s.MemsEq (s.configurePont p) := by simp [State.configurePont]

/-! #### Posted commands -/

@[simp] theorem State.abandonCmd_keepsWf (n : Nat) (a : Answer) : s.KeepsWf (s.abandonCmd n a) := by
  unfold State.abandonCmd
  dsimp only
  split
  · exact (s.leave_keepsWf n).trans (MemsEq.keepsWf (by simp))
  · exact (s.leave_keepsWf n).trans (State.finishCmd_memsEq ..).keepsWf

/-! #### Writes of registers -/

@[simp] theorem State.writeAdmin_memsEq (off w : Nat) : s.MemsEq (s.writeAdmin off w) := by
  unfold State.writeAdmin
  split <;> simp
@[simp] theorem State.writeTree_memsEq (off w : Nat) : s.MemsEq (s.writeTree off w) := by simp [State.writeTree]
@[simp] theorem State.writePgh_memsEq (n off w : Nat) : s.MemsEq (s.writePgh n off w) := by simp [State.writePgh]
@[simp] theorem State.writeSel_memsEq (p : Nat) (hi : Bool) (w : Nat) : s.MemsEq (s.writeSel p hi w) := by simp [State.writeSel]

@[simp] theorem State.writeCnt_memsEq (off w : Nat) : s.MemsEq (s.writeCnt off w) := by
  unfold State.writeCnt
  dsimp only
  (repeat' split) <;> simp

@[simp] theorem State.writeCto_memsEq (w : Nat) : s.MemsEq (s.writeCto w) := by simp [State.writeCto]
@[simp] theorem State.writeReg_memsEq (off w : Nat) (viaAdmin : Bool) : s.MemsEq (s.writeReg off w viaAdmin) := by
  simp [State.writeReg]
@[simp] theorem State.writeWide_memsEq (off v : Nat) (viaAdmin : Bool) : s.MemsEq (s.writeWide off v viaAdmin) := by
  simp [State.writeWide]

/-! #### RESET_N, power-up and delivery -/

@[simp] theorem State.afterReset_keepsWf : s.KeepsWf s.afterReset :=
  ⟨Mem.wf_forget _ _, Mem.wf_forget _ _, Mem.wf_forget _ _⟩
@[simp] theorem State.isolate_keepsWf : s.KeepsWf s.isolate := ⟨Mem.wf_forget _ _, Mem.wf_forget _ _, Mem.wf_forget _ _⟩
@[simp] theorem State.march_keepsWf (f : BootFindings) : s.KeepsWf (s.march f) := by simp +contextual [State.march]
@[simp] theorem State.trainLink_memsEq (f : BootFindings) : s.MemsEq (s.trainLink f) := by simp [State.trainLink]
@[simp] theorem State.takeIdentity_memsEq (host : HostView) : s.MemsEq (s.takeIdentity host) := by simp [State.takeIdentity]
@[simp] theorem State.takeGrade_memsEq (host : HostView) : s.MemsEq (s.takeGrade host) := by simp [State.takeGrade]
@[simp] theorem State.settleShape_memsEq : s.MemsEq (s.settleShape) := by simp [State.settleShape]

@[simp] theorem State.voltageSearch_memsEq (v : VoltageFinding) : s.MemsEq (s.voltageSearch v) := by
  unfold State.voltageSearch
  dsimp only
  (repeat' split) <;> simp

@[simp] theorem State.startFirmware_memsEq (volt : VoltageFinding) : s.MemsEq (s.startFirmware volt) := by
  simp [State.startFirmware]
@[simp] theorem State.rejectDelivery_memsEq (res : Nat) : s.MemsEq (s.rejectDelivery res) := by simp [State.rejectDelivery]

/-! #### Clocks, time and power -/

@[simp] theorem State.cluEvent_memsEq (code : Code) (j : Nat) : s.MemsEq (s.cluEvent code j) := by simp [State.cluEvent]
@[simp] theorem State.pwrEvent_memsEq (code : Code) (detail : Nat) : s.MemsEq (s.pwrEvent code detail) := by simp [State.pwrEvent]
@[simp] theorem State.endLost_memsEq : s.MemsEq s.endLost := by simp [State.endLost]
@[simp] theorem State.emergency_memsEq (which : Nat) : s.MemsEq (s.emergency which) := by simp [State.emergency]
@[simp] theorem State.avsFailed_memsEq : s.MemsEq (s.avsFailed) := by simp [State.avsFailed]
@[simp] theorem State.dropSensor_memsEq (k reading : Nat) : s.MemsEq (s.dropSensor k reading) := by simp [State.dropSensor]

/-! #### The pins, the management and the test ports -/

@[simp] theorem State.failSelf_memsEq : s.MemsEq (s.failSelf) := by simp [State.failSelf]

end

/-! ### How a command answers -/

section
open State

theorem State.onDepot_memsEq (s : State) (f : DepotSt → DepotSt) : s.MemsEq (s.onDepot f) := by simp

/-- Whatever next state a meaning answers keeps the canonical form of each memory. -/
def State.keepsWfBy (s : State) (o : Host.Outcome State Fault Refusal) : Prop := ∀ t, o = .next t → s.KeepsWf t

theorem keepsWfBy_next {s t : State} (h : s.KeepsWf t) : s.keepsWfBy (.next t) := by
  intro u hu
  obtain rfl : t = u := by simpa using hu
  exact h

/-- A meaning that checks its operands itself. -/
theorem keepsWfBy_ite {s t : State} {ok : Bool} {r : Refusal} (h : s.KeepsWf t) :
    s.keepsWfBy (if ok then .next t else .refused r) := by
  split
  · exact keepsWfBy_next h
  · intro u hu
    cases hu

theorem keepsWfBy_next_of_memsEq {s t : State} (h : s.MemsEq t) : s.keepsWfBy (.next t) := keepsWfBy_next h.keepsWf

/-- A posted command that keeps the canonical forms while its pigeonhole holds it RUNNING. -/
theorem keepsWfBy_command {s : State} {n : Pgh} {op : Nat} {k : State → PghSt → State}
    (hk : ∀ t p, State.KeepsWf t (k t p)) : s.keepsWfBy (.next (s.command n op k)) :=
  keepsWfBy_next (s.command_keepsWf n op k hk)

/-- A command that leaves the memories of its state. -/
theorem keepsWfBy_of_kept {s : State} {o : Host.Outcome State Fault Refusal} (h : s.keptBy o) : s.keepsWfBy o := by
  intro t ht
  have hk := h t ht
  simp only [State.kept, Prod.mk.injEq] at hk
  obtain ⟨-, -, hm⟩ := hk
  exact MemsEq.keepsWf hm

section
variable (s : State)

/-! #### Posted commands -/

theorem execFree_keepsWf (n : Pgh) : s.keepsWfBy (execFree n s) :=
  keepsWfBy_command fun t p => by
    extract_lets hit
    clear_value hit
    split
    · simp
    next x =>
    extract_lets u r
    have hu : t.KeepsWf u := ⟨id, id, Mem.wf_zero _ _⟩
    clear_value u
    have hr : r = u.commitTable := rfl
    clear_value r
    have h : t.KeepsWf r.1 := by
      rw [hr]
      exact hu.trans u.commitTable_memsEq.keepsWf
    split
    · exact h.trans (State.finishCmd_memsEq ..).keepsWf
    · refine KeepsWf.trans ?_ (State.finishCmd_memsEq ..).keepsWf
      exact h

theorem execScrub_keepsWf (n : Pgh) : s.keepsWfBy (execScrub n s) :=
  keepsWfBy_command fun t p => by
    extract_lets a e t1 t2
    have h1 : t.KeepsWf t1 := t.spacesOn_keepsWf _
    have h2 : t1.KeepsWf t2 := by
      unfold t2
      split
      · exact ⟨id, id, Mem.wf_zero _ _⟩
      · exact ⟨id, Mem.wf_zero _ _, id⟩
      · exact ⟨Mem.wf_zero _ _, id, id⟩
    exact (h1.trans h2).trans (State.finishCmd_memsEq ..).keepsWf

theorem execInject_keepsWf (n : Pgh) : s.keepsWfBy (execInject n s) :=
  keepsWfBy_command fun t p => by
    extract_lets a k f i arr x t1
    refine KeepsWf.trans ?_ (State.finishCmd_memsEq ..).keepsWf
    unfold t1
    split
    · exact ⟨Mem.wf_injectWord _ _ _, id, id⟩
    · exact ⟨id, Mem.wf_injectWord _ _ _, id⟩
    · exact ⟨id, id, Mem.wf_injectBlock _ _ _⟩
    · split <;> simp

theorem execMarch_keepsWf (n : Pgh) (nstCells deckCells : List BadCell) :
    s.keepsWfBy (execMarch n nstCells deckCells s) :=
  keepsWfBy_command fun t p => by
    extract_lets ps keep mem one
    have hone (u : State) (i : Nat) (deck : Bool) : u.KeepsWf (one u i deck).1 := by
      unfold one
      split
      · exact (u.marchUnit_keepsWf ..).trans (State.marchFor_memsEq ..).keepsWf
      · simp
    split
    next u found hu =>
    have h : t.KeepsWf u := .of_eq_mk hu (State.foldl_fst_keepsWf _ ps (t, []) fun r i => (hone ..).trans (hone ..))
    exact h.trans (State.finishCmd_memsEq ..).keepsWf

theorem execBiasFlip_keepsWf (n : Pgh) : s.keepsWfBy (execBiasFlip n s) :=
  keepsWfBy_next (by
    split
    · simp
    · exact s.command_keepsWf _ _ _ fun t p => MemsEq.keepsWf (by simp))

theorem execDepotQuiesce_keepsWf (n : Pgh) : s.keepsWfBy (execDepotQuiesce n s) :=
  keepsWfBy_next (by
    split
    · simp
    · exact s.command_keepsWf _ _ _ fun t p => MemsEq.keepsWf (by simp))

theorem execConfigure_keepsWf (n : Pgh) (linkUp : BitVec 16) (roundTripNs : List Nat) (peers : List (BitVec 18)) :
    s.keepsWfBy (execConfigure n linkUp roundTripNs peers s) :=
  keepsWfBy_ite (s.command_keepsWf _ _ _ fun t p => MemsEq.keepsWf (by simp))

theorem execKillScrubComplete_keepsWf (b : Port) : s.keepsWfBy (execKillScrubComplete b s) :=
  keepsWfBy_next (by
    split
    · simp
    next k _ =>
    extract_lets mine zero us post s1 data
    have hz (m : Mem) (tag : Nat) (h : m.wf = true) : (zero m tag).wf = true :=
      Mem.wf_foldl _ (fun _ _ => Mem.wf_zero _ _) _ _ h
    have h1 : s.KeepsWf s1 := ⟨hz _ _, hz _ _, hz _ _⟩
    refine h1.trans (MemsEq.keepsWf ?_)
    exact MemsEq.trans (by simp) (State.foldl_memsEq _ _ _ fun t m => t.finishCmd_memsEq ..))

theorem execKill_keepsWf (n : Pgh) : s.keepsWfBy (execKill n s) :=
  keepsWfBy_command fun t p => by
    extract_lets b mine t1 t2 posted t3 live cores t4 counter cnt depot host upd post t5
    split
    · simp
    have h1 : t.MemsEq t1 := by
      unfold t1
      split
      · exact t.endByForce_memsEq.trans (State.onFrm_memsEq ..)
      · simp
    have h2 : t1.KeepsWf t2 := t1.failOthers_keepsWf ..
    have h3 : t2.MemsEq t3 := State.foldl_memsEq _ _ _ fun u m => by simp
    have h4 : t3.MemsEq t4 := t3.startScrub_memsEq ..
    have h : t.KeepsWf t4 := (h1.keepsWf.trans h2).trans (h3.trans h4).keepsWf
    clear_value t4
    have h5 : t4.MemsEq t5 := ⟨rfl, rfl, rfl⟩
    exact h.trans (h5.trans (State.await_memsEq ..)).keepsWf

theorem execStop_keepsWf (n : Pgh) : s.keepsWfBy (execStop n s) :=
  keepsWfBy_command fun t p => by
    extract_lets finish t1 t2 t3 prog
    have h1 : t.MemsEq t1 := by
      unfold t1
      split <;> simp
    have h3 : t.MemsEq t3 := by
      unfold t3
      split <;> simp [t2]
    split
    · simp
    split
    · exact (h1.trans (State.finishCmd_memsEq ..)).keepsWf
    split
    · have h : t3.KeepsWf ((t3.failOthers n.val prog).immediate true) :=
        (t3.failOthers_keepsWf ..).trans (State.immediate_memsEq ..).keepsWf
      exact (h3.keepsWf.trans h).trans (State.stopCheck_memsEq _).keepsWf
    · exact h3.keepsWf.trans (MemsEq.keepsWf (by (repeat' split) <;> simp))

theorem execRun_keepsWf (n : Pgh) : s.keepsWfBy (execRun n s) :=
  keepsWfBy_command fun t p => by
    split
    · simp
    split
    · simp
    · exact (t.startRun_keepsWf ..).trans (State.finishCmd_memsEq ..).keepsWf

theorem execNsWrite_keepsWf (n : Pgh) (host : HostView) : s.keepsWfBy (execNsWrite n host s) :=
  keepsWfBy_command fun t p => by
    extract_lets ns off len
    split
    · simp
    split
    · simp
    extract_lets size t1 y
    have h : t.KeepsWf t1 := t.spaceToNs_keepsWf ..
    exact h.trans (MemsEq.keepsWf (by simp))

theorem execCheckpoint_keepsWf (n : Pgh) : s.keepsWfBy (execCheckpoint n s) :=
  keepsWfBy_command fun t p => by
    extract_lets ns rs
    split
    · simp
    extract_lets num base fail u v
    have hfail (r : State) (code : Nat) : r.MemsEq (fail r code) := by simp [fail]
    have hu : t.KeepsWf u.1 := (t.spacesOn_keepsWf rs).trans (State.saveRanges_keepsWf ..)
    split
    · exact ((State.depotEvent_memsEq ..).trans (hfail ..)).keepsWf
    split
    · exact hu.trans (hfail ..).keepsWf
    split
    · exact hu.trans (hfail ..).keepsWf
    · exact hu.trans (MemsEq.keepsWf (by simp))

theorem execRestore_keepsWf (n : Pgh) : s.keepsWfBy (execRestore n s) :=
  keepsWfBy_command fun t p => by
    split
    · simp
    split
    · simp
    extract_lets rs t1
    have h : t.KeepsWf t1 := (t.spacesOn_keepsWf rs).trans (State.loadRanges_keepsWf ..)
    split
    · exact h.trans (State.finishCmd_memsEq ..).keepsWf
    · exact h.trans (MemsEq.keepsWf (by simp))

/-! #### Waybills -/

theorem execEndl_keepsWf (c : CtxId) (level : BitVec 3) : s.keepsWfBy (execEndl c level s) :=
  keepsWfBy_next_of_memsEq (s.wbGo_memsEq _ _ _ fun t x => by
    (repeat' split) <;> simp)

theorem execGather_keepsWf (c : CtxId) (len : BitVec 7) (scale noff : BitVec 16) (x : BitVec 6) :
    s.keepsWfBy (execGather c len scale noff x s) :=
  keepsWfBy_next (s.wbGo_keepsWf _ _ _ fun t _ => by
    split
    next u hu => exact .of_eq_mk hu (t.nextIndex_memsEq ..).keepsWf
    next u i hu => exact KeepsWf.trans (.of_eq_mk hu (t.nextIndex_memsEq ..).keepsWf) (u.wbTransfer_keepsWf ..))

theorem execScatter_keepsWf (c : CtxId) (len : BitVec 7) (scale noff : BitVec 16) (x : BitVec 6) :
    s.keepsWfBy (execScatter c len scale noff x s) :=
  keepsWfBy_next (s.wbGo_keepsWf _ _ _ fun t _ => by
    split
    next u hu => exact .of_eq_mk hu (t.nextIndex_memsEq ..).keepsWf
    next u i hu =>
      have h : t.KeepsWf u := .of_eq_mk hu (t.nextIndex_memsEq ..).keepsWf
      split
      · exact h.trans (u.wbNext_memsEq _).keepsWf
      · exact h.trans (u.wbTransfer_keepsWf ..))

/-! #### Requests and arrivals: the memory ports, the host link, the Depot and Pontoon -/

theorem execRemoteAccumulate_keepsWf (space : Fin 2) (addr : Nat) (vals : Row) (zero poison adderAgrees : Bool) :
    s.keepsWfBy (execRemoteAccumulate space addr vals zero poison adderAgrees s) :=
  keepsWfBy_ite (by
    extract_lets i p g
    split
    · simp
    split
    · exact s.accumulate_keepsWf ..
    split
    · simp
    split
    · exact s.accumulate_keepsWf ..
    split
    next t ht =>
      have h : s.MemsEq t := .of_eq_mk ht (s.takeBank_memsEq ..)
      exact h.keepsWf.trans (t.accumulate_keepsWf ..)
    · simp)

theorem execRaccAs8_keepsWf (p : Port) (pkt : Packet) : s.keepsWfBy (execRaccAs8 p pkt s) :=
  keepsWfBy_next (s.arrive_keepsWf _ _ _ fun _ => State.foldl_keepsWf _ _ _ fun u _ => u.accRows_keepsWf ..)

theorem execRmax8_keepsWf (p : Port) (pkt : Packet) : s.keepsWfBy (execRmax8 p pkt s) :=
  keepsWfBy_next (s.arrive_keepsWf _ _ _ fun t => (t.getBytes_keepsWf ..).trans (State.putBytes_keepsWf ..))

theorem execCollectiveDeadline_keepsWf (coll : BitVec 16) : s.keepsWfBy (execCollectiveDeadline coll s) :=
  keepsWfBy_next (by
    split
    · simp
    split
    · simp
    split
    · exact s.decideColl_keepsWf ..
    split
    · exact s.decideColl_keepsWf ..
    · simp)

theorem execDecisionWaitExpiry_keepsWf (coll : BitVec 16) : s.keepsWfBy (execDecisionWaitExpiry coll s) :=
  keepsWfBy_next (by
    split
    · simp
    split
    · exact s.actOn_keepsWf ..
    · simp)

theorem execHostMemAccess_keepsWf (write : Bool) (da : Nat) (data : Row) :
    s.keepsWfBy (execHostMemAccess write da data s) :=
  keepsWfBy_ite (by simp +contextual)

theorem execMemoryPortRequest_keepsWf (i : Port) : s.keepsWfBy (execMemoryPortRequest i s) :=
  keepsWfBy_next (by
    extract_lets qk q m
    split
    · simp
    next r _ =>
    extract_lets fin
    have hfin (t : State) : t.MemsEq (fin t) := by simp [fin]
    split
    · exact (s.accLp_keepsWf ..).trans (hfin _).keepsWf
    split
    · split
      next t v po acc ht =>
      have h : s.KeepsWf t := .of_eq_mk ht (s.sourceRow_keepsWf ..)
      split
      · simp
      split
      · exact h.trans (hfin t).keepsWf
      · exact h.trans ((t.lpWriteAny_keepsWf ..).trans (hfin _).keepsWf)
    · split
      next t v po ht =>
      have h : s.KeepsWf t := .of_eq_mk ht (s.lpReadAny_keepsWf _)
      split
      next u acc hu =>
      have h' : t.KeepsWf u := .of_eq_mk hu (t.sinkRow_keepsWf ..)
      split
      · simp
      · exact (h.trans h').trans (hfin u).keepsWf)

theorem execNeighbourFailure_keepsWf (p : Port) : s.keepsWfBy (execNeighbourFailure p s) :=
  keepsWfBy_next (by
    extract_lets peer ports gone
    split
    · exact s.addFailed_keepsWf peer
    · simp)

theorem execPontFlitReceive_keepsWf (p : Port) (hdr : BitVec 64) (body : BitVec 1984) (rsFixed : BitVec 4) (rsBad : Bool) :
    s.keepsWfBy (execPontFlitReceive p hdr body rsFixed rsBad s) :=
  keepsWfBy_next_of_memsEq (by
    dsimp only
    (repeat' split) <;> simp)

theorem execDepotBringUp_keepsWf (uids : List Nat) : s.keepsWfBy (execDepotBringUp uids s) :=
  keepsWfBy_ite (MemsEq.keepsWf (by
    extract_lets s1 torn s2 s3
    have h1 : s.MemsEq s1 := s.onDepot_memsEq _
    have h2 : s1.MemsEq s2 := s1.onDepot_memsEq _
    have h3 : s2.MemsEq s3 := by
      unfold s3
      split <;> simp
    split
    · simp
    split
    · exact h1
    split
    · exact ((h1.trans h2).trans h3).trans (State.depotEvent_memsEq ..)
    · exact (h1.trans h2).trans h3))

theorem execBar2Access_keepsWf (write : Bool) (off : Nat) (data : List Byte) (len : Nat) :
    s.keepsWfBy (execBar2Access write off data len s) :=
  keepsWfBy_ite (by
    split
    next t ht => exact KeepsWf.trans (.of_eq_mk ht (s.bar2_keepsWf ..)) (t.waitBank_memsEq t _).keepsWf
    next t a _ ht => exact .of_eq_mk ht (s.bar2_keepsWf ..))

/-! #### Ticks, the counter pages and the firmware -/

theorem execInternalTick_keepsWf (host : HostView) : s.keepsWfBy (execInternalTick host s) :=
  keepsWfBy_next (by
    split
    · split
      · exact (s.onFrm_memsEq _).keepsWf.trans (State.strike_keepsWf ..)
      · simp
    · simp)

theorem execCounterPageWrite_keepsWf : s.keepsWfBy (execCounterPageWrite s) :=
  keepsWfBy_next (by
    split
    · simp
    next j r _ =>
    extract_lets pop finish
    have hpop (t : State) : t.MemsEq (pop t) := t.onObs_memsEq _
    have hfinish (x : State × Option Nat) : x.1.MemsEq (finish x) := by
      unfold finish
      dsimp only
      split <;> simp
    split
    next t ht =>
      have h : s.KeepsWf (pop t) := ((s.takeShare_memsEq _ _ ht).trans (hpop t)).keepsWf
      exact h.trans (((pop t).storePage_keepsWf j).trans (hfinish _).keepsWf)
    · split
      · exact (((hpop s).trans (State.skipPage_memsEq ..)).trans (hfinish (_, none))).keepsWf
      · simp)

theorem execTraceControlUpdate_keepsWf (region : Fin 17) : s.keepsWfBy (execTraceControlUpdate region s) :=
  keepsWfBy_next (by
    extract_lets x
    split
    · simp
    · exact s.lpWriteBytes_keepsWf ..)

theorem execFtickInEdge_keepsWf (highNs : Nat) (host : HostView) : s.keepsWfBy (execFtickInEdge highNs host s) :=
  keepsWfBy_next (by
    extract_lets early
    clear_value early
    split
    · simp
    split
    · simp
    · exact s.strike_keepsWf host)

theorem execTickLoss_keepsWf (host : HostView) : s.keepsWfBy (execTickLoss host s) :=
  keepsWfBy_next (by
    extract_lets f s1
    have h1 : s.MemsEq s1 := s.frmEvent_memsEq ..
    split
    · split
      · exact (h1.trans (State.onFrm_memsEq ..)).keepsWf.trans (State.strike_keepsWf ..)
      · exact (h1.trans (State.onFrm_memsEq ..)).keepsWf
    · simp)

theorem execReenter_keepsWf : s.keepsWfBy (execReenter s) :=
  keepsWfBy_next (by
    extract_lets s1 s2
    split
    · simp
    have h1 : s.KeepsWf s1 := State.foldl_keepsWf _ _ _ fun t n => (t.leave_keepsWf n).trans (State.finishCmd_memsEq ..).keepsWf
    have h2 : s1.MemsEq s2 := State.foldl_memsEq _ _ _ fun t n => by
      dsimp only
      split <;> simp
    exact h1.trans (h2.keepsWf.trans (MemsEq.keepsWf (by simp))))

end

/-! ### Every command -/

/-- Every command keeps the canonical form of the three memories. -/
theorem exec_keepsWf (i : Instr) (s : State) : s.keepsWfBy (exec i s) := by
  cases i with
  | ring | ownerChangeDiscard | brtCommitGo | brtCommitRevert | deliverGo | cntLatch | logAckFree | clrSupp | clrLost |
    leafW1cClear | registerWrite | immediateStop | release | stopReached | commit | gateDecision | gate | ack | notify |
    courierCounterLatch | closeInjectionGate | bgtStepStart | reservedClassPacket | courierResendTimer | waybillEnd | setb |
    waybillLoop | pred | waybillMark | fence | refresh | mr4Poll | wckOscillatorRead | portFullRetrain | bgtGroupStart |
    unitCloseTimeout | journalProgram | blockRetire | onfiTimeout | lunFailed | depotPatrol | depotRefresh | garbageCollection |
    wearLevelling | depotChannelRetrain | laneFailure | spareLaneTrained | nak | ackTimer | linkDown | linkRetrainComplete |
    time | heartbeat | reservedOpcPacket | unreachablePacket | heartbeatTimer | timeDistribution | linkDelayMeasurement |
    ucieLinkError | hostSnoop | unsupportedRequest | droopStretch | slowLoopWindow | clockLoss | replicaWarning | timeSample |
    refclkLoss | pontRefclkLoss | avsResponseTimeout | voltageLowerTimer | powerLimitCheck | emergencyTrigger | thermtrip |
    tickRailMismatch | postmasterMismatch | firmwareCheckerTest | counterParityError | bwWindowBoundary | i3cRead | i3cBusHeld |
    i3cTransactionTimeout | bypass | idcode | samplePreload | extest | trstNAssert | selfRefreshEntry | depotChannelStandby |
    ucieRetrainComplete | idleCheckerExercise => exact keepsWfBy_next_of_memsEq (by simp)
  | stopDrainTimeout | tickFlood | lockLoss | emergencyFloorRaise =>
    exact keepsWfBy_next_of_memsEq (by (repeat' split) <;> simp)
  | commandTakeUp | hostIdxWrite | depotFlushComplete | endMarkReached | spoil | courierCrcMismatch | gateHoldTimeout |
    granulePublish | waybillWaitLimit | stackSpillStart | stackFillStart | stackChunkComplete | clockRestored |
    clockRestoreTimeout | avsTelemetry | onfiStatusPoll =>
    exact keepsWfBy_next_of_memsEq (by dsimp only; (repeat' split) <;> simp)
  | cancel | commandTimeout | tickDoorbellStrike | resetNRelease | resetNAssert | frameDone | xfer | lpddr5xPatrol | write |
    read | raccF32 | done | failed | sparePairInService | vddAonPowerUp | portFlitBoundary =>
    exact keepsWfBy_next (by simp +contextual)
  | pwrFailNFall | systemTickDelivery | bankWakeComplete | lpddr5xRequestTimeout | depotWriteRequest | depotReadRequest |
    depotRequestTimeout | readResp | completion | decide | remoteOpTimeout | deviceRequestTimeout | traceRecordWrite =>
    exact keepsWfBy_next (by dsimp only; (repeat' split) <;> simp +contextual)
  | tick | thermalSample => exact keepsWfBy_ite (MemsEq.keepsWf (by simp))
  | deviceRequestCompletion => exact keepsWfBy_ite (by dsimp only; (repeat' split) <;> simp +contextual)
  | identify | status | faultLog | berthState | bindCheck | stepCmd | resume | setPolicy | lrOverride | depotStatus | format |
    nsCreate | nsDelete | nsRelease | versions | deadLetter | pontStatus | counters | trace | setFrame | setClock | powerLimit |
    thermal | bgt | attest | gradeRecord => exact keepsWfBy_command fun t p => MemsEq.keepsWf (by simp)
  | alloc | contextCnt => exact keepsWfBy_command fun t p => MemsEq.keepsWf (by dsimp only; (repeat' split) <;> simp)
  | load | copy | nsRead => exact keepsWfBy_command fun t p => by simp +contextual
  | kill n => exact execKill_keepsWf s n
  | run n => exact execRun_keepsWf s n
  | stop n => exact execStop_keepsWf s n
  | free n => exact execFree_keepsWf s n
  | scrub n => exact execScrub_keepsWf s n
  | biasFlip n => exact execBiasFlip_keepsWf s n
  | nsWrite n host => exact execNsWrite_keepsWf s n host
  | checkpoint n => exact execCheckpoint_keepsWf s n
  | restore n => exact execRestore_keepsWf s n
  | depotQuiesce n => exact execDepotQuiesce_keepsWf s n
  | configure n linkUp roundTripNs peers => exact execConfigure_keepsWf s n linkUp roundTripNs peers
  | march n nstCells deckCells => exact execMarch_keepsWf s n nstCells deckCells
  | inject n => exact execInject_keepsWf s n
  | reenter => exact execReenter_keepsWf s
  | depotBringUp uids => exact execDepotBringUp_keepsWf s uids
  | internalTick host => exact execInternalTick_keepsWf s host
  | ftickInEdge highNs host => exact execFtickInEdge_keepsWf s highNs host
  | tickLoss host => exact execTickLoss_keepsWf s host
  | endl c level => exact execEndl_keepsWf s c level
  | gather c len scale noff x => exact execGather_keepsWf s c len scale noff x
  | scatter c len scale noff x => exact execScatter_keepsWf s c len scale noff x
  | memoryPortRequest iv => exact execMemoryPortRequest_keepsWf s iv
  | remoteAccumulate space addr vals zero poison adderAgrees =>
    exact execRemoteAccumulate_keepsWf s space addr vals zero poison adderAgrees
  | killScrubComplete b => exact execKillScrubComplete_keepsWf s b
  | pontFlitReceive p hdr body rsFixed rsBad => exact execPontFlitReceive_keepsWf s p hdr body rsFixed rsBad
  | raccAs8 p pkt => exact execRaccAs8_keepsWf s p pkt
  | rmax8 p pkt => exact execRmax8_keepsWf s p pkt
  | collectiveDeadline coll => exact execCollectiveDeadline_keepsWf s coll
  | decisionWaitExpiry coll => exact execDecisionWaitExpiry_keepsWf s coll
  | neighbourFailure p => exact execNeighbourFailure_keepsWf s p
  | hostMemAccess write da data => exact execHostMemAccess_keepsWf s write da data
  | bar2Access write off data len => exact execBar2Access_keepsWf s write off data len
  | counterPageWrite => exact execCounterPageWrite_keepsWf s
  | traceControlUpdate region => exact execTraceControlUpdate_keepsWf s region
  | _ => exact keepsWfBy_of_kept (exec_kept _ s rfl)

end

/-! ### One qns of device time -/

section
variable (s : State)
open State

/-! #### The issue of a bundle -/

theorem State.setClu_memsEq (j : Nat) (c : CluSt) : s.MemsEq (s.setClu j c) := by simp

theorem State.after_keepsWf {o : Host.Outcome State Fault Refusal} (h : s.keepsWfBy o) : s.KeepsWf (s.after o) := by
  unfold State.after
  split
  · exact h _ rfl
  · simp

/-- A command that the machine itself gives. -/
@[simp] theorem State.again_keepsWf (i : Instr) : s.KeepsWf (s.again i) := s.after_keepsWf (exec_keepsWf i s)

theorem State.ite_again_keepsWf (c : Prop) [Decidable c] (i : Instr) : s.KeepsWf (if c then s.again i else s) := by
  split
  · exact s.again_keepsWf i
  · simp

@[simp] theorem State.issueWord_keepsWf (p : Pos) (b : BitVec 128) : s.KeepsWf (s.issueWord p b) := by
  unfold State.issueWord
  split
  · exact MemsEq.keepsWf (by simp)
  split
  · exact s.again_keepsWf _
  · exact State.foldl_keepsWf _ _ _ State.again_keepsWf

@[simp] theorem State.issueBundle_keepsWf (p : Pos) : s.KeepsWf (s.issueBundle p) := by
  unfold State.issueBundle
  extract_lets pc halt
  have hhalt (code : Code) : s.KeepsWf (halt code) := MemsEq.keepsWf (by simp [halt])
  split
  · split
    · exact hhalt _
    split
    · exact s.issueWord_keepsWf ..
    · exact (s.seqFault_memsEq ..).keepsWf.trans (State.issueWord_keepsWf ..)
    · exact hhalt _
  · simp

/-! #### The end of a tcyc -/

@[simp] theorem State.fillSlot_memsEq (p : Nat) (arr : Arr) (slot len t : Nat) (f : Nat → Row) :
    s.MemsEq (s.fillSlot p arr slot len t f) := by simp [State.fillSlot]
@[simp] theorem State.landTurn_memsEq (p : Nat) (x : Pend) : s.MemsEq (s.landTurn p x) := by
  unfold State.landTurn
  split <;> simp
@[simp] theorem State.landRead_memsEq (p t : Nat) (x : Pend) : s.MemsEq (s.landRead p t x) := by
  unfold State.landRead
  split <;> simp
@[simp] theorem State.healLanes_memsEq (p n : Nat) (mask : BitVec 256) : s.MemsEq (s.healLanes p n mask) := by
  simp [State.healLanes]

@[simp] theorem State.granStep_memsEq (k g : Nat) (produced : Bool) : s.MemsEq (s.granStep k g produced) := by
  unfold State.granStep
  dsimp only
  (repeat' split) <;> simp

@[simp] theorem State.landReg_memsEq (p : Nat) (x : Pend) : s.MemsEq (s.landReg p x) := by
  unfold State.landReg
  dsimp only
  (repeat' split) <;> simp

@[simp] theorem State.inject_memsEq (p t : Nat) (x : Pend) (nil sample : Bool) : s.MemsEq (s.inject p t x nil sample) := by
  simp [State.inject]

@[simp] theorem State.landRows_keepsWf (p : Nat) (step : Option Nat) (seen : List Nat) (l : List Pend) :
    s.KeepsWf (s.landRows p step seen l) := by
  induction l generalizing s seen with
  | nil => simp [State.landRows]
  | cons x r ih =>
    unfold State.landRows
    split
    · exact ih ..
    extract_lets s1 s2
    split
    · have h1 : s.MemsEq s1 := by simp [s1]
      exact h1.keepsWf.trans (ih ..)
    · have h2 : s.KeepsWf s2 := by
        unfold s2
        split
        · exact s.writeRow_keepsWf ..
        · exact s.accRow_keepsWf ..
        · exact s.writeRow_keepsWf ..
        · simp
      exact h2.trans (ih ..)

@[simp] theorem State.landGrans_keepsWf (p : Nat) (seen : List Nat) (l : List Pend) : s.KeepsWf (s.landGrans p seen l) := by
  induction l generalizing s seen with
  | nil => simp [State.landGrans]
  | cons x r ih =>
    unfold State.landGrans
    split
    · split
      · exact (MemsEq.keepsWf (by simp)).trans (ih ..)
      · exact (s.writeGran_keepsWf ..).trans (ih ..)
    · exact ih ..

@[simp] theorem State.advance_memsEq (p : Nat) : s.MemsEq (s.advance p) := by simp [State.advance]
@[simp] theorem State.latchFlit_memsEq (p t : Nat) (arr : Arr) : s.MemsEq (s.latchFlit p t arr) := by
  unfold State.latchFlit
  split <;> simp

@[simp] theorem State.stopLeft_memsEq (p t : Nat) (arr : Arr) : s.MemsEq (s.stopLeft p t arr) := by
  unfold State.stopLeft
  dsimp only
  (repeat' split) <;> simp

@[simp] theorem State.sampleBundle_memsEq (p t : Nat) : s.MemsEq (s.sampleBundle p t).1 := by simp [State.sampleBundle]
@[simp] theorem State.sampleOut_memsEq (p t : Nat) : s.MemsEq (s.sampleOut p t) := by simp [State.sampleOut]

@[simp] theorem State.meetDkrt_memsEq (p t : Nat) : s.MemsEq (s.meetDkrt p t) := by
  unfold State.meetDkrt
  refine State.foldl_memsEq _ _ _ fun u x => ?_
  split <;> simp

@[simp] theorem State.land_keepsWf (p t : Nat) (tagged : Bool) : s.KeepsWf (s.land p t tagged) := by
  unfold State.land
  extract_lets s1 due s2 s3 s4 s5 res s6 s7 s8 s9
  have h2 : s.MemsEq s2 := by simp [s2, s1]
  have h3 : s2.MemsEq s3 := State.foldl_memsEq _ _ _ fun u x => u.landTurn_memsEq p x
  have h4 : s3.MemsEq s4 := State.foldl_memsEq _ _ _ fun u x => u.landRead_memsEq p t x
  have h5 : s4.MemsEq s5 := s4.advance_memsEq p
  have h6 : s5.MemsEq s6 := State.foldl_memsEq _ _ _ fun u _ => u.seqFault_memsEq ..
  have h7 : s6.MemsEq s7 := State.foldl_memsEq _ _ _ fun u x => u.landReg_memsEq p x
  have h8 : s7.MemsEq s8 := State.foldl_memsEq _ _ _ fun u x => by split <;> simp
  have h9 : s8.KeepsWf s9 := s8.landRows_keepsWf ..
  have h : s.MemsEq s8 := ((h2.trans h3).trans (h4.trans h5)).trans ((h6.trans h7).trans h8)
  exact h.keepsWf.trans (h9.trans (s9.landGrans_keepsWf ..))

@[simp] theorem State.endTcyc_keepsWf (p t : Nat) : s.KeepsWf (s.endTcyc p t) := by
  unfold State.endTcyc
  extract_lets c issued s1
  split
  · split
    next s2 tagged hs =>
    have h2 : s.MemsEq s2 := .of_eq_mk hs (by split <;> simp [s1])
    extract_lets s3 s4 s5 s6 s7
    have h3 : s2.KeepsWf s3 := s2.land_keepsWf ..
    have h4 : s3.MemsEq s5 := by simp [s5, s4]
    have h6 : s5.MemsEq s6 := State.foldl_memsEq _ _ _ fun u k => by simp
    have h7 : s6.MemsEq s7 := by
      unfold s7
      split <;> simp
    exact (h2.keepsWf.trans h3).trans ((h4.trans h6).trans (h7.trans (s7.sampleOut_memsEq p t))).keepsWf
  · exact s.land_keepsWf ..

/-! #### What a cluster executes in a tcyc -/

@[simp] theorem State.meetStop_memsEq (p : Nat) (arr : Arr) (idx : Nat) (e : BitVec 128) :
    s.MemsEq (s.meetStop p arr idx e).1 := by simp [State.meetStop]

@[simp] theorem State.stopEntry_keepsWf (p : Pos) (arr : Arr) (idx : Nat) (e : BitVec 128) (i : Nat) :
    s.KeepsWf (s.stopEntry p arr idx e i) := by
  unfold State.stopEntry
  split
  next t works ht =>
  have h : s.KeepsWf t := MemsEq.keepsWf (.of_eq_mk ht (by simp))
  split
  · exact h
  · refine h.trans ?_
    split
    case h_5 | h_6 | h_7 => exact t.ite_again_keepsWf ..
    case h_8 => simp
    all_goals exact t.again_keepsWf _

@[simp] theorem State.runStop_keepsWf (p : Pos) (arr : Arr) : s.KeepsWf (s.runStop p arr) := by
  unfold State.runStop
  split
  · exact State.foldl_keepsWf _ _ _ fun t w => t.stopEntry_keepsWf ..
  · simp

@[simp] theorem State.meetSlot_memsEq (p idx : Nat) (e : BitVec 128) : s.MemsEq (s.meetSlot p idx e).1 := by simp [State.meetSlot]

@[simp] theorem State.slotEntry_keepsWf (p : Pos) (idx : Nat) (e : BitVec 128) (i : Nat) :
    s.KeepsWf (s.slotEntry p idx e i) := by
  unfold State.slotEntry
  split
  next t works ht =>
  have h : s.KeepsWf t := MemsEq.keepsWf (.of_eq_mk ht (by simp))
  split
  · exact h
  · refine h.trans ?_
    split
    · exact t.again_keepsWf _
    · exact t.ite_again_keepsWf ..
    · exact t.ite_again_keepsWf ..
    · simp

@[simp] theorem State.runMerges_keepsWf (p : Pos) (es : List (BitVec 128)) (n : Nat) : s.KeepsWf (s.runMerges p es n) := by
  induction n generalizing s es with
  | zero => cases es <;> simp [State.runMerges]
  | succ n ih =>
    cases es with
    | nil => simp [State.runMerges]
    | cons e r =>
      unfold State.runMerges
      split
      · exact (s.again_keepsWf _).trans (ih ..)
      · exact (s.mergeAlone_memsEq ..).keepsWf.trans (ih ..)

@[simp] theorem State.runRouter_keepsWf (p : Pos) : s.KeepsWf (s.runRouter p) := by
  unfold State.runRouter
  extract_lets ws s1 live ms
  have h1 : s.KeepsWf s1 := State.foldl_keepsWf _ _ _ fun t w => t.slotEntry_keepsWf ..
  exact h1.trans (s1.runMerges_keepsWf ..)

@[simp] theorem State.tcycOps_keepsWf (j : Nat) : s.KeepsWf (s.tcycOps j) := by
  unfold State.tcycOps
  extract_lets ps s1 s2 s3
  have h1 : s.KeepsWf s1 := (s.ferryBypass_memsEq j).keepsWf
  have h2 : s1.KeepsWf s2 := State.foldl_keepsWf _ _ _ fun t p => (t.runStop_keepsWf p 0).trans (State.runStop_keepsWf _ p 1)
  have h3 : s2.KeepsWf s3 := State.foldl_keepsWf _ _ _ State.runRouter_keepsWf
  exact (h1.trans h2).trans (h3.trans (State.foldl_keepsWf _ _ _ State.issueBundle_keepsWf))

/-! #### A clk of a cluster -/

@[simp] theorem State.retryHeld_keepsWf (j : Nat) : s.KeepsWf (s.retryHeld j) := by
  unfold State.retryHeld
  extract_lets c
  have h : s.MemsEq (s.setClu j { c with held := [], cause := none }) := by simp
  exact h.keepsWf.trans (State.foldl_keepsWf _ _ _ State.again_keepsWf)

@[simp] theorem State.heldClk_memsEq (j : Nat) (cause : HoldCause) (held : List Instr) : s.MemsEq (s.heldClk j cause held) := by
  simp [State.heldClk]
@[simp] theorem State.nextTcyc_memsEq (j : Nat) : s.MemsEq (s.nextTcyc j) := by simp [State.nextTcyc]
@[simp] theorem State.openClk_memsEq (j : Nat) : s.MemsEq (s.openClk j) := by simp [State.openClk]
@[simp] theorem State.testClks_keepsWf (j : Nat) : s.KeepsWf (s.testClks j) := by
  unfold State.testClks
  exact State.foldl_keepsWf _ _ _ fun t p => (t.testClk_keepsWf p false).trans (State.testClk_keepsWf _ p true)

@[simp] theorem State.finishTcyc_keepsWf (j : Nat) : s.KeepsWf (s.finishTcyc j) := by
  unfold State.finishTcyc
  extract_lets t ps s1 s2 s3 owed acc all n s4
  have h1 : s.MemsEq s1 := s.count_memsEq ..
  have h2 : s1.KeepsWf s2 := State.foldl_keepsWf _ _ _ fun u p => u.endTcyc_keepsWf p t
  have h3 : s2.KeepsWf s3 := State.foldl_keepsWf _ _ _ State.flushRouter_keepsWf
  have h4 : s3.MemsEq s4 := s3.onClu_memsEq ..
  have h : s.KeepsWf s4 := (h1.keepsWf.trans h2).trans (h3.trans h4.keepsWf)
  clear_value s4
  refine h.trans ?_
  split
  · exact State.foldl_keepsWf _ _ _ fun u p => MemsEq.keepsWf (by simp)
  · exact (s4.nextTcyc_memsEq j).keepsWf

@[simp] theorem State.report_memsEq (j : Nat) : s.MemsEq (s.report j) := by
  unfold State.report
  split <;> simp
@[simp] theorem State.seeChunks_memsEq (p : Nat) : s.MemsEq (s.seeChunks p) := by simp [State.seeChunks]
@[simp] theorem State.waitedClk_memsEq (mine : Nat → Bool) : s.MemsEq (s.waitedClk mine) := by simp [State.waitedClk]

@[simp] theorem State.runClk_keepsWf (slots : List Nat) (j : Nat) : s.KeepsWf (s.runClk slots j) := by
  unfold State.runClk
  extract_lets c ended s1 s2 t u
  have hended (r : State) : r.KeepsWf (ended r) := MemsEq.keepsWf (by simp [ended])
  split
  · have h1 : s.MemsEq s1 := by simp [s1]
    split
    · exact (h1.trans (s1.nextTcyc_memsEq j)).keepsWf.trans (hended _)
    · exact h1.keepsWf
  · have h2 : s.KeepsWf s2 := s.retryHeld_keepsWf j
    split
    · have hu : s.KeepsWf u := (h2.trans (s2.tcycOps_keepsWf j)).trans (t.finishTcyc_keepsWf j)
      split
      · exact hu.trans (hended u)
      · exact hu
    · split
      · exact h2.trans (s2.stopNow_memsEq j).keepsWf
      · exact h2.trans ((s2.onClu_memsEq ..).trans (State.heldClk_memsEq ..)).keepsWf

@[simp] theorem State.cluClk_keepsWf (slots : List Nat) (j : Nat) : s.KeepsWf (s.cluClk slots j) := by
  unfold State.cluClk
  extract_lets s1 s2 s3 c s4
  have h3 : s.MemsEq s3 := by simp [s3, s2, s1]
  have h4 : s3.KeepsWf s4 := by
    unfold s4
    split
    · simp
    split
    · simp
    · exact ((s3.onClu_memsEq ..).keepsWf.trans (State.runClk_keepsWf ..)).trans (State.report_memsEq ..).keepsWf
  exact (h3.keepsWf.trans h4).trans (s4.testClks_keepsWf j)

@[simp] theorem State.phase_keepsWf (slots : List Nat) (j : Nat) : s.KeepsWf (s.phase slots j) := by
  unfold State.phase
  extract_lets c b a
  split
  · simp
  split
  · simp
  · exact (s.setClu_memsEq ..).keepsWf.trans (State.cluClk_keepsWf ..)

/-! #### One qns of the part -/

@[simp] theorem State.timeOn_memsEq : s.MemsEq (s.timeOn) := by simp [State.timeOn]
@[simp] theorem State.spoilNow_memsEq (d : SpoilDue) : s.MemsEq (s.spoilNow d) := by simp [State.spoilNow]
@[simp] theorem State.blockClks_memsEq : s.MemsEq (s.blockClks) := by simp [State.blockClks]

@[simp] theorem State.retryBanks_keepsWf : s.KeepsWf s.retryBanks := by
  unfold State.retryBanks
  extract_lets host w
  have h : s.MemsEq { s with bankUse := { s.bankUse with waiting := [] } } := ⟨rfl, rfl, rfl⟩
  exact h.keepsWf.trans (State.foldl_keepsWf _ _ _ State.again_keepsWf)

@[simp] theorem State.unitsOn_keepsWf : s.KeepsWf s.unitsOn := by
  unfold State.unitsOn
  extract_lets s1 s2 s3 s4 s5 s6 s7
  have h1 : s.MemsEq s1 := State.foldl_memsEq _ _ _ State.spoilNow_memsEq
  have h2 : s1.MemsEq s2 := by
    unfold s2
    split <;> simp
  have h3 : s2.KeepsWf s3 := by
    unfold s3
    split
    · exact KeepsWf.trans (State.foldl_keepsWf _ _ _ State.ucieSend_keepsWf) (State.retryBanks_keepsWf _)
    · simp
  have h4 : s3.MemsEq s4 := s3.rootReads_memsEq.trans (State.resumeWaiting_memsEq _)
  have h5 : s4.MemsEq s5 := State.foldl_memsEq _ _ _ State.flipNext_memsEq
  have h6 : s5.MemsEq s6 := State.foldl_memsEq _ _ _ State.quiesceNext_memsEq
  have h7 : s6.MemsEq s7 := s6.blockClks_memsEq
  have h : s.KeepsWf s7 := ((h1.trans h2).keepsWf.trans h3).trans ((h4.trans h5).trans (h6.trans h7)).keepsWf
  exact h.trans (s7.closePorts_memsEq.trans (State.stopCheck_memsEq _)).keepsWf

@[simp] theorem State.tick_keepsWf : s.KeepsWf s.tick := by
  unfold State.tick
  extract_lets s1 slots s2 s3
  split
  · simp
  have h1 : s.MemsEq s1 := s.timeOn_memsEq
  have h2 : s1.KeepsWf s2 := State.foldl_keepsWf _ _ _ fun t j => t.phase_keepsWf slots j
  have h3 : s1.KeepsWf s3 := by
    unfold s3
    split
    · exact h2.trans (State.foldl_memsEq _ _ _ State.meshArrive_memsEq).keepsWf
    · simp
  exact (h1.keepsWf.trans h3).trans s3.unitsOn_keepsWf

end

/-- A step: a waiting command, or one qns of device time. -/
theorem step_keepsWf (s : State) : s.keepsWfBy (step s) := by
  unfold step
  split
  next i rest _ => exact exec_keepsWf i { s with pending := rest }
  · exact keepsWfBy_next s.tick_keepsWf

/-- The three memories in canonical form, where each is kept so. -/
theorem State.KeepsWf.memWf {s t : State} (h : s.KeepsWf t) (hs : s.memWf) : t.memWf := by
  obtain ⟨hn, hd, hl⟩ := h
  exact hs.imp hn (And.imp hd hl)

end Sys2Proof.Machine

open Sys2Proof Sys2Proof.Machine

/-- Settles O3: each command and each qns of device time keeps the canonical form of the memories. -/
theorem stepKeepsMemoriesCanonical : Obligations.StepKeepsMemoriesCanonical :=
  fun s t hs ht => (step_keepsWf s t ht).memWf hs
end

section
/-! The timetabled accesses of a near-store row and of a deck granule (R217, R228): what a write leaves to be read, and what an access
of a bank that is not on leaves. -/

namespace Sys2Proof.Machine

/-- Memories that are the same read the same. -/
theorem State.MemsEq.sameMem {s t : State} (h : s.MemsEq t) : s.sameMem t := by
  obtain ⟨hn, hd, hl⟩ := h
  intro a
  rw [hn, hd, hl]
  exact ⟨rfl, rfl, rfl⟩

section
variable {s : State} {p row : Nat}

/-- A write of a row of a bank that is on, under no scrub (R217): what each byte reads as afterwards, whatever becomes of the check
bits (R218). -/
theorem State.writeRow_on (hon : s.nstState p row = 0) (hscrub : s.underScrub 0 (nstAddr p row) = false) (v : Row)
    (mask : BitVec 64) :
    (∀ a, (s.writeRow p row v mask).nst.get a = (s.nst.write (nstAddr p row) v.toNat mask.toNat 64).get a) ∧
      (s.writeRow p row v mask).deck = s.deck ∧ (s.writeRow p row v mask).lp = s.lp := by
  have hslot := s.accessRow_sameSlot p row
  unfold State.writeRow
  extract_lets s1 aux a ws
  have h1 : s.MemsEq s1 := s.accessRow_memsEq p row
  rw [if_neg (by simp [s1, hslot.underScrub, hscrub]), if_pos (by rw [hslot.nstState, hon])]
  split
  · refine ⟨fun b => ?_, h1.2⟩
    rw [Mem.get_cleanWords, h1.1]
  · split
    next co un _ =>
    extract_lets s2 s3
    have h3 : s.MemsEq s3 := by simp [s3, s2, h1]
    refine ⟨fun b => ?_, h3.2⟩
    rw [Mem.get_mergeAt, h3.1]

/-- A write of a granule of a present window that is on, under no scrub (R216, R217). -/
theorem State.writeGran_on {p : Pos} {g : Nat} (hon : s.granOn p g) (v : Vec) :
    (∀ a, (s.writeGran p.val g v).deck.get a = (s.deck.write (deckAddr p.val g) v.toNat (2 ^ 256 - 1) 256).get a) ∧
      (s.writeGran p.val g v).nst = s.nst ∧ (s.writeGran p.val g v).lp = s.lp := by
  obtain ⟨hhere, hpwr, hscrub⟩ := hon
  have hslot := s.accessGran_sameSlot p.val g
  unfold State.writeGran
  extract_lets s1 aux d a
  have h1 : s.MemsEq s1 := s.accessGran_memsEq p.val g
  rw [if_neg (by simp [s1, hslot.underScrub, hscrub]), if_neg (by simp [s1, hslot.deckPresent, hhere]),
    if_pos (by rw [hslot.deckState, hpwr])]
  obtain ⟨hn, hd, hl⟩ := State.bw_memsEq
    { s1 with deck := (s1.deck.write a v.toNat (2 ^ 256 - 1) 256).cleanWords a 256 } (68 + p.val) true 256
  refine ⟨fun b => ?_, hn.trans h1.1, hl.trans h1.2.2⟩
  rw [hd, Mem.get_cleanWords, h1.2.1]

/-- A read of a row of a bank that is not on (R228). -/
theorem State.readRow_off (hoff : s.nstState p row ≠ 0) (hscrub : s.underScrub 0 (nstAddr p row) = false) :
    (s.readRow p row).2 = 0 ∧ s.MemsEq (s.readRow p row).1 := by
  have hslot := s.accessRow_sameSlot p row
  unfold State.readRow
  extract_lets s1 aux a
  have h1 : s.MemsEq s1 := s.accessRow_memsEq p row
  rw [if_neg (by simp [s1, hslot.underScrub, hscrub]), if_neg (by rwa [hslot.nstState])]
  exact ⟨rfl, by simp [h1]⟩

/-- A write of such a row (R228). -/
theorem State.writeRow_off (hoff : s.nstState p row ≠ 0) (hscrub : s.underScrub 0 (nstAddr p row) = false) (v : Row)
    (mask : BitVec 64) : s.MemsEq (s.writeRow p row v mask) := by
  have hslot := s.accessRow_sameSlot p row
  unfold State.writeRow
  extract_lets s1 aux a ws
  have h1 : s.MemsEq s1 := s.accessRow_memsEq p row
  rw [if_neg (by simp [s1, hslot.underScrub, hscrub]), if_neg (by rwa [hslot.nstState])]
  simp [h1]

end

end Sys2Proof.Machine

open Sys2Proof Sys2Proof.Machine

/-- Settles O26: a write that acts is `Mem.write` of the row's or the granule's bytes, and an access of a bank that is not on leaves
the memories. -/
theorem timetabledAccess : Obligations.TimetabledAccess := by
  refine ⟨fun p s => ⟨?row, ?granule⟩, ?off⟩
  case row =>
    intro row v mask hon hscrub t
    obtain ⟨hnst, hdeck, hlp⟩ := State.writeRow_on hon hscrub v mask
    refine ⟨fun k hk => ?_, fun a ha => ?_, fun a => ⟨congrArg (Mem.get · a) hdeck, congrArg (Mem.get · a) hlp⟩⟩
    · rw [hnst, Mem.get_write_in _ _ _ _ _ _ hk, BitVec.testBit_toNat]
    · rw [hnst, Mem.get_write_out _ _ _ _ _ _ ha]
  case granule =>
    intro g v hon t
    obtain ⟨hdeck, hnst, hlp⟩ := State.writeGran_on hon v
    refine ⟨fun k hk => ?_, fun a ha => ?_, fun a => ⟨congrArg (Mem.get · a) hnst, congrArg (Mem.get · a) hlp⟩⟩
    · rw [hdeck, Mem.get_write_in _ _ _ _ _ _ hk, Nat.testBit_two_pow_sub_one, if_pos (decide_eq_true hk)]
    · rw [hdeck, Mem.get_write_out _ _ _ _ _ _ ha]
  case off =>
    intro p row v mask s hoff hscrub
    obtain ⟨hzero, hread⟩ := State.readRow_off hoff hscrub
    exact ⟨hzero, hread.sameMem, (State.writeRow_off hoff hscrub v mask).sameMem⟩
end

section
/-! Waybill contexts (R249, R261): the publication of marked granules and the limit of a wait. -/

namespace Sys2Proof.Machine

/-! ### What trace records and events leave of the contexts -/

section
variable (s : State)

@[simp] theorem State.streamRec_ctx (k event : Nat) : (s.streamRec k event).ctx = s.ctx := by
  unfold State.streamRec
  dsimp only
  split <;> rfl
@[simp] theorem State.streamRec_ctxAt (k event m : Nat) : (s.streamRec k event).ctxAt m = s.ctxAt m := by
  simp only [State.ctxAt, State.streamRec_ctx]
@[simp] theorem State.raise_ctxAt (e : Ev) (m : Nat) : (s.raise e).ctxAt m = s.ctxAt m := by
  simp only [State.ctxAt, State.raise_ctx]

/-- A context that is aborted (R261, R273). -/
def State.abortCtx (k : Nat) : State :=
  (s.setCtx k { s.ctxAt k with status := .aborted, waitFrom := none }).streamRec k 2

theorem State.abortCtx_ctxAt (k : Nat) :
    (s.abortCtx k).ctxAt k = { s.ctxAt k with status := .aborted, waitFrom := none } := by
  rw [State.abortCtx, State.streamRec_ctxAt, State.setCtx_ctxAt_same]

end

/-! ### Publication (R249) -/

/-- The state of a granule after one is set to a state that is not free. -/
theorem CtxSt.setGran_grans {st : GranSt} (h : st ≠ .free) (x : CtxSt) (g m : Nat) :
    tget (x.setGran g st).grans m .free = if m = g then st else tget x.grans m .free := by
  rw [CtxSt.setGran, if_neg h, tget_tset]

/-- Granules set one after another to one state. -/
theorem CtxSt.foldl_setGran_grans {st : GranSt} (h : st ≠ .free) (gs : List Nat) (x : CtxSt) {m : Nat}
    (hm : tget x.grans m .free = st ∨ m ∈ gs) : tget (gs.foldl (fun y g => y.setGran g st) x).grans m .free = st := by
  induction gs generalizing x with
  | nil => simpa using hm
  | cons g gs ih =>
    refine ih _ ?_
    rw [CtxSt.setGran_grans h]
    grind

/-- GRANULE_PUBLISH of a context with a buffer. -/
theorem execGranulePublish_publishes {s : State} {c : CtxId} {b : BufDesc} (hdesc : (s.ctxAt (idKey c)).desc = some b) :
    let x := s.ctxAt (idKey c)
    ∃ t, exec (.granulePublish c) s = .next t ∧
      (t.ctxAt (idKey c)).toPub = x.toPub.filter (fun g => s.openTouch (idKey c) g) ∧
      (t.ctxAt (idKey c)).grans =
        ((x.toPub.filter (fun g => !s.openTouch (idKey c) g)).foldl (fun y g => y.setGran g (.published b.uses)) x).grans := by
  refine ⟨_, by simp only [exec, execGranulePublish, hdesc]; rfl, ?_⟩
  rw [State.setCtx_ctxAt_same]
  exact ⟨rfl, rfl⟩

/-! ### The limit of a wait (R261) -/

/-- A wait past its limit aborts the context and raises fault 0x2B.01, from the leaf of the context's block. -/
theorem execWaybillWaitLimit_aborts {s : State} {c : CtxId} {t0 : Nat} (hwait : (s.ctxAt (idKey c)).waitFrom = some t0)
    (hrunning : (s.ctxAt (idKey c)).status = .running) (hruns : s.streamsRun = true)
    (hlimit : t0 + s.waitLimit.toNat * s.frm.period < s.time) :
    ∃ e : Ev, exec (.waybillWaitLimit c) s = .next ((s.abortCtx (idKey c)).raise e) := by
  simp only [exec, execWaybillWaitLimit, hwait]
  rw [if_pos (by simp [hrunning, hruns, hlimit])]
  split
  · exact ⟨_, rfl⟩
  · exact ⟨_, rfl⟩

end Sys2Proof.Machine

open Sys2Proof Sys2Proof.Machine

/-- Settles O31: the marked granules without an open write are the ones that the command sets to published; past its limit a wait
ends in an event, which leaves the aborted context. -/
theorem waybillPublicationAndLimit : Obligations.WaybillPublicationAndLimit := by
  intro c b s k x
  refine ⟨fun hdesc _ => ?_, fun t0 hwait hrunning hruns hlimit => ?_⟩
  · obtain ⟨t, hexec, htoPub, hgrans⟩ := execGranulePublish_publishes hdesc
    refine ⟨t, hexec, fun g => ?_, fun g hg hfree => ?_⟩
    · rw [htoPub, List.mem_filter]
    · rw [hgrans]
      exact CtxSt.foldl_setGran_grans (st := .published b.uses) nofun _ _ (.inr (List.mem_filter.mpr ⟨hg, by rw [hfree]; rfl⟩))
  · obtain ⟨e, hexec⟩ := execWaybillWaitLimit_aborts hwait hrunning hruns hlimit
    refine ⟨_, hexec, ?_⟩
    rw [State.raise_ctxAt, State.abortCtx_ctxAt]
    exact ⟨rfl, rfl⟩
end

section
/-! The instructions of a waybill (R253, R254, R273): the word where a context stands decides which command acts, and each command is
one update of its context. -/

namespace Sys2Proof.Machine

/-! ### The next instruction (R253) -/

/-- A context at its next instruction, with no transfer under way and no wait. -/
def CtxSt.next (x : CtxSt) : CtxSt := { x with pc := x.pc + 1, unit := 0, index := none, waitFrom := none }

/-- An instruction of the waybill follows the one where the context stands. -/
def CtxSt.HasNext (x : CtxSt) : Prop := ∃ b, x.desc = some b ∧ x.pc + 1 < b.prog.length

/-- A context with an instruction left does not end (R253). -/
theorem State.wbNext_eq {s : State} {k : Nat} (h : (s.ctxAt k).HasNext) : s.wbNext k = s.setCtx k (s.ctxAt k).next := by
  obtain ⟨b, hdesc, hmore⟩ := h
  have hlen : ¬ ((s.ctxAt k).desc.map (fun b => b.prog.length)).getD 0 ≤ (s.ctxAt k).pc + 1 := by
    rw [hdesc]
    exact Nat.not_le.mpr hmore
  exact if_neg hlen

theorem State.wbNext_ctxAt {s : State} {k : Nat} {y : CtxSt} (hy : s.ctxAt k = y) (h : y.HasNext) :
    (s.wbNext k).ctxAt k = y.next := by
  subst hy
  rw [State.wbNext_eq h, State.setCtx_ctxAt_same]

theorem exec_moves_of_setCtx {s u : State} {k : Nat} {i : Instr} {y : CtxSt} (hexec : exec i s = .next ((u.setCtx k y).wbNext k))
    (hy : y.HasNext) : ∃ t, exec i s = .next t ∧ t.ctxAt k = y.next :=
  ⟨_, hexec, State.wbNext_ctxAt (u.setCtx_ctxAt_same k y) hy⟩

/-! ### The instruction where a context stands (R253, R273) -/

/-- What a word spells is a command of a waybill, which acts through `wbGo`. -/
theorem exec_of_decodeWaybill {c : CtxId} {w : DWord} {i : Instr} (h : decodeWaybill c w = some i) :
    ∃ f, ∀ s, exec i s = .next (s.wbGo c i f) := by
  unfold decodeWaybill at h
  dsimp only at h
  split at h
  case h_11 => cases h
  all_goals
    obtain ⟨_, rfl⟩ := by simpa only [Option.ite_none_right_eq_some, Option.some.injEq] using h
    exact ⟨_, fun _ => rfl⟩

theorem exec_of_word {c : CtxId} {x : CtxSt} {i : Instr} (h : x.word.bind (decodeWaybill c) = some i) :
    ∃ f, ∀ s, exec i s = .next (s.wbGo c i f) := by
  obtain ⟨w, -, hw⟩ := Option.bind_eq_some_iff.mp h
  exact exec_of_decodeWaybill hw

/-- Context `c` runs, in no stop, and the word where it stands spells `i` (R253, R262). -/
structure State.StandsAt (s : State) (c : CtxId) (i : Instr) : Prop where
  running : (s.ctxAt (idKey c)).status = .running
  runs : s.streamsRun = true
  word : (s.ctxAt (idKey c)).word.bind (decodeWaybill c) = some i

@[simp] theorem State.ctxEvent_ctxAt (s : State) (k : Nat) (code : Code) (far m : Nat) :
    (s.ctxEvent k code far).ctxAt m = s.ctxAt m := by
  unfold State.ctxEvent State.raiseAt
  split
  · exact s.raise_ctxAt ..
  · exact s.raise_ctxAt ..

section
variable {s : State} {c : CtxId} {i : Instr} (h : s.StandsAt c i)
include h

theorem State.StandsAt.not_passed :
    ¬ ((s.ctxAt (idKey c)).status ≠ .running || !s.streamsRun ||
      (s.ctxAt (idKey c)).word.bind (decodeWaybill c) ≠ some i) = true := by
  simp [h.running, h.runs, h.word]

/-- A word that the store cannot correct aborts the context (R273). -/
theorem State.StandsAt.aborts (hbad : (s.upsetIn .context (idKey c) (s.ctxAt (idKey c)).pc 1).2 = true) :
    ∃ t, exec i s = .next t ∧ (t.ctxAt (idKey c)).status = .aborted := by
  obtain ⟨f, hexec⟩ := exec_of_word h.word
  refine ⟨_, hexec s, ?_⟩
  simp only [State.wbGo]
  rw [if_neg h.not_passed, if_pos hbad, State.ctxEvent_ctxAt]
  exact congrArg CtxSt.status (s.abortCtx_ctxAt (idKey c))

variable (hgood : s.upsetIn .context (idKey c) (s.ctxAt (idKey c)).pc 1 = (false, false))
include hgood

/-- A good word is passed over or acts. -/
theorem State.StandsAt.wbGo_good (f : State → CtxSt → State) : s.wbGo c i f =
    if (s.ctxAt (idKey c)).skip then (s.setCtx (idKey c) { s.ctxAt (idKey c) with skip := false }).wbNext (idKey c)
    else f s (s.ctxAt (idKey c)) := by
  simp only [State.wbGo, hgood]
  rw [if_neg h.not_passed, if_neg Bool.false_ne_true, if_neg Bool.false_ne_true]

/-- A skipped instruction only moves on (R253). -/
theorem State.StandsAt.skips (hskip : (s.ctxAt (idKey c)).skip = true) :
    exec i s = .next ((s.setCtx (idKey c) { s.ctxAt (idKey c) with skip := false }).wbNext (idKey c)) := by
  obtain ⟨f, hexec⟩ := exec_of_word h.word
  rw [hexec, h.wbGo_good hgood, if_pos hskip]

end

/-- Context `c` stands at `i`, in a good word, and does not skip it. -/
structure State.Executes (s : State) (c : CtxId) (i : Instr) : Prop extends s.StandsAt c i where
  good : s.upsetIn .context (idKey c) (s.ctxAt (idKey c)).pc 1 = (false, false)
  noSkip : (s.ctxAt (idKey c)).skip = false

/-- An instruction that is executed acts on its context. -/
theorem State.Executes.acts {s : State} {c : CtxId} {i : Instr} (h : s.Executes c i) {f : State → CtxSt → State}
    (hexec : exec i s = .next (s.wbGo c i f)) : exec i s = .next (f s (s.ctxAt (idKey c))) := by
  rw [hexec, h.wbGo_good h.good, if_neg (ne_true_of_eq_false h.noSkip)]

/-! ### What single instructions do (R250, R253, R254) -/

section
variable (s : State) (k : Nat)

@[simp] theorem State.closeFor_ctxAt (m : Nat) : (s.closeFor k).ctxAt m = s.ctxAt m := rfl

/-- Granules that become free change no other field of a context (R250). -/
theorem State.freePartial_ctxAt : ∃ gs, (s.freePartial k).ctxAt k = { s.ctxAt k with grans := gs } :=
  ⟨_, s.setCtx_ctxAt_same ..⟩

/-- A context that has ended runs again when a trigger was queued (R253, R255). -/
theorem State.wbEnd_ctxAt :
    ((s.wbEnd k).ctxAt k).status = (if (s.ctxAt k).queued then .running else .done) ∧
      ((s.ctxAt k).queued = true → ((s.wbEnd k).ctxAt k).pc = 0) := by
  obtain ⟨gs, hfreed⟩ := s.freePartial_ctxAt k
  unfold State.wbEnd
  dsimp only
  rw [State.closeFor_ctxAt, hfreed]
  split
  · rw [State.streamRec_ctxAt, State.setCtx_ctxAt_same]
    exact ⟨rfl, fun _ => rfl⟩
  next hqueued =>
    rw [State.setCtx_ctxAt_same]
    exact ⟨rfl, fun h => absurd h hqueued⟩

/-- A context at its next instruction, which it skips unless a condition holds (R253). -/
def State.wbPred (holds : Bool) : State :=
  let t := s.wbNext k
  let y := t.ctxAt k
  if y.status = .running && y.pc = (s.ctxAt k).pc + 1 then t.setCtx k { y with skip := !holds } else t

theorem State.wbPred_ctxAt {s : State} {k : Nat} (hrunning : (s.ctxAt k).status = .running) (hnext : (s.ctxAt k).HasNext)
    (holds : Bool) : (s.wbPred k holds).ctxAt k = { s.ctxAt k with skip := !holds }.next := by
  unfold State.wbPred
  extract_lets t y
  have hy : y = (s.ctxAt k).next := State.wbNext_ctxAt rfl hnext
  rw [hy, if_pos (by simp [CtxSt.next, hrunning]), State.setCtx_ctxAt_same]
  rfl

end

section
variable {s : State} {c : CtxId}

/-- ENDL with iterations left goes back to the body of its loop. -/
theorem execEndl_repeats {level : BitVec 3} {l : WbLoop} {r : List WbLoop} (h : s.Executes c (.endl c level))
    (hloops : (s.ctxAt (idKey c)).loops = l :: r) (hlevel : l.level = level.toNat) (hleft : l.idx + 1 < l.count) :
    exec (.endl c level) s = .next (s.setCtx (idKey c)
      { s.ctxAt (idKey c) with loops := { l with idx := l.idx + 1 } :: r, pc := l.body }) := by
  rw [h.acts rfl, hloops]
  dsimp only
  rw [if_neg (not_not_intro hlevel), if_pos hleft]

/-- ENDL after the last iteration closes its loop. -/
theorem execEndl_closes {level : BitVec 3} {l : WbLoop} {r : List WbLoop} (h : s.Executes c (.endl c level))
    (hloops : (s.ctxAt (idKey c)).loops = l :: r) (hlevel : l.level = level.toNat) (hdone : l.count ≤ l.idx + 1) :
    exec (.endl c level) s = .next ((s.setCtx (idKey c) { s.ctxAt (idKey c) with loops := r }).wbNext (idKey c)) := by
  rw [h.acts rfl, hloops]
  dsimp only
  rw [if_neg (not_not_intro hlevel), if_neg (Nat.not_lt.mpr hdone)]

/-- MARK has the granules written since the last one published (R249). -/
theorem execWaybillMark_marks (h : s.Executes c (.waybillMark c)) (hnext : (s.ctxAt (idKey c)).HasNext) :
    let x := s.ctxAt (idKey c)
    ∃ t, exec (.waybillMark c) s = .next t ∧ (t.ctxAt (idKey c)).toPub = x.toPub ++ x.written ∧
      (t.ctxAt (idKey c)).written = [] ∧ (t.ctxAt (idKey c)).pc = x.pc + 1 := by
  intro x
  obtain ⟨gs, hfreed⟩ := s.freePartial_ctxAt (idKey c)
  have hexec : exec (.waybillMark c) s = .next ((((s.freePartial (idKey c)).closeFor (idKey c)).setCtx (idKey c)
      { x with grans := gs, toPub := x.toPub ++ x.written, written := [] }).wbNext (idKey c)) := by
    rw [h.acts rfl]
    dsimp only
    rw [State.closeFor_ctxAt, hfreed]
  obtain ⟨t, ht, hmarked⟩ := exec_moves_of_setCtx hexec hnext
  refine ⟨t, ht, ?_⟩
  rw [hmarked]
  exact ⟨rfl, rfl, rfl⟩

/-- FENCE passes once no request of the waybill is open. -/
theorem execFence_passes (h : s.Executes c (.fence c)) (hopen : (s.ctxAt (idKey c)).open_ = 0) :
    exec (.fence c) s = .next ((s.closeFor (idKey c)).wbNext (idKey c)) := by
  rw [h.acts rfl]
  exact congrArg Host.Outcome.next (if_pos hopen)

theorem execFence_waits (h : s.Executes c (.fence c)) (hopen : (s.ctxAt (idKey c)).open_ ≠ 0) :
    exec (.fence c) s = .next (s.closeFor (idKey c)) := by
  rw [h.acts rfl]
  exact congrArg Host.Outcome.next (if_neg hopen)

section
variable {n : BitVec 6} {index : Word} (hindex : (s.ctxAt (idKey c)).index = some index)
include hindex

/-- An index that has been read is not read again (R254). -/
theorem State.nextIndex_held (n : Nat) : s.nextIndex (idKey c) n = (s, some index) := by
  rw [State.nextIndex, hindex]

variable {len : BitVec 7} {sc no : BitVec 16}

/-- GATHER is the transfer at its index, which issues no request at a null one. -/
theorem execGather_transfers (h : s.Executes c (.gather c len sc no n)) : exec (.gather c len sc no n) s =
    .next (s.wbTransfer (idKey c) ((index.toNat : Int) * sc.toNat) no.toInt (len.toNat + 1) (index == 0xFFFFFFFF)) := by
  rw [h.acts rfl, State.nextIndex_held hindex]

theorem execScatter_transfers (h : s.Executes c (.scatter c len sc no n)) (hnull : index ≠ 0xFFFFFFFF) :
    exec (.scatter c len sc no n) s =
      .next (s.wbTransfer (idKey c) ((index.toNat : Int) * sc.toNat) no.toInt (len.toNat + 1) false) := by
  rw [h.acts rfl, State.nextIndex_held hindex]
  exact congrArg Host.Outcome.next (if_neg hnull)

/-- SCATTER of a null index moves nothing. -/
theorem execScatter_null (h : s.Executes c (.scatter c len sc no n)) (hnull : index = 0xFFFFFFFF) :
    exec (.scatter c len sc no n) s = .next (s.wbNext (idKey c)) := by
  rw [h.acts rfl, State.nextIndex_held hindex]
  exact congrArg Host.Outcome.next (if_pos hnull)

end

end

end Sys2Proof.Machine

open Sys2Proof Sys2Proof.Machine

/-- Settles O30: an instruction that stands and is not skipped acts as its own lemma says; most of them set one field of the
context, which then moves on. -/
theorem waybillInstructions : Obligations.WaybillInstructions := by
  intro c b s k x stands moves hrunning hruns hdesc hmore
  have hnext : x.HasNext := ⟨b, hdesc, hmore⟩
  have hstands (i : Instr) (hi : stands i) : s.StandsAt c i := ⟨hrunning, hruns, hi⟩
  refine ⟨fun hbad i hi => (hstands i hi).aborts hbad, fun hgood => ⟨fun hskip i hi => ?skipped, fun hskip => ?executed⟩⟩
  case skipped => exact exec_moves_of_setCtx ((hstands i hi).skips hgood hskip) hnext
  case executed =>
    have hexec {i : Instr} (hi : stands i) : s.Executes c i := ⟨hstands i hi, hgood, hskip⟩
    refine ⟨fun v => ⟨?fbase, ?nbase, ?idxPos⟩, fun level count fs ns => ?loop, 
      fun level l r hloops hlevel => ⟨fun hleft hi => ?again, fun hdone hi => ?closes⟩,
      fun level arg => ?pred, fun hi => execWaybillMark_marks (hexec hi) hnext, fun hopen hi => ?passes, fun hopen hi => ?waits,
      fun hi => ⟨_, (hexec hi).acts rfl, s.wbEnd_ctxAt k⟩, fun len fo no hi => (hexec hi).acts rfl,
      fun len sc no n i hindex => ⟨fun hi => execGather_transfers hindex (hexec hi),
        fun hnull hi => execScatter_transfers hindex (hexec hi) hnull, fun hnull hi => ?null⟩⟩
    case fbase | nbase | idxPos | loop => exact fun hi => exec_moves_of_setCtx ((hexec hi).acts rfl) hnext
    case again => exact ⟨_, execEndl_repeats (hexec hi) hloops hlevel hleft, s.setCtx_ctxAt_same ..⟩
    case closes => exact exec_moves_of_setCtx (execEndl_closes (hexec hi) hloops hlevel hdone) hnext
    case pred =>
      have hpred {i : Instr} {holds : Bool} (hi : exec i s = .next (s.wbPred k holds)) :
          ∃ t, exec i s = .next t ∧ t.ctxAt k = { x with skip := !holds }.next :=
        ⟨_, hi, State.wbPred_ctxAt hrunning hnext holds⟩
      have hnull : (x.lastIdx == 0xFFFFFFFF) = !(x.lastIdx != 0xFFFFFFFF) := (Bool.not_not _).symm
      rw [hnull]
      exact ⟨fun hi => hpred ((hexec hi).acts rfl), fun hi => hpred ((hexec hi).acts rfl),
        fun hi => hpred ((hexec hi).acts rfl), fun hi => hpred ((hexec hi).acts rfl)⟩
    case passes => exact ⟨_, execFence_passes (hexec hi) hopen, State.wbNext_ctxAt (s.closeFor_ctxAt k k) hnext⟩
    case waits => exact ⟨_, execFence_waits (hexec hi) hopen, s.closeFor_ctxAt k k⟩
    case null => exact ⟨_, execScatter_null hindex (hexec hi) hnull, State.wbNext_ctxAt rfl hnext⟩
end

section
/-! The upkeep of a memory port (R265, R266, R269, R448): what each command leaves of the port that it names. -/

namespace Sys2Proof.Machine

section
variable (s : State)

@[simp] theorem State.count_mportAt (blk unit idx n i : Nat) : (s.count blk unit idx n).mportAt i = s.mportAt i := by
  simp only [State.mportAt, State.count_mport]
@[simp] theorem State.raise_mportAt (e : Ev) (i : Nat) : (s.raise e).mportAt i = s.mportAt i := by
  simp only [State.mportAt, State.raise_mport]

/-- A block that begins is among those of its port (R265, R266). -/
theorem State.blockPort_blocked (i key until_ : Nat) : (key, until_) ∈ ((s.blockPort i key until_).mportAt i).blocked := by
  rw [State.blockPort, State.setMport_mportAt_same]
  exact List.mem_append_right _ (List.mem_singleton_self _)

theorem State.retrainPort_blocked (i key until_ : Nat) : (key, until_) ∈ ((s.retrainPort i key until_).mportAt i).blocked := by
  rw [State.retrainPort, State.raise_mportAt, State.setMport_mportAt_same, State.count_mportAt]
  exact s.blockPort_blocked i key until_

/-- A patrol of a block finds nothing where no word of LPDDR5X has a mark (R269). -/
theorem State.patrolBlock_clean {s : State} (h : s.lp.marks = []) (i da : Nat) : s.patrolBlock i da = s := by
  rw [State.patrolBlock, h]
  exact ite_self s

theorem State.patrolLine_clean {s : State} (h : s.lp.marks = []) (i line : Nat) (blocks : List Nat) :
    blocks.foldl (fun s b => s.patrolBlock i (lineDa i line b)) s = s := by
  induction blocks with
  | nil => rfl
  | cons b blocks ih => rw [List.foldl_cons, State.patrolBlock_clean h, ih]

end

/-- A read of the oscillator blocks its channel for 1 µs, a retrain of a drifted one for 4 µs more (R265). -/
theorem execWckOscillatorRead_blocks (i : Port) (ch : Fin 4) (drifted : Bool) (s : State) :
    ∃ t, exec (.wckOscillatorRead i ch drifted) s = .next t ∧
      (64 + ch.val, s.time + if drifted then 20000 else 4000) ∈ (t.mportAt i.val).blocked := by
  refine ⟨_, rfl, ?_⟩
  cases drifted with
  | false => exact s.blockPort_blocked ..
  | true => exact State.retrainPort_blocked ..

theorem execLpddr5xPatrol_clean {s : State} (h : s.lp.marks = []) (i : Port) (line : Nat) :
    exec (.lpddr5xPatrol i line) s = .next (s.count 3 i.val 10 1) :=
  congrArg Host.Outcome.next (State.patrolLine_clean (by rw [State.count_lp, h]) i.val line _)

/-- A trained port without an access for 10 ms, while no program runs (R448). -/
theorem execSelfRefreshEntry_idle {s : State} {i : Port} (hphase : s.frm.phase = 0) (htrained : (s.mportAt i.val).trained = true)
    (hidle : (s.mportAt i.val).lastUse + 40000000 ≤ s.time) :
    exec (.selfRefreshEntry i) s = .next (s.setMport i.val { s.mportAt i.val with selfRef := true }) :=
  congrArg Host.Outcome.next (if_pos (by simp [hphase, htrained, hidle]))

end Sys2Proof.Machine

open Sys2Proof Sys2Proof.Machine

/-- Settles O34: a block stays in the port's list to the end of its command; the other commands change one field or count. -/
theorem memoryPortUpkeep : Obligations.MemoryPortUpkeep := by
  intro i s blocks
  refine ⟨fun ch bank => ⟨_, rfl, ?_⟩, fun ch => ?_, ⟨_, rfl, s.retrainPort_blocked ..⟩, fun m hm => ?_,
    fun hclean => execLpddr5xPatrol_clean hclean i, fun hphase htrained hidle => ?_⟩
  · rw [State.count_mportAt]
    exact s.blockPort_blocked ..
  · exact ⟨execWckOscillatorRead_blocks i ch false s, execWckOscillatorRead_blocks i ch true s⟩
  · refine ⟨_, congrArg Host.Outcome.next (if_neg hm), ?_⟩
    rw [State.setMport_mportAt_same]
  · refine ⟨_, execSelfRefreshEntry_idle hphase htrained hidle, ?_⟩
    rw [State.setMport_mportAt_same]
end

section
/-! Remote accumulates (R270, R271): a memory that a row has been added to, and the lane of a memory port and of a deck column. -/

namespace Sys2Proof.Machine

/-! ### A row that is written whole -/

/-- A write into memories that read the same leaves memories that read the same. -/
theorem Mem.get_write_congr {m m' : Mem} (h : ∀ b, m'.get b = m.get b) (a v mask n b : Nat) :
    (m'.write a v mask n).get b = (m.write a v mask n).get b := by
  induction n generalizing m m' a v mask with
  | zero => exact h b
  | succ n ih =>
    refine ih (fun b => ?_) _ _ _
    split
    · rw [Mem.get_set, Mem.get_set, h]
    · exact h b

/-- The bytes written without a mask are the value read (R4). -/
theorem Mem.read_write (m : Mem) (a v n : Nat) : (m.write a v (2 ^ n - 1) n).read a n = v % 2 ^ (8 * n) := by
  induction n generalizing m a v with
  | zero => exact (Nat.mod_one v).symm
  | succ n ih =>
    have hpos : 0 < 2 ^ n := Nat.two_pow_pos n
    have hbit : (2 ^ (n + 1) - 1) % 2 = 1 := by omega
    have hrest : (2 ^ (n + 1) - 1) / 2 = 2 ^ n - 1 := by omega
    rw [Mem.write, if_pos hbit, hrest, Mem.read, ih, Mem.get_write_out _ _ _ _ _ _ (by omega), Mem.get_set_same, BitVec.toNat_ofNat,
      show 8 * (n + 1) = 8 + 8 * n by omega, Nat.pow_add, Nat.mod_mul]

/-- The sum of a row of a memory and sixteen FP32 values (R270). -/
def Mem.rowSum (m : Mem) (a : Nat) (v : Row) : Row := addRows 0 (BitVec.ofNat 512 (m.read a 64)) v

/-- `m'` reads as `m` after the values of `v` have been added to its row at `a` (R270). -/
def Mem.RowAdded (m m' : Mem) (a : Nat) (v : Row) : Prop :=
  ∀ b, m'.get b = (m.write a (m.rowSum a v).toNat (2 ^ 64 - 1) 64).get b

theorem Mem.RowAdded.read {m m' : Mem} {a : Nat} {v : Row} (h : m.RowAdded m' a v) : m'.read a 64 = (m.rowSum a v).toNat := by
  rw [Mem.read_congr _ _ _ _ (fun k _ => h (a + k)), Mem.read_write]
  exact Nat.mod_eq_of_lt (m.rowSum a v).isLt

theorem Mem.RowAdded.get_out {m m' : Mem} {a : Nat} {v : Row} (h : m.RowAdded m' a v) {b : Nat} (hb : b < a ∨ a + 64 ≤ b) :
    m'.get b = m.get b := by
  rw [h, Mem.get_write_out _ _ _ _ _ _ hb]

/-! ### The lane of a memory port -/

/-- What a read meets in its block changes no byte (R269). -/
theorem State.lpMeet_reads (s : State) (i da : Nat) (code : Code) :
    (∀ b, (s.lpMeet i da code).1.lp.get b = s.lp.get b) ∧ (s.lpMeet i da code).1.nst = s.nst ∧
      (s.lpMeet i da code).1.deck = s.deck := by
  unfold State.lpMeet
  split
  next co un _ =>
  dsimp only
  split
  · simp
  · split
    · simp
    · simp

/-- An accumulate within the capacity and under no kill scrub. -/
theorem State.accLp_adds {s : State} {a : Nat} (hcap : a < s.lpCap) (hscrub : s.underScrub 2 a = false) (v : Row) :
    s.lp.RowAdded (s.accLp a v false true).lp a v ∧ (s.accLp a v false true).nst = s.nst ∧
      (s.accLp a v false true).deck = s.deck := by
  unfold State.accLp
  extract_lets i old s1 s2
  have h2 : s.MemsEq s2 := by simp [s2, s1]
  obtain ⟨hlp, hnst, hdeck⟩ := s2.lpMeet_reads i a 0x2C04
  rw [if_neg (Nat.not_le.mpr hcap), if_neg (ne_true_of_eq_false hscrub)]
  split
  next s3 un hs =>
  rw [hs] at hlp hnst hdeck
  rw [if_pos rfl]
  refine ⟨fun b => ?_, hnst.trans h2.1, hdeck.trans h2.2.1⟩
  rw [Mem.get_setPoison, Mem.get_cleanWords]
  exact Mem.get_write_congr (fun b => (hlp b).trans (congrArg (Mem.get · b) h2.2.2)) ..

/-! ### The lane of a deck column -/

/-- A tier 3 access of a granule that is on (R228). -/
theorem State.deckTier3_on {s : State} {p : Pos} {g : Nat} (hon : s.granOn p g) :
    s.deckTier3 p.val g 1 = (s.count 7 p.val 1 1, .ok) := by
  obtain ⟨hhere, hpwr, hscrub⟩ := hon
  simp [State.deckTier3, hhere, hpwr, hscrub]

/-- An untimetabled access that asks for a half-bank leaves the banks (R220). -/
theorem State.takeBank_granOn {s : State} {p : Pos} {g : Nat} (hon : s.granOn p g) (q key : Nat) :
    (s.takeBank q key).1.granOn p g := by
  unfold State.takeBank
  dsimp only
  split
  · exact hon
  · exact hon

/-- An accumulate of a row of a granule that is on. -/
theorem State.accDeck_adds {s : State} {p : Pos} {a : Nat} (hp : a / 67108864 = p.val) (ha : a % 64 = 0)
    (hon : s.granOn p (a % 67108864 / 256)) (v : Row) :
    s.deck.RowAdded (s.accDeck a v false true).deck a v ∧ (s.accDeck a v false true).nst = s.nst ∧
      (s.accDeck a v false true).lp = s.lp := by
  have hrow : a / 64 * 64 = a := Nat.div_mul_cancel (Nat.dvd_of_mod_eq_zero ha)
  unfold State.accDeck
  rw [hp, hrow]
  extract_lets q g row
  rw [show s.deckTier3 q g 1 = (s.count 7 p.val 1 1, .ok) from State.deckTier3_on hon]
  dsimp -zeta only
  extract_lets s2 old m m2 s3 s4
  have h2 : s.MemsEq s2 := by simp [s2]
  have hm : m2 = m := if_neg (by decide)
  have h4 : s4.nst = s2.nst ∧ s4.deck = m ∧ s4.lp = s2.lp := by simp [s4, s3, hm]
  obtain ⟨hnst, hdeck, hlp⟩ := h2
  obtain ⟨hnst4, hdeck4, hlp4⟩ := h4
  rw [if_pos rfl]
  refine ⟨fun b => ?_, hnst4.trans hnst, hlp4.trans hlp⟩
  rw [hdeck4]
  have hold : old = BitVec.ofNat 512 (s.deck.read a 64) := by rw [← hdeck]
  rw [Mem.get_mergeWords, hdeck, Mem.rowSum, hold]

/-! ### The command (R270, R271) -/

section
variable {s : State} {a : Nat} (hfield : a < 2 ^ 56) (halign : a % 64 = 0)
include hfield halign

theorem wfAccumulate_row : wfAccumulate a = true := by
  rw [wfAccumulate, decide_eq_true hfield, decide_eq_true halign]
  rfl

/-- A zero marker (R270). -/
theorem execRemoteAccumulate_zero (space : Fin 2) (v : Row) (poison agrees : Bool) :
    exec (.remoteAccumulate space a v true poison agrees) s = .next s := by
  simp [exec, execRemoteAccumulate, wfAccumulate_row hfield halign, State.accumulate]

/-- A row of LPDDR5X in device bias that no request of its port's queue touches. -/
theorem execRemoteAccumulate_lp (hbias : inPages s.host.devBias (a / 4096) = true)
    (hfree : ∀ r ∈ (s.queueAt (queueKey 0 (portOf a))).reqs, sameRow r.addr a = false) (v : Row) :
    exec (.remoteAccumulate 0 a v false false true) s = .next (s.accLp a v false true) := by
  have hroute : s.lpRoute a = (queueKey 0 (portOf a), a, none) := if_pos hbias
  have hnone : ((s.queueAt (queueKey 0 (portOf a))).reqs.any fun r => sameRow r.addr a) = false := by
    simpa using hfree
  simp [exec, execRemoteAccumulate, wfAccumulate_row hfield halign, State.accRoom, State.accumulate, hroute, hnone]

/-- A row of a deck granule that is on, which the save buffer of a tester holds (R237) or whose half-bank is free to take (R220). -/
theorem execRemoteAccumulate_deck {p : Pos} (hp : a / 67108864 = p.val) (hon : s.granOn p (a % 67108864 / 256))
    (hfree : s.granSaved p.val (a % 67108864 / 256) = true ∨
      (s.takeBank p.val (deckBankKey p.val (a % 67108864 / 256))).2 = .ok) (v : Row) :
    ∃ t, exec (.remoteAccumulate 1 a v false false true) s = .next (t.accDeck a v false true) ∧ s.MemsEq t ∧
      t.granOn p (a % 67108864 / 256) := by
  have hwake := State.granWake_of_granOn hon
  cases hsaved : s.granSaved p.val (a % 67108864 / 256) with
  | true =>
    refine ⟨s, ?_, .refl s, hon⟩
    simp [exec, execRemoteAccumulate, wfAccumulate_row hfield halign, hp, hsaved, State.accumulate]
  | false =>
    have hok := hfree.resolve_left (ne_true_of_eq_false hsaved)
    obtain ⟨t, ht⟩ : ∃ t, s.takeBank p.val (deckBankKey p.val (a % 67108864 / 256)) = (t, .ok) := ⟨_, Prod.ext rfl hok⟩
    have hmems := s.takeBank_memsEq p.val (deckBankKey p.val (a % 67108864 / 256))
    have hbank := State.takeBank_granOn hon p.val (deckBankKey p.val (a % 67108864 / 256))
    rw [ht] at hmems hbank
    obtain ⟨-, hpwr, -⟩ := hon
    refine ⟨t, ?_, hmems, hbank⟩
    simp [exec, execRemoteAccumulate, wfAccumulate_row hfield halign, hp, hsaved, hwake, hpwr, ht, State.accumulate]

end

end Sys2Proof.Machine

open Sys2Proof Sys2Proof.Machine

/-- Settles O35: the command is the access of one lane, which writes the sum over the row and leaves the other memories. -/
theorem remoteAccumulateAdds : Obligations.RemoteAccumulateAdds := by
  intro a v s halign hfield adds
  refine ⟨fun space po ag => execRemoteAccumulate_zero hfield halign space v po ag, fun hcap hscrub hbias hfree => ?lp,
    fun p hp => ?deck⟩
  case lp =>
    obtain ⟨hadded, hnst, hdeck⟩ := State.accLp_adds hcap hscrub v
    refine ⟨_, execRemoteAccumulate_lp hfield halign hbias hfree v, fun b => ?_, hadded.read, fun b hb => hadded.get_out hb⟩
    exact ⟨congrArg (Mem.get · b) hnst, congrArg (Mem.get · b) hdeck⟩
  case deck =>
    intro g hon hfree
    obtain ⟨t, hexec, ⟨hnst, hdeck, hlp⟩, hon'⟩ := execRemoteAccumulate_deck hfield halign hp hon hfree v
    obtain ⟨hadded, hnst', hlp'⟩ := State.accDeck_adds hp halign hon' v
    rw [hdeck] at hadded
    refine ⟨_, hexec, fun b => ?_, hadded.read, fun b hb => hadded.get_out hb⟩
    exact ⟨congrArg (Mem.get · b) (hnst'.trans hnst), congrArg (Mem.get · b) (hlp'.trans hlp)⟩
end

section
/-! A row on its way between the near side of a request and its far side (R249, R250, R258, R327): no step of it touches the Depot or
a queue of requests but the one that takes the request out. -/

namespace Sys2Proof.Machine

/-! ### The Depot and the queues left alone -/

/-- `t` has the Depot and the queues of requests of `s`. -/
@[simp] abbrev State.DepotEq (s t : State) : Prop := t.depot = s.depot ∧ t.queue = s.queue

theorem State.DepotEq.trans {s t u : State} (h : s.DepotEq t) (k : t.DepotEq u) : s.DepotEq u :=
  ⟨k.1.trans h.1, k.2.trans h.2⟩

theorem State.DepotEq.of_eq_mk {β : Type} {x : State × β} {s t : State} {v : β} (h : x = (t, v)) (hx : s.DepotEq x.1) :
    s.DepotEq t := by
  rwa [h] at hx

section
variable (s : State)

@[simp] theorem State.ite_depotEq (c : Prop) [Decidable c] (a b : State) :
    (if c then a else b).depot = (if c then a.depot else b.depot) ∧
      (if c then a else b).queue = if c then a.queue else b.queue :=
  ⟨apply_ite State.depot c a b, apply_ite State.queue c a b⟩

@[simp] theorem State.chanEvent_depotEq (code : Code) (ch ns off : Nat) : s.DepotEq (s.chanEvent code ch ns off) := by
  simp [State.chanEvent]
@[simp] theorem State.depotEvent_depotEq (code : Code) (ns off : Nat) : s.DepotEq (s.depotEvent code ns off) := by
  simp [State.depotEvent]
@[simp] theorem State.scrubRefuse_depotEq (mem a p : Nat) : s.DepotEq (s.scrubRefuse mem a p) := by
  unfold State.scrubRefuse
  split <;> simp

/-! ### LPDDR5X (R268, R269) -/

@[simp] theorem State.portUse_depotEq (i : Nat) : s.DepotEq (s.portUse i) := by simp [State.portUse]
@[simp] theorem State.lpMeet_depotEq (i da : Nat) (code : Code) : s.DepotEq (s.lpMeet i da code).1 := by
  unfold State.lpMeet
  dsimp only
  (repeat' split) <;> simp
@[simp] theorem State.lpRead_depotEq (da : Nat) : s.DepotEq (s.lpRead da).1 := by
  unfold State.lpRead State.noRow
  dsimp only
  (repeat' split) <;> simp
@[simp] theorem State.lpWrite_depotEq (da : Nat) (v : Row) (mask : BitVec 64) (poison : Bool) :
    s.DepotEq (s.lpWrite da v mask poison) := by
  unfold State.lpWrite
  dsimp only
  (repeat' split) <;> simp

/-! ### Deck granules (R217-R220) -/

@[simp] theorem State.deckTier3_depotEq (p g n : Nat) : s.DepotEq (s.deckTier3 p g n).1 := by
  unfold State.deckTier3
  dsimp only
  (repeat' split) <;> simp
@[simp] theorem State.takeBank_depotEq (p key : Nat) : s.DepotEq (s.takeBank p key).1 := by
  unfold State.takeBank
  dsimp only
  split <;> simp
@[simp] theorem State.deckTake_depotEq (p g n : Nat) : s.DepotEq (s.deckTake p g n).1 := by
  unfold State.deckTake
  split
  next t ht =>
    have h : s.DepotEq t := .of_eq_mk ht (s.deckTier3_depotEq p g n)
    split
    · exact h
    · split
      next u hu => exact h.trans (.of_eq_mk hu (t.takeBank_depotEq ..))
      · simp
  · exact s.deckTier3_depotEq p g n
@[simp] theorem State.deckAccess_depotEq (p g n : Nat) (own : Bool) : s.DepotEq (s.deckAccess p g n own).1 := by
  unfold State.deckAccess
  split <;> simp
@[simp] theorem State.deckEcc_depotEq (p a n : Nat) (quiet : Bool) : s.DepotEq (s.deckEcc p a n quiet) := by
  unfold State.deckEcc
  dsimp only
  (repeat' split) <;> simp
@[simp] theorem State.deckUnit_depotEq (p g w : Nat) (own : Bool) : s.DepotEq (s.deckUnit p g w own).1 := by
  unfold State.deckUnit
  dsimp only
  (repeat' split) <;> simp
@[simp] theorem State.putDeckUnit_depotEq (p g w : Nat) (v : Row) (poison full own : Bool) :
    s.DepotEq (s.putDeckUnit p g w v poison full own).1 := by
  unfold State.putDeckUnit
  dsimp only
  (repeat' split) <;> simp

/-! ### The near side of a request (R161, R249, R250) -/

@[simp] theorem State.nearRead_depotEq (k near : Nat) (own : Bool) : s.DepotEq (s.nearRead k near own).1 := by
  unfold State.nearRead
  dsimp only
  split <;> simp
@[simp] theorem State.nearWrite_depotEq (k near : Nat) (v : Row) (poison full own : Bool) :
    s.DepotEq (s.nearWrite k near v poison full own).1 := by
  unfold State.nearWrite
  dsimp only
  split <;> simp
@[simp] theorem State.sourceRow_depotEq (r : Req) (own : Bool) : s.DepotEq (s.sourceRow r own).1 := by
  unfold State.sourceRow
  (repeat' split) <;> simp
@[simp] theorem State.sinkRow_depotEq (r : Req) (v : Row) (poison own : Bool) : s.DepotEq (s.sinkRow r v poison own).1 := by
  unfold State.sinkRow
  dsimp only
  (repeat' split) <;> simp
@[simp] theorem State.unitDone_depotEq (r : Req) : s.DepotEq (s.unitDone r) := by
  unfold State.unitDone
  dsimp only
  (repeat' split) <;> simp

/-! ### A request leaves its queue (R258, R327) -/

@[simp] theorem State.dequeue_depot (qk id : Nat) : (s.dequeue qk id).depot = s.depot := by simp [State.dequeue]
@[simp] theorem State.served_depot (qk : Nat) (r : Req) : (s.served qk r).depot = s.depot := by simp [State.served]

theorem State.dequeue_reqs (qk id : Nat) :
    ((s.dequeue qk id).queueAt qk).reqs = (s.queueAt qk).reqs.filter (fun r => r.id != id) := by
  simp [State.dequeue]
theorem State.served_reqs (qk : Nat) (r : Req) : ((s.served qk r).queueAt qk).reqs = (s.queueAt qk).reqs := by
  simp [State.served]

theorem State.DepotEq.queueAt {s t : State} (h : s.DepotEq t) (qk : Nat) : t.queueAt qk = s.queueAt qk := by
  rw [State.queueAt, State.queueAt, h.2]

theorem State.not_mem_dequeue (qk id : Nat) : ∀ x ∈ ((s.dequeue qk id).queueAt qk).reqs, x.id ≠ id := by
  simp [State.dequeue_reqs]

/-- Where a channel is done with request `r` of its queue, seen from the state `s` that the command met. -/
def State.chanDone (s t : State) (ch : Nat) (r : Req) : State :=
  let u := ((t.dequeue (queueKey 1 ch) r.id).served (queueKey 1 ch) r).unitDone r
  if s.isLate r then u.count 4 ch 5 1 else u

theorem State.chanDone_depot (t : State) (ch : Nat) (r : Req) : (s.chanDone t ch r).depot = t.depot := by
  simp [State.chanDone]

theorem State.not_mem_chanDone (t : State) (ch : Nat) (r : Req) :
    ∀ x ∈ ((s.chanDone t ch r).queueAt (queueKey 1 ch)).reqs, x.id ≠ r.id := by
  have hdone : State.DepotEq ((t.dequeue (queueKey 1 ch) r.id).served (queueKey 1 ch) r) (s.chanDone t ch r) := by
    simp [State.chanDone]
  rw [hdone.queueAt, State.served_reqs]
  exact State.not_mem_dequeue t _ _

theorem State.failReq_depotEq (qk : Nat) (r : Req) (v : Row) : (s.dequeue qk r.id).DepotEq (s.failReq qk r v) := by
  simp [State.failReq]

end

end Sys2Proof.Machine
end

section
/-! The Depot's own tables (R300, R311, R314-R318): placement, moves and retirement leave the contents, the mapped image and what they
do not name of the blocks and the LUNs. -/

namespace Sys2Proof.Machine

/-- `e` has the contents, the mapped image, the blocks and the failed LUNs of `d`. -/
@[simp] abbrev DepotSt.KeepsFlash (d e : DepotSt) : Prop :=
  e.data = d.data ∧ e.mapped = d.mapped ∧ e.blocks = d.blocks ∧ e.lunDead = d.lunDead

theorem DepotSt.foldl_keeps {α β : Type} (g : DepotSt → β) (f : DepotSt → α → DepotSt) (h : ∀ d a, g (f d a) = g d) (l : List α)
    (d : DepotSt) : g (l.foldl f d) = g d := by
  induction l generalizing d with
  | nil => rfl
  | cons a l ih => rw [List.foldl_cons, ih, h]

section
variable (d : DepotSt)

@[simp] theorem DepotSt.place_keepsFlash : d.KeepsFlash d.place.1 := by
  unfold DepotSt.place
  dsimp only
  split <;> simp

@[simp] theorem DepotSt.moveUnits_keepsFlash (p : Nat → Nat × Nat → Bool) : d.KeepsFlash (d.moveUnits p) := by
  have hmoved : ((d.moveUnits p).data, (d.moveUnits p).mapped, (d.moveUnits p).blocks, (d.moveUnits p).lunDead) =
      (d.data, d.mapped, d.blocks, d.lunDead) :=
    DepotSt.foldl_keeps (fun e => (e.data, e.mapped, e.blocks, e.lunDead)) _ (fun e unit => by dsimp only; split <;> simp) d.map d
  simpa using hmoved

@[simp] theorem DepotSt.addDead_keepsFlash (x : DeadLetter) : d.KeepsFlash (d.addDead x) := by
  unfold DepotSt.addDead
  split <;> simp

@[simp] theorem DepotSt.setChan_keepsFlash (c : Nat) (x : DepotChan) : d.KeepsFlash (d.setChan c x) := by
  simp [DepotSt.setChan]

@[simp] theorem DepotSt.setChan_chanAt_same (c : Nat) (x : DepotChan) : (d.setChan c x).chanAt c = x := tget_tset_same _ _ _ _

/-- R317's read-only rule changes the state of the Depot and nothing else. -/
theorem DepotSt.wearOut_eq : d.wearOut = d ∨ d.wearOut = { d with state := 2 } := by
  unfold DepotSt.wearOut
  dsimp only
  split
  · exact .inr rfl
  · exact .inl rfl

@[simp] theorem DepotSt.wearOut_keepsFlash : d.KeepsFlash d.wearOut := by
  rcases d.wearOut_eq with h | h <;> rw [h] <;> simp
@[simp] theorem DepotSt.wearOut_map : d.wearOut.map = d.map := by rcases d.wearOut_eq with h | h <;> rw [h]
@[simp] theorem DepotSt.wearOut_uids : d.wearOut.uids = d.uids := by rcases d.wearOut_eq with h | h <;> rw [h]

end

section
variable (s : State)

@[simp] theorem State.chanUse_data (c : Nat) : (s.chanUse c).depot.data = s.depot.data := by simp [State.chanUse]

/-! ### Retirement and failed LUNs (R314) -/

/-- A block is retired after its retirement, whether it was before or is now. -/
theorem State.retireBlock_retired (b : BlockId) (reason : Nat) :
    (tget (s.retireBlock b reason).depot.blocks (blockKey b) .reset).retired = true := by
  unfold State.retireBlock
  dsimp only
  split
  · assumption
  · simp

@[simp] theorem State.retireBlock_data (b : BlockId) (reason : Nat) : (s.retireBlock b reason).depot.data = s.depot.data := by
  unfold State.retireBlock
  dsimp only
  split <;> simp

@[simp] theorem State.retireBlock_mapped (b : BlockId) (reason : Nat) :
    (s.retireBlock b reason).depot.mapped = s.depot.mapped := by
  unfold State.retireBlock
  dsimp only
  split <;> simp

theorem State.failLun_dead (ch target lun : Nat) :
    tget (s.failLun ch target lun).depot.lunDead (lunKey ch target lun) false = true := by
  unfold State.failLun
  dsimp only
  split
  · assumption
  · simp [apply_ite DepotSt.lunDead]

/-! ### Wear (R318) -/

@[simp] theorem State.wearCheck_keeps : s.wearCheck.depot.blocks = s.depot.blocks ∧ s.wearCheck.depot.state = s.depot.state ∧
    s.wearCheck.depot.uids = s.depot.uids := by
  have hfold : (s.wearCheck.depot.blocks, s.wearCheck.depot.state, s.wearCheck.depot.uids) =
      (s.depot.blocks, s.depot.state, s.depot.uids) :=
    foldl_keeps (fun t : State => (t.depot.blocks, t.depot.state, t.depot.uids)) _ (fun t pct => by split <;> simp) _ _
  simpa using hfold

/-! ### Reads (R309, R312, R313) -/

@[simp] theorem State.recover_data (ch ns off step : Nat) : (s.recover ch ns off step).1.depot.data = s.depot.data := by
  unfold State.recover
  dsimp only
  (repeat' split) <;> simp

@[simp] theorem State.depotRead_data (ch ns off step : Nat) : (s.depotRead ch ns off step).1.depot.data = s.depot.data := by
  unfold State.depotRead
  dsimp only
  (repeat' split) <;> simp

end

end Sys2Proof.Machine
end

section
/-! The commands of a Depot channel (R258, R296, R307-R314, R327): what each leaves, one lemma for each case. -/

namespace Sys2Proof.Machine

/-! ### Writes and reads (R258, R307-R313, R317) -/

theorem DepotSt.accept_get (d : DepotSt) (ns off now : Nat) (v : Row) (poison : Bool) (b : Nat) :
    (d.accept ns off now v poison).data.get b = (d.data.write (flashAddr ns off) v.toNat (2 ^ 64 - 1) 64).get b :=
  Mem.get_setPoison _ _ _ _

/-- A channel takes the row of write request `r` into its buffer. -/
def State.chanAccept (s : State) (ch : Nat) (r : Req) (now : Nat) (v : Row) (poison : Bool) : State :=
  (((s.chanUse ch).onDepot (fun d =>
    d.accept (r.addr / 1125899906842624) (r.addr % 1125899906842624) now v poison)).count 4 ch 1 64).bw (16 + ch) true 64

theorem State.chanAccept_get (s : State) (ch : Nat) (r : Req) (now : Nat) (v : Row) (poison : Bool) (b : Nat) :
    (s.chanAccept ch r now v poison).depot.data.get b =
      (s.depot.data.write (flashAddr (r.addr / 1125899906842624) (r.addr % 1125899906842624)) v.toNat (2 ^ 64 - 1) 64).get b := by
  rw [State.chanAccept, State.bw_depot, State.count_depot, State.onDepot_depot, DepotSt.accept_get, State.chanUse_data]

section
variable {ch : Chan} {s : State} {r : Req}

theorem execDepotWriteRequest_readOnly (hpick : (s.chanPick ch.val).filter (fun r => r.isWrite) = some r)
    (hstate : s.depot.state = 2) : exec (.depotWriteRequest ch) s = .next (s.chanDone
      (s.depotEvent 0x2E0A (r.addr / 1125899906842624) (r.addr % 1125899906842624)) ch.val r) := by
  show execDepotWriteRequest ch s = _
  unfold execDepotWriteRequest
  rw [hpick]
  exact congrArg Host.Outcome.next (if_pos hstate)

theorem execDepotWriteRequest_meets {u : State} {v : Row} {po : Bool} {acc : Access}
    (hpick : (s.chanPick ch.val).filter (fun r => r.isWrite) = some r) (hstate : s.depot.state ≠ 2)
    (hrow : s.sourceRow r true = (u, v, po, acc)) : exec (.depotWriteRequest ch) s = .next (
      if acc = .wait then s.waitBank u (.depotWriteRequest ch)
      else if acc = .refused then s.chanDone u ch.val r
      else s.chanDone (u.chanAccept ch.val r s.time v po) ch.val r) := by
  show execDepotWriteRequest ch s = _
  unfold execDepotWriteRequest
  rw [hpick]
  dsimp only
  rw [if_neg hstate, hrow]
  rfl

theorem execDepotReadRequest_meets {u w : State} {v : Row} {po : Bool} {acc : Access} {rec_ : Fin 6}
    (hpick : (s.chanPick ch.val).filter (fun r => !r.isWrite) = some r)
    (hread : s.depotRead ch.val (r.addr / 1125899906842624) (r.addr % 1125899906842624) rec_.val = (u, v, po))
    (hsink : u.sinkRow r v po true = (w, acc)) : exec (.depotReadRequest ch rec_) s = .next (
      if acc = .wait then s.waitBank w (.depotReadRequest ch rec_) else s.chanDone w ch.val r) := by
  show execDepotReadRequest ch rec_ s = _
  unfold execDepotReadRequest
  rw [hpick]
  dsimp only
  rw [hread]
  dsimp only
  rw [hsink]
  rfl

theorem execDepotRequestTimeout_fails {id : Nat}
    (hdue : (s.queueAt (queueKey 1 ch.val)).reqs.find? (fun r => r.id == id && decide (r.issued + 40000000 ≤ s.time)) = some r) :
    ∃ (u : State) (v : Row), s.DepotEq u ∧
      exec (.depotRequestTimeout ch id) s = .next (u.failReq (queueKey 1 ch.val) r v) := by
  let x := (s.chanEvent 0x2E0D ch.val (r.addr / 1125899906842624) (r.addr % 1125899906842624)).noRow
  refine ⟨x.1, x.2, by simp [x, State.noRow], ?_⟩
  show execDepotRequestTimeout ch id s = _
  unfold execDepotRequestTimeout
  dsimp only
  rw [hdue]

end

/-! ### Programs (R296, R311, R314) -/

theorem execJournalProgram_durable {s : State} (hrecords : s.depot.journal ≠ 0) (hready : s.depot.readable = true) :
    ∃ t, exec .journalProgram s = .next t ∧ t.depot.durable = s.depot.mapped ∧ t.depot.journal = 0 :=
  ⟨_, congrArg Host.Outcome.next (if_neg (by simp [hrecords, hready])), rfl, rfl⟩

/-- The unit of a channel buffer whose block has been retired is placed anew (R314). -/
def State.placeAnew (s : State) (y : DepotUnit) : State := s.onDepot (fun d =>
  let (d, c, n) := d.place
  { d with bufs := d.bufs.map (fun x => if x = y then { x with chan := c, stripe := n } else x) })

@[simp] theorem State.placeAnew_keepsFlash (s : State) (y : DepotUnit) : s.depot.KeepsFlash (s.placeAnew y).depot := by
  simp [State.placeAnew]

theorem State.foldl_placeAnew_keeps (s : State) (l : List DepotUnit) :
    (l.foldl State.placeAnew s).depot.mapped = s.depot.mapped ∧ (l.foldl State.placeAnew s).depot.blocks = s.depot.blocks := by
  have h := foldl_keeps (fun t : State => (t.depot.mapped, t.depot.blocks)) State.placeAnew (fun t y => by simp) l s
  simpa using h

section
variable {ch : Chan} {s : State} {u : DepotUnit}

theorem execOnfiStatusPoll_ends (hunit : s.depot.oldestClosed ch.val = some u)
    (hstate : s.depot.state = 1 ∨ s.depot.state = 2) (hflush : s.depot.flushing = false) (opFailed : Bool) :
    exec (.onfiStatusPoll ch opFailed) s = .next (
      let b := s.depot.blockOf u.chan u.stripe
      if opFailed then
        let t := s.retireBlock b 1
        (t.depot.bufs.filter (fun x => x.chan == u.chan && t.depot.blockOf x.chan x.stripe == b)).foldl State.placeAnew t
      else ((s.onDepot (fun d => { d with
          lunFails := tdel d.lunFails (lunKey b.chan.val b.target.val b.lun.val) })).onDepot
            (fun d => (d.mapUnit u).wearOut)).count 4 ch.val 2 65536) := by
  show execOnfiStatusPoll ch opFailed s = _
  unfold execOnfiStatusPoll
  rw [hunit]
  refine congrArg Host.Outcome.next (if_neg ?_)
  rcases hstate with h | h <;> simp [h, hflush]

theorem execOnfiStatusPoll_maps (hunit : s.depot.oldestClosed ch.val = some u)
    (hstate : s.depot.state = 1 ∨ s.depot.state = 2) (hflush : s.depot.flushing = false) :
    ∃ t, exec (.onfiStatusPoll ch false) s = .next t ∧
      tfind t.depot.map (unitKey u.ns u.unit) = some (u.chan, u.stripe) := by
  refine ⟨_, execOnfiStatusPoll_ends hunit hstate hflush false, ?_⟩
  simp [DepotSt.mapUnit, tfind_tset_same]

theorem execOnfiStatusPoll_retires (hunit : s.depot.oldestClosed ch.val = some u)
    (hstate : s.depot.state = 1 ∨ s.depot.state = 2) (hflush : s.depot.flushing = false) :
    ∃ t, exec (.onfiStatusPoll ch true) s = .next t ∧ t.depot.mapped = s.depot.mapped ∧
      (tget t.depot.blocks (blockKey (s.depot.blockOf u.chan u.stripe)) .reset).retired = true := by
  refine ⟨_, execOnfiStatusPoll_ends hunit hstate hflush true, ?_⟩
  dsimp only
  rw [if_pos rfl, (State.foldl_placeAnew_keeps _ _).1, (State.foldl_placeAnew_keeps _ _).2]
  exact ⟨s.retireBlock_mapped .., s.retireBlock_retired ..⟩

end

end Sys2Proof.Machine

open Sys2Proof Sys2Proof.Machine

/-- Settles O49: the near side of a request leaves the Depot, so that a write puts its row over the old contents and a read, a refused
or a timed out request leaves them; what is done with a request takes it out of the queue. -/
theorem depotRequests : Obligations.DepotRequests := by
  intro ch s qk leaves
  refine ⟨fun r hpick => ⟨fun hstate => ?dropped, fun hstate u v po acc hrow => ?write⟩,
    fun r u w v po acc rec_ hpick hread hsink => ?read, fun r id hdue => ?timeout, fun ns unit => rfl,
    execJournalProgram_durable, fun u hunit hstate hflush =>
      ⟨execOnfiStatusPoll_maps hunit hstate hflush, execOnfiStatusPoll_retires hunit hstate hflush⟩⟩
  case dropped =>
    refine ⟨_, execDepotWriteRequest_readOnly hpick hstate, s.not_mem_chanDone _ _ _, fun b => ?_⟩
    rw [State.chanDone_depot, (s.depotEvent_depotEq ..).1]
  case write =>
    have hexec := execDepotWriteRequest_meets hpick hstate hrow
    obtain ⟨hdepot, -⟩ := State.DepotEq.of_eq_mk hrow (s.sourceRow_depotEq r true)
    refine ⟨?ok, ?refused, ?wait⟩ <;> rintro rfl
    case ok =>
      refine ⟨s.chanDone (u.chanAccept ch.val r s.time v po) ch.val r, hexec, s.not_mem_chanDone _ _ _, fun k hk => ?_,
        fun b hb => ?_⟩ <;> rw [State.chanDone_depot, State.chanAccept_get]
      · rw [Mem.get_write_in _ _ _ _ _ _ hk, Nat.testBit_two_pow_sub_one, decide_eq_true hk, if_pos rfl]
      · rw [Mem.get_write_out _ _ _ _ _ _ hb, hdepot]
    case refused =>
      refine ⟨s.chanDone u ch.val r, hexec, s.not_mem_chanDone _ _ _, fun b => ?_⟩
      rw [State.chanDone_depot, hdepot]
    case wait => exact hexec
  case read =>
    have hexec := execDepotReadRequest_meets hpick hread hsink
    refine ⟨fun hacc => ⟨_, hexec.trans (congrArg _ (if_neg hacc)), s.not_mem_chanDone _ _ _, fun b => ?_⟩,
      fun hacc => hexec.trans (congrArg _ (if_pos hacc))⟩
    have hdata := s.depotRead_data ch.val (r.addr / 1125899906842624) (r.addr % 1125899906842624) rec_.val
    rw [hread] at hdata
    rw [State.chanDone_depot, (State.DepotEq.of_eq_mk hsink (u.sinkRow_depotEq r v po true)).1, hdata]
  case timeout =>
    obtain ⟨u, v, hu, hexec⟩ := execDepotRequestTimeout_fails hdue
    have hfail := u.failReq_depotEq (queueKey 1 ch.val) r v
    refine ⟨_, hexec, ?_, fun b => ?_⟩
    · rw [hfail.queueAt]
      exact u.not_mem_dequeue _ _
    · rw [hfail.1, State.dequeue_depot, hu.1]
end

section
/-! The upkeep of the Depot (R294-R298, R311-R317, R319, R320, R448): what each command leaves, one lemma for each. -/

namespace Sys2Proof.Machine

/-! ### Messages of the part stay, Courier packets apart, which the root may take back (R61, R209) -/

theorem State.mem_cluSpoil_out {s : State} {o : OutMsg} (h : o ∈ s.out) (j : Nat) (code : Code) :
    o ∈ (s.cluSpoil j code).out := by
  unfold State.cluSpoil
  dsimp only
  split <;> simp [h]

theorem State.mem_notify_out {s : State} {o : OutMsg} (h : o ∈ s.out) (e : Ev) : o ∈ (s.notify e).out := by
  unfold State.notify
  split <;> simp [h]

section
variable {s : State} {o : OutMsg} (ho : ∀ beats, o ≠ .courier beats)
include ho

theorem State.mem_closeAgain_out (h : o ∈ s.out) (armed : Bool) (mode : BitVec 1) : o ∈ (s.closeAgain armed mode).out := by
  rw [State.closeAgain]
  simp only [State.logEvent_out, State.count_out]
  exact List.mem_map.mpr ⟨o, h, if_neg (by simpa [courierMsg] using ho _)⟩

theorem State.mem_rootSpoil_out (h : o ∈ s.out) (step : Bool) : o ∈ (s.rootSpoil step).out := by
  unfold State.rootSpoil
  dsimp only
  (repeat' split) <;> simp [h, State.mem_closeAgain_out ho h]

theorem State.mem_sendSpoil_out (h : o ∈ s.out) (e : Ev) : o ∈ (s.sendSpoil e).out := by
  unfold State.sendSpoil
  split
  · exact State.mem_cluSpoil_out h ..
  · exact State.mem_rootSpoil_out ho h _

/-- The record, NOTIFY, the suspect rule and the spoil, in the order in which an event raises them. -/
theorem State.mem_raise_out (h : o ∈ s.out) (e : Ev) : o ∈ (s.raise e).out := by
  unfold State.raise
  extract_lets sus s1 s2 told s3 upd s4
  have hrecord : o ∈ s2.out := by simpa [s2, s1] using h
  have htold : o ∈ told.out := by
    unfold told
    split
    · exact hrecord
    · exact State.mem_notify_out hrecord e
  have hsuspect : o ∈ s4.out := by
    unfold s4 s3
    (repeat' split) <;> simpa using htold
  split
  · exact hsuspect
  · exact State.mem_sendSpoil_out ho hsuspect e

theorem State.mem_chanEvent_out (h : o ∈ s.out) (code : Code) (ch ns off : Nat) : o ∈ (s.chanEvent code ch ns off).out :=
  State.mem_raise_out ho h _

theorem State.mem_failLun_out (h : o ∈ s.out) (ch target lun : Nat) : o ∈ (s.failLun ch target lun).out := by
  unfold State.failLun
  dsimp only
  split
  · exact h
  · exact State.mem_chanEvent_out ho (State.mem_chanEvent_out ho (by rwa [State.onDepot_out]) ..) ..

end

/-! ### Blocks and LUNs (R298, R314, R316) -/

theorem State.eraseBlock_block (s : State) (k c : Nat) :
    let x := tget s.depot.blocks k .reset
    tget (s.eraseBlock k c).depot.blocks k .reset = { x with erases := x.erases + 1, reads := 0, refresh := false } := by
  simp [State.eraseBlock]

/-- A timeout of a LUN is counted and told, and the LUN fails with the second one in a row (R298). -/
theorem execOnfiTimeout_resets (ch : Chan) (tg lun : Fin 8) (s : State) :
    let k := lunKey ch.val tg.val lun.val
    ∃ t, exec (.onfiTimeout ch tg lun) s = .next t ∧ OutMsg.onfi ch.val 0xFF k ∈ t.out ∧
      (1 ≤ tget s.depot.lunFails k 0 → tget t.depot.lunDead k false = true) := by
  intro k
  let u : State := ((s.onDepot (fun d => { d with lunFails := tset d.lunFails k (tget s.depot.lunFails k 0 + 1) })).chanEvent
    0x2E05 ch.val 0 k).emit (.onfi ch.val 0xFF k)
  have htold : OutMsg.onfi ch.val 0xFF k ∈ u.out := by simp [u]
  refine ⟨if 2 ≤ tget s.depot.lunFails k 0 + 1 then u.failLun ch.val tg.val lun.val else u, rfl, ?_, fun hagain => ?_⟩
  · split
    · exact State.mem_failLun_out (by simp) htold ..
    · exact htold
  · rw [if_pos (by omega)]
    exact u.failLun_dead ..

section
variable {b : BlockId} {s : State}

theorem execDepotPatrol_queues (hready : s.depot.readable = true)
    (hlive : (tget s.depot.blocks (blockKey b) .reset).retired = false)
    (hunits : s.depot.map.any (fun e => s.depot.inBlock b e.2) = true) {bits : Nat} (hbits : 180 < bits) :
    ∃ t, exec (.depotPatrol b bits) s = .next t ∧ (tget t.depot.blocks (blockKey b) .reset).refresh = true := by
  refine ⟨_, congrArg Host.Outcome.next (if_pos (by simp [hready, hlive, hunits])), ?_⟩
  simp [hbits]

theorem execDepotRefresh_frees (hmove : s.depot.mayMove = true)
    (hqueued : (tget s.depot.blocks (blockKey b) .reset).refresh = true)
    (hlive : (tget s.depot.blocks (blockKey b) .reset).retired = false) : ∃ t, exec (.depotRefresh b) s = .next t ∧
      (tget t.depot.blocks (blockKey b) .reset).refresh = false ∧
      (tget t.depot.blocks (blockKey b) .reset).erases = (tget s.depot.blocks (blockKey b) .reset).erases + 1 := by
  refine ⟨_, congrArg Host.Outcome.next (if_pos (by simp [hmove, hqueued, hlive])), ?_⟩
  simp [State.eraseBlock_block]

end

/-! ### Moves (R311, R317) -/

/-- Whether wear levelling of a channel moves a unit: it lies in the channel, in a block with more than 200 erases less than the
channel's highest. -/
def DepotSt.levels (d : DepotSt) (ch : Nat) (_key : Nat) (loc : Nat × Nat) : Bool :=
  let hi := ((d.blocks.filter (fun b => b.1 / 134217728 == ch)).map (fun b => b.2.erases)).foldl max 0
  loc.1 == ch && decide ((tget d.blocks (blockKey (d.blockOf loc.1 loc.2)) .reset).erases + 200 < hi)

theorem DepotSt.chan_of_levels {d : DepotSt} {ch key : Nat} {loc : Nat × Nat} (h : d.levels ch key loc = true) : loc.1 = ch := by
  simp only [DepotSt.levels, Bool.and_eq_true, beq_iff_eq] at h
  exact h.1

theorem execWearLevelling_levels {ch : Chan} {s : State} (hmove : s.depot.mayMove = true) :
    exec (.wearLevelling ch) s = .next (s.onDepot (fun d => d.moveUnits (s.depot.levels ch.val))) :=
  congrArg Host.Outcome.next (if_pos hmove)

/-! ### Channels (R297, R448) -/

theorem execDepotChannelRetrain_blocks (ch : Chan) (s : State) :
    ∃ t, exec (.depotChannelRetrain ch) s = .next t ∧ (t.depot.chanAt ch.val).blocked = s.time + 400000 := by
  refine ⟨_, rfl, ?_⟩
  rw [(State.chanEvent_depotEq ..).1, State.onDepot_depot, DepotSt.setChan_chanAt_same]

theorem execDepotChannelStandby_idle {ch : Chan} {s : State} (hnone : (s.queueAt (queueKey 1 ch.val)).reqs = [])
    (hidle : (s.depot.chanAt ch.val).lastUse + 4000000 ≤ s.time) :
    ∃ t, exec (.depotChannelStandby ch) s = .next t ∧ (t.depot.chanAt ch.val).standby = true := by
  refine ⟨_, congrArg Host.Outcome.next (if_pos (by simp [hnone, hidle])), ?_⟩
  rw [State.onDepot_depot, DepotSt.setChan_chanAt_same]

/-! ### Bring-up and flush (R297, R315, R319, R320) -/

/-- A channel is trained, with the targets that the media name. -/
def DepotSt.trainChan (step : Nat) (d : DepotSt) (c : Nat) : DepotSt :=
  d.setChan c { d.chanAt c with trained := true, targets := Config.flashTargets, luns := Config.flashLuns
                                step := BitVec.ofNat 2 step }

/-- The channels are trained and the unique IDs of their targets found. -/
def State.depotFound (s : State) (uids : List Nat) : State := s.onDepot (fun d =>
  { (List.range 32).foldl (DepotSt.trainChan s.pwr.depotStep) d with found := 0 :: uids })

theorem State.depotFound_keeps (s : State) (uids : List Nat) :
    (s.depotFound uids).depot.state = s.depot.state ∧ (s.depotFound uids).depot.uids = s.depot.uids := by
  have h := DepotSt.foldl_keeps (fun d => (d.state, d.uids)) (DepotSt.trainChan s.pwr.depotStep) (fun d c => rfl)
    (List.range 32) s.depot
  simpa [State.depotFound] using h

/-- A Depot of the recorded targets, ready; without recorded targets those found are recorded. -/
def DepotSt.ready (d : DepotSt) (torn : Bool) (uids : List Nat) : DepotSt :=
  { d with state := 1, torn := torn, uids := if d.uids = [] then uids else d.uids }.wearOut

theorem DepotSt.ready_state (d : DepotSt) (torn : Bool) (uids : List Nat) :
    (d.ready torn uids).state = 1 ∨ (d.ready torn uids).state = 2 := by
  rcases DepotSt.wearOut_eq { d with state := 1, torn := torn, uids := if d.uids = [] then uids else d.uids } with h | h
  · exact .inl (congrArg DepotSt.state h)
  · exact .inr (congrArg DepotSt.state h)

theorem DepotSt.ready_uids (d : DepotSt) (torn : Bool) (uids : List Nat) :
    (d.ready torn uids).uids = if d.uids = [] then uids else d.uids := DepotSt.wearOut_uids _

/-- The Depot becomes ready, torn where no flush-complete record is found. -/
def State.depotReady (s : State) (uids : List Nat) : State :=
  let torn := s.depot.formatted && !s.depot.clean
  let s := s.onDepot (fun d => d.ready torn uids)
  let s := if s.depot.formatted then s.wearCheck else s
  if torn then s.depotEvent 0x2E0C 0 0 else s

theorem State.depotReady_keeps (s : State) (uids : List Nat) : ∃ torn,
    (s.depotReady uids).depot.state = (s.depot.ready torn uids).state ∧
      (s.depotReady uids).depot.uids = (s.depot.ready torn uids).uids := by
  refine ⟨s.depot.formatted && !s.depot.clean, ?_⟩
  unfold State.depotReady
  dsimp only
  (repeat' split) <;> simp

theorem execDepotBringUp_off {s : State} {uids : List Nat} (hfield : uids.length ≤ 2048) (hoff : s.depot.state = 0)
    (hfound : s.depot.found = []) (hfw : s.post.firmware = true) : exec (.depotBringUp uids) s = .next (
      if s.depot.uids ≠ [] && s.depot.uids ≠ uids then s.depotFound uids else (s.depotFound uids).depotReady uids) := by
  show execDepotBringUp uids s = _
  unfold execDepotBringUp
  rw [if_pos (by rw [wfUids, decide_eq_true hfield]), if_neg (by simp [hoff, hfound, hfw])]
  refine congrArg Host.Outcome.next ?_
  rw [← (s.depotFound_keeps uids).2]
  rfl

theorem execDepotFlushComplete_halts {s : State} (hflush : s.depot.flushing = true) (hreset : s.pins.resetN = true) :
    ∃ t, exec .depotFlushComplete s = .next t ∧ t.depot.state = 3 ∧ t.depot.flushed = true := by
  refine ⟨_, congrArg Host.Outcome.next ((if_pos hflush).trans (if_pos hreset)), ?_⟩
  rw [(State.depotEvent_depotEq ..).1]
  exact ⟨rfl, rfl⟩

end Sys2Proof.Machine

open Sys2Proof Sys2Proof.Machine

/-- Settles O50: one lemma a command. That a retrain lasts 100 µs and that a refresh erases its block at once is the model's choice. -/
theorem depotUpkeep : Obligations.DepotUpkeep := by
  intro ch tg lun b s k x
  refine ⟨fun hready r => congrArg Host.Outcome.next (if_pos hready), fun _ r => s.retireBlock_retired b r,
    ⟨_, rfl, s.failLun_dead ..⟩, execOnfiTimeout_resets ch tg lun s, fun hready hlive hunits bits =>
      execDepotPatrol_queues hready hlive hunits, execDepotRefresh_frees, fun hmove ns unit =>
      congrArg Host.Outcome.next (if_pos hmove), fun hmove =>
      ⟨_, execWearLevelling_levels hmove, fun key loc => DepotSt.chan_of_levels⟩,
    execDepotChannelRetrain_blocks ch s, execDepotChannelStandby_idle,
    fun uids hfield hoff hfound hfw hrecorded hother => ?other, fun uids hfield hoff hfound hfw hsame => ?same,
    execDepotFlushComplete_halts⟩
  case other =>
    refine ⟨_, (execDepotBringUp_off hfield hoff hfound hfw).trans (congrArg _ (if_pos (by simp [hrecorded, hother]))), ?_⟩
    rw [(s.depotFound_keeps uids).1, hoff]
  case same =>
    have hown : ¬(s.depot.uids ≠ [] && s.depot.uids ≠ uids) = true := by rcases hsame with h | h <;> simp [h]
    obtain ⟨torn, hstate, huids⟩ := (s.depotFound uids).depotReady_keeps uids
    refine ⟨_, (execDepotBringUp_off hfield hoff hfound hfw).trans (congrArg _ (if_neg hown)), ?_, ?_⟩
    · rw [hstate]
      exact DepotSt.ready_state ..
    · rw [huids, DepotSt.ready_uids, (s.depotFound_keeps uids).2]
      rcases hsame with h | h <;> simp [h]
end

section
/-! Pontoon's links (R329-R337): what the operations of a port and the events of a link leave of the rest of Pontoon, and a lane that
fails. -/

namespace Sys2Proof.Machine

section
variable (s : State)

/-! ### Events and ports -/

@[simp] theorem State.heal_pont (place : Place) (unit lo n : Nat) : (s.heal place unit lo n).pont = s.pont := rfl
@[simp] theorem State.linkEvent_pont (code : Code) (p detail : Nat) : (s.linkEvent code p detail).pont = s.pont := by
  simp [State.linkEvent]
@[simp] theorem State.linkEvent_time (code : Code) (p detail : Nat) : (s.linkEvent code p detail).time = s.time := by
  simp [State.linkEvent]
@[simp] theorem State.linkEvent_pport (code : Code) (p detail q : Nat) : (s.linkEvent code p detail).pport q = s.pport q := by
  simp [State.pport]
@[simp] theorem State.setPport_pport_same (p : Nat) (x : PontPort) : (s.setPport p x).pport p = x := tget_tset_same _ _ _ _

/-! ### What no port holds: the rest of Pontoon, and device time -/

/-- The state of Pontoon apart from its ports, with device time. -/
def State.offPorts : PontSt × Nat := ({ s.pont with ports := [] }, s.time)

theorem State.pont_of_offPorts {s t : State} (h : t.offPorts = s.offPorts) : t.pont = { s.pont with ports := t.pont.ports } :=
  congrArg (fun x => { x.1 with ports := t.pont.ports }) h
theorem State.time_of_offPorts {s t : State} (h : t.offPorts = s.offPorts) : t.time = s.time := congrArg Prod.snd h

@[simp] theorem State.setPport_offPorts (p : Nat) (x : PontPort) : (s.setPport p x).offPorts = s.offPorts := rfl
@[simp] theorem State.heal_offPorts (place : Place) (unit lo n : Nat) : (s.heal place unit lo n).offPorts = s.offPorts := rfl
@[simp] theorem State.linkEvent_offPorts (code : Code) (p detail : Nat) : (s.linkEvent code p detail).offPorts = s.offPorts := by
  simp [State.offPorts]
@[simp] theorem State.queuePkt_offPorts (p : Nat) (k : Packet) (cls : Nat) : (s.queuePkt p k cls).offPorts = s.offPorts := rfl
@[simp] theorem State.freeRx_offPorts (p : Nat) (k : Packet) (cls : Nat) : (s.freeRx p k cls).offPorts = s.offPorts := rfl

@[simp] theorem State.toPorts_offPorts (mk : BitVec 18 → Packet) (ok : Nat → Bool) : (s.toPorts mk ok).offPorts = s.offPorts := by
  unfold State.toPorts
  refine foldl_keeps State.offPorts _ (fun t p => ?_) _ s
  dsimp only
  split
  · exact t.queuePkt_offPorts ..
  · rfl

@[simp] theorem State.takeRx_offPorts (p : Nat) (k : Packet) : (s.takeRx p k).offPorts = s.offPorts := by
  unfold State.takeRx
  dsimp only
  (repeat' split) <;> simp

@[simp] theorem State.takeRx_devId (p : Nat) (k : Packet) : (s.takeRx p k).pont.devId = s.pont.devId := by
  rw [State.pont_of_offPorts (s.takeRx_offPorts p k)]
@[simp] theorem State.takeRx_master (p : Nat) (k : Packet) : (s.takeRx p k).pont.master = s.pont.master := by
  rw [State.pont_of_offPorts (s.takeRx_offPorts p k)]
@[simp] theorem State.takeRx_joined (p : Nat) (k : Packet) : (s.takeRx p k).pont.joined = s.pont.joined := by
  rw [State.pont_of_offPorts (s.takeRx_offPorts p k)]
@[simp] theorem State.takeRx_jumped (p : Nat) (k : Packet) : (s.takeRx p k).pont.jumped = s.pont.jumped := by
  rw [State.pont_of_offPorts (s.takeRx_offPorts p k)]
@[simp] theorem State.takeRx_time (p : Nat) (k : Packet) : (s.takeRx p k).time = s.time :=
  State.time_of_offPorts (s.takeRx_offPorts p k)

/-- A packet that leaves the receive buffer leaves the measured delays of its link. -/
@[simp] theorem State.takeRx_delays (p : Nat) (k : Packet) : ((s.takeRx p k).pport p).delays = (s.pport p).delays := by
  unfold State.takeRx State.freeRx
  extract_lets t x
  have ht : t.pport p = s.pport p := by
    unfold t
    split <;> simp [State.pport]
  split <;> simp [x, ht]

@[simp] theorem State.takeRx_delay (p : Nat) (k : Packet) : ((s.takeRx p k).pport p).delay = (s.pport p).delay := by
  unfold PontPort.delay
  rw [State.takeRx_delays]

end

/-! ### Links (R331) -/

/-- A lane of an up port fails: the port counts one lane less, modulo 8, and is down when that leaves none. -/
theorem execLaneFailure_counts {p : Port} {l : Fin 4} {s : State} (hup : (s.pport p.val).state = 2)
    (hlane : (s.pport p.val).laneFail.getLsbD l.val = false) : ∃ t, exec (.laneFailure p l) s = .next t ∧
      (t.pport p.val).laneFail.getLsbD l.val = true ∧ (t.pport p.val).width = (s.pport p.val).width - 1 ∧
      (t.pport p.val).state = if (s.pport p.val).width - 1 = 0 then 0 else 2 := by
  refine ⟨_, congrArg Host.Outcome.next (if_neg (by rw [hlane, hup]; decide)), ?_⟩
  dsimp only
  split <;> simp [hup]

end Sys2Proof.Machine

open Sys2Proof Sys2Proof.Machine

/-- Refutes O51: a port that is up with a lane count of 0 stays up when a lane fails, since the count has three bits and goes
from 0 to 7, where the statement has the port down. The statement asks nothing of the count; CONFIGURE brings a port up with 4. -/
theorem not_pontoonLinks : ¬ Obligations.PontoonLinks := by
  unfold Obligations.PontoonLinks
  intro h
  let s : State := State.reset.setPport 0 { PontPort.reset with state := 2, width := 0 }
  obtain ⟨t, hexec, -, -, hstate⟩ := execLaneFailure_counts (p := 0) (l := 0) (s := s) rfl (by decide)
  obtain ⟨u, hexec', -, -, hdown⟩ := (h 0 s).1 0 rfl (by decide)
  cases hexec.symm.trans hexec'
  exact absurd (hstate.symm.trans hdown) (by decide)
end

section
/-! Pontoon's packets (R339-R345, R349-R359): a packet for another device, an operation that arrives at its destination, and the
packets that answer one. -/

namespace Sys2Proof.Machine

/-! ### Packets of the destination (R340, R349, R350, R355, R357) -/

section
variable {s : State} {p : Port} {k : Packet}

theorem State.arrive_forwards (hother : k.dst ≠ s.pont.devId) (effect : State → State) :
    s.arrive p k effect = (s.takeRx p.val k).route k (some (p.val, 0)) := if_pos hother

/-- A packet row for another device sends its packet on, whatever the row. -/
theorem exec_forwards (hother : k.dst ≠ s.pont.devId) : ∀ i ∈ [Instr.write p k, .read p k, .readResp p k, .raccF32 p k,
    .raccAs8 p k, .rmax8 p k, .completion p k, .done p k, .decide p k],
    exec i s = .next ((s.takeRx p.val k).route k (some (p.val, 0))) := by
  have hother' : k.dst ≠ (s.takeRx p.val k).pont.devId := by rwa [State.takeRx_devId]
  have harrive := State.arrive_forwards (p := p) hother
  simp only [List.forall_mem_cons]
  exact ⟨congrArg _ (harrive _), congrArg _ (harrive _), congrArg _ (if_pos hother'), congrArg _ (harrive _), congrArg _ (harrive _),
    congrArg _ (harrive _), congrArg _ (if_pos hother'), congrArg _ (if_pos hother'), congrArg _ (if_pos hother'),
    List.forall_mem_nil _⟩

/-- The rows of an operation at its destination hand their packet to `arrive`. -/
theorem exec_arrives : ∀ i ∈ [Instr.write p k, .read p k, .raccF32 p k, .raccAs8 p k, .rmax8 p k],
    ∃ effect, exec i s = .next (s.arrive p k effect) := by
  simp only [List.forall_mem_cons]
  exact ⟨⟨_, rfl⟩, ⟨_, rfl⟩, ⟨_, rfl⟩, ⟨_, rfl⟩, ⟨_, rfl⟩, List.forall_mem_nil _⟩

section
variable (hown : k.dst = s.pont.devId) (hwakes : s.rangeWakes (pktSpace k) (pktAddr k) (pktSpan k) = false)
  (hroom : s.accFull k = false) (hbusy : s.rangeBusy (pktSpace k) (pktAddr k) (pktSpan k) = [])
  (hfree : ((s.takeRx p.val k).pont.coll k.coll.toNat).any (fun x => x.active && x.sfn.setWidth 16 != k.sfn) = false)
include hown hwakes hroom hbusy hfree

theorem State.arrive_refuses (haccepts : (s.takeRx p.val k).accepts k = false) (effect : State → State) :
    s.arrive p k effect = ((s.takeRx p.val k).pktEvent 0x3001 k).complete k 1 := by
  unfold State.arrive
  rw [if_neg (not_not.mpr hown), if_neg (by simp [hwakes, hroom]), if_neg (by simp [hbusy])]
  dsimp only
  rw [if_pos (by simp [haccepts]), hfree, if_neg Bool.false_ne_true]

/-- An accepted operation: its collective is triggered, it takes effect, poisoned data raise fault 0x30.06, a COMPLETION leaves unless it
is a READ, and the collective has received it. -/
theorem State.arrive_settles (haccepts : (s.takeRx p.val k).accepts k = true) (effect : State → State) :
    s.arrive p k effect =
      (let w := s.takeRx p.val k
       let t := effect (w.trigger k.coll.toNat (w.pont.frameOf k.sfn.toNat))
       let t := if k.poison then t.pktEvent 0x3006 k else t
       (if k.opc = 2 then t else t.complete k (if k.poison then 2 else 0)).collGot k.coll.toNat) := by
  unfold State.arrive
  rw [if_neg (not_not.mpr hown), if_neg (by simp [hwakes, hroom]), if_neg (by simp [hbusy])]
  dsimp only
  rw [if_neg (by simp [haccepts, hfree])]

end

/-! ### Answers (R340, R342, R350, R359) -/

section
variable {o : RemoteOp} (hown : k.dst = s.pont.devId)
include hown

theorem execReadResp_ends (hop : (s.takeRx p.val k).pont.opFor k (fun o => o == 2) = some o) (hclean : k.poison = false) :
    exec (.readResp p k) s = .next ((s.takeRx p.val k).endOp o
      (fun n => BitVec.ofNat 512 (ofBytes ((k.data.drop (64 * n)).take 64))) false) := by
  show execReadResp p k s = _
  unfold execReadResp
  dsimp only
  rw [if_neg (by rw [State.takeRx_devId]; exact not_not.mpr hown), hop]
  dsimp only
  rw [hclean, if_neg Bool.false_ne_true]

theorem execCompletion_ok (hok : k.data = [0]) (hop : (s.takeRx p.val k).pont.opFor k (fun o => o != 2) = some o)
    (hopc : o.opc ≠ 9) : exec (.completion p k) s = .next ((s.takeRx p.val k).endOp o (fun _ => 0) true) := by
  show execCompletion p k s = _
  unfold execCompletion
  dsimp only
  rw [if_neg (by rw [State.takeRx_devId]; exact not_not.mpr hown), hok]
  simp [hop, hopc]

theorem execCompletion_refused (hrefused : k.data = [1]) (hop : (s.takeRx p.val k).pont.opFor k (fun _ => true) = some o)
    (hopc : o.opc ≠ 9) (hreqs : o.reqs ≠ []) : exec (.completion p k) s = .next
      ((((s.takeRx p.val k).pktEvent 0x3001 k).noRow.1).endOp o (fun _ => ((s.takeRx p.val k).pktEvent 0x3001 k).noRow.2) true) := by
  show execCompletion p k s = _
  unfold execCompletion
  dsimp only
  rw [if_neg (by rw [State.takeRx_devId]; exact not_not.mpr hown), hrefused]
  simp [hop, hopc, hreqs]

theorem execDone_holds {u : State} (hu : (s.takeRx p.val k).trigger k.coll.toNat ((s.takeRx p.val k).pont.frameOf k.sfn.toNat) = u)
    (hframe : (u.pont.coll k.coll.toNat).any (fun x => x.sfn.setWidth 16 == k.sfn) = true) :
    exec (.done p k) s = .next (u.holdDone k.coll.toNat k.src (ofBytes (k.data.take 4))) := by
  show execDone p k s = _
  unfold execDone
  dsimp only
  rw [if_neg (by rw [State.takeRx_devId]; exact not_not.mpr hown), hu, if_pos hframe]

/-- A DECIDE of the frame that its collective is in: the deputy that has told nobody yet completes its leader's and tells every
member, any other device acts on it. -/
theorem execDecide_ofFrame {w : State} (hw : s.takeRx p.val k = w) {x : CollInst} (hcoll : w.pont.coll k.coll.toNat = some x)
    (hframe : x.sfn.setWidth 16 = k.sfn) : exec (.decide p k) s =
      (let outcome := ((k.data[0]?).getD 0).toNat
       let clipped := ((k.data[1]?).getD 0).getLsbD 0
       let total := ofBytes ((k.data.drop 4).take 4)
       .next (if w.pont.devId = x.desc.deputy && k.src = x.desc.leader && !x.told then
           ((w.complete k 0).setColl { x with decision := some (outcome, clipped, total) }).broadcast k.coll.toNat
         else w.actOn k.coll.toNat outcome clipped total)) := by
  show execDecide p k s = _
  unfold execDecide
  dsimp only
  rw [if_neg (by rw [State.takeRx_devId]; exact not_not.mpr hown), hw, hcoll]
  dsimp only
  rw [if_neg (not_not.mpr hframe)]

end
end
end Sys2Proof.Machine

open Sys2Proof Sys2Proof.Machine

/-- Settles O52: a packet for another device is routed, one for this device goes through `arrive` with the effect of its row, and each
answer has a lemma of its own. The payloads of COMPLETION, DONE and DECIDE and the VC of READ_RESP are log entry 24's. -/
theorem pontoonPackets : Obligations.PontoonPackets := by
  intro p k s c w u other poisoned ends outcome clipped total
  refine ⟨exec_forwards, rfl, rfl, fun hown hwakes hroom hbusy =>
      ⟨fun hrefused hfree i hi => ?refused, fun haccepts hfree => ?settles⟩,
    fun hown o hop hclean => execReadResp_ends hown hop hclean, fun hown hok o hop hopc => execCompletion_ok hown hok hop hopc,
    fun hown hrefused o hop hopc hreqs => execCompletion_refused hown hrefused hop hopc hreqs,
    fun hown hframe => execDone_holds hown rfl hframe, fun hown x hcoll hframe =>
      ⟨fun hact => ?acts, fun hdeputy hleader htold => ?tells⟩⟩
  case refused =>
    obtain ⟨effect, hexec⟩ := exec_arrives i hi
    rw [hexec, State.arrive_refuses hown hwakes hroom hbusy hfree hrefused]
  case settles =>
    have hsettles := State.arrive_settles hown hwakes hroom hbusy hfree haccepts
    refine ⟨fun hopc => ?notRead, fun hopc v bs po hread => ?read⟩
    case notRead =>
      have hends : ∀ effect, s.arrive p k effect = ends (effect u) := fun effect =>
        (hsettles effect).trans (congrArg (State.collGot · c) (if_neg hopc))
      refine ⟨congrArg _ (hends _), congrArg _ (hends _), fun hempty => ?_, fun b codes hone => ?_, ⟨_, congrArg _ (hends _)⟩,
        fun v old po hread => ?_⟩
      · exact congrArg _ ((hends _).trans (by rw [hempty, List.foldl_nil]))
      · exact congrArg _ ((hends _).trans (by rw [hone, List.foldl_cons, List.foldl_nil]))
      · exact congrArg _ ((hends _).trans (by rw [hread]))
    case read =>
      have hsilent : ∀ effect, s.arrive p k effect = (poisoned (effect u)).collGot c := fun effect =>
        (hsettles effect).trans (congrArg (State.collGot · c) (if_pos hopc))
      exact ⟨BitVec.ofNat 4 (2 + (Config.choice v.fresh).toNat % 13), congrArg _ ((hsilent _).trans (by rw [hread]))⟩
  case acts =>
    rw [execDecide_ofFrame (w := w) hown rfl hcoll hframe]
    refine congrArg _ (if_neg ?_)
    rcases hact with h | h | h <;> simp [h]
  case tells =>
    rw [execDecide_ofFrame (w := w) hown rfl hcoll hframe]
    exact congrArg _ (if_pos (by simp [hdeputy, hleader, htold]))
end

section
/-! Pontoon's time and failures (R343, R346, R360-R372): what each command of the system time, of the ticks, of a failed device and of
a limit comes to. -/

namespace Sys2Proof.Machine

/-! ### System time and its ticks (R363-R368) -/

section
variable (s : State) (master : BitVec 18) (now : Nat)

@[simp] theorem State.sendTime_offPorts : (s.sendTime master now).offPorts = s.offPorts :=
  s.toPorts_offPorts ..

@[simp] theorem State.sendTime_joined : (s.sendTime master now).pont.joined = s.pont.joined := by
  rw [State.pont_of_offPorts (s.sendTime_offPorts master now)]
@[simp] theorem State.sendTime_jumped : (s.sendTime master now).pont.jumped = s.pont.jumped := by
  rw [State.pont_of_offPorts (s.sendTime_offPorts master now)]
@[simp] theorem State.sendTime_offset : (s.sendTime master now).pont.offset = s.pont.offset := by
  rw [State.pont_of_offPorts (s.sendTime_offPorts master now)]
@[simp] theorem State.sendTime_time : (s.sendTime master now).time = s.time :=
  State.time_of_offPorts (s.sendTime_offPorts master now)

end

section
variable {s : State} {p : Port}

/-- TIME at a device that is not the master: one that has not joined and is more than 1 µs behind goes forward to the time that the
packet carries, any other keeps its time and takes the difference for its offset; either has joined. -/
theorem execTime_joins (hmember : s.pont.master = false) (k : Packet) (now : Nat) :
    let sent : Nat := now + (s.pport p.val).delay
    let behind : Bool := !s.pont.joined && decide ((s.time : Int) - sent < -4000)
    ∃ t, exec (.time p k now false) s = .next t ∧ t.pont.joined = true ∧
      t.time = (if behind then sent else s.time) ∧ t.pont.jumped = (s.pont.jumped || behind) ∧
      t.pont.offset = satNs (if behind then 0 else (s.time : Int) - sent) := by
  intro sent behind
  refine ⟨_, congrArg Host.Outcome.next (if_neg (by rw [State.takeRx_master, hmember]; decide)), ?_⟩
  simp only [State.sendTime_joined, State.sendTime_time, State.sendTime_jumped, State.sendTime_offset, State.onPont_pont,
    State.onPont_time, State.takeRx_joined, State.takeRx_time, State.takeRx_delay, Bool.false_and, Bool.false_eq_true, if_false,
    true_and]
  cases hbehind : behind <;> simp only [behind, sent] at hbehind
  · simp only [hbehind, Bool.false_eq_true, if_false, State.takeRx_time, State.takeRx_jumped, Bool.or_false, sent, and_self]
  · simp only [hbehind, if_true, Bool.or_true, sent, and_self]

theorem execTick_knows {n : BitVec 48} {inst period : Nat} (hfield : period < 2 ^ 32) (hmember : s.pont.master = false)
    (hfirst : s.pont.lastTick = none) (hearly : s.sysTime + 4000 ≤ inst) (hidle : s.frm.phase = 0) :
    exec (.tick p n inst period) s = .next (s.knowTick n.toNat inst period (some p.val)) := by
  show execTick p n inst period s = _
  unfold execTick
  rw [if_pos (by rwa [wfPeriod, decide_eq_true_eq])]
  dsimp only
  rw [if_neg (by simp [hmember, hfirst]), if_neg (Nat.not_lt.mpr hearly), if_neg (by simp [State.runs, hidle])]

theorem execTickFlood_floods {f inst period : Nat} (hmaster : s.pont.master = true)
    (hnext : s.pont.nextTick = some (f, inst, period)) (hdue : inst ≤ s.sysTime + s.pont.lead) :
    exec .tickFlood s = .next ((s.onPont (fun d => { d with
      nextTick := some ((f + 1) % 2 ^ 48, inst + period, period) })).knowTick f inst period none) := by
  show execTickFlood s = _
  unfold execTickFlood
  rw [hnext]
  dsimp only
  rw [if_pos (by simp [hmaster, hdue])]

theorem execLockLoss_reports {t0 : Nat} (hlost : s.pont.lostFrom = some t0) (hlong : t0 + 4000000 ≤ s.time) :
    ∃ t, exec .lockLoss s = .next t ∧ t.pont.lostFrom = none := by
  refine ⟨(s.onPont (fun d => { d with lostFrom := none })).raise { code := 0x300A, detail := s.pont.offset.toNat }, ?_, by simp⟩
  show execLockLoss s = _
  unfold execLockLoss
  rw [hlost]
  dsimp only
  rw [if_pos hlong]

/-- A new delay is the last of the at most 8 that its link keeps. -/
theorem execLinkDelayMeasurement_keeps (t1 t2 t3 t4 : Nat) : ∃ t, exec (.linkDelayMeasurement p t1 t2 t3 t4) s = .next t ∧
    (t.pport p.val).delays.getLast? = some (((t4 - t1) - (t3 - t2)) / 2) ∧ (t.pport p.val).delays.length ≤ 8 := by
  refine ⟨_, rfl, ?_, ?_⟩
  · rw [State.setPport_pport_same, List.getLast?_drop, if_neg (by simp), List.getLast?_concat]
  · rw [State.setPport_pport_same, List.length_drop, List.length_append, List.length_singleton]
    omega

/-! ### Failures and limits (R343, R359-R361, R369, R370) -/

theorem execNeighbourFailure_fails (hgone : ∀ q < 16, (s.pport q).peer = (s.pport p.val).peer →
      ((s.pport q).state = 2 ∧ (s.pport q).heard + 400000 ≤ s.time) ∨ ∃ t, (s.pport q).downFrom = some t ∧ t + 400000 ≤ s.time)
    (hjoined : s.pont.ndim ≠ 0) : exec (.neighbourFailure p) s = .next (s.addFailed (s.pport p.val).peer) := by
  refine congrArg Host.Outcome.next (if_pos ?_)
  rw [Bool.and_eq_true, List.all_eq_true]
  refine ⟨by simpa using hjoined, fun q hq => ?_⟩
  rw [List.mem_filter, List.mem_range] at hq
  obtain ⟨hport, hpeer⟩ := hq
  have hsame : (s.pport q).peer = (s.pport p.val).peer := by
    rcases (Bool.or_eq_true _ _).mp hpeer with h | h
    · exact eq_of_beq ((Bool.and_eq_true _ _).mp h).1
    · rw [eq_of_beq h]
  obtain ⟨hup, hsilent⟩ | ⟨t, hdown, hlong⟩ := hgone q hport hsame
  · simp [hup, hsilent]
  · simp [hdown, hlong]

theorem execRemoteOpTimeout_ends {o : RemoteOp}
    (hlate : s.pont.ops.find? (fun x => x.id == o.id && decide (x.issued + 4000000 ≤ s.time)) = some o) (hreqs : o.reqs ≠ []) :
    exec (.remoteOpTimeout o.id) s = .next ((s.pktEvent 0x3002
      { s.plainPkt o.opc 1 o.dst [] with coll := o.coll, sfn := o.sfn, addr := o.addr }).endOp o (fun _ => 0) true) := by
  show execRemoteOpTimeout o.id s = _
  unfold execRemoteOpTimeout
  rw [hlate]
  simp [hreqs]

section
variable {c : BitVec 16} {x : CollInst} (hcoll : s.pont.coll c.toNat = some x) (hactive : x.active = true)
  (hgated : x.desc.gated = true)
include hcoll hactive hgated

theorem execCollectiveDeadline_leader (hopen : x.decision = none) (hleader : s.pont.devId = x.desc.leader)
    (hlate : x.deadline ≤ s.sysTime) : exec (.collectiveDeadline c) s = .next (s.decideColl c.toNat 1) := by
  show execCollectiveDeadline c s = _
  unfold execCollectiveDeadline
  rw [hcoll]
  dsimp only
  rw [if_neg (by simp [hactive, hgated, hopen]), if_pos (by simp [hleader, hlate])]

theorem execCollectiveDeadline_deputy (hopen : x.decision = none) (hother : s.pont.devId ≠ x.desc.leader)
    (hdecides : s.pont.decides x = true) (hlate : x.deadline + 200000 ≤ s.sysTime) :
    exec (.collectiveDeadline c) s = .next (s.decideColl c.toNat (if x.desc.members ≤ x.dones.length then 0 else 1)) := by
  show execCollectiveDeadline c s = _
  unfold execCollectiveDeadline
  rw [hcoll]
  dsimp only
  rw [if_neg (by simp [hactive, hgated, hopen]), if_neg (by simp [hother]), if_pos (by simp [hdecides, hlate])]

theorem execDecisionWaitExpiry_timesOut (hopen : x.decided = none) (hlate : x.deadline + s.pont.wait ≤ s.sysTime) :
    exec (.decisionWaitExpiry c) s = .next (s.actOn c.toNat 2 false 0) := by
  show execDecisionWaitExpiry c s = _
  unfold execDecisionWaitExpiry
  rw [hcoll]
  dsimp only
  rw [if_pos (by simp [hactive, hgated, hopen, hlate])]

end
end
end Sys2Proof.Machine

open Sys2Proof Sys2Proof.Machine

/-- Settles O53: one lemma a command. That the deputy of a failed leader decides clean with every DONE held rests on log entry 25. -/
theorem pontoonTimeAndFailures : Obligations.PontoonTimeAndFailures := by
  intro p s delay
  refine ⟨fun k now hmember => ⟨fun hnear => ?near, fun hnew hbehind => ?behind⟩,
    fun n inst period hfield hmember hfirst hearly hidle => execTick_knows hfield hmember hfirst hearly hidle,
    ⟨_, rfl, by rw [State.setPport_pport_same]⟩, fun dev hup => congrArg Host.Outcome.next (if_pos hup),
    execNeighbourFailure_fails, fun hjoined hdue => congrArg Host.Outcome.next (if_pos ⟨hjoined, hdue⟩),
    fun hmaster hdue => congrArg Host.Outcome.next (if_pos ⟨hmaster, hdue⟩), execLinkDelayMeasurement_keeps,
    fun f inst period hmaster hnext hdue => execTickFlood_floods hmaster hnext hdue,
    fun t0 hlost hlong => execLockLoss_reports hlost hlong, fun o hlate hreqs => execRemoteOpTimeout_ends hlate hreqs,
    fun c x hcoll hactive hgated => ⟨execCollectiveDeadline_leader hcoll hactive hgated,
      execCollectiveDeadline_deputy hcoll hactive hgated, execDecisionWaitExpiry_timesOut hcoll hactive hgated⟩⟩
  case near =>
    obtain ⟨t, hexec, hjoined, htime, -, hoffset⟩ := execTime_joins (p := p) hmember k now
    have hstays : (!s.pont.joined && decide ((s.time : Int) - (now + delay : Nat) < -4000)) = false := by
      rcases hnear with h | h
      · simp [h]
      · rw [decide_eq_false (by omega), Bool.and_false]
    rw [hstays, if_neg Bool.false_ne_true] at htime hoffset
    exact ⟨t, hexec, hjoined, htime, hoffset⟩
  case behind =>
    obtain ⟨t, hexec, hjoined, htime, hjumped, -⟩ := execTime_joins (p := p) hmember k now
    have hjumps : (!s.pont.joined && decide ((s.time : Int) - (now + delay : Nat) < -4000)) = true := by
      rw [hnew, decide_eq_true (by omega)]
      rfl
    rw [hjumps] at htime hjumped
    exact ⟨t, hexec, hjoined, htime, hjumped.trans (Bool.or_true _)⟩
end

section
/-! Pigeonholes (R395-R406): what their byte tables hold after a store, and what a response leaves. -/

namespace Sys2Proof.Machine

/-! ### Byte tables -/

theorem tget_tabStore_out (t : Tab Byte) (off : Nat) (bs : List Byte) {k : Nat} (h : k < off ∨ off + bs.length ≤ k) :
    tget (tabStore t off bs) k 0 = tget t k 0 := by
  induction bs generalizing t off with
  | nil => rfl
  | cons b r ih =>
    rw [List.length_cons] at h
    rw [tabStore, ih _ _ (by omega)]
    split
    · exact tget_tdel_ne _ _ (by omega)
    · exact tget_tset_ne _ _ _ (by omega)

theorem tget_tabStore_in (t : Tab Byte) (off : Nat) (bs : List Byte) {k : Nat} (h : k < bs.length) :
    tget (tabStore t off bs) (off + k) 0 = bs[k] := by
  induction bs generalizing t off k with
  | nil => exact absurd h (Nat.not_lt_zero _)
  | cons b r ih =>
    rw [tabStore]
    cases k with
    | zero =>
      rw [tget_tabStore_out _ _ _ (by omega)]
      split
      · next hb => rw [Nat.add_zero, tget_tdel_same, List.getElem_cons_zero, hb]
      · rw [Nat.add_zero, tget_tset_same, List.getElem_cons_zero]
    | succ k =>
      rw [show off + (k + 1) = off + 1 + k by omega, ih _ _ (by simpa using h), List.getElem_cons_succ]

@[simp] theorem length_tabBytes (t : Tab Byte) (off n : Nat) : (tabBytes t off n).length = n := by simp [tabBytes]

theorem tabBytes_tabStore_out (t : Tab Byte) (off : Nat) (bs : List Byte) {a n : Nat} (h : a + n ≤ off ∨ off + bs.length ≤ a) :
    tabBytes (tabStore t off bs) a n = tabBytes t a n :=
  List.map_congr_left fun k hk => tget_tabStore_out _ _ _ (by have := List.mem_range.1 hk; omega)

/-- Bytes read within a list of bytes stored. -/
theorem tabBytes_tabStore_in (t : Tab Byte) (off : Nat) (bs : List Byte) {i n : Nat} (h : i + n ≤ bs.length) :
    tabBytes (tabStore t off bs) (off + i) n = (bs.drop i).take n := by
  refine List.ext_getElem (by simp; omega) fun k hk hk' => ?_
  rw [length_tabBytes] at hk
  rw [List.getElem_take, List.getElem_drop, ← tget_tabStore_in t off bs (by omega)]
  simp [tabBytes, Nat.add_assoc]

theorem take_tabBytes (t : Tab Byte) (off : Nat) {m n : Nat} (h : m ≤ n) : (tabBytes t off n).take m = tabBytes t off m := by
  rw [tabBytes, ← List.map_take, List.take_range, min_eq_left h, tabBytes]

theorem drop_tabBytes (t : Tab Byte) (off m n : Nat) : (tabBytes t off n).drop m = tabBytes t (off + m) (n - m) := by
  refine List.ext_getElem (by simp) fun k _ _ => ?_
  simp [tabBytes, Nat.add_assoc]

theorem tabRead_eq (t : Tab Byte) (off n : Nat) : tabRead t off n = ofBytes (tabBytes t off n) := by
  induction n generalizing off with
  | zero => rfl
  | succ n ih =>
    rw [tabRead, ih, tabBytes, tabBytes, List.range_succ_eq_map, List.map_cons, ofBytes, ofBytes, List.foldr_cons, List.map_map]
    simp only [Function.comp_def, Nat.succ_eq_add_one, Nat.add_assoc, Nat.add_comm 1, Nat.add_zero]

@[simp] theorem length_bytesOf (v n : Nat) : (bytesOf v n).length = n := by simp [bytesOf]

theorem bytesOf_succ (v n : Nat) : bytesOf v (n + 1) = BitVec.ofNat 8 v :: bytesOf (v / 256) n := by
  simp only [bytesOf, List.range_succ_eq_map, List.map_cons, List.map_map, Nat.pow_zero, Nat.div_one, List.cons.injEq, true_and]
  refine List.map_congr_left fun k _ => ?_
  rw [Function.comp_apply, Nat.succ_eq_add_one, Nat.pow_succ', Nat.div_div_eq_div_mul]

@[simp] theorem ofBytes_bytesOf (v n : Nat) : ofBytes (bytesOf v n) = v % 256 ^ n := by
  induction n generalizing v with
  | zero => simp [bytesOf, ofBytes, Nat.mod_one]
  | succ n ih =>
    have hfold : ofBytes (bytesOf v (n + 1)) = v % 256 + 256 * ofBytes (bytesOf (v / 256) n) := by
      rw [bytesOf_succ, ofBytes, List.foldr_cons, ← ofBytes, BitVec.toNat_ofNat]
    rw [hfold, ih, Nat.pow_succ', Nat.mod_mul]

/-! ### Responses -/

section
variable (s : State) (n : Nat) (a : Answer)

/-- The header of a response (R405). -/
def State.header : List Byte :=
  tabBytes (s.pghAt n).copy 0 4 ++ bytesOf a.status 1 ++ bytesOf 0 1 ++ bytesOf a.detail 2 ++ bytesOf a.data.length 4
    ++ bytesOf (min 0xFFFFFFFF ((s.time - (s.pghAt n).ringAt) / 4000)) 4 ++ bytesOf s.frm.frameNum.toNat 6 ++ bytesOf a.fault 2
    ++ bytesOf a.field 2 ++ List.replicate 38 0

@[simp] theorem State.length_header : (s.header n a).length = 64 := by simp [State.header]

/-- The pigeonhole that answers: DONE, the header and the data in its response area. -/
def State.answered : PghSt :=
  { s.pghAt n with
    resp := tabStore (tabStore (s.pghAt n).resp 0 (s.header n a)) 0x40 (a.data.take 1920), state := 3, begun := false, wait := [] }

@[simp] theorem State.answered_state : (s.answered n a).state = 3 := rfl

/-- Where no response, no latch of counters and no message to the host shows: everything but the pigeonholes, the counters, the
leaves, the latches and what has left the part. -/
def State.silent : State :=
  { s with post := { s.post with pgh := [] }, cnt := .reset, flt := .reset, obs := .reset, out := [] }

@[simp] theorem State.count_silent (b u i k : Nat) : (s.count b u i k).silent = s.silent := by
  unfold State.count
  dsimp only
  split <;> rfl
@[simp] theorem State.cmdLatch_silent (trigger opcode tag b : Nat) : (s.cmdLatch trigger n opcode tag b).silent = s.silent := by
  unfold State.cmdLatch State.filteredPage
  dsimp only
  (repeat' split) <;> rfl
@[simp] theorem State.setPgh_silent (p : PghSt) : (s.setPgh n p).silent = s.silent := rfl
@[simp] theorem State.await_silent (w : List Nat) : (s.await n w).silent = s.silent := rfl

@[simp] theorem State.respond_silent : (s.respond n a).silent = s.silent := by
  unfold State.respond
  dsimp only
  split
  · exact (State.count_silent ..).trans (State.setPgh_silent ..)
  · exact (State.count_silent ..).trans (State.setPgh_silent ..)

theorem State.respond_post : (s.respond n a).post = { s.post with pgh := tset s.post.pgh n (s.answered n a) } := by
  unfold State.respond
  dsimp only
  split <;> rw [State.count_post] <;> rfl

theorem State.respond_pghAt_same : (s.respond n a).pghAt n = s.answered n a := by
  rw [State.pghAt, State.respond_post, tget_tset_same]

theorem State.respond_pghAt_ne {m : Nat} (h : m ≠ n) : (s.respond n a).pghAt m = s.pghAt m := by
  rw [State.pghAt, State.respond_post, tget_tset_ne _ _ _ h, State.pghAt]

@[simp] theorem State.cmdLatch_post (trigger m opcode tag b : Nat) : (s.cmdLatch trigger m opcode tag b).post = s.post := by
  unfold State.cmdLatch State.filteredPage
  dsimp only
  (repeat' split) <;> rfl

@[simp] theorem State.cmdLatch_pghAt (trigger k opcode tag b m : Nat) :
    (s.cmdLatch trigger k opcode tag b).pghAt m = s.pghAt m := by
  rw [State.pghAt, State.cmdLatch_post, State.pghAt]

@[simp] theorem State.cmdLatch_answered (trigger m opcode tag b : Nat) :
    (s.cmdLatch trigger m opcode tag b).answered n a = s.answered n a := by
  unfold State.cmdLatch State.filteredPage
  dsimp only
  (repeat' split) <;> rfl

@[simp] theorem State.finishCmd_silent : (s.finishCmd n a).silent = s.silent := by
  unfold State.finishCmd
  dsimp only
  (repeat' split) <;> simp

theorem State.finishCmd_idle (h : (s.pghAt n).state ≠ 2) : s.finishCmd n a = s := if_pos h

theorem State.finishCmd_pghAt_same (h : (s.pghAt n).state = 2) : (s.finishCmd n a).pghAt n = s.answered n a := by
  unfold State.finishCmd
  dsimp only
  rw [if_neg (not_not_intro h), State.respond_pghAt_same]
  split
  · exact State.cmdLatch_answered ..
  · rfl

theorem State.finishCmd_pghAt_ne {m : Nat} (h : m ≠ n) : (s.finishCmd n a).pghAt m = s.pghAt m := by
  unfold State.finishCmd
  dsimp only
  split
  · rfl
  · rw [State.respond_pghAt_ne _ _ _ h]
    split
    · exact State.cmdLatch_pghAt ..
    · rfl

@[simp] theorem State.await_pghAt_same (w : List Nat) : (s.await n w).pghAt n = { s.pghAt n with begun := true, wait := w } :=
  State.setPgh_pghAt_same ..

/-! The header and the data of an answer -/

variable {s n a}

theorem State.header_answered {off k : Nat} (h : off + k ≤ 64) :
    tabRead (s.answered n a).resp off k = ofBytes (((s.header n a).drop off).take k) := by
  rw [tabRead_eq, State.answered, tabBytes_tabStore_out _ _ _ (Or.inl h), ← Nat.zero_add off,
    tabBytes_tabStore_in _ _ _ (by rw [State.length_header]; omega), Nat.zero_add]

theorem State.data_answered {i k : Nat} (hi : i + k ≤ a.data.length) (h : i + k ≤ 1920) :
    tabBytes (s.answered n a).resp (0x40 + i) k = (a.data.drop i).take k := by
  rw [State.answered, tabBytes_tabStore_in _ _ _ (by rw [List.length_take]; omega), List.drop_take, List.take_take, min_eq_left (by omega)]

/-- What no response changes. -/
theorem State.kept_of_silent {t : State} (h : t.silent = s.silent) : t.kept = s.kept :=
  State.kept_of_fields (congrArg State.core h :) (congrArg State.epoch h :) (congrArg State.nst h :) (congrArg State.deck h :)
    (congrArg State.lp h :)
theorem State.frm_of_silent {t : State} (h : t.silent = s.silent) : t.frm = s.frm := (congrArg State.frm h :)

end

/-- The fields of the header that an answer has left. -/
theorem State.answered_fields (s : State) (n : Nat) (a : Answer) (hlen : a.data.length ≤ 1920) :
    let p := s.pghAt n
    let r (off size : Nat) : Nat := tabRead (s.answered n a).resp off size
    r 0x00 2 = tabRead p.copy 0 2 ∧ r 0x02 2 = tabRead p.copy 2 2 ∧ r 0x04 1 = a.status % 256 ∧ r 0x05 1 = 0 ∧
    r 0x06 2 = a.detail % 65536 ∧ r 0x08 4 = a.data.length ∧ r 0x0C 4 = min 0xFFFFFFFF ((s.time - p.ringAt) / 4000) ∧
    r 0x10 6 = s.frm.frameNum.toNat ∧ r 0x16 2 = a.fault % 65536 ∧ r 0x18 2 = a.field % 65536 ∧ r 0x1A 38 = 0 := by
  intro p r
  have hr (off size : Nat) (h : off + size ≤ 64) : r off size = ofBytes (((s.header n a).drop off).take size) :=
    State.header_answered h
  simp only [hr, Nat.reduceAdd, Nat.reduceLeDiff, State.header, List.append_assoc]
  refine ⟨?opcode, ?tag, ?_, ?_, ?_, ?rlen, ?elapsed, ?frame, ?_, ?_, ?reserved⟩
  case opcode => simp [tabRead_eq, p, List.take_append, take_tabBytes]
  case tag => simp [tabRead_eq, p, List.drop_append, drop_tabBytes]
  all_goals simp [List.drop_append, List.drop_of_length_le, List.take_of_length_le]
  case rlen => omega
  case elapsed => exact Nat.mod_eq_of_lt (by omega)
  case frame => exact s.frm.frameNum.isLt
  case reserved => rfl

end Sys2Proof.Machine

open Sys2Proof.Machine

/-- Settles O43: the header is the list of bytes that the response begins with, field by field; no latch and no answer changes a
register or a byte of memory. That ELAPSED is rounded down rests on log entry 51. -/
theorem responseArea : Obligations.ResponseArea := by
  intro n a s hrun hlen p t r
  have hpgh : t.pghAt n.val = s.answered n.val a := s.finishCmd_pghAt_same _ _ hrun
  obtain ⟨hregs, hmem⟩ := State.frame_of_kept (State.kept_of_silent (s.finishCmd_silent n.val a))
  have hdata : tabBytes (s.answered n.val a).resp 0x40 a.data.length = a.data := by
    rw [State.data_answered (i := 0) (by omega) (by omega), List.drop_zero, List.take_length]
  obtain ⟨h0, h2, h4, h5, h6, h8, hC, h10, h16, h18, h1A⟩ := s.answered_fields n.val a hlen
  simp only [r, hpgh]
  exact ⟨rfl, rfl, h0, h2, h4, h5, h6, h8, hC, h10, h16, h18, h1A, hdata, hmem, hregs,
    fun m _ hm => s.finishCmd_pghAt_ne _ _ hm⟩
end

section
/-! The protocol of a pigeonhole (R399-R402), one lemma a command. -/

namespace Sys2Proof.Machine

section
variable {n : Pgh} {s : State}

theorem execRing_accepted (h : s.ringOk n.val = true) : exec (.ring n) s = .next (s.setPgh n.val { s.pghAt n.val with
    state := 1, ringAt := s.time, tag := BitVec.ofNat 16 (tabRead (s.pghAt n.val).cmd 2 2)
    resp := (s.pghAt n.val).resp.filter (fun e => decide (0x40 ≤ e.1)) }) :=
  congrArg Host.Outcome.next (if_pos h)

theorem execRing_dropped (h : s.ringOk n.val = false) :
    exec (.ring n) s = .next (s.setPgh n.val { s.pghAt n.val with dropped := true, dropAt := some s.time }) :=
  congrArg Host.Outcome.next (if_neg (by rw [h]; decide))

theorem execCommandTimeout_due {m : Nat} (hheld : (s.pghAt n.val).state = 1 ∨ (s.pghAt n.val).state = 2)
    (hpair : s.post.switching = false) (hmax : s.maxTime (s.pghAt n.val).held = some m)
    (hdue : (s.pghAt n.val).ringAt + m ≤ s.time) :
    exec (.commandTimeout n) s = .next (s.abandonCmd n.val { status := 4 }) :=
  congrArg Host.Outcome.next (if_pos (by simpa [hpair, hmax, hdue] using hheld))

theorem execCancel_cancels (hheld : (s.pghAt n.val).state = 1 ∨ (s.pghAt n.val).state = 2)
    (hfirmware : s.post.firmware = true) (hruns : s.frm.halted = false) (hkill : (s.pghAt n.val).held.op ≠ 0x0202)
    (hstop : (s.pghAt n.val).held.op = 0x0304 → (s.pghAt n.val).held.pl 0 1 ≠ 1) :
    exec (.cancel n) s = .next (s.abandonCmd n.val { status := 5, detail := 2 }) :=
  congrArg Host.Outcome.next (if_pos (by simpa [hfirmware, hruns, hkill, ← imp_iff_not_or] using And.intro hheld hstop))

theorem execOwnerChangeDiscard_discards (hold : (s.pghAt n.val).old.isSome = true) (hdone : (s.pghAt n.val).state = 3) :
    exec (.ownerChangeDiscard n) s = .next (s.setPgh n.val .reset) :=
  congrArg Host.Outcome.next (if_pos (by simp [hold, hdone]))

/-- The state in which pigeonhole `n` has been taken up: its command is copied, and the round goes on behind it. -/
def State.takenUp (s : State) (n : Nat) : State :=
  (s.setPgh n { s.pghAt n with copy := (s.pghAt n).cmd, state := 2, begun := false, wait := [] }).onPost
    (fun x => { x with rr := (n + 1) % 64 })

/-- The command that is next runs, a program command with its latch, or its check has failed it. -/
theorem execCommandTakeUp_posted {m : Nat} {r : List Nat} (hfirmware : s.post.firmware = true) (hpair : s.post.switching = false)
    (hruns : s.frm.halted = false) (hposted : s.posted = m :: r) : ∃ t, exec .commandTakeUp s = .next t ∧
      ((∃ a, t = (s.takenUp m).respond m a) ∨ (∃ op tag b, t = (s.takenUp m).cmdLatch 0 m op tag b) ∨ t = s.takenUp m) := by
  refine ⟨_, congrArg Host.Outcome.next (if_neg (by simp [hfirmware, hpair, hruns])), ?_⟩
  rw [hposted]
  dsimp -zeta only
  extract_lets q p u table verdict
  clear_value verdict
  cases verdict with
  | some a => exact .inl ⟨a, rfl⟩
  | none =>
    dsimp -zeta only
    split
    · exact .inr (.inl ⟨_, _, _, rfl⟩)
    · exact .inr (.inr rfl)

theorem execCommandTakeUp_copies {m : Nat} {r : List Nat} (hfirmware : s.post.firmware = true) (hpair : s.post.switching = false)
    (hruns : s.frm.halted = false) (hposted : s.posted = m :: r) : ∃ t, exec .commandTakeUp s = .next t ∧
      (t.pghAt m).state ≠ 1 ∧ (t.pghAt m).copy = (s.pghAt m).cmd ∧ t.post.rr = (m + 1) % 64 := by
  have hsame : (s.takenUp m).pghAt m = { s.pghAt m with copy := (s.pghAt m).cmd, state := 2, begun := false, wait := [] } :=
    State.setPgh_pghAt_same ..
  have htaken : (2 : BitVec 2) ≠ 1 := by decide
  obtain ⟨t, hexec, ⟨a, rfl⟩ | ⟨op, tag, b, rfl⟩ | rfl⟩ := execCommandTakeUp_posted hfirmware hpair hruns hposted
  · refine ⟨_, hexec, ?_, ?_, ?_⟩
    · rw [State.respond_pghAt_same, State.answered_state]
      decide
    · rw [State.respond_pghAt_same, State.answered, hsame]
    · rw [State.respond_post]
      rfl
  · refine ⟨_, hexec, ?_, ?_, ?_⟩
    · rw [State.cmdLatch_pghAt, hsame]
      exact htaken
    · rw [State.cmdLatch_pghAt, hsame]
    · rw [State.cmdLatch_post]
      rfl
  · exact ⟨_, hexec, by rw [hsame]; exact htaken, by rw [hsame], rfl⟩
end

end Sys2Proof.Machine

open Sys2Proof Sys2Proof.Machine

/-- Settles O42: one lemma a command. -/
theorem pigeonholeProtocol : Obligations.PigeonholeProtocol := by
  intro n s p
  refine ⟨fun h => ⟨_, execRing_accepted h, ?_⟩, fun h => ⟨_, execRing_dropped h, ?_⟩,
    fun r hfirmware hpair hruns hposted => execCommandTakeUp_copies hfirmware hpair hruns hposted,
    fun m hheld hpair hmax hdue => execCommandTimeout_due hheld hpair hmax hdue,
    fun hheld hfirmware hruns hkill hstop => execCancel_cancels hheld hfirmware hruns hkill hstop,
    fun hold hdone => ⟨_, execOwnerChangeDiscard_discards hold hdone, State.setPgh_pghAt_same ..⟩⟩
  · rw [State.setPgh_pghAt_same]
    exact ⟨rfl, rfl, rfl⟩
  · rw [State.setPgh_pghAt_same]
    exact ⟨rfl, rfl⟩
end

section
/-! What commands leave of the berth table and of the pigeonholes when they are answered or abandoned (R399, R401, R494). -/

namespace Sys2Proof.Machine

/-- The pigeonholes and the berth table. -/
def State.desk (s : State) : Tab PghSt × BerthSt := (s.post.pgh, s.brt)

theorem State.desk_of_fields {s t : State} (hpost : t.post = s.post := by simp) (hbrt : t.brt = s.brt := by simp) :
    t.desk = s.desk := by rw [State.desk, State.desk, hpost, hbrt]

/-- `t` is `s` after answers to some of its RUNNING commands: the other pigeonholes and the berth table are as they were. -/
structure State.OnlyAnswers (s t : State) : Prop where
  brt : t.brt = s.brt
  pgh : ∀ m, t.pghAt m = s.pghAt m ∨ (s.pghAt m).state = 2 ∧ (t.pghAt m).state = 3

namespace State.OnlyAnswers

variable {s t u : State}

theorem of_desk (h : t.desk = s.desk) : s.OnlyAnswers t := by
  obtain ⟨hpgh, hbrt⟩ := Prod.mk.inj h
  exact ⟨hbrt, fun m => .inl (by rw [State.pghAt, hpgh, State.pghAt])⟩

theorem refl (s : State) : s.OnlyAnswers s := of_desk rfl

theorem trans (h : s.OnlyAnswers t) (k : t.OnlyAnswers u) : s.OnlyAnswers u := by
  refine ⟨k.brt.trans h.brt, fun m => ?_⟩
  rcases h.pgh m with hm | ⟨hrun, hdone⟩
  · exact hm ▸ k.pgh m
  · rcases k.pgh m with hm | ⟨hrun', -⟩
    · exact .inr ⟨hrun, hm ▸ hdone⟩
    · exact absurd (hdone.symm.trans hrun') (by decide)

theorem after (k : t.OnlyAnswers u) (h : t.desk = s.desk) : s.OnlyAnswers u := (of_desk h).trans k

theorem foldl {α : Type} (f : State → α → State) (h : ∀ s a, State.OnlyAnswers s (f s a)) (l : List α) (s : State) :
    s.OnlyAnswers (l.foldl f s) := by
  induction l generalizing s with
  | nil => exact refl s
  | cons a l ih => exact (h s a).trans (ih _)

theorem pghAt_of_ne (h : s.OnlyAnswers t) {m : Nat} (hm : (s.pghAt m).state ≠ 2) : t.pghAt m = s.pghAt m :=
  (h.pgh m).resolve_right fun hrun => hm hrun.1

theorem finishCmd (s : State) (n : Nat) (a : Answer) : s.OnlyAnswers (s.finishCmd n a) := by
  refine ⟨(congrArg State.brt (s.finishCmd_silent n a) :), fun m => ?_⟩
  by_cases hm : m = n
  · subst hm
    by_cases hrun : (s.pghAt m).state = 2
    · exact .inr ⟨hrun, by rw [s.finishCmd_pghAt_same _ _ hrun, State.answered_state]⟩
    · exact .inl (by rw [s.finishCmd_idle _ _ hrun])
  · exact .inl (s.finishCmd_pghAt_ne _ _ hm)

end State.OnlyAnswers

section
variable (s : State)

/-! ### What takes effect between frames, and the end of an invocation -/

@[simp] theorem State.tickWrites_desk : s.tickWrites.desk = s.desk := by
  unfold State.tickWrites
  dsimp only
  split <;> rfl
@[simp] theorem State.powerChanges_desk : s.powerChanges.desk = s.desk := by
  unfold State.powerChanges
  dsimp only
  split <;> rfl
@[simp] theorem State.updPending_desk : s.updPending.desk = s.desk := rfl
@[simp] theorem State.obsPending_desk : s.obsPending.desk = s.desk := rfl
@[simp] theorem State.onFrm_desk (f : FrameSt → FrameSt) : (s.onFrm f).desk = s.desk := rfl
@[simp] theorem State.setBank_desk (p : Nat) (deck : Bool) (b : BankSt) : (s.setBank p deck b).desk = s.desk := by
  unfold State.setBank
  split <;> rfl
@[simp] theorem State.banksOff_desk : s.banksOff.desk = s.desk :=
  foldl_keeps State.desk _ (fun t p => foldl_keeps State.desk _ (fun u deck => u.setBank_desk p deck _) _ t) _ s

/-- The units that the end of an invocation clears are apart from the pigeonholes and the berth table. Stated for any state: a
check that unfolds `banksOff` would run it. -/
theorem State.cleared_desk (clu : Tab CluSt) (ctx : Tab CtxSt) (queue : Tab QueueSt) (flt : FaultSt) (obs : ObsSt) (pont : PontSt)
    (host : HostSt) : State.desk { s with
      clu := clu, ctx := ctx, queue := queue, stk := [], ferryFly := [], meshFly := [], flt := flt, obs := obs, pont := pont
      host := host } = s.desk := rfl

theorem State.overrideAnswers_answers : s.OnlyAnswers s.overrideAnswers :=
  .foldl _ (fun t n => .finishCmd t n _) _ s
theorem State.clockAnswers_answers : s.OnlyAnswers s.clockAnswers :=
  .foldl _ (fun t n => .finishCmd t n _) _ s
theorem State.clockStep_answers : s.OnlyAnswers s.clockStep := by
  unfold State.clockStep
  split
  · exact .refl s
  next mhz mem dep _ =>
    extract_lets fixed soon
    split
    · exact .refl s
    split
    · split
      · exact (State.clockAnswers_answers _).after rfl
      · exact .of_desk rfl
    · exact (State.clockAnswers_answers _).after rfl

/-- The writes that wait for the end of a frame take effect, and the commands that wait for it answer. -/
theorem State.betweenFrames_answers :
    s.OnlyAnswers s.tickWrites.updPending.obsPending.overrideAnswers.powerChanges.clockStep := by
  have hwrites : s.tickWrites.updPending.obsPending.desk = s.desk := by
    rw [State.obsPending_desk, State.updPending_desk, State.tickWrites_desk]
  exact ((State.overrideAnswers_answers _).after hwrites).trans ((State.clockStep_answers _).after (State.powerChanges_desk _))

theorem State.endInvocation_answers (keep : Bool) : s.OnlyAnswers (s.endInvocation keep) := by
  unfold State.endInvocation
  split
  · exact .refl s
  next g hg =>
    refine (State.betweenFrames_answers _).after ((State.cleared_desk ..).trans ?_)
    rw [State.onFrm_desk, State.banksOff_desk]
    rfl

/-! ### Stops (R67-R69) and abandoned commands (R401) -/

theorem State.stopFinish_answers : s.OnlyAnswers s.stopFinish := by
  unfold State.stopFinish
  extract_lets f left lost whole u v w bit ans x y
  have hv : v.desk = s.desk := by
    unfold v
    split
    · exact State.desk_of_fields (by simp [State.frmEvent, u]) (by simp [State.frmEvent, u])
    · rfl
  have hw : v.OnlyAnswers w := by
    unfold w
    split
    · exact v.endInvocation_answers _
    · exact .refl v
  have hx : w.OnlyAnswers x := .foldl _ (fun t n => .finishCmd t n _) _ w
  have hy : y.desk = x.desk := by
    unfold y
    split <;> rfl
  refine (hw.after hv).trans (hx.trans (.after ?_ hy))
  exact .foldl _ (fun t n => .finishCmd t n _) _ y

theorem State.stopCheck_answers : s.OnlyAnswers s.stopCheck := by
  unfold State.stopCheck
  extract_lets f
  split
  · exact .of_desk rfl
  split
  · exact .refl s
  split
  · split
    · exact (State.stopFinish_answers _).after rfl
    · exact .of_desk rfl
  · exact .refl s

theorem State.openRange_desk (r : Nat × Nat × Nat) : (s.openRange r).desk = s.desk := by
  unfold State.openRange
  split <;> rfl

theorem State.leave_answers (n : Nat) : s.OnlyAnswers (s.leave n) := by
  unfold State.leave
  extract_lets p
  split
  · exact .refl s
  split
  · split <;> exact .of_desk rfl
  · split
    · exact (State.stopCheck_answers _).after rfl
    · exact .refl s
  · exact .of_desk (s.openRange_desk _)
  · exact .of_desk (s.openRange_desk _)
  · exact .of_desk rfl
  · exact .of_desk rfl
  · exact .of_desk (State.desk_of_fields (by simp [State.depotEvent]) (by simp [State.depotEvent]))
  · exact .of_desk (foldl_keeps State.desk _ State.openRange_desk _ s)
  · exact .of_desk rfl
  · exact .of_desk rfl
  · split <;> exact .of_desk rfl
  · exact .refl s

/-- Commands that firmware ends one after another: each leaves what it may have done in part, and answers. -/
theorem State.endCommands_answers (a : Answer) (l : List Nat) :
    s.OnlyAnswers (l.foldl (fun (s : State) (n : Nat) => (s.leave n).finishCmd n a) s) :=
  .foldl _ (fun t n => (t.leave_answers n).trans (.finishCmd _ n a)) l s

end

/-! ### The berth table after RESET_N and REENTER (R494) -/

theorem tabRead_nil (off n : Nat) : tabRead [] off n = 0 := by
  induction n generalizing off with
  | zero => rfl
  | succ n ih => rw [tabRead, ih]; rfl

@[simp] theorem brtField_nil (b off n : Nat) : brtField [] b off n = 0 := tabRead_nil ..
@[simp] theorem brtEnabled_nil (b : Nat) : brtEnabled [] b = false := by simp [brtEnabled, brtFlag]

theorem State.owner_unassigned {s : State} (h : s.brt.live = []) {n : Nat} (hn : 4 ≤ n) : s.owner n = 0x1F := by
  rw [State.owner, if_neg (by omega), h, brtFind]
  simp; rfl

theorem execResetNAssert_resets {s : State} {ns : Nat} (hhigh : s.pins.resetN = true) (hlong : 1000 ≤ ns) :
    exec (.resetNAssert ns) s = .next s.afterReset :=
  congrArg Host.Outcome.next ((if_neg (by simp [hhigh])).trans (if_neg (by omega)))

theorem execReenter_brt (s : State) : ∃ t, exec .reenter s = .next t ∧ t.brt = s.brt := by
  refine ⟨_, rfl, ?_⟩
  split
  · rfl
  · rw [State.raise_brt, State.onBoot_brt, State.onPost_brt]
    refine (foldl_keeps State.brt _ (fun t n => ?_) _ _).trans (s.endCommands_answers _ _).brt
    dsimp only
    split <;> rfl

end Sys2Proof.Machine

open Sys2Proof Sys2Proof.Machine

/-- Settles O57: the reset value of both tables is empty, and no command that REENTER ends touches them. -/
theorem berthTableVolatile : Obligations.BerthTableVolatile := by
  intro s
  refine ⟨fun ns hhigh hlong => ⟨_, execResetNAssert_resets hhigh hlong, fun off n => ⟨tabRead_nil .., tabRead_nil ..⟩,
    fun b _ => brtEnabled_nil b, fun n hn _ => State.owner_unassigned rfl hn⟩, ?_⟩
  obtain ⟨t, hexec, hbrt⟩ := execReenter_brt s
  exact ⟨t, hexec, by rw [hbrt], by rw [hbrt]⟩
end

section
/-! Suspect positions (R465), the spare pair that comes into service (R469) and the tick rails (R467). -/

namespace Sys2Proof.Machine

section
variable (s : State)

@[simp] theorem State.logEvent_suspect (e : Ev) (b : Bool) : (s.logEvent e b).flt.suspect = s.flt.suspect := rfl
@[simp] theorem State.count_suspect (b u i n : Nat) : (s.count b u i n).flt.suspect = s.flt.suspect := by
  simp only [State.count, apply_ite State.flt, apply_ite FaultSt.suspect, State.logEvent_suspect, ite_self]
@[simp] theorem State.event_suspect (p ev n : Nat) : (s.event p ev n).flt.suspect = s.flt.suspect := by
  unfold State.event
  split
  · exact foldl_keeps (fun t : State => t.flt.suspect) _ (fun t k => by split <;> simp) _ s
  · rfl
@[simp] theorem State.countEvent_suspect (e : Ev) : (s.countEvent e).flt.suspect = s.flt.suspect := by
  simp only [State.countEvent, apply_ite State.flt, apply_ite FaultSt.suspect, State.count_suspect, State.event_suspect, ite_self]

theorem State.isSuspect_of_eq {t : State} (h : t.flt.suspect = s.flt.suspect) (p : Nat) : t.isSuspect p = s.isSuspect p := by
  rw [State.isSuspect, State.isSuspect, h]

theorem State.markSuspect_isSuspect (p : Nat) : (s.markSuspect p).isSuspect p = true := by
  have hbit : posInRegion p < 48 := by unfold posInRegion; omega
  have hmark : (s.markSuspect p).flt.suspect = tset s.flt.suspect (posRegion p)
      (tget s.flt.suspect (posRegion p) 0 ||| (1#48 <<< posInRegion p)) := rfl
  rw [State.isSuspect, hmark, tget_tset_same]
  simp [hbit]

/-- An event that makes a position suspect, unless it is so already, and spoils nothing. -/
theorem State.raise_isSuspect {e : Ev} (hpos : e.pos < 192) (hsus : s.suspects e = !s.isSuspect e.pos)
    (hspoil : codeSpoil e.code = 0) (hdamage : e.code ≠ 0x2804) : (s.raise e).isSuspect e.pos = true := by
  simp only [State.raise, hspoil, hsus, hpos, beq_self_eq_true, Bool.or_true, if_true, beq_eq_false_iff_ne.2 hdamage,
    Bool.false_eq_true, if_false, decide_true, Bool.and_true]
  cases hs : s.isSuspect e.pos with
  | false => exact State.markSuspect_isSuspect ..
  | true =>
    refine (s.isSuspect_of_eq ?_ _).trans hs
    simp [apply_ite State.flt]

/-- A checker that does not trip (R454). -/
theorem State.raise_checker_isSuspect {p : Nat} (hp : p < 192) : (s.raise { code := 0x1202, pos := p }).isSuspect p = true :=
  s.raise_isSuspect (e := { code := 0x1202, pos := p }) hp (by simp [State.suspects, hp])
    (show codeSpoil 0x1202 = 0 by decide) (show (0x1202 : Code) ≠ 0x2804 by decide)

theorem execIdleCheckerExercise_fails {j : Clu} {p : Pos} (hidle : s.frm.phase = 0) (hclu : posClu p.val = j.val)
    (hlive : s.isLive p.val = true) : exec (.idleCheckerExercise j [p]) s =
      .next ((s.onClu j.val (fun c => { c with checker := c.checker + 1 })).raise { code := 0x1202, pos := p.val }) := by
  have hlive' : (s.onClu j.val (fun c => { c with checker := c.checker + 1 })).isLive p.val = true := hlive
  refine congrArg Host.Outcome.next ((if_neg (by simp [State.runs, hidle])).trans ?_)
  simp [hclu, hlive']

theorem State.inService_desk : State.desk (((s.onFrm (fun f => { f with spoilEach := false })).onPost
    (fun p => { p with switching := false })).raise { code := 0x1002 }) = s.desk := by
  rw [State.desk, State.raise_post, State.raise_brt]
  rfl

/-- The commands that ran are answered; no POSTED one is touched. -/
theorem execSparePairInService_serves (hsw : s.post.switching = true) (hgoes : s.frm.halted = false) :
    ∃ t, exec .sparePairInService s = .next t ∧ t.post.switching = false ∧ s.OnlyAnswers t := by
  refine ⟨_, congrArg Host.Outcome.next (if_pos (by simp [hsw, hgoes])), ?_, ?_⟩
  · rw [State.raise_post]
    rfl
  · exact (s.endCommands_answers _ _).trans (.of_desk (State.inService_desk _))
end

/-! ### Tick rails (R467) -/

/-- What a mismatch leaves of a rail that has failed in `n` frames in a row, this one the last. -/
def State.railMissed (s : State) (j : Clu) (rail : Fin 2) (n : Nat) : State :=
  let u := (s.setClu j.val { s.cluAt j.val with railFail := some (rail.val, n, s.frm.frameNum.toNat) }).raise
    { code := 0x1601, inst := j.val }
  if 3 ≤ n && u.firmwareActs then
    (u.onClu j.val (fun c => { c with railRetired := 1#2 <<< rail.val })).raise { code := 0x1602, inst := j.val }
  else u

theorem execTickRailMismatch_first {s : State} {j : Clu} (rail : Fin 2) (hserves : (s.cluAt j.val).railRetired = 0)
    (hnone : (s.cluAt j.val).railFail = none) : exec (.tickRailMismatch j rail) s = .next (s.railMissed j rail 1) := by
  refine congrArg Host.Outcome.next ((if_neg (not_not.2 hserves)).trans ?_)
  rw [hnone]
  rfl

theorem execTickRailMismatch_third {s : State} {j : Clu} {rail : Fin 2} {f : Nat} (hserves : (s.cluAt j.val).railRetired = 0)
    (hsecond : (s.cluAt j.val).railFail = some (rail.val, 2, f)) (hnext : f + 1 = s.frm.frameNum.toNat) :
    exec (.tickRailMismatch j rail) s = .next (s.railMissed j rail 3) := by
  refine congrArg Host.Outcome.next ((if_neg (not_not.2 hserves)).trans ?_)
  have hnow : f ≠ s.frm.frameNum.toNat := by omega
  simp only [hsecond, hnext, hnow, if_true, if_false]
  rfl

theorem State.railMissed_railFail (s : State) (j : Clu) (rail : Fin 2) :
    ((s.railMissed j rail 1).cluAt j.val).railFail = some (rail.val, 1, s.frm.frameNum.toNat) := by
  rw [State.railMissed, if_neg (by simp), State.raise_clu_railFail, State.setClu_cluAt_same]

theorem State.railMissed_railRetired (s : State) (j : Clu) (rail : Fin 2) (hacts : s.firmwareActs = true) :
    ((s.railMissed j rail 3).cluAt j.val).railRetired = 1#2 <<< rail.val := by
  have hacts' (c : CluSt) (e : Ev) : ((s.setClu j.val c).raise e).firmwareActs = true := by
    rw [State.firmwareActs, State.raise_post, State.raise_frm_halted]
    exact hacts
  rw [State.railMissed, if_pos (by simp [hacts']), State.raise_clu_railRetired, State.onClu_cluAt_same]

end Sys2Proof.Machine

open Sys2Proof Sys2Proof.Machine

/-- Settles O58, for IDCODE after TRST_N on log entry 27 and for the commands at a pair switch on log entry 79: RUNNING ones are
answered, POSTED ones stay. -/
theorem portsPairsAndCheckers : Obligations.PortsPairsAndCheckers := by
  intro s
  refine ⟨?rail, ?retire, ?pairs, ?pass, ?trips, ?idle, ?fails, ?i3c, ?extest, ?bypass, ?idcode, ?sample, ?short, ?long⟩
  case rail =>
    intro j rail hserves hnone
    exact ⟨_, execTickRailMismatch_first rail hserves hnone, s.railMissed_railFail j rail⟩
  case retire =>
    intro j rail f hserves hsecond hnext hacts
    exact ⟨_, execTickRailMismatch_third hserves hsecond hnext, s.railMissed_railRetired j rail hacts⟩
  case pairs =>
    intro hgoes
    have hgo : ¬ s.frm.halted = true := by simp [hgoes]
    refine ⟨fun hspare => ?_, fun hnospare => ?_, fun hsw => ?_⟩
    · exact ⟨_, congrArg Host.Outcome.next ((if_neg hgo).trans (if_neg (by simp [hspare]))), rfl, rfl⟩
    · exact ⟨_, congrArg Host.Outcome.next ((if_neg hgo).trans (if_pos hnospare)), rfl⟩
    · obtain ⟨t, hexec, hserves, hanswers⟩ := execSparePairInService_serves s hsw hgoes
      exact ⟨t, hexec, hserves, fun n _ hposted => by rw [hanswers.pghAt_of_ne (by simp [hposted]), hposted]⟩
  case pass => exact congrArg Host.Outcome.next (if_neg (by simp))
  case trips => exact fun hacts => congrArg Host.Outcome.next (if_pos (by simp [hacts]))
  case idle =>
    intro j hidle
    exact ⟨_, congrArg Host.Outcome.next (if_neg (by simp [State.runs, hidle])), by simp⟩
  case fails =>
    intro j p hidle hclu hlive
    exact ⟨_, execIdleCheckerExercise_fails s hidle hclu hlive, State.raise_checker_isSuspect _ p.isLt⟩
  case i3c =>
    intro hup
    have hread (off : BitVec 16) : exec (.i3cRead off) s = .next (s.emit (.i3c (BitVec.ofNat 64 (s.i3cReg off.toNat)))) :=
      congrArg Host.Outcome.next (if_pos hup)
    exact ⟨hread 0, hread 0x14, congrArg Host.Outcome.next (if_pos hup), congrArg Host.Outcome.next (if_pos hup),
      _, congrArg (fun i => Host.Outcome.next (s.setJtag i)) (if_pos hup), rfl⟩
  case extest =>
    exact fun hlow => ⟨_, congrArg (fun i => Host.Outcome.next (s.setJtag i)) (if_neg (by simp [hlow])), rfl⟩
  case bypass => exact ⟨_, rfl, rfl, rfl⟩
  case idcode => exact ⟨_, rfl, rfl, rfl⟩
  case sample => exact ⟨_, _, rfl, rfl, rfl⟩
  case short => exact fun ns hshort => congrArg Host.Outcome.next (if_pos hshort)
  case long => exact fun ns hlong => ⟨_, congrArg Host.Outcome.next (if_neg (by omega)), rfl⟩

/-- Settles O1: `step` is defined so. -/
theorem stepRunsFrontCommand : Obligations.StepRunsFrontCommand := by intros _ _ _; rfl
end

section
/-! Commands that a ready pigeonhole holds (R400), and those that only report (R408-R417, R485, R488). -/

namespace Sys2Proof.Machine

section
variable (s : State) (n : Nat) (a : Answer)

/-! ### What an answer shows and what it leaves -/

theorem State.answered_status : tabRead (s.answered n a).resp 4 1 = a.status % 256 := by
  rw [State.header_answered (by decide)]
  simp [State.header]

/-- Response data that stand at an offset. -/
theorem State.answered_data {pre mid : List Byte} (h : pre ++ mid <+: a.data) (hlen : pre.length + mid.length ≤ 1920) :
    tabBytes (s.answered n a).resp (0x40 + pre.length) mid.length = mid := by
  obtain ⟨post, hdata⟩ := h
  rw [State.data_answered (by simp [← hdata]) hlen, ← hdata]
  simp

/-- A field that the response data begin with. -/
theorem State.answered_first {v k : Nat} {post : List Byte} (h : a.data = bytesOf v k ++ post) (hlen : k ≤ 1920) :
    tabBytes (s.answered n a).resp 0x40 k = bytesOf v k := by
  simpa using s.answered_data n a (pre := []) (mid := bytesOf v k) (h ▸ List.prefix_append _ _) (by simpa using hlen)

theorem State.cmdLatch_out (trigger op tag b : Nat) : (s.cmdLatch trigger n op tag b).out = s.latchPacket.out := by
  unfold State.cmdLatch State.filteredPage
  dsimp only
  (repeat' split) <;> rfl

theorem State.filteredPage_silent (b slot trigger op tag : Nat) : (s.filteredPage b slot trigger n op tag).silent = s.silent := by
  unfold State.filteredPage
  split <;> rfl
theorem State.filteredPage_pghAt (b slot trigger op tag m : Nat) :
    (s.filteredPage b slot trigger n op tag).pghAt m = s.pghAt m := by
  unfold State.filteredPage
  split <;> rfl

/-- A message that has left the part stays in what has left it. -/
theorem State.mem_out_finishCmd {o : OutMsg} (h : o ∈ s.out) : o ∈ (s.finishCmd n a).out := by
  have hrespond (t : State) : (t.respond n a).out = t.out := by
    simp only [State.respond, apply_ite State.out, State.count_out, State.setPgh_out, ite_self]
  unfold State.finishCmd
  dsimp only
  split
  · exact h
  · rw [hrespond]
    split
    · rw [State.cmdLatch_out]
      exact List.mem_append_left _ h
    · exact h

/-- What no report changes: the registers, the memories, the program and where it stands. -/
def State.scene := (s.kept, s.frm.prog, s.frm.phase)

theorem State.scene_of_silent {t : State} (h : t.silent = s.silent) : t.scene = s.scene := by
  rw [State.scene, State.kept_of_silent h, State.frm_of_silent h, State.scene]
@[simp] theorem State.finishCmd_scene : (s.finishCmd n a).scene = s.scene := s.scene_of_silent (s.finishCmd_silent n a)
@[simp] theorem State.raise_scene (e : Ev) : (s.raise e).scene = s.scene := by
  rw [State.scene, State.raise_kept, State.raise_frm_prog, State.raise_frm_phase, State.scene]

theorem State.raise_pghAt (e : Ev) (m : Nat) : (s.raise e).pghAt m = s.pghAt m := by rw [State.pghAt, State.raise_post, State.pghAt]

/-- What the obligation says of a command that only reports. -/
def State.Undisturbed (t : State) : Prop := s.sameMem t ∧ s.sameRegs t ∧ t.frm.prog = s.frm.prog ∧ t.frm.phase = s.frm.phase

variable {s} in
theorem State.undisturbed_of_scene {t : State} (h : t.scene = s.scene) : s.Undisturbed t := by
  simp only [State.scene, Prod.mk.injEq] at h
  obtain ⟨hkept, hprog, hphase⟩ := h
  obtain ⟨hregs, hmem⟩ := State.frame_of_kept hkept
  exact ⟨hmem, hregs, hprog, hphase⟩
end

/-! ### A command that a pigeonhole holds ready -/

section
variable {s u : State} {n : Pgh} {op : Nat} {c : Instr} {a : Answer}

theorem State.ready.command (h : s.ready n op) (k : State → PghSt → State) : s.command n op k = k s (s.pghAt n.val) := by
  obtain ⟨hrun, hbegun, hop, hold, hpair⟩ := h
  simp [State.command, hrun, hbegun, hop, hold, hpair, State.underOld]

theorem State.ready.runs (h : s.ready n op) (k : State → PghSt → State) :
    (Host.Outcome.next (s.command n op k) : Host.Outcome State Fault Refusal) = .next (k s (s.pghAt n.val)) :=
  congrArg _ (h.command k)

/-- A command that ends in an answer, given in a state where it still runs. -/
theorem State.replies_of_finish {P : State → Prop} (hexec : exec c s = .next (u.finishCmd n.val a))
    (hrun : (u.pghAt n.val).state = 2) (hP : (u.finishCmd n.val a).pghAt n.val = u.answered n.val a → P (u.finishCmd n.val a)) :
    s.replies n c (a.status % 256) P := by
  have hpgh := u.finishCmd_pghAt_same n.val a hrun
  exact ⟨_, hexec, by rw [hpgh]; rfl, by rw [hpgh, State.answered_status], hP hpgh⟩

/-- A report: its answer is given in a state `u` in which nothing has changed. -/
theorem State.ready.reports (h : s.ready n op) {P : PghSt → List OutMsg → Prop} (hexec : exec c s = .next (u.finishCmd n.val a))
    (hscene : u.scene = s.scene) (hpgh : u.pghAt n.val = s.pghAt n.val) (hok : a.status = 0)
    (hP : P (u.answered n.val a) (u.finishCmd n.val a).out) :
    s.replies n c 0 (fun t => s.Undisturbed t ∧ P (t.pghAt n.val) t.out) := by
  obtain ⟨hrun, -⟩ := h
  have hreplies := State.replies_of_finish (P := fun t => s.Undisturbed t ∧ P (t.pghAt n.val) t.out) hexec (by rw [hpgh, hrun])
    fun hsame => ⟨State.undisturbed_of_scene ((u.finishCmd_scene _ _).trans hscene), by rw [hsame]; exact hP⟩
  rwa [hok] at hreplies

/-- A report of which only that it changes nothing is asked. -/
theorem State.ready.only_reports (h : s.ready n op) (hexec : exec c s = .next (u.finishCmd n.val a))
    (hscene : u.scene = s.scene) (hpgh : u.pghAt n.val = s.pghAt n.val) (hok : a.status = 0) :
    s.replies n c 0 (fun t => s.Undisturbed t) := by
  obtain ⟨t, hnext, hdone, hstatus, hkeeps, -⟩ := h.reports (P := fun _ _ => True) hexec hscene hpgh hok trivial
  exact ⟨t, hnext, hdone, hstatus, hkeeps⟩

theorem State.ready.contextCnt_answers (h : s.ready n 0x0702) {i : Nat}
    (hlive : s.physOf ((s.pghAt n.val).pl 0 1) ((s.pghAt n.val).pl 1 1) = some i) :
    ∃ a : Answer, a.status = 0 ∧ exec (.contextCnt n) s = .next (s.finishCmd n.val a) := by
  have hexec : exec (.contextCnt n) s = _ := h.runs _
  rw [hlive] at hexec
  exact ⟨_, rfl, hexec⟩

/-- The page that COUNTERS asks for, of the admin or of a berth, is written later. -/
theorem State.ready.counters_begins (h : s.ready n 0x0701) :
    ∃ t, exec (.counters n) s = .next t ∧ (t.pghAt n.val).begun = true ∧ t.silent = s.silent := by
  refine ⟨_, h.runs _, ?_⟩
  extract_lets u
  have hbegun : (u.pghAt n.val).begun = true := congrArg PghSt.begun (s.await_pghAt_same n.val [])
  have hsilent : u.silent = s.silent := s.await_silent n.val []
  clear_value u
  split
  · exact ⟨hbegun, hsilent⟩
  · exact ⟨(congrArg PghSt.begun (u.filteredPage_pghAt ..)).trans hbegun, (u.filteredPage_silent ..).trans hsilent⟩
end

end Sys2Proof.Machine

open Sys2Proof Sys2Proof.Machine

/-- Settles O44: a report gives its answer in a state in which nothing has changed. The fields of STATUS lie packed in the order of
the table by log entry 68. -/
theorem reportCommands : Obligations.ReportCommands := by
  intro n s p keeps
  refine ⟨?identify, ?status, ?faultLog, fun h => h.only_reports (h.runs _) rfl rfl rfl,
    fun h => h.only_reports (h.runs _) rfl rfl rfl,
    fun h => h.only_reports (h.runs _) rfl rfl rfl, fun h => h.only_reports (h.runs _) rfl rfl rfl,
    fun h => h.only_reports (h.runs _) rfl rfl rfl, ?contextCnt, ?thermal, ?attest, ?grade, ?bind, ?counters⟩
  case identify =>
    intro h
    refine h.reports (P := fun q _ => tabBytes q.resp 0x40 4 = bytesOf Config.romVersion.toNat 4) (h.runs _) rfl rfl rfl
      (State.answered_first _ _ _ (by simp only [List.append_assoc]; rfl) (by decide))
  case status =>
    intro h
    refine h.reports (P := fun q _ => tabRead q.resp 0x44 8 = s.frm.frameNum.toNat) (h.runs _) rfl rfl rfl ?_
    rw [tabRead_eq]
    refine (congrArg ofBytes (s.answered_data n.val _ (pre := bytesOf s.frameStatus 4) (mid := bytesOf s.frm.frameNum.toNat 8)
      ⟨_, by simp only [List.append_assoc]; rfl⟩ (by simp))).trans ((ofBytes_bytesOf ..).trans (Nat.mod_eq_of_lt ?_))
    omega
  case faultLog =>
    intro h
    exact h.only_reports (h.runs _) (foldl_keeps State.scene _ (fun u _ => u.raise_scene _) _ s)
      (foldl_keeps (fun u => u.pghAt n.val) _ (fun u _ => u.raise_pghAt _ _) _ s) rfl
  case contextCnt =>
    intro h i hi
    obtain ⟨a, hok, hexec⟩ := h.contextCnt_answers hi
    exact h.only_reports hexec rfl rfl hok
  case thermal =>
    intro h
    refine h.reports (P := fun q _ => tabRead q.resp 0x40 2 = (tget s.pwr.sensors 0 0).toNat) (h.runs _) rfl rfl rfl ?_
    rw [tabRead_eq, State.answered_first _ _ _ (v := (tget s.pwr.sensors 0 0).toNat) rfl (by decide), ofBytes_bytesOf]
    exact Nat.mod_eq_of_lt (by omega)
  case attest =>
    intro h
    exact h.reports (P := fun _ l => ∃ bs, OutMsg.hostWrite 0 p.buf bs false ∈ l) (h.runs _) rfl rfl rfl
      (by exact ⟨_, State.mem_out_finishCmd _ _ _ (List.mem_append_right _ (List.mem_singleton_self _))⟩)
  case grade =>
    intro h
    exact h.reports (P := fun _ l => ∃ bs, OutMsg.hostWrite 0 p.buf bs false ∈ l) (h.runs _) rfl rfl rfl
      (by exact ⟨_, State.mem_out_finishCmd _ _ _ (List.mem_append_right _ (List.mem_singleton_self _))⟩)
  case bind =>
    intro h img hvalid
    exact h.only_reports (h.runs _) rfl rfl hvalid
  case counters =>
    intro h
    obtain ⟨t, hexec, hbegun, hsilent⟩ := h.counters_begins
    exact ⟨t, hexec, hbegun, State.undisturbed_of_scene (s.scene_of_silent hsilent)⟩
end

section
/-! The commands of a program (R409-R412, R418) and the end of a kill's scrub (R495). -/

namespace Sys2Proof.Machine

/-! ### What the placement of an image leaves of the pigeonholes and of the invocation's number -/

/-- The pigeonholes and the number of the invocation. -/
def State.ledger (s : State) : Tab PghSt × Nat := (s.post.pgh, s.epoch)

theorem State.ledger_of_fields {s t : State} (hpost : t.post = s.post := by simp) (hepoch : t.epoch = s.epoch := by simp) :
    t.ledger = s.ledger := by rw [State.ledger, State.ledger, hpost, hepoch]

theorem State.pghAt_of_ledger {s t : State} (h : t.ledger = s.ledger) (n : Nat) : t.pghAt n = s.pghAt n := by
  rw [State.pghAt, (Prod.mk.inj h).1, State.pghAt]

section
variable (s : State)

@[simp] theorem State.raise_ledger (e : Ev) : (s.raise e).ledger = s.ledger := State.ledger_of_fields
@[simp] theorem State.onRtr_ledger (p : Nat) (f : RouterSt → RouterSt) : (s.onRtr p f).ledger = s.ledger := rfl
@[simp] theorem State.setBank_ledger (p : Nat) (deck : Bool) (b : BankSt) : (s.setBank p deck b).ledger = s.ledger := by
  unfold State.setBank
  split <;> rfl
theorem State.tickFresh_ledger : s.tickFresh.ledger = s.ledger := rfl
theorem State.nst_ledger (m : Mem) : State.ledger { s with nst := m } = s.ledger := rfl
@[simp] theorem State.onBank_ledger (p : Nat) (deck : Bool) (k : Nat) (f : Mem → Nat → Nat → Mem) :
    (s.onBank p deck k f).ledger = s.ledger := by
  unfold State.onBank
  split
  · rfl
  · exact s.nst_ledger _
@[simp] theorem State.openBank_ledger (p : Nat) (deck : Bool) (k : Nat) : (s.openBank p deck k).ledger = s.ledger := by
  rw [State.openBank, State.tickFresh_ledger, State.onBank_ledger]
@[simp] theorem State.bankOn_ledger (p : Nat) (deck : Bool) (k : Nat) : (s.bankOn p deck k).ledger = s.ledger := by
  unfold State.bankOn State.bankUp
  dsimp only
  split
  · rfl
  · (repeat' split) <;> simp [State.zeroBank]
@[simp] theorem State.planWake_ledger (p : Nat) (deck : Bool) (h : FrameHdr) : (s.planWake p deck h).ledger = s.ledger := by
  unfold State.planWake
  split <;> simp

/-! The writes of LPDDR5X -/

@[simp] theorem State.scrubRefuse_ledger (mem a p : Nat) : (s.scrubRefuse mem a p).ledger = s.ledger := by
  unfold State.scrubRefuse
  split
  · rfl
  · split
    · rfl
    · exact State.raise_ledger ..
@[simp] theorem State.lpMeet_ledger (i da : Nat) (code : Code) : (s.lpMeet i da code).1.ledger = s.ledger := by
  unfold State.lpMeet
  dsimp only
  (repeat' split) <;> exact State.ledger_of_fields
@[simp] theorem State.lpWrite_ledger (da : Nat) (v : Row) (mask : BitVec 64) (poison : Bool) :
    (s.lpWrite da v mask poison).ledger = s.ledger := by
  have hport (i : Nat) : (((s.portUse i).count 3 i 1 64).bw i true 64).ledger = s.ledger :=
    State.ledger_of_fields (by simp [State.portUse]) (by simp [State.portUse])
  unfold State.lpWrite
  extract_lets i t
  split
  · exact State.raise_ledger ..
  split
  · exact State.scrubRefuse_ledger ..
  split
  next u un heq =>
    have hu : u = (if mask = BitVec.allOnes 64 then (t, false) else t.lpMeet i da 0x2C02).1 := by rw [heq]
    have ht : u.ledger = t.ledger := by
      rw [hu]
      split
      · rfl
      · exact t.lpMeet_ledger ..
    exact ht.trans (hport i)
@[simp] theorem State.lpWriteBytes_ledger (da : Nat) (bs : List Byte) (poison : Bool) :
    (s.lpWriteBytes da bs poison).ledger = s.ledger :=
  foldl_keeps State.ledger _ (fun t _ => t.lpWrite_ledger ..) _ s

/-! The parts of a placement and of a start -/

@[simp] theorem State.placeTables_ledger (img : Image) (i : Nat) : (s.placeTables img i).ledger = s.ledger := by
  unfold State.placeTables
  refine (foldl_keeps State.ledger _ (fun t f => t.onRtr_ledger ..) _ _).trans
    ((foldl_keeps State.ledger _ (fun t c => ?_) _ _).trans rfl)
  split <;> rfl
@[simp] theorem State.placeDeck_ledger (img : Image) (lost : Bool) : (s.placeDeck img lost).ledger = s.ledger := by
  unfold State.placeDeck
  extract_lets of
  have hof (t : State) (p : Nat) (bs : List (Nat × Byte)) : (of t p bs).ledger = t.ledger := by
    refine foldl_keeps State.ledger _ (fun u k => ?_) _ t
    extract_lets here b kept
    split
    · rfl
    · exact u.bankOn_ledger ..
  refine (foldl_keeps State.ledger _ (fun t f => hof ..) _ _).trans (foldl_keeps State.ledger _ (fun t c => ?_) _ _)
  split
  · exact hof ..
  · rfl
@[simp] theorem State.selectCounters_ledger (img : Image) : (s.selectCounters img).ledger = s.ledger := rfl
@[simp] theorem State.initScales_ledger (img : Image) (step : Nat) : (s.initScales img step).ledger = s.ledger := by
  refine foldl_keeps State.ledger _ (fun t c => ?_) _ s
  extract_lets kept
  split
  · exact t.lpWriteBytes_ledger ..
  · rfl
theorem State.place_ledger (b : Nat) (img : Image) : (s.place b img).ledger = s.ledger :=
  (State.placeDeck_ledger ..).trans (State.placeTables_ledger ..)

/-- `t` is at the start of an invocation from `s` on, with its first step (R412). -/
structure State.Starts (t : State) (step : Nat) : Prop where
  ledger : t.ledger = (s.post.pgh, s.epoch + 1)
  phase : t.frm.phase = 2
  firstFrame : t.frm.firstFrame = true
  stepNum : t.frm.stepNum = BitVec.ofNat 32 step

theorem State.startRun_starts (g : Prog) (p : PghSt) (mask : List (Nat × Retained)) : s.Starts (s.startRun g p mask) (p.pl 4 4) := by
  unfold State.startRun
  extract_lets img b start step others kept near post s1 s2 s3 s4 upd depot pont obs host s5 s6 s7
  have h2 : s2.ledger = (s.post.pgh, s.epoch + 1) := (State.placeDeck_ledger ..).trans (State.placeTables_ledger ..)
  have h3 : s3.ledger = s2.ledger := rfl
  have h4 : s4.ledger = s3.ledger := (State.initScales_ledger ..).trans (State.selectCounters_ledger ..)
  have h5 : s5.ledger = s4.ledger := rfl
  have h6 : s6.ledger = s5.ledger := by
    unfold s6
    split
    · exact foldl_keeps State.ledger _ (fun t i => (State.planWake_ledger ..).trans (State.planWake_ledger ..)) _ _
    · rfl
  have h7 : s.Starts s7 (p.pl 4 4) := ⟨h6.trans (h5.trans (h4.trans (h3.trans h2))), rfl, rfl, rfl⟩
  clear_value s7
  obtain ⟨hledger, hphase, hfirst, hstep⟩ := h7
  split
  · exact ⟨hledger, hphase, hfirst, hstep⟩
  · exact ⟨hledger, hphase, hfirst, hstep⟩
end

/-! ### The commands that stop, resume and kill -/

section
variable {s u : State} {n : Pgh} {op : Nat} {c : Instr} {a : Answer}

/-- A command that ends in an answer, given in a state `u` that has left its pigeonhole alone. -/
theorem State.ready.answers_after (h : s.ready n op) {P : State → Prop} {status : Nat}
    (hexec : exec c s = .next (u.finishCmd n.val a)) (hpgh : u.pghAt n.val = s.pghAt n.val) (hstatus : a.status % 256 = status)
    (hP : (u.finishCmd n.val a).pghAt n.val = u.answered n.val a → P (u.finishCmd n.val a)) : s.replies n c status P := by
  obtain ⟨hrun, -⟩ := h
  rw [← hstatus]
  exact State.replies_of_finish hexec (by rw [hpgh, hrun]) hP

/-- The same for what an answer does not change: it need be shown of `u` only. -/
theorem State.ready.answers (h : s.ready n op) {P : State → Prop} {status : Nat} (hexec : exec c s = .next (u.finishCmd n.val a))
    (hpgh : u.pghAt n.val = s.pghAt n.val) (hstatus : a.status % 256 = status) (hP : ∀ t : State, t.silent = u.silent → P t) :
    s.replies n c status P :=
  h.answers_after hexec hpgh hstatus fun _ => hP _ (u.finishCmd_silent ..)

/-- The program goes on after a stop: no stop stands, and no pigeonhole has changed. -/
theorem State.resume_goes (s : State) (step : Bool) :
    (s.resume step).post = s.post ∧ (s.resume step).frm.stopKind = .none ∧ (s.resume step).frm.phase ≠ 3 := by
  unfold State.resume
  extract_lets gap t v
  split
  · refine ⟨rfl, rfl, ?_⟩
    show (if _ then (2 : BitVec 2) else 1) ≠ 3
    split <;> decide
  · exact ⟨rfl, rfl, show (2 : BitVec 2) ≠ 3 by decide⟩

theorem State.resume_pghAt (s : State) (step : Bool) (m : Nat) : (s.resume step).pghAt m = s.pghAt m := by
  rw [State.pghAt, (s.resume_goes step).1, State.pghAt]

/-- Only a program that stands stopped, its requests drained, can be resumed (R71, R72). -/
theorem State.stands_stopped (hphase : s.frm.phase = 3) (hdrained : s.frm.drainFrom = none) :
    (s.frm.phase == 3 && s.frm.drainFrom.isNone) = true := by simp [hphase, hdrained]

theorem State.not_stands_stopped (hphase : s.frm.phase ≠ 3) : ¬ (s.frm.phase == 3 && s.frm.drainFrom.isNone) = true :=
  fun h => hphase (beq_iff_eq.1 (Bool.and_eq_true_iff.1 h).1)

/-- STOP at tick in a frame: the stop waits for the tail (R67, R412). -/
theorem State.ready.stop_waits (h : s.ready n 0x0304) (hphase : s.frm.phase = 1) (hdrain : s.frm.drainFrom = none)
    (hforce : (s.pghAt n.val).force = false) (hkind : (s.pghAt n.val).pl 0 1 = 0) (hend : (s.pghAt n.val).pl 1 1 = 0) :
    exec (.stop n) s = .next ((s.await n.val []).onFrm (fun f => { f with stopReq := true })) := by
  have hframe : (s.await n.val []).frm = s.frm := rfl
  have hexec : exec (.stop n) s = _ := h.runs _
  have hbits : ((1 : BitVec 2) == 0) = false ∧ ((1 : BitVec 2) == 3) = false ∧ ((1 : BitVec 2) == 2) = false := by decide
  obtain ⟨h0, h3, h2⟩ := hbits
  simpa only [hframe, hphase, hdrain, hforce, hkind, hend, h0, h3, h2, Nat.reduceBEq, Nat.reduceEqDiff, Option.isSome_none,
    Bool.false_and, Bool.false_eq_true, if_false] using hexec

theorem State.ready.stepCmd_steps (h : s.ready n 0x0305) (hphase : s.frm.phase = 3) (hdrained : s.frm.drainFrom = none) :
    exec (.stepCmd n) s = .next (s.resumeOr n.val true) :=
  (h.runs _).trans (congrArg Host.Outcome.next (if_pos (State.stands_stopped hphase hdrained)))

theorem State.ready.resume_resumes (h : s.ready n 0x0306) (hphase : s.frm.phase = 3) (hdrained : s.frm.drainFrom = none) :
    exec (.resume n) s = .next (s.resumeOr n.val false) :=
  (h.runs _).trans (congrArg Host.Outcome.next (if_pos (State.stands_stopped hphase hdrained)))

/-- A KILL of berth `b` waits for its scrub: it answers later, the berth is under a kill, none of its regions is retained. -/
structure State.KillWaits (t : State) (n b : Nat) : Prop where
  begun : (t.pghAt n).begun = true
  killing : b ∈ t.post.killing
  retained : ∀ r ∈ t.post.retained, r.berth ≠ b

theorem State.await_killWaits {u : State} {n b : Nat} {ks : List Nat} {rs : List Retained} (hkilling : u.post.killing = b :: ks)
    (hretained : u.post.retained = rs.filter (fun r => r.berth != b)) : (u.await n []).KillWaits n b := by
  refine ⟨congrArg PghSt.begun (u.await_pghAt_same ..), ?_, fun r hr => ?_⟩
  · rw [show (u.await n []).post.killing = u.post.killing from rfl, hkilling]
    exact List.mem_cons_self
  · rw [show (u.await n []).post.retained = u.post.retained from rfl, hretained] at hr
    exact bne_iff_ne.1 (List.mem_filter.1 hr).2

theorem State.ready.kill_kills (h : s.ready n 0x0202) (hfirst : s.post.killing.contains (s.pghAt n.val).berth = false) :
    ∃ t, exec (.kill n) s = .next t ∧ t.KillWaits n.val (s.pghAt n.val).berth :=
  ⟨_, (h.runs _).trans (congrArg Host.Outcome.next (if_neg (by rw [hfirst]; decide))), State.await_killWaits rfl rfl⟩
end

/-! ### The end of a kill's scrub -/

theorem get_foldl_zero (l : List (Nat × Nat × Nat × Nat)) (m : Mem) (a : Nat)
    (h : m.get a = 0 ∨ ∃ x ∈ l, x.2.2.1 ≤ a ∧ a < x.2.2.2) : (l.foldl (fun m x => m.zero x.2.2.1 x.2.2.2) m).get a = 0 := by
  induction l generalizing m with
  | nil => simpa using h
  | cons y r ih =>
    refine ih _ ?_
    by_cases hy : y.2.2.1 ≤ a ∧ a < y.2.2.2
    · exact .inl (m.get_zero_in _ _ _ hy.1 hy.2)
    · rw [m.get_zero_out _ _ _ (by omega)]
      exact h.imp_right fun ⟨x, hx, hin⟩ => ⟨x, (List.mem_cons.1 hx).resolve_left (by rintro rfl; exact hy hin), hin⟩

/-- What a scrub of berth `b` has left once it ends: nothing of the berth is under a kill or a scrub, its near store is zero. -/
structure State.Scrubbed (s t : State) (b : Nat) : Prop where
  killing : b ∉ t.post.killing
  scrubs : ∀ x ∈ t.post.scrubs, x.1 ≠ b
  zero : ∀ x ∈ s.post.scrubs, x.1 = b → x.2.1 = 0 → ∀ a, x.2.2.1 ≤ a → a < x.2.2.2 → t.nst.get a = 0

theorem State.Scrubbed.of_silent {s t u : State} {b : Nat} (h : s.Scrubbed u b) (hsilent : t.silent = u.silent) :
    s.Scrubbed t b := by
  have hkilling : t.post.killing = u.post.killing := (congrArg (fun v => v.post.killing) hsilent :)
  have hscrubs : t.post.scrubs = u.post.scrubs := (congrArg (fun v => v.post.scrubs) hsilent :)
  have hnst : t.nst = u.nst := (congrArg State.nst hsilent :)
  exact ⟨hkilling ▸ h.killing, hscrubs ▸ h.scrubs, hnst ▸ h.zero⟩

theorem execKillScrubComplete_scrubs {s : State} {b : Port} {k : Nat × Nat × Nat}
    (hk : s.post.killInfo.find? (fun k => k.1 == b.val) = some k) :
    ∃ t, exec (.killScrubComplete b) s = .next t ∧ s.Scrubbed t b.val := by
  have hexec : exec (.killScrubComplete b) s = execKillScrubComplete b s := rfl
  unfold execKillScrubComplete at hexec
  rw [hk] at hexec
  refine ⟨_, hexec, State.Scrubbed.of_silent ?_ (foldl_keeps State.silent _ (fun t m => t.finishCmd_silent ..) _ _)⟩
  refine ⟨fun hb => ?_, fun x hx => bne_iff_ne.1 (List.mem_filter.1 hx).2, fun x hx hberth hnear a hlo hhi => ?_⟩
  · exact bne_iff_ne.1 (List.mem_filter.1 hb).2 rfl
  · have hx' : x ∈ (s.post.scrubs.filter (fun x => x.1 == b.val)).filter (fun x => x.2.1 == 0) := by simp [hx, hberth, hnear]
    exact get_foldl_zero _ s.nst a (.inr ⟨x, hx', hlo, hhi⟩)

end Sys2Proof.Machine

open Sys2Proof Sys2Proof.Machine

/-- Settles O45, one lemma a command where its effect has more than one step. That the end of a scrub is that of the berth's
LPDDR5X too rests on log entry 63. -/
theorem programCommands : Obligations.ProgramCommands := by
  intro n s p waits
  refine ⟨?load, ?run, ?stop, ?step, ?resume, ?policy, ?override, ?kill, ?scrubbed⟩
  case load =>
    intro h img hvalid
    refine h.answers ((h.runs _).trans (congrArg Host.Outcome.next (if_pos hvalid)))
      (State.pghAt_of_ledger (s.place_ledger ..) _) rfl
      fun t ht => ⟨{ image := img, berth := p.berth, loaded := true }, ?_, rfl, rfl⟩
    rw [State.frm_of_silent ht]
    rfl
  case run =>
    intro h
    refine ⟨fun hnone => ?_, fun g hprog hshape => ?_⟩
    · have hexec : exec (.run n) s = _ := h.runs _
      rw [hnone] at hexec
      exact h.answers hexec rfl rfl fun t ht => by rw [State.frm_of_silent ht]
    · have hexec : exec (.run n) s = _ := h.runs _
      rw [hprog] at hexec
      obtain ⟨hledger, hphase, hfirst, hstep⟩ := s.startRun_starts g p (s.intact g.berth g.image)
      obtain ⟨hpgh, hepoch⟩ := Prod.mk.inj hledger
      refine h.answers (hexec.trans (congrArg Host.Outcome.next (if_neg (not_not.2 hshape))))
        (by rw [State.pghAt, hpgh, State.pghAt]) rfl fun t ht => ?_
      rw [State.frm_of_silent ht]
      exact ⟨hphase, hfirst, (congrArg State.epoch ht).trans hepoch, hstep⟩
  case stop =>
    intro h
    refine ⟨fun hidle => ?_, fun hphase hdrain hforce hkind hend => ?_⟩
    · exact h.answers ((h.runs _).trans (congrArg Host.Outcome.next (if_pos (by simp [hidle])))) rfl rfl
        fun t ht => by rw [State.frm_of_silent ht, hidle]
    · exact ⟨_, h.stop_waits hphase hdrain hforce hkind hend, congrArg PghSt.begun (s.await_pghAt_same ..), rfl, hphase⟩
  case step =>
    intro h
    refine ⟨fun hphase hdrained => ⟨_, h.stepCmd_steps hphase hdrained, ?_⟩, fun hphase => ?_⟩
    · have hbegun : ((s.await n.val []).pghAt n.val).begun = true := congrArg PghSt.begun (s.await_pghAt_same ..)
      unfold State.resumeOr
      split
      · exact ⟨congrArg PghSt.begun (s.await_pghAt_same ..), hphase⟩
      · exact ⟨(congrArg PghSt.begun (State.resume_pghAt ..)).trans hbegun, rfl, (State.resume_goes _ true).2.2⟩
    · exact h.answers ((h.runs _).trans (congrArg Host.Outcome.next (if_neg (State.not_stands_stopped hphase)))) rfl rfl
        fun t ht => by rw [State.frm_of_silent ht]
  case resume =>
    intro h
    refine ⟨fun hphase hdrained => ⟨fun hclosed => ?_, fun hopen => ?_⟩, fun hphase => ?_⟩
    · obtain ⟨-, hkind, hgoes⟩ := s.resume_goes false
      refine h.answers ((h.resume_resumes hphase hdrained).trans (congrArg Host.Outcome.next (if_neg (by simp [hclosed]))))
        (s.resume_pghAt false n.val) rfl fun t ht => ?_
      rw [State.frm_of_silent ht]
      exact ⟨hkind, hgoes⟩
    · refine ⟨_, (h.resume_resumes hphase hdrained).trans (congrArg Host.Outcome.next (if_pos hopen)),
        congrArg PghSt.begun (s.await_pghAt_same ..), hphase⟩
    · exact h.answers ((h.runs _).trans (congrArg Host.Outcome.next (if_neg (State.not_stands_stopped hphase)))) rfl rfl
        fun t ht => by rw [State.frm_of_silent ht]
  case policy =>
    intro h hmask
    have hexec : exec (.setPolicy n) s = _ := h.runs _
    rw [hmask] at hexec
    refine h.answers hexec rfl rfl fun t ht => ?_
    rw [State.frm_of_silent ht]
    exact ⟨rfl, rfl⟩
  case override =>
    intro h hruns
    have hgoes : s.runs = true := bne_iff_ne.2 hruns
    exact ⟨_, (h.runs _).trans (congrArg Host.Outcome.next (if_pos hgoes)),
      congrArg PghSt.begun (State.await_pghAt_same ..), _, rfl⟩
  case kill =>
    intro h hfirst
    obtain ⟨t, hexec, hbegun, hkilling, hretained⟩ := h.kill_kills hfirst
    exact ⟨t, hexec, hbegun, hkilling, hretained⟩
  case scrubbed =>
    intro b k hk
    obtain ⟨t, hexec, hkilling, hscrubs, hzero⟩ := execKillScrubComplete_scrubs hk
    exact ⟨t, hexec, hkilling, hscrubs, hzero⟩
end

section
/-! The commands that set up the part (R416, R417). -/

namespace Sys2Proof.Machine

/-! ### Ports that come up and go down (R332, R338, R347, R418) -/

/-- What a change of ports leaves: the rest of Pontoon, the registers, the memories and the Postmaster. -/
def State.aroundPorts (s : State) := (s.offPorts, s.kept, s.post)

section
variable (s : State) (q : Nat)

theorem State.raise_aroundPorts (e : Ev) : (s.raise e).aroundPorts = s.aroundPorts := by
  simp [State.aroundPorts, State.offPorts]
theorem State.setPport_pport_ne (x : PontPort) {m : Nat} (h : m ≠ q) : (s.setPport q x).pport m = s.pport m :=
  tget_tset_ne _ _ _ h
theorem State.raise_pport (e : Ev) (m : Nat) : (s.raise e).pport m = s.pport m := by rw [State.pport, State.raise_pont, State.pport]

/-- A change of port `q`: no other port and nothing around the ports changes, and the port keeps its home. -/
structure State.ChangesPort (t : State) : Prop where
  around : t.aroundPorts = s.aroundPorts
  others : ∀ m, m ≠ q → t.pport m = s.pport m
  home : (t.pport q).home = (s.pport q).home

variable {s q}

theorem State.ChangesPort.setPport {x : PontPort} (h : x.home = (s.pport q).home) : s.ChangesPort q (s.setPport q x) :=
  ⟨rfl, fun _ hm => s.setPport_pport_ne q x hm, by rw [State.setPport_pport_same, h]⟩
theorem State.ChangesPort.raise {t : State} (h : s.ChangesPort q t) (e : Ev) : s.ChangesPort q (t.raise e) :=
  ⟨(t.raise_aroundPorts e).trans h.around, fun m hm => (t.raise_pport e m).trans (h.others m hm), by rw [t.raise_pport, h.home]⟩

theorem State.bringUp_changesPort (trains : Bool) (rtNs : Nat) (peer : BitVec 18) :
    s.ChangesPort q (s.bringUp q trains rtNs peer) := by
  unfold State.bringUp State.linkEvent
  extract_lets x
  split
  · exact .setPport (by rfl)
  split
  · exact .raise (.setPport (by rfl)) _
  split
  · exact .raise (.setPport (by rfl)) _
  split
  · exact .raise (.setPport (by rfl)) _
  · exact .setPport (by rfl)

theorem State.disablePort_changesPort (force : Bool) : s.ChangesPort q (s.disablePort q force) := by
  unfold State.disablePort
  extract_lets x busy t
  split
  · exact .setPport (by rfl)
  split
  · exact .raise (.setPport (by rfl)) _
  · exact .setPport (by rfl)

theorem State.bringUp_stays (trains : Bool) (rtNs : Nat) (peer : BitVec 18) (hup : (s.pport q).state = 2) :
    ((s.bringUp q trains rtNs peer).pport q).state = 2 := by
  rw [State.bringUp, if_pos hup, State.setPport_pport_same, hup]

theorem State.bringUp_comes_up {rtNs : Nat} {peer : BitVec 18} (hdown : (s.pport q).state ≠ 2) (hrt : rtNs ≤ 15000)
    (hpeer : peer.toNat = s.pont.cabled q) :
    ((s.bringUp q true rtNs peer).pport q).state = 2 ∧ ((s.bringUp q true rtNs peer).pport q).peer = peer := by
  rw [State.bringUp, if_neg hdown, if_neg (by decide), if_neg (by omega), if_neg (not_not.2 hpeer), State.setPport_pport_same]
  exact ⟨rfl, rfl⟩

/-- A port goes down at once where it is down, has nothing to send, or is forced. -/
theorem State.disablePort_goes_down {force : Bool}
    (h : (s.pport q).state ≠ 2 ∨ ((s.pport q).replay = [] ∧ (s.pport q).txq = []) ∨ force = true) :
    ((s.disablePort q force).pport q).state = 0 := by
  unfold State.disablePort
  extract_lets x busy t
  have hoff : (t.pport q).state = 0 := by rw [State.setPport_pport_same]; rfl
  rw [if_neg]
  · split
    · rw [State.raise_pport, hoff]
    · exact hoff
  · rcases h with hdown | ⟨hreplay, htxq⟩ | hforce
    · simp only [Bool.and_eq_true, decide_eq_true_eq]
      exact fun hup => hdown hup.1.1
    · simp [busy, x, hreplay, htxq]
    · simp [hforce]
end

/-! ### CONFIGURE (R416) -/

/-- Port `q` as CONFIGURE sets it up. -/
def State.configurePort (p : PghSt) (linkUp : BitVec 16) (roundTripNs : List Nat) (peers : List (BitVec 18)) (s : State) (q : Nat) :
    State :=
  let homed := if q % 2 = 1 then (p.pl 0x10 1).testBit (q / 2) else !(p.pl 0x10 1).testBit (q / 2)
  let x := s.pport q
  let s := s.setPport q { x with home := homed }
  if (p.pl 0x12 2).testBit q && s.pont.uses q then
    (if x.state = 3 && !(p.pl 0x14 2).testBit q then s
     else s.bringUp q (linkUp.getLsbD q) (roundTripNs[q]?.getD 0) (peers[q]?.getD 0))
  else s.disablePort q p.force

section
variable (p : PghSt) (up : BitVec 16) (rt : List Nat) (peers : List (BitVec 18)) (s : State) (q : Nat)

/-- The home of a port by the command's mask of pairs. -/
def PghSt.homed (p : PghSt) (q : Nat) : Bool := (p.pl 0x10 1).testBit (q / 2) == (q % 2 == 1)

theorem PghSt.homed_eq : (if q % 2 = 1 then (p.pl 0x10 1).testBit (q / 2) else !(p.pl 0x10 1).testBit (q / 2)) = p.homed q := by
  unfold PghSt.homed
  by_cases h : q % 2 = 1
  · rw [if_pos h, h, beq_self_eq_true, beq_true]
  · rw [if_neg h, beq_false_of_ne h, beq_false]

/-- Port `q` with its home. -/
def State.withHome (home : Bool) : State := s.setPport q { s.pport q with home := home }

theorem State.configurePort_eq : s.configurePort p up rt peers q =
    if ((p.pl 0x12 2).testBit q && s.pont.uses q) = true then
      (if (decide ((s.pport q).state = 3) && !(p.pl 0x14 2).testBit q) = true then s.withHome q (p.homed q)
       else (s.withHome q (p.homed q)).bringUp q (up.getLsbD q) (rt[q]?.getD 0) (peers[q]?.getD 0))
    else (s.withHome q (p.homed q)).disablePort q p.force := by
  rw [State.withHome, ← PghSt.homed_eq]
  rfl

theorem State.withHome_pport (home : Bool) : (s.withHome q home).pport q = { s.pport q with home := home } :=
  State.setPport_pport_same ..

theorem State.configurePort_changes : (s.withHome q (p.homed q)).ChangesPort q (s.configurePort p up rt peers q) := by
  rw [State.configurePort_eq]
  split
  · split
    · exact ⟨rfl, fun _ _ => rfl, rfl⟩
    · exact State.bringUp_changesPort ..
  · exact State.disablePort_changesPort ..

theorem State.configurePort_aroundPorts : (s.configurePort p up rt peers q).aroundPorts = s.aroundPorts :=
  (State.configurePort_changes ..).around
theorem State.configurePort_pport_ne {m : Nat} (h : m ≠ q) : (s.configurePort p up rt peers q).pport m = s.pport m :=
  ((State.configurePort_changes ..).others m h).trans (s.setPport_pport_ne q _ h)

theorem State.configurePort_home : ((s.configurePort p up rt peers q).pport q).home = p.homed q := by
  rw [(State.configurePort_changes ..).home, State.withHome_pport]

variable {p up rt peers s q}

theorem State.configurePort_stays (hon : ((p.pl 0x12 2).testBit q && s.pont.uses q) = true) (hup : (s.pport q).state = 2) :
    ((s.configurePort p up rt peers q).pport q).state = 2 := by
  have hkept : ¬ (decide ((s.pport q).state = 3) && !(p.pl 0x14 2).testBit q) = true := by rw [hup]; simp
  rw [State.configurePort_eq, if_pos hon, if_neg hkept]
  exact State.bringUp_stays _ _ _ (by rw [State.withHome_pport, hup])

theorem State.configurePort_comes_up (hon : ((p.pl 0x12 2).testBit q && s.pont.uses q) = true) (hdown : (s.pport q).state ≠ 2)
    (hback : (s.pport q).state ≠ 3 ∨ (p.pl 0x14 2).testBit q = true) (htrains : up.getLsbD q = true)
    (hrt : rt[q]?.getD 0 ≤ 15000) (hpeer : (peers[q]?.getD 0).toNat = s.pont.cabled q) :
    ((s.configurePort p up rt peers q).pport q).state = 2 ∧
      ((s.configurePort p up rt peers q).pport q).peer = peers[q]?.getD 0 := by
  have hback' : ¬ (decide ((s.pport q).state = 3) && !(p.pl 0x14 2).testBit q) = true := by
    simp only [Bool.and_eq_true, decide_eq_true_eq, Bool.not_eq_true']
    rintro ⟨hfailed, hstays⟩
    rcases hback with h | h
    · exact h hfailed
    · exact absurd (hstays.symm.trans h) (by decide)
  rw [State.configurePort_eq, if_pos hon, if_neg hback', htrains]
  exact State.bringUp_comes_up (by rwa [State.withHome_pport]) hrt hpeer

theorem State.configurePort_goes_down (hoff : ¬ ((p.pl 0x12 2).testBit q && s.pont.uses q) = true)
    (h : (s.pport q).state ≠ 2 ∨ ((s.pport q).replay = [] ∧ (s.pport q).txq = []) ∨ p.force = true) :
    ((s.configurePort p up rt peers q).pport q).state = 0 := by
  rw [State.configurePort_eq, if_neg hoff]
  exact State.disablePort_goes_down (by rwa [State.withHome_pport])

/-- Ports that are set up one after another: each is as it was when its turn comes, and later ones leave it. -/
theorem State.configurePorts_turn {N : Nat} (hq : q < N) : ∃ t : State, t.aroundPorts = s.aroundPorts ∧ t.pport q = s.pport q ∧
    ((List.range N).foldl (State.configurePort p up rt peers) s).pport q = (t.configurePort p up rt peers q).pport q := by
  have hearlier (M : Nat) (hM : M ≤ q) : ((List.range M).foldl (State.configurePort p up rt peers) s).pport q = s.pport q := by
    induction M with
    | zero => rfl
    | succ M ih =>
      rw [List.range_succ, List.foldl_append, List.foldl_cons, List.foldl_nil, State.configurePort_pport_ne _ _ _ _ _ _ (by omega),
        ih (by omega)]
  have haround (M : Nat) : ((List.range M).foldl (State.configurePort p up rt peers) s).aroundPorts = s.aroundPorts :=
    foldl_keeps State.aroundPorts _ (fun t m => State.configurePort_aroundPorts ..) _ s
  induction N with
  | zero => exact absurd hq (Nat.not_lt_zero _)
  | succ N ih =>
    rw [List.range_succ, List.foldl_append, List.foldl_cons, List.foldl_nil]
    by_cases h : q = N
    · subst h
      exact ⟨_, haround q, hearlier q le_rfl, rfl⟩
    · obtain ⟨t, ht, hport, hturn⟩ := ih (by omega)
      exact ⟨t, ht, hport, by rw [State.configurePort_pport_ne _ _ _ _ _ _ h, hturn]⟩
end

/-! ### SET_FRAME (R42, R417) -/

section
variable (s : State)

/-- The tick window and where the program stands: no write of the source or of the period changes them. -/
def State.window : BitVec 8 × BitVec 8 × BitVec 2 := (s.frm.early, s.frm.late, s.frm.phase)

theorem State.tickWrites_window : s.tickWrites.window = s.window := by
  unfold State.tickWrites
  extract_lets f period bits src
  split <;> rfl
theorem State.writeTickSrc_window (v : BitVec 4) : (s.writeTickSrc v).window = s.window := by
  unfold State.writeTickSrc
  extract_lets t
  split
  · rfl
  · exact t.tickWrites_window
theorem State.writePeriod_window (v : Nat) : (s.writePeriod v).1.window = s.window := by
  unfold State.writePeriod
  split
  · rfl
  · extract_lets t
    dsimp only
    split
    · rfl
    · exact t.tickWrites_window

theorem State.tickWrites_post : s.tickWrites.post = s.post := by
  unfold State.tickWrites
  extract_lets f period bits src
  split <;> rfl
theorem State.writeTickSrc_post (v : BitVec 4) : (s.writeTickSrc v).post = s.post := by
  unfold State.writeTickSrc
  extract_lets t
  split
  · rfl
  · exact t.tickWrites_post
theorem State.writePeriod_post (v : Nat) : (s.writePeriod v).1.post = s.post := by
  unfold State.writePeriod
  split
  · rfl
  · extract_lets t
    dsimp only
    split
    · rfl
    · exact t.tickWrites_post

variable {s}

theorem State.tickWrites_src (h : s.frm.pendSrc = none) : s.tickWrites.frm.src = s.frm.src := by
  unfold State.tickWrites
  extract_lets f period bits src
  split
  · rfl
  · exact if_neg (by simp [f, h])

theorem State.writeTickSrc_idle (v : BitVec 4) (hidle : s.runs = false) :
    (s.writeTickSrc v).frm.src = v.setWidth 2 ∧ (s.writeTickSrc v).frm.pendSrc = none := by
  have hkept : (s.onFrm (fun f => { f with pendSrc := some v })).runs = s.runs := rfl
  rw [State.writeTickSrc, if_neg (by rw [hkept, hidle]; decide)]
  exact ⟨rfl, rfl⟩
theorem State.writeTickSrc_runs (v : BitVec 4) (hruns : s.runs = true) :
    (s.writeTickSrc v).frm.src = s.frm.src ∧ (s.writeTickSrc v).frm.pendSrc = some v := by
  have hwaits : s.writeTickSrc v = s.onFrm (fun f => { f with pendSrc := some v }) := if_pos hruns
  rw [hwaits]
  exact ⟨rfl, rfl⟩

theorem State.writePeriod_out {v : Nat} (h : v < 200000 ∨ 40000000 < v) : s.writePeriod v = (s, false) := by
  rw [State.writePeriod, if_pos (by simp [h])]
theorem State.writePeriod_idle {v : Nat} (hlo : 200000 ≤ v) (hhi : v ≤ 40000000) (hidle : s.runs = false) :
    (s.writePeriod v).1.frm.period = v := by
  have hkept : (s.onFrm (fun f => { f with pendPeriod := some v })).runs = s.runs := rfl
  rw [State.writePeriod, if_neg (by simp [hlo, hhi, hidle])]
  dsimp only
  rw [if_neg (by rw [hkept, hidle]; decide), State.tickWrites, if_neg (by simp [State.onFrm])]
  rfl
theorem State.writePeriod_src (v : Nat) (h : s.frm.pendSrc = none) : (s.writePeriod v).1.frm.src = s.frm.src := by
  unfold State.writePeriod
  split
  · rfl
  · extract_lets t
    dsimp only
    split
    · rfl
    · exact t.tickWrites_src h
theorem State.writePeriod_runs (v : Nat) (hruns : s.runs = true) :
    (s.writePeriod v).1.frm.src = s.frm.src ∧ (s.writePeriod v).1.frm.pendSrc = s.frm.pendSrc := by
  unfold State.writePeriod
  split
  · exact ⟨rfl, rfl⟩
  · extract_lets t
    have ht : t.runs = true := hruns
    rw [if_pos ht]
    exact ⟨rfl, rfl⟩

variable (s) (p : PghSt)

/-- The state after the write of the source that SET_FRAME asks for, if any. -/
def State.sourceSet : State := if (p.pl 12 1).testBit 0 then s.writeTickSrc (BitVec.ofNat 4 (p.pl 0 4)) else s
/-- And after that of the period, with whether it is taken. -/
def State.periodSet : State × Bool :=
  if (p.pl 12 1).testBit 1 then (s.sourceSet p).writePeriod (p.pl 4 4) else (s.sourceSet p, true)
/-- And after that of the tick window. -/
def State.windowSet : State :=
  if (p.pl 12 1).testBit 2 then
    (s.periodSet p).1.onFrm (fun f => { f with early := BitVec.ofNat 8 (p.pl 8 1), late := BitVec.ofNat 8 (p.pl 9 1) })
  else (s.periodSet p).1

theorem State.sourceSet_window : (s.sourceSet p).window = s.window := by
  unfold State.sourceSet
  split
  · exact s.writeTickSrc_window _
  · rfl
theorem State.periodSet_window : (s.periodSet p).1.window = s.window := by
  unfold State.periodSet
  split
  · exact (State.writePeriod_window ..).trans (s.sourceSet_window p)
  · exact s.sourceSet_window p
theorem State.windowSet_post : (s.windowSet p).post = s.post := by
  have hsource : (s.sourceSet p).post = s.post := by
    unfold State.sourceSet
    split
    · exact s.writeTickSrc_post _
    · rfl
  have hperiod : (s.periodSet p).1.post = s.post := by
    unfold State.periodSet
    split
    · exact (State.writePeriod_post ..).trans hsource
    · exact hsource
  unfold State.windowSet
  split <;> exact hperiod
theorem State.windowSet_ticks : (s.windowSet p).frm.src = (s.periodSet p).1.frm.src ∧
    (s.windowSet p).frm.pendSrc = (s.periodSet p).1.frm.pendSrc ∧ (s.windowSet p).frm.period = (s.periodSet p).1.frm.period := by
  unfold State.windowSet
  split <;> exact ⟨rfl, rfl, rfl⟩

/-- The tick window is the operands where the mask names it. -/
theorem State.windowSet_window :
    (s.windowSet p).frm.early = (if (p.pl 12 1).testBit 2 then BitVec.ofNat 8 (p.pl 8 1) else s.frm.early) ∧
      (s.windowSet p).frm.late = (if (p.pl 12 1).testBit 2 then BitVec.ofNat 8 (p.pl 9 1) else s.frm.late) := by
  obtain ⟨hearly, hlate, -⟩ : (s.periodSet p).1.frm.early = s.frm.early ∧ (s.periodSet p).1.frm.late = s.frm.late ∧
      (s.periodSet p).1.frm.phase = s.frm.phase := by simpa [State.window] using s.periodSet_window p
  unfold State.windowSet
  split
  · exact ⟨rfl, rfl⟩
  · exact ⟨hearly, hlate⟩

theorem State.sourceSet_runs : (s.sourceSet p).runs = s.runs :=
  congrArg (fun w : BitVec 8 × BitVec 8 × BitVec 2 => w.2.2 != 0) (s.sourceSet_window p)

variable {s p}

theorem State.windowSet_unnamed (hsource : (p.pl 12 1).testBit 0 = false) (hperiod : (p.pl 12 1).testBit 1 = false) :
    (s.windowSet p).frm.src = s.frm.src ∧ (s.windowSet p).frm.period = s.frm.period := by
  obtain ⟨hsrc, -, hper⟩ := s.windowSet_ticks p
  have h : (s.periodSet p).1 = s := by simp [State.periodSet, State.sourceSet, hsource, hperiod]
  exact ⟨by rw [hsrc, h], by rw [hper, h]⟩

theorem State.windowSet_src_idle (hsource : (p.pl 12 1).testBit 0 = true) (hidle : s.runs = false) :
    (s.windowSet p).frm.src = BitVec.ofNat 2 (p.pl 0 4) := by
  obtain ⟨hsrc, -⟩ := s.windowSet_ticks p
  have hset : s.sourceSet p = s.writeTickSrc (BitVec.ofNat 4 (p.pl 0 4)) := if_pos hsource
  obtain ⟨hnew, hnone⟩ := s.writeTickSrc_idle (BitVec.ofNat 4 (p.pl 0 4)) hidle
  have hperiod : (s.periodSet p).1.frm.src = (s.sourceSet p).frm.src := by
    unfold State.periodSet
    split
    · exact State.writePeriod_src _ (by rw [hset, hnone])
    · rfl
  rw [hsrc, hperiod, hset, hnew]
  exact BitVec.eq_of_toNat_eq (by simp)

theorem State.windowSet_src_runs (hsource : (p.pl 12 1).testBit 0 = true) (hruns : s.runs = true) :
    (s.windowSet p).frm.src = s.frm.src ∧ (s.windowSet p).frm.pendSrc = some (BitVec.ofNat 4 (p.pl 0 4)) := by
  obtain ⟨hsrc, hpend, -⟩ := s.windowSet_ticks p
  have hset : s.sourceSet p = s.writeTickSrc (BitVec.ofNat 4 (p.pl 0 4)) := if_pos hsource
  obtain ⟨hkept, hsome⟩ := s.writeTickSrc_runs (BitVec.ofNat 4 (p.pl 0 4)) hruns
  have hperiod : (s.periodSet p).1.frm.src = (s.sourceSet p).frm.src ∧
      (s.periodSet p).1.frm.pendSrc = (s.sourceSet p).frm.pendSrc := by
    unfold State.periodSet
    split
    · exact State.writePeriod_runs _ (by rw [State.sourceSet_runs, hruns])
    · exact ⟨rfl, rfl⟩
  rw [hsrc, hpend, hperiod.1, hperiod.2, hset]
  exact ⟨hkept, hsome⟩

theorem State.windowSet_period_idle (hperiod : (p.pl 12 1).testBit 1 = true) (hlo : 200000 ≤ p.pl 4 4) (hhi : p.pl 4 4 ≤ 40000000)
    (hidle : s.runs = false) : (s.windowSet p).frm.period = p.pl 4 4 := by
  obtain ⟨-, -, hper⟩ := s.windowSet_ticks p
  rw [hper, State.periodSet, if_pos hperiod]
  exact State.writePeriod_idle hlo hhi (by rw [State.sourceSet_runs, hidle])

theorem State.periodSet_out (hperiod : (p.pl 12 1).testBit 1 = true) (hout : p.pl 4 4 < 200000 ∨ 40000000 < p.pl 4 4) :
    (s.periodSet p).2 = false := by
  rw [State.periodSet, if_pos hperiod, State.writePeriod_out hout]
end

/-! ### SET_CLOCK (R417, R431) -/

/-- A pigeonhole that has answered OK. -/
def PghSt.DoneOk (p : PghSt) : Prop := p.state = 3 ∧ tabRead p.resp 4 1 = 0

/-- Commands that are answered one after another with OK: each of them is DONE after. -/
theorem State.foldl_finishCmd_doneOk {ans : State → Answer} (hok : ∀ t, (ans t).status = 0) {n : Nat} {l : List Nat} {s : State}
    (h : (s.pghAt n).state = 2 ∧ n ∈ l ∨ (s.pghAt n).DoneOk) :
    ((l.foldl (fun (s : State) (m : Nat) => s.finishCmd m (ans s)) s).pghAt n).DoneOk := by
  induction l generalizing s with
  | nil => exact h.resolve_left fun hn => List.not_mem_nil hn.2
  | cons m r ih =>
    refine ih ?_
    change ((s.finishCmd m (ans s)).pghAt n).state = 2 ∧ n ∈ r ∨ ((s.finishCmd m (ans s)).pghAt n).DoneOk
    by_cases hm : n = m
    · subst hm
      refine .inr ?_
      rcases h with ⟨hrun, -⟩ | hdone
      · rw [s.finishCmd_pghAt_same _ _ hrun]
        exact ⟨rfl, by rw [State.answered_status, hok]⟩
      · rwa [s.finishCmd_idle _ _ (by rw [hdone.1]; decide)]
    · rw [s.finishCmd_pghAt_ne _ _ hm]
      exact h.imp_left fun ⟨hrun, hin⟩ => ⟨hrun, (List.mem_cons.1 hin).resolve_left hm⟩

theorem State.pwr_of_silent {s t : State} (h : t.silent = s.silent) : t.pwr = s.pwr := (congrArg State.pwr h :)
theorem State.clockAnswers_pwr (s : State) : s.clockAnswers.pwr = s.pwr :=
  foldl_keeps State.pwr _ (fun t m => State.pwr_of_silent (t.finishCmd_silent m _)) _ s

theorem State.clockAnswers_doneOk {u : State} {n : Nat} (h : (u.pghAt n).state = 2 ∧ n ∈ u.waiting 0x0802) :
    (u.clockAnswers.pghAt n).DoneOk :=
  State.foldl_finishCmd_doneOk
    (ans := fun t => { data := bytesOf t.pwr.nowMhz 2 ++ bytesOf t.pwr.memStep 1 ++ bytesOf t.pwr.depotStep 1 })
    (fun _ => rfl) (.inl h)

section
variable {s : State} {n : Pgh}

theorem State.ready.mem_waiting {op : Nat} {u : State} (h : s.ready n op)
    (hpgh : u.pghAt n.val = { s.pghAt n.val with begun := true, wait := [] }) :
    (u.pghAt n.val).state = 2 ∧ n.val ∈ u.waiting op := by
  obtain ⟨hrun, -, hop, -⟩ := h
  have hstate : (u.pghAt n.val).state = 2 := by rw [hpgh, hrun]
  have hop' : (u.pghAt n.val).op = op := by rw [hpgh]; exact hop
  have hbegun : (u.pghAt n.val).begun = true := by rw [hpgh]
  exact ⟨hstate, by simp [State.waiting, State.running, hstate, hop', hbegun]⟩

/-- The state in which SET_CLOCK has asked for its values and waits. -/
def State.clockAsked (s : State) (n : Nat) : State :=
  (s.onPwr (fun w => { w with clkReq := some ((s.pghAt n).pl 0 2, (s.pghAt n).pl 2 1, (s.pghAt n).pl 3 1) })).await n []

theorem State.clockAsked_pghAt (n : Nat) : (s.clockAsked n).pghAt n = { s.pghAt n with begun := true, wait := [] } :=
  State.await_pghAt_same ..

theorem State.ready.setClock_waits (h : s.ready n 0x0802) (hlater : s.between = false) :
    exec (.setClock n) s = .next (s.clockAsked n.val) :=
  (h.runs _).trans (congrArg Host.Outcome.next (if_neg (by
    have hkept : (s.clockAsked n.val).between = s.between := rfl
    exact fun hb => absurd ((hkept.symm.trans hb).symm.trans hlater) (by decide))))

/-- A clock step that is asked for while no program runs takes effect at once. -/
theorem State.clockStep_idle {u : State} {mhz mem dep : Nat} (hreq : u.pwr.clkReq = some (mhz, mem, dep))
    (hpair : u.post.switching = false) (hidle : u.frm.phase = 0) : u.clockStep = (u.applyClock mhz mem dep).clockAnswers := by
  unfold State.clockStep
  rw [hreq]
  simp [hpair, hidle, State.runs]

theorem State.ready.setClock_steps (h : s.ready n 0x0802) (hidle : s.frm.phase = 0) :
    exec (.setClock n) s = .next (((s.clockAsked n.val).applyClock ((s.pghAt n.val).pl 0 2) ((s.pghAt n.val).pl 2 1)
      ((s.pghAt n.val).pl 3 1)).clockAnswers) := by
  have hpair : s.post.switching = false := h.2.2.2.2
  have hbetween : (s.clockAsked n.val).between = true := by
    have hkept : (s.clockAsked n.val).between = s.between := rfl
    rw [hkept, State.between, hidle]
    rfl
  exact (h.runs _).trans (congrArg Host.Outcome.next ((if_pos hbetween).trans (State.clockStep_idle rfl hpair hidle)))
end

/-! ### CONFIGURE, TRACE and SET_FRAME as commands -/

theorem State.pghAt_of_post {s t : State} (h : t.post = s.post) (n : Nat) : t.pghAt n = s.pghAt n := by
  rw [State.pghAt, h, State.pghAt]

/-- The state in which CONFIGURE answers. -/
def State.configured (p : PghSt) (up : BitVec 16) (rt : List Nat) (peers : List (BitVec 18)) (s : State) : State :=
  (List.range 16).foldl (State.configurePort p up rt peers) (s.configurePont p)

theorem State.configured_aroundPorts (p : PghSt) (up : BitVec 16) (rt : List Nat) (peers : List (BitVec 18)) (s : State) :
    (s.configured p up rt peers).aroundPorts = (s.configurePont p).aroundPorts :=
  foldl_keeps State.aroundPorts _ (fun _ _ => State.configurePort_aroundPorts ..) _ _

theorem State.configured_keeps (p : PghSt) (up : BitVec 16) (rt : List Nat) (peers : List (BitVec 18)) (s : State) :
    let u := s.configured p up rt peers
    u.pont.devId = BitVec.ofNat 18 (p.pl 0 4) ∧ u.pont.ndim = BitVec.ofNat 3 (p.pl 4 1) ∧ u.kept = s.kept ∧ u.post = s.post := by
  intro u
  have haround := s.configured_aroundPorts p up rt peers
  simp only [State.aroundPorts, Prod.mk.injEq] at haround
  obtain ⟨hoff, hkept, hpost⟩ := haround
  exact ⟨by rw [State.pont_of_offPorts hoff]; rfl, by rw [State.pont_of_offPorts hoff]; rfl, hkept, hpost⟩

/-- Port `q` after CONFIGURE: what its turn makes of the port as it was, by the new place of the device. -/
theorem State.configured_turn (p : PghSt) (up : BitVec 16) (rt : List Nat) (peers : List (BitVec 18)) (s : State) {q : Nat}
    (hq : q < 16) : ∃ u : State, u.pont.uses q = (s.configurePont p).pont.uses q ∧
      u.pont.cabled q = (s.configurePont p).pont.cabled q ∧ u.pport q = s.pport q ∧
      (s.configured p up rt peers).pport q = (u.configurePort p up rt peers q).pport q := by
  obtain ⟨u, haround, hport, hturn⟩ := State.configurePorts_turn (p := p) (up := up) (rt := rt) (peers := peers)
    (s := s.configurePont p) hq
  simp only [State.aroundPorts, Prod.mk.injEq] at haround
  have hpont := State.pont_of_offPorts haround.1
  exact ⟨u, by rw [hpont]; rfl, by rw [hpont]; rfl, hport, hturn⟩

/-- An answer of a command that is no program command latches no page. -/
theorem State.finishCmd_obs {s : State} {n : Nat} (a : Answer) (h : (s.pghAt n).op / 256 ≠ 3) : (s.finishCmd n a).obs = s.obs := by
  unfold State.finishCmd
  extract_lets p
  rw [if_neg h]
  split
  · rfl
  · unfold State.respond
    extract_lets q d head t r
    split
    · exact State.count_obs ..
    · exact State.count_obs ..

section
variable {s : State} {n : Pgh}

theorem State.ready.configure_configures (h : s.ready n 0x0601) (up : BitVec 16) {rt : List Nat} {peers : List (BitVec 18)}
    (hrt : rt.length = 16) (hpeers : peers.length = 16) : ∃ a : Answer, a.status = 0 ∧ exec (.configure n up rt peers) s =
      .next ((s.configured (s.pghAt n.val) up rt peers).finishCmd n.val a) :=
  ⟨_, rfl, (if_pos (by simp [wfConfigure, hrt, hpeers])).trans (h.runs _)⟩

/-- The log region that TRACE places. -/
def PghSt.logRegion (p : PghSt) : TrcRegion :=
  { TrcRegion.reset with base := p.pl 8 8, size := p.pl 16 8, expo := p.pl 1 1, enable := BitVec.ofNat 8 (p.pl 0 1) }

/-- The state in which TRACE has asked for its region, from the next frame start on. -/
def State.regionAsked (s : State) (p : PghSt) : State :=
  s.onObs (fun o => { o with regPend := tset o.regPend p.berth p.logRegion })

/-- A berth's log region, which only what the trace unit holds decides. -/
theorem State.region_of_obs {s t : State} {b : Nat} (h : t.obs = s.obs) (hb : b < 16) : t.region b = tget s.obs.regions b .reset := by
  rw [State.region, if_neg (by omega), h]

theorem State.ready.latchless (h : s.ready n 0x0703) {u : State} (hpgh : u.pghAt n.val = s.pghAt n.val) (a : Answer) :
    (u.finishCmd n.val a).obs = u.obs := by
  obtain ⟨-, -, hop, -⟩ := h
  exact State.finishCmd_obs a (by rw [hpgh, hop]; decide)

theorem State.ready.trace_now (h : s.ready n 0x0703) (hberth : (s.pghAt n.val).berth < 16) (hphase : s.frm.phase = 0) :
    s.replies n (.trace n) 0 (fun t => (t.region (s.pghAt n.val).berth).base = (s.pghAt n.val).pl 8 8 ∧
      (t.region (s.pghAt n.val).berth).size = (s.pghAt n.val).pl 16 8 ∧
      (t.region (s.pghAt n.val).berth).enable = BitVec.ofNat 8 ((s.pghAt n.val).pl 0 1)) := by
  have hidle : ¬ s.runs = true := by rw [State.runs, hphase]; decide
  have hexec : exec (.trace n) s = .next ((s.setRegion (s.pghAt n.val).berth (s.pghAt n.val).logRegion).finishCmd n.val {}) :=
    (h.runs _).trans (congrArg (fun t : State => Host.Outcome.next (t.finishCmd n.val {})) (if_neg hidle))
  refine h.answers_after hexec rfl rfl fun _ => ?_
  rw [State.region_of_obs (h.latchless (u := s.setRegion _ _) rfl {}) hberth]
  have hregion : tget (s.setRegion (s.pghAt n.val).berth (s.pghAt n.val).logRegion).obs.regions (s.pghAt n.val).berth .reset =
    (s.pghAt n.val).logRegion := tget_tset_same _ _ _ _
  rw [hregion]
  exact ⟨rfl, rfl, rfl⟩

theorem State.ready.trace_later (h : s.ready n 0x0703) (hberth : (s.pghAt n.val).berth < 16) (hphase : s.frm.phase ≠ 0) :
    s.replies n (.trace n) 0 (fun t => t.region (s.pghAt n.val).berth = s.region (s.pghAt n.val).berth ∧
      ∃ x, tfind t.obs.regPend (s.pghAt n.val).berth = some x ∧ x.base = (s.pghAt n.val).pl 8 8 ∧ x.size = (s.pghAt n.val).pl 16 8 ∧
        x.enable = BitVec.ofNat 8 ((s.pghAt n.val).pl 0 1)) := by
  have hruns : s.runs = true := bne_iff_ne.2 hphase
  have hexec : exec (.trace n) s = .next ((s.regionAsked (s.pghAt n.val)).finishCmd n.val {}) :=
    (h.runs _).trans (congrArg (fun t : State => Host.Outcome.next (t.finishCmd n.val {})) (if_pos hruns))
  refine h.answers_after hexec rfl rfl fun _ => ?_
  have hobs := h.latchless (u := s.regionAsked (s.pghAt n.val)) rfl {}
  rw [State.region_of_obs hobs hberth, State.region_of_obs (s := s) rfl hberth, hobs]
  exact ⟨rfl, _, tfind_tset_same _ _ _, rfl, rfl, rfl⟩

theorem State.ready.setFrame_sets (h : s.ready n 0x0801) : exec (.setFrame n) s = .next ((s.windowSet (s.pghAt n.val)).finishCmd n.val
    { data := bytesOf (if (s.periodSet (s.pghAt n.val)).2 then 0 else 2) 1 }) := h.runs _
end

end Sys2Proof.Machine

open Sys2Proof Sys2Proof.Machine

/-- Settles O48. That CONFIGURE brings ports up within the command is log entry 71, that a step of SET_CLOCK takes no time log
entry 49. -/
theorem setupCommands : Obligations.SetupCommands := by
  intro n s p
  refine ⟨?configure, ?trace, ?setFrame, ?setClock, ?powerLimit⟩
  case configure =>
    intro h up rt peers hrt hpeers
    obtain ⟨a, hok, hexec⟩ := h.configure_configures up hrt hpeers
    obtain ⟨hid, hdim, hkept, hpost⟩ := s.configured_keeps p up rt peers
    refine h.answers hexec (State.pghAt_of_post hpost _) (by rw [hok]) fun t ht => ?_
    have hpont : t.pont = (s.configured p up rt peers).pont := (congrArg State.pont ht :)
    refine ⟨by rw [hpont, hid], by rw [hpont, hdim], (State.frame_of_kept ((State.kept_of_silent ht).trans hkept)).2, fun q hq => ?_⟩
    obtain ⟨u, huses, hcabled, hport, hturn⟩ := s.configured_turn p up rt peers hq
    beta_reduce
    rw [State.pport, hpont, ← State.pport, hturn, ← huses, ← hcabled, ← hport]
    exact ⟨State.configurePort_home .., State.configurePort_stays, State.configurePort_comes_up,
      fun hoff hidle => State.configurePort_goes_down (Bool.not_eq_true _ ▸ hoff) hidle⟩
  case trace =>
    intro h hberth
    exact ⟨h.trace_now hberth, h.trace_later hberth⟩
  case setFrame =>
    intro h
    refine h.answers_after h.setFrame_sets (State.pghAt_of_post (s.windowSet_post p) _) rfl fun hpgh => ?_
    rw [hpgh, State.frm_of_silent (State.finishCmd_silent ..)]
    have hruns (hphase : s.frm.phase ≠ 0) : s.runs = true := bne_iff_ne.2 hphase
    have hidle (hphase : s.frm.phase = 0) : s.runs = false := by rw [State.runs, hphase]; rfl
    obtain ⟨hearly, hlate⟩ := s.windowSet_window p
    refine ⟨hearly, hlate, State.windowSet_unnamed, fun hsource hphase => State.windowSet_src_idle hsource (hidle hphase),
      fun hsource hphase => State.windowSet_src_runs hsource (hruns hphase),
      fun hperiod hlo hhi hphase => State.windowSet_period_idle hperiod hlo hhi (hidle hphase), fun hperiod hout => ?_⟩
    exact State.answered_first _ _ _ (v := 2) (post := []) (by rw [State.periodSet_out hperiod hout]; rfl) (by decide)
  case setClock =>
    intro h
    refine ⟨fun hlater => ⟨_, h.setClock_waits hlater, ?_, rfl, rfl⟩, fun hphase => ?_⟩
    · exact congrArg PghSt.begun (State.clockAsked_pghAt ..)
    · have hok := State.clockAnswers_doneOk (u := (s.clockAsked n.val).applyClock (p.pl 0 2) (p.pl 2 1) (p.pl 3 1))
        (h.mem_waiting (State.clockAsked_pghAt n.val))
      obtain ⟨hdone, hstatus⟩ := hok
      refine ⟨_, h.setClock_steps hphase, hdone, hstatus, ?_⟩
      beta_reduce
      rw [State.clockAnswers_pwr]
      exact ⟨rfl, rfl, rfl, rfl⟩
  case powerLimit =>
    intro h
    refine h.answers (h.runs _) rfl rfl fun t ht => ⟨(congrArg (fun v => v.pwr.limitW) ht :), ?_⟩
    exact (State.frame_of_kept ((State.kept_of_silent ht).trans rfl)).2
end

section
/-! The host link (R376, R378, R381-R385, R392). -/

namespace Sys2Proof.Machine

/-! ### A 64-byte line that CXL.mem writes or reads (R382, R383) -/

section
variable (s : State)

/-! What an access counts does not change who may access. -/

theorem State.count_lpCap (b u i n : Nat) : (s.count b u i n).lpCap = s.lpCap := by
  rw [State.lpCap, State.mportAt, State.count_mport]
  rfl
theorem State.count_hdmSize (b u i n : Nat) : (s.count b u i n).hdmSize = s.hdmSize := by simp [State.hdmSize, State.count_lpCap]
theorem State.count_underScrub (b u i n mem a : Nat) : (s.count b u i n).underScrub mem a = s.underScrub mem a := by
  simp [State.underScrub]
theorem State.count_flipping (b u i n page : Nat) : (s.count b u i n).flipping page = s.flipping page := by
  simp [State.flipping, State.queueAt]
theorem State.count_hostLp (b u i n a : Nat) : (s.count b u i n).hostLp a = s.hostLp a := by simp [State.hostLp]

/-- The port counts the block that it moves. -/
def State.portMoves (da : Nat) (out : Bool) : State :=
  ((s.portUse (portOf da)).count 3 (portOf da) (if out then 1 else 0) 64).bw (portOf da) out 64

theorem State.portMoves_memsEq (da : Nat) (out : Bool) : s.MemsEq (s.portMoves da out) := by simp [State.portMoves, State.portUse]
theorem State.portMoves_out (da : Nat) (out : Bool) : (s.portMoves da out).out = s.out := by simp [State.portMoves, State.portUse]

theorem State.emit_memsEq (o : OutMsg) : s.MemsEq (s.emit o) := ⟨rfl, rfl, rfl⟩

variable {s} {da : Nat}

theorem State.lpWrite_whole (v : Row) (hcap : da < s.lpCap) (hscrub : s.underScrub 2 da = false) :
    s.lpWrite da v (BitVec.allOnes 64) false = { s.portMoves da true with
      lp := (((s.portMoves da true).lp.write da v.toNat (BitVec.allOnes 64).toNat 64).cleanWords da 64).setPoison da false } :=
  (if_neg (by omega)).trans (if_neg (by rw [hscrub]; decide))

/-- `t` is `s` with the line `v` stored at `da`, as far as the memories go. -/
structure State.Stores (s t : State) (da : Nat) (v : Row) : Prop where
  line : ∀ k < 64, t.lp.get (da + k) = BitVec.ofNat 8 (v.toNat / 256 ^ k)
  beside : ∀ a, a < da ∨ da + 64 ≤ a → t.lp.get a = s.lp.get a
  others : ∀ a, t.nst.get a = s.nst.get a ∧ t.deck.get a = s.deck.get a

theorem State.Stores.after {s t u : State} {da : Nat} {v : Row} (k : t.Stores u da v) (h : s.MemsEq t) : s.Stores u da v := by
  obtain ⟨hnst, hdeck, hlp⟩ := h
  exact ⟨k.line, hlp ▸ k.beside, hnst ▸ hdeck ▸ k.others⟩

theorem State.lpWrite_stores (v : Row) (hcap : da < s.lpCap) (hscrub : s.underScrub 2 da = false) :
    s.Stores (s.lpWrite da v (BitVec.allOnes 64) false) da v := by
  obtain ⟨hnst, hdeck, hlp⟩ := s.portMoves_memsEq da true
  rw [State.lpWrite_whole v hcap hscrub]
  refine ⟨fun k hk => ?_, fun a ha => ?_, fun a => ⟨by rw [hnst], by rw [hdeck]⟩⟩
  · have hbit : (BitVec.allOnes 64).toNat.testBit k = true := by
      rw [BitVec.toNat_allOnes, Nat.testBit_two_pow_sub_one]
      simpa using hk
    rw [Mem.get_setPoison, Mem.get_cleanWords, Mem.get_write_in _ _ _ _ _ _ hk, if_pos hbit]
  · rw [Mem.get_setPoison, Mem.get_cleanWords, Mem.get_write_out _ _ _ _ _ _ ha, hlp]

theorem State.lpMeet_clean {i : Nat} {code : Code} (h : s.lp.marks = []) : s.lpMeet i da code = (s, false) := by
  have hecc : s.lp.ecc (da / 64 * 64) 64 = (false, false) := by simp [Mem.ecc, h]
  rw [State.lpMeet, hecc]
  rfl

theorem State.lpRead_clean (hcap : da < s.lpCap) (hscrub : s.underScrub 2 da = false) (hclean : s.lp.marks = []) :
    s.lpRead da = (s.portMoves da false, BitVec.ofNat 512 (s.lp.read da 64), false) := by
  have hlp : (s.portMoves da false).lp = s.lp := (s.portMoves_memsEq da false).2.2
  have hmeet : (s.portMoves da false).lpMeet (portOf da) da 0x2C02 = (s.portMoves da false, false) :=
    State.lpMeet_clean (by rw [hlp, hclean])
  refine (if_neg (by omega)).trans ((if_neg (by rw [hscrub]; decide)).trans ?_)
  change (match (s.portMoves da false).lpMeet (portOf da) da 0x2C02 with
    | (t, un) => (t, BitVec.ofNat 512 ((s.portMoves da false).lp.read da 64), un)) = _
  rw [hmeet, hlp]

theorem bytesOf_line (m : Mem) (a : Nat) : bytesOf (BitVec.ofNat 512 (m.read a 64)).toNat 64 = bytesOf (m.read a 64) 64 := by
  rw [BitVec.toNat_ofNat, Nat.mod_eq_of_lt (m.read_lt a 64)]
end

/-! ### Accesses of the host -/

section
variable {s : State} {da : Nat}

/-- A line that the host may access: in the HDM range, usable, not under a scrub (R382). -/
structure State.Line (s : State) (da : Nat) : Prop where
  aligned : da % 64 = 0
  small : da < 2 ^ 48
  inHdm : da < s.hdmSize
  usable : da < s.lpCap
  free : s.underScrub 2 da = false

/-- The state after an access of the host's is counted. -/
def State.hostCounted (s : State) (da : Nat) : State := s.count 2 (s.moduleFor (Config.hdmBase + da)) 4 1

/-- What the range and the scrub let through, by the bias of its page and the berths' grants. -/
theorem State.Line.exec_eq (h : s.Line da) (write : Bool) (v : Row) : exec (.hostMemAccess write da v) s = .next (
    if (inPages (s.hostCounted da).host.devBias (da / 4096) || (s.hostCounted da).flipping (da / 4096)) = true then
      (s.hostCounted da).refuseHost 0x3107 write 64 da
    else if (!(s.hostCounted da).hostLp da) = true then (s.hostCounted da).refuseHost 0x3106 write 64 da
    else if write = true then (s.hostCounted da).lpWrite da v (BitVec.allOnes 64) false
    else ((s.hostCounted da).lpRead da).1.emit
      (.hostData (bytesOf ((s.hostCounted da).lpRead da).2.1.toNat 64) ((s.hostCounted da).lpRead da).2.2)) := by
  have hin : ¬ (s.hostCounted da).hdmSize ≤ da := by
    rw [State.hostCounted, State.count_hdmSize]
    exact not_le.2 h.inHdm
  have hfree : ¬ (s.hostCounted da).underScrub 2 da = true := by
    rw [State.hostCounted, State.count_underScrub, h.free]
    decide
  exact (if_pos (by simpa [wfHostMem, h.aligned] using h.small)).trans
    (congrArg Host.Outcome.next ((if_neg hin).trans (if_neg hfree)))

theorem State.Line.counted (h : s.Line da) : da < (s.hostCounted da).lpCap ∧ (s.hostCounted da).underScrub 2 da = false :=
  ⟨(s.count_lpCap ..).symm ▸ h.usable, (s.count_underScrub ..).trans h.free⟩

theorem State.hostCounted_memsEq (s : State) (da : Nat) : s.MemsEq (s.hostCounted da) := State.count_memsEq ..

/-- A line in host bias that a berth grants to the host. -/
structure State.Line.Biased (s : State) (da : Nat) : Prop extends s.Line da where
  host : inPages s.host.devBias (da / 4096) = false
  still : s.flipping (da / 4096) = false
  grant : s.hostLp da = true

theorem State.Line.Biased.exec_write (h : State.Line.Biased s da) (v : Row) :
    exec (.hostMemAccess true da v) s = .next ((s.hostCounted da).lpWrite da v (BitVec.allOnes 64) false) := by
  rw [h.exec_eq, State.hostCounted, State.count_host, State.count_flipping, State.count_hostLp, h.host, h.still, h.grant,
    if_neg (by decide), if_neg (by decide), if_pos rfl]

theorem State.Line.Biased.exec_read (h : State.Line.Biased s da) (v : Row) : exec (.hostMemAccess false da v) s =
    .next (((s.hostCounted da).lpRead da).1.emit
      (.hostData (bytesOf ((s.hostCounted da).lpRead da).2.1.toNat 64) ((s.hostCounted da).lpRead da).2.2)) := by
  rw [h.exec_eq, State.hostCounted, State.count_host, State.count_flipping, State.count_hostLp, h.host, h.still, h.grant,
    if_neg (by decide), if_neg (by decide), if_neg (by decide)]

/-- A line in device bias is refused (R382, R383). -/
theorem State.Line.refused (h : s.Line da) (hdevice : inPages s.host.devBias (da / 4096) = true) (write : Bool) (v : Row) :
    exec (.hostMemAccess write da v) s = .next ((s.hostCounted da).refuseHost 0x3107 write 64 da) := by
  rw [h.exec_eq, State.hostCounted, State.count_host, hdevice, Bool.true_or, if_pos rfl]

/-- Data for the host that has left stays in what has left, whatever event is raised. -/
theorem State.hostData_mem_raise {s : State} {bs : List Byte} {po : Bool} (h : OutMsg.hostData bs po ∈ s.out) (e : Ev) :
    OutMsg.hostData bs po ∈ (s.raise e).out := State.mem_raise_out (fun _ => OutMsg.noConfusion) h e

theorem State.refuseHost_ones (s : State) (code : Code) (k a : Nat) :
    OutMsg.hostData (List.replicate k 0xFF) false ∈ (s.refuseHost code false k a).out :=
  State.hostData_mem_raise (List.mem_append_right _ (List.mem_singleton_self _)) _

theorem State.Line.Biased.write_stores (h : State.Line.Biased s da) (v : Row) :
    ∃ t, exec (.hostMemAccess true da v) s = .next t ∧ s.Stores t da v := by
  obtain ⟨hcap, hfree⟩ := h.counted
  exact ⟨_, h.exec_write v, (State.lpWrite_stores v hcap hfree).after (s.hostCounted_memsEq da)⟩

theorem State.Line.Biased.read_returns (h : State.Line.Biased s da) (hclean : s.lp.marks = []) (v : Row) :
    ∃ t, exec (.hostMemAccess false da v) s = .next t ∧ s.sameMem t ∧
      t.out = s.out ++ [.hostData (bytesOf (s.lp.read da 64) 64) false] := by
  obtain ⟨hcap, hfree⟩ := h.counted
  have hmems := s.hostCounted_memsEq da
  have hread := State.lpRead_clean hcap hfree (by rw [hmems.2.2, hclean])
  refine ⟨_, h.exec_read v, ?_, ?_⟩
  · rw [hread]
    exact (hmems.trans ((State.portMoves_memsEq ..).trans (State.emit_memsEq ..))).sameMem
  · rw [hread, State.emit_out, State.portMoves_out, State.hostCounted, State.count_out, bytesOf_line, State.count_lp]
end

/-! ### BAR2 accesses of a deck column (R220, R228, R381) -/

/-- The bytes of a deck column that an access of BAR2 names lie in a window that is there, on, granted to the host, under no
scrub, and not in the save buffer of a test. -/
structure State.DeckOpen (s : State) (off : Nat) : Prop where
  column : off < 12884901888
  present : s.deckPresent (off / 67108864) (off % 67108864 / 256) = true
  grant : s.hostDeck (off / 67108864) (off % 67108864 / 256) = true
  free : s.underScrub 1 off = false
  on : s.deckState (off / 67108864) (off % 67108864 / 256) = 0
  unsaved : s.granSaved (off / 67108864) (off % 67108864 / 256) = false

/-- The key of the bank that holds a byte of a deck column. -/
def deckKeyOf (off : Nat) : Nat := deckBankKey (off / 67108864) (off % 67108864 / 256)

/-- The state in which an access of a deck column has its bank. -/
def State.bankTaken (s : State) (off : Nat) : State :=
  (s.takeBank (off / 67108864) (deckKeyOf off)).1.count 7 (off / 67108864) 2 1

section
variable {s : State} {off : Nat}

theorem State.DeckOpen.bank_on (h : s.DeckOpen off) :
    (s.bankAt (off / 67108864) true).stateOf (off % 67108864 / 4194304) = 0 := by
  rw [← h.on, State.deckState, show off % 67108864 / 256 % 262144 / 16384 = off % 67108864 / 4194304 by omega]
  rfl

theorem State.DeckOpen.hostAccess_ok (h : s.DeckOpen off) (hwon : (s.takeBank (off / 67108864) (deckKeyOf off)).2 = .ok) :
    s.hostAccess (off / 67108864) true (off % 67108864 / 4194304) (deckKeyOf off) false = (s.bankTaken off, .ok) := by
  have htake : s.takeBank (off / 67108864) (deckKeyOf off) = ((s.takeBank (off / 67108864) (deckKeyOf off)).1, .ok) :=
    Prod.ext rfl hwon
  simp only [State.hostAccess, h.bank_on, Bool.false_eq_true, if_false]
  rw [htake]
  rfl

theorem State.DeckOpen.hostAccess_wait (h : s.DeckOpen off) (hlost : (s.takeBank (off / 67108864) (deckKeyOf off)).2 = .wait) :
    s.hostAccess (off / 67108864) true (off % 67108864 / 4194304) (deckKeyOf off) false =
      ((s.takeBank (off / 67108864) (deckKeyOf off)).1, .wait) := by
  have htake : s.takeBank (off / 67108864) (deckKeyOf off) = ((s.takeBank (off / 67108864) (deckKeyOf off)).1, .wait) :=
    Prod.ext rfl hlost
  simp only [State.hostAccess, h.bank_on, Bool.false_eq_true, if_false]
  rw [htake]

theorem State.DeckOpen.bar2_write (h : s.DeckOpen off) (hwon : (s.takeBank (off / 67108864) (deckKeyOf off)).2 = .ok)
    (data : List Byte) (len : Nat) : s.bar2 true off data len =
      (State.bw { (s.bankTaken off).deckEcc (off / 67108864) off len false with
        deck := ((s.bankTaken off).deck.store off (data.take len)).mergeWords off len } (68 + off / 67108864) true len, .ok) := by
  have hacc := h.hostAccess_ok hwon
  rw [deckKeyOf] at hacc
  unfold State.bar2
  simp only [h.column, h.free, h.present, h.grant, h.unsaved, decide_true, if_true, Bool.false_and, Bool.and_self, Bool.not_true,
    Bool.false_eq_true, if_false, hacc]

theorem State.DeckOpen.bar2_read (h : s.DeckOpen off) (hwon : (s.takeBank (off / 67108864) (deckKeyOf off)).2 = .ok)
    (data : List Byte) (len : Nat) : s.bar2 false off data len =
      ((((s.bankTaken off).deckEcc (off / 67108864) off len false).bw (68 + off / 67108864) false len).emit
        (.hostData ((s.bankTaken off).deck.bytes off len) false), .ok) := by
  have hacc := h.hostAccess_ok hwon
  rw [deckKeyOf] at hacc
  unfold State.bar2
  simp only [h.column, h.free, h.present, h.grant, h.unsaved, decide_true, if_true, Bool.false_and, Bool.and_self, Bool.not_true,
    Bool.false_eq_true, if_false, hacc]

theorem State.DeckOpen.bar2_wait (h : s.DeckOpen off) (hlost : (s.takeBank (off / 67108864) (deckKeyOf off)).2 = .wait)
    (write : Bool) (data : List Byte) (len : Nat) : s.bar2 write off data len =
      ((s.takeBank (off / 67108864) (deckKeyOf off)).1, .wait) := by
  have hacc := h.hostAccess_wait hlost
  rw [deckKeyOf] at hacc ⊢
  unfold State.bar2
  simp only [h.column, h.free, h.present, h.grant, h.unsaved, decide_true, if_true, Bool.false_and, Bool.and_self, Bool.not_true,
    Bool.false_eq_true, if_false, hacc]

theorem State.bankTaken_memsEq (s : State) (off : Nat) : s.MemsEq (s.bankTaken off) :=
  (State.takeBank_memsEq ..).trans (State.count_memsEq ..)

theorem State.DeckOpen.write_stores (h : s.DeckOpen off) (hwon : (s.takeBank (off / 67108864) (deckKeyOf off)).2 = .ok)
    {data : List Byte} (hwf : wfBar2 true off data data.length = true) :
    ∃ t, exec (.bar2Access true off data data.length) s = .next t ∧ (∀ k < data.length, t.deck.get (off + k) = data.getD k 0) ∧
      (∀ a, a < off ∨ off + data.length ≤ a → t.deck.get a = s.deck.get a) ∧
      ∀ a, t.nst.get a = s.nst.get a ∧ t.lp.get a = s.lp.get a := by
  obtain ⟨hnst, hdeck, hlp⟩ := s.bankTaken_memsEq off
  obtain ⟨hnst', -, hlp'⟩ := (s.bankTaken off).deckEcc_memsEq (off / 67108864) off data.length false
  have hexec : exec (.bar2Access true off data data.length) s = execBar2Access true off data data.length s := rfl
  unfold execBar2Access at hexec
  rw [if_pos hwf, h.bar2_write hwon] at hexec
  refine ⟨_, hexec, fun k hk => ?_, fun a ha => ?_, fun a => ⟨?_, ?_⟩⟩
  · rw [State.bw_deck, Mem.get_mergeWords, List.take_length, Mem.get_store_in _ _ _ _ hk, List.getD_eq_getElem _ _ hk]
  · rw [State.bw_deck, Mem.get_mergeWords, List.take_length, Mem.get_store_out _ _ _ _ ha, hdeck]
  · rw [State.bw_nst, hnst', hnst]
  · rw [State.bw_lp, hlp', hlp]

theorem State.DeckOpen.read_returns (h : s.DeckOpen off) (hwon : (s.takeBank (off / 67108864) (deckKeyOf off)).2 = .ok)
    {data : List Byte} {len : Nat} (hwf : wfBar2 false off data len = true) :
    ∃ t, exec (.bar2Access false off data len) s = .next t ∧ s.sameMem t ∧
      OutMsg.hostData (s.deck.bytes off len) false ∈ t.out := by
  have hmems := s.bankTaken_memsEq off
  have hexec : exec (.bar2Access false off data len) s = execBar2Access false off data len s := rfl
  unfold execBar2Access at hexec
  rw [if_pos hwf, h.bar2_read hwon] at hexec
  refine ⟨_, hexec, ?_, ?_⟩
  · exact (hmems.trans ((State.deckEcc_memsEq ..).trans ((State.bw_memsEq ..).trans (State.emit_memsEq ..)))).sameMem
  · rw [State.emit_out, hmems.2.1]
    exact List.mem_append_right _ (List.mem_singleton_self _)

theorem State.takeBank_out (s : State) (p key : Nat) : (s.takeBank p key).1.out = s.out := by
  unfold State.takeBank
  dsimp only
  split <;> rfl
theorem State.mem_waitBank_waiting (s t : State) (i : Instr) : i ∈ (s.waitBank t i).bankUse.waiting := by
  unfold State.waitBank
  dsimp only
  split
  next hin => exact List.contains_iff_mem.1 hin
  next => exact List.mem_append_right _ (List.mem_singleton_self _)

/-- An access that loses its bank waits for it, and shows nothing to the host. -/
theorem State.DeckOpen.access_waits (h : s.DeckOpen off) (hlost : (s.takeBank (off / 67108864) (deckKeyOf off)).2 = .wait)
    {write : Bool} {data : List Byte} {len : Nat} (hwf : wfBar2 write off data len = true) :
    ∃ t, exec (.bar2Access write off data len) s = .next t ∧ s.sameMem t ∧ t.out = s.out ∧
      Instr.bar2Access write off data len ∈ t.bankUse.waiting := by
  have hexec : exec (.bar2Access write off data len) s = execBar2Access write off data len s := rfl
  unfold execBar2Access at hexec
  rw [if_pos hwf, h.bar2_wait hlost] at hexec
  have hmems := (State.takeBank_memsEq s (off / 67108864) (deckKeyOf off)).trans
    (State.waitBank_memsEq _ (s.takeBank (off / 67108864) (deckKeyOf off)).1 (.bar2Access write off data len))
  exact ⟨_, hexec, hmems.sameMem, State.takeBank_out .., State.mem_waitBank_waiting ..⟩

theorem wfBar2_read {data : List Byte} {len : Nat} (h : wfBar2 true off data len = true) (write : Bool) :
    wfBar2 write off data len = true := by
  cases write with
  | true => exact h
  | false =>
    simp only [wfBar2, Bool.and_eq_true, Bool.not_true, Bool.false_or, Bool.not_false, Bool.true_or] at h ⊢
    obtain ⟨⟨⟨hlen, -⟩, hrow⟩, hoff⟩ := h
    exact ⟨⟨⟨hlen, trivial⟩, hrow⟩, hoff⟩
end

/-! ### Requests to the host (R383-R385, R392) -/

section
variable {s : State} {id m : Nat} {r : Req}

theorem State.findHostReq_id (h : s.findHostReq id = some (m, r)) : r.id = id := by
  obtain ⟨k, -, hk⟩ := List.exists_of_findSome?_eq_some h
  obtain ⟨x, hx, heq⟩ := Option.map_eq_some_iff.1 hk
  obtain ⟨-, rfl⟩ := Prod.mk.inj heq
  exact beq_iff_eq.1 (List.find?_some (p := fun r : Req => r.id == id) hx)

/-- A request that is late is counted (R392). -/
def State.countLate (s : State) (m : Nat) (r : Req) (t : State) : State := if s.isLate r then t.count 2 m 5 1 else t

theorem State.countLate_depotEq (m : Nat) (r : Req) (t : State) : t.DepotEq (s.countLate m r t) := by
  unfold State.countLate
  split <;> simp

/-- The state has let go of request `id` of module `m`. -/
def State.LetGo (t : State) (m id : Nat) : Prop := ∀ x ∈ (t.queueAt (queueKey 3 m)).reqs, x.id ≠ id

theorem State.letGo_of_dequeue {t u : State} (h : (u.dequeue (queueKey 3 m) id).DepotEq t) : t.LetGo m id := by
  intro x hx
  rw [h.queueAt] at hx
  exact u.not_mem_dequeue _ _ x hx

/-- The answer to a request that was sent ends it, unless its data wait for a bank (R383-R385). -/
theorem execDeviceRequestCompletion_ends {data : List Byte} {po : Bool} (hreq : s.findHostReq id = some (m, r))
    (hsent : r.sent = true) (hlen : data.length ≤ 64)
    (hserved : r.isWrite = true ∨ po = false ∧ (s.sinkRow r (BitVec.ofNat 512 (ofBytes data)) false true).2 ≠ .wait) :
    ∃ t, exec (.deviceRequestCompletion id data po) s = .next t ∧ t.LetGo m id := by
  have hexec : exec (.deviceRequestCompletion id data po) s = execDeviceRequestCompletion id data po s := rfl
  unfold execDeviceRequestCompletion at hexec
  rw [if_pos (by simpa [wfCompletion] using hlen), hreq] at hexec
  refine ⟨_, hexec, ?_⟩
  dsimp -zeta only
  rw [if_neg (by simp [hsent])]
  extract_lets qk v late s1
  split
  · split
    · exact State.letGo_of_dequeue (u := s) ⟨rfl, rfl⟩
    · exact State.letGo_of_dequeue (u := s) ⟨rfl, rfl⟩
  · exact State.letGo_of_dequeue (u := s1) ((s.countLate_depotEq m r _).trans ⟨rfl, rfl⟩)
  · split
    · exact State.letGo_of_dequeue (u := s) ((State.unitDone_depotEq ..).trans (s.countLate_depotEq m r _))
    next hread =>
      obtain ⟨rfl, hsink⟩ := hserved.resolve_left hread
      split
      next hwait => exact absurd hwait hsink
      next =>
        exact State.letGo_of_dequeue (u := (s1.sinkRow r v false true).1)
          ((State.unitDone_depotEq ..).trans (s.countLate_depotEq m r _))

theorem execDeviceRequestTimeout_fails (hreq : s.findHostReq id = some (m, r)) (hkind : ∀ q g, r.kind ≠ .flip q g)
    (hdue : r.issued + 4000000 * s.host.cto.toNat ≤ s.time) :
    ∃ t, exec (.deviceRequestTimeout id) s = .next t ∧ t.LetGo m id := by
  have hexec : exec (.deviceRequestTimeout id) s = execDeviceRequestTimeout id s := rfl
  unfold execDeviceRequestTimeout at hexec
  rw [hreq] at hexec
  refine ⟨_, hexec, ?_⟩
  dsimp only
  split
  next q g hflip => exact absurd hflip (hkind q g)
  next =>
    rw [if_pos hdue, ← State.findHostReq_id hreq]
    exact State.letGo_of_dequeue (State.failReq_depotEq ..)

/-! The lines of a page's flip (R384, R392) -/

/-- Module `k` without the lines of a flip of `page`. -/
def State.unflip (page : Nat) (s : State) (k : Nat) : State :=
  s.setQueue (queueKey 3 k) { s.queueAt (queueKey 3 k) with
    reqs := (s.queueAt (queueKey 3 k)).reqs.filter (fun x => match x.kind with | .flip _ g => g != page | _ => true) }

/-- Module `k` holds no line of a flip of `page`. -/
def State.NoFlip (s : State) (page k : Nat) : Prop := ∀ x ∈ (s.queueAt (queueKey 3 k)).reqs, ∀ q, x.kind ≠ .flip q page

theorem State.unflip_noFlip_same (page : Nat) (s : State) (k : Nat) : (s.unflip page k).NoFlip page k := by
  intro x hx q hflip
  rw [State.unflip, State.setQueue_queueAt_same] at hx
  have hne := (List.mem_filter.1 hx).2
  rw [hflip] at hne
  simp at hne

theorem State.NoFlip.unflip {page k : Nat} {s : State} (h : s.NoFlip page k) (j : Nat) : (s.unflip page j).NoFlip page k := by
  intro x hx
  rw [State.unflip, State.setQueue_queueAt] at hx
  split at hx
  next hk => exact h x (hk ▸ (List.mem_filter.1 hx).1)
  next => exact h x hx

theorem State.foldl_unflip_noFlip (page : Nat) (s : State) {N k : Nat} (hk : k < N) :
    ((List.range N).foldl (State.unflip page) s).NoFlip page k := by
  induction N with
  | zero => exact absurd hk (Nat.not_lt_zero _)
  | succ N ih =>
    rw [List.range_succ, List.foldl_append, List.foldl_cons, List.foldl_nil]
    by_cases h : k = N
    · exact h ▸ State.unflip_noFlip_same page _ k
    · exact (ih (by omega)).unflip N

theorem State.not_flipping_of_noFlip {s : State} {page : Nat} (h : ∀ k < 4, s.NoFlip page k) : s.flipping page = false := by
  simp only [State.flipping, List.any_eq_false, List.mem_range]
  intro k hk hany
  obtain ⟨x, hx, hflip⟩ := List.any_eq_true.1 hany
  split at hflip
  next q g hkind => exact h k hk x hx q (hkind.trans (congrArg _ (beq_iff_eq.1 hflip)))
  next => exact absurd hflip (by decide)

theorem execDeviceRequestTimeout_flip {q page : Nat} (hreq : s.findHostReq id = some (m, r)) (hflip : r.kind = .flip q page)
    (hdue : r.issued + 16000 ≤ s.time) : exec (.deviceRequestTimeout id) s =
      .next (((List.range 4).foldl (State.unflip page) s).hostEvent 0x3105 m (Config.hdmBase + 4096 * page)) := by
  have hexec : exec (.deviceRequestTimeout id) s = execDeviceRequestTimeout id s := rfl
  unfold execDeviceRequestTimeout at hexec
  rw [hreq] at hexec
  dsimp only at hexec
  rw [hflip] at hexec
  exact hexec.trans (congrArg Host.Outcome.next (if_pos hdue))
end

/-! ### The link (R376, R378) -/

theorem State.hostEvent_flipping (s : State) (code : Code) (aux detail page : Nat) :
    (s.hostEvent code aux detail).flipping page = s.flipping page := by
  simp only [State.flipping, State.queueAt, State.hostEvent, State.raise_queue]

theorem execUcieRetrainComplete_trained {s : State} (htrains : s.host.retrain = true) :
    ∃ t, exec (.ucieRetrainComplete true) s = .next t ∧ t.host = { s.host with retrain := false, fails := 0 } := by
  have hexec : exec (.ucieRetrainComplete true) s = execUcieRetrainComplete true s := rfl
  unfold execUcieRetrainComplete at hexec
  rw [if_neg (by simp [htrains]), if_pos rfl] at hexec
  refine ⟨_, hexec, (foldl_keeps State.host _ (fun t m => ?_) _ _).trans rfl⟩
  split
  · exact t.count_host ..
  · rfl

theorem execUcieRetrainComplete_fails {s : State} (htrains : s.host.retrain = true) : exec (.ucieRetrainComplete false) s = .next (
    if 2 ≤ s.host.fails then
      (s.onHost (fun h => { h with retrain := false, fails := 3, status := 3 })).hostEvent 0x3104 0 0
    else s.onHost (fun h => { h with fails := h.fails + 1 })) := by
  refine congrArg Host.Outcome.next ((if_neg (by simp [htrains])).trans (if_neg (by decide)))

theorem State.hostEvent_host (s : State) (code : Code) (aux detail : Nat) : (s.hostEvent code aux detail).host = s.host :=
  s.raise_host _

end Sys2Proof.Machine

open Sys2Proof Sys2Proof.Machine

/-- Settles O54, one lemma an access or an answer. -/
theorem hostLink : Obligations.HostLink := by
  intro s
  refine ⟨?error, ?retrain, fun hpa => rfl, ?unsupported, ?mem, ?bar2, ?requests⟩
  case error =>
    intro hup hsteady
    refine ⟨_, congrArg Host.Outcome.next (if_pos (by simp [hup, hsteady])), ?_⟩
    rw [State.hostEvent_host]
    rfl
  case retrain =>
    intro htrains
    refine ⟨?_, fun hfew => ?_, fun hthird => ⟨_, (execUcieRetrainComplete_fails htrains).trans
      (congrArg Host.Outcome.next (if_pos hthird)), ?_⟩⟩
    · obtain ⟨t, hexec, hhost⟩ := execUcieRetrainComplete_trained htrains
      exact ⟨t, hexec, by rw [hhost], by rw [hhost], by rw [hhost]⟩
    · exact (execUcieRetrainComplete_fails htrains).trans (congrArg Host.Outcome.next (if_neg (by omega)))
    · rw [State.hostEvent_host]
      rfl
  case unsupported =>
    intro hpa
    refine ⟨_, rfl, ?_, ?_⟩
    · exact State.mem_raise_out (fun _ => OutMsg.noConfusion) (List.mem_append_right _ (List.mem_singleton_self _)) _
    · exact ((s.emit_memsEq _).trans (State.raise_memsEq ..)).sameMem
  case mem =>
    intro da v haligned hsmall hhdm hcap hfree
    have hline : s.Line da := ⟨haligned, hsmall, hhdm, hcap, hfree⟩
    refine ⟨fun hhost hstill hgrant => ?_, fun hdevice => ⟨⟨_, hline.refused hdevice true v, ?_⟩, ⟨_, hline.refused hdevice false v,
      ?_, State.refuseHost_ones ..⟩⟩⟩
    · have hbiased : State.Line.Biased s da := ⟨hline, hhost, hstill, hgrant⟩
      obtain ⟨t, hexec, hin, hbeside, hothers⟩ := hbiased.write_stores v
      exact ⟨⟨t, hexec, hin, hbeside, hothers⟩, fun hclean => hbiased.read_returns hclean v⟩
    · exact ((s.hostCounted_memsEq da).trans (State.refuseHost_memsEq ..)).sameMem
    · exact ((s.hostCounted_memsEq da).trans (State.refuseHost_memsEq ..)).sameMem
  case bar2 =>
    intro off data hcolumn hwf p g hpresent hgrant hfree hon hunsaved
    have hopen : s.DeckOpen off := ⟨hcolumn, hpresent, hgrant, hfree, hon, hunsaved⟩
    exact ⟨fun hwon => ⟨hopen.write_stores hwon hwf, hopen.read_returns hwon (wfBar2_read hwf false)⟩,
      fun hlost write => hopen.access_waits hlost (wfBar2_read hwf write)⟩
  case requests =>
    intro id m r hreq gone
    refine ⟨fun data po hsent hwrite hlen => execDeviceRequestCompletion_ends hreq hsent hlen (.inl hwrite),
      fun data u acc hsent hread hlen hsink hserved => execDeviceRequestCompletion_ends hreq hsent hlen (.inr ⟨rfl, by rwa [hsink]⟩),
      fun q page hflip hdue => ⟨_, execDeviceRequestTimeout_flip hreq hflip hdue, ?_, ?_⟩,
      fun hkind hdue => execDeviceRequestTimeout_fails hreq hkind hdue⟩
    · rw [State.hostEvent_flipping]
      exact State.not_flipping_of_noFlip fun _ hk => State.foldl_unflip_noFlip page s hk
    · rw [State.hostEvent_host]
      exact congrArg HostSt.devBias (foldl_keeps State.host (State.unflip page) (fun _ _ => rfl) _ s)
end

section
/-! The pins and the boot (R447, R476, R478-R480, R487, R527). -/

namespace Sys2Proof.Machine

section
variable (s : State)

/-! ### What the steps of the ROM flow leave -/

theorem State.onBoot_memsEq (f : BootSt → BootSt) : s.MemsEq (s.onBoot f) := ⟨rfl, rfl, rfl⟩

theorem State.hostEvent_pins (code : Code) (aux detail : Nat) : (s.hostEvent code aux detail).pins = s.pins := s.raise_pins _

theorem State.trainLink_pins (f : BootFindings) : (s.trainLink f).pins = s.pins := by
  unfold State.trainLink
  refine (foldl_keeps State.pins _ (fun t k => ?_) _ _).trans ((foldl_keeps State.pins _ (fun t k => ?_) _ _).trans rfl)
  · split
    · rfl
    · exact t.hostEvent_pins ..
  · split
    · exact t.hostEvent_pins ..
    · rfl

/-- The memories are marched to zero, and the ROM waits for a delivery. -/
theorem State.released (f : BootFindings) : let t := ((s.march f).trainLink f).onBoot (fun b => { b with phase := 1 })
    t.pins = s.pins ∧ t.boot.phase = 1 ∧ t.nst = .empty 0 ∧ t.deck = .empty 1 := by
  obtain ⟨hnst, hdeck, -⟩ := (s.march f).trainLink_memsEq f
  exact ⟨(s.march f).trainLink_pins f, rfl, hnst, hdeck⟩

theorem execResetNRelease_waits (f : BootFindings) (hphase : s.boot.phase = 0) : ∃ t, exec (.resetNRelease f) s = .next t ∧
    t.pins.resetN = true ∧ t.boot.phase = 1 ∧ ∀ a, t.nst.get a = 0 ∧ t.deck.get a = 0 := by
  obtain ⟨hpins, hboot, hnst, hdeck⟩ := State.released { s with pins := { s.pins with resetN := true, shortPulse := false } } f
  refine ⟨_, congrArg Host.Outcome.next (if_neg (not_not.2 hphase)), ?_⟩
  dsimp only
  split
  · rw [State.raise_pins, State.raise_boot, State.raise_nst, State.raise_deck, hpins, hnst, hdeck]
    exact ⟨rfl, hboot, fun a => ⟨rfl, rfl⟩⟩
  · rw [hpins, hnst, hdeck]
    exact ⟨rfl, hboot, fun a => ⟨rfl, rfl⟩⟩

theorem State.rejectDelivery_boot (res : Nat) :
    (s.rejectDelivery res).boot = { s.boot with fwResult := BitVec.ofNat 3 res, phase := 1 } := by
  rw [State.rejectDelivery, State.raise_boot]
  rfl
theorem State.rejectDelivery_shape (res : Nat) : (s.rejectDelivery res).shape = s.shape := by
  rw [State.rejectDelivery, State.raise_shape]
  rfl

theorem ShapeSt.settle_built (x : ShapeSt) : x.settle.built = true := by
  unfold ShapeSt.settle
  extract_lets r l spares
  split <;> rfl

theorem State.settleShape_settled : s.settleShape.boot.step5 = true ∧ s.settleShape.shape.built = true := by
  have hbuilt := s.shape.settle_built
  unfold State.settleShape
  extract_lets x t u
  have hu : u.boot.step5 = true ∧ u.shape.built = true := ⟨rfl, hbuilt⟩
  clear_value u
  split
  · rw [State.raise_boot, State.raise_shape]
    exact hu
  · exact hu

/-- What firmware's start leaves of the boot. -/
def State.bootNotes : Bool × BitVec 3 × Bool := (s.boot.step5, s.boot.fwResult, s.shape.built)

theorem State.voltageSearch_keeps (v : VoltageFinding) :
    (s.voltageSearch v).bootNotes = s.bootNotes ∧ (s.voltageSearch v).mport = s.mport := by
  unfold State.voltageSearch
  split
  · exact ⟨rfl, rfl⟩
  · extract_lets t put
    have hput (u : State) (mv : Nat) : (put u mv).bootNotes = u.bootNotes ∧ (put u mv).mport = u.mport := ⟨rfl, rfl⟩
    have ht : t.bootNotes = s.bootNotes ∧ t.mport = s.mport := ⟨rfl, rfl⟩
    clear_value put t
    obtain ⟨hnotes, hports⟩ := ht
    cases v with
    | warnAt mv => exact ⟨(hput _ _).1.trans hnotes, (hput _ _).2.trans hports⟩
    | slower mhz => exact ⟨(hput _ _).1.trans hnotes, (hput _ _).2.trans hports⟩
    | persists => exact ⟨(hput (t.onPwr _) 850).1.trans hnotes, (hput (t.onPwr _) 850).2.trans hports⟩

theorem State.startFirmware_starts (v : VoltageFinding) : (s.startFirmware v).post.firmware = true ∧
    (s.startFirmware v).bootNotes = s.bootNotes ∧ ∀ i < 16, ((s.startFirmware v).mportAt i).trained = true := by
  unfold State.startFirmware
  extract_lets t u phase
  have ht : t.bootNotes = s.bootNotes := rfl
  have hports : ∀ i < 16, (t.mportAt i).trained = true := by
    intro i hi
    rw [State.mportAt, tget_range _ _ _ _ hi]
    split
    next htrained => exact htrained
    next => rfl
  have hu : u.bootNotes = s.bootNotes ∧ u.mport = t.mport := by
    unfold u
    split
    · exact ⟨rfl, rfl⟩
    · obtain ⟨hnotes, hmport⟩ := t.voltageSearch_keeps v
      exact ⟨hnotes.trans ht, hmport⟩
  clear_value u t
  exact ⟨rfl, hu.1, fun i hi => by rw [← hports i hi, State.mportAt, State.mportAt, ← hu.2]; rfl⟩

/-! ### The delivery (R478-R481) -/

/-- The state in which step 6 begins: step 5 has run. -/
def State.step6 (host : HostView) : State :=
  if s.boot.step5 = true then s else ((s.takeIdentity host).takeGrade host).settleShape

theorem State.step6_memsEq (host : HostView) : s.MemsEq (s.step6 host) := by
  unfold State.step6
  split
  · exact ⟨rfl, rfl, rfl⟩
  · exact (State.takeIdentity_memsEq ..).trans ((State.takeGrade_memsEq ..).trans (State.settleShape_memsEq _))

/-- The image that a delivery presents, and what the checks make of it. -/
def State.presented (host : HostView) : List Byte := viewBytes host s.boot.fwAddr.toNat (max 5120 s.boot.fwLen.toNat)
def State.verdict (host : HostView) : Nat := fwCheck (s.presented host) s.boot.fwLen.toNat

/-- The state in which firmware starts. -/
def State.verified (host : HostView) : State :=
  s.onBoot (fun b => { b with
    fwResult := 1, fwDigest := fwDigestOf (s.presented host) (fieldAt (s.presented host) 0xC 4)
    fwVersion := BitVec.ofNat 32 (fieldAt (s.presented host) 8 4) })

variable {s} {host : HostView} {volt : VoltageFinding}

theorem execDeliverGo_unlinked (hphase : s.boot.phase = 1) (hlink : s.host.status ≠ 2) :
    exec (.deliverGo host volt) s = .next (s.rejectDelivery 3) :=
  congrArg Host.Outcome.next ((if_neg (not_not.2 hphase)).trans (if_pos hlink))

theorem execDeliverGo_linked (hphase : s.boot.phase = 1) (hlink : s.host.status = 2) : exec (.deliverGo host volt) s =
    .next (if (s.step6 host).verdict host ≠ 1 then (s.step6 host).rejectDelivery ((s.step6 host).verdict host)
      else ((s.step6 host).verified host).startFirmware volt) :=
  congrArg Host.Outcome.next ((if_neg (not_not.2 hphase)).trans (if_neg (not_not.2 hlink)))

theorem execDeliverGo_fails (hphase : s.boot.phase = 1) (hlink : s.host.status = 2) (hstep : s.boot.step5 = true)
    (hbad : s.verdict host ≠ 1) : ∃ t, exec (.deliverGo host volt) s = .next t ∧ t.boot.phase = 1 := by
  have hsix : s.step6 host = s := if_pos hstep
  refine ⟨_, execDeliverGo_linked hphase hlink, ?_⟩
  rw [hsix, if_pos hbad, State.rejectDelivery_boot]

theorem execDeliverGo_starts (hphase : s.boot.phase = 1) (hlink : s.host.status = 2) (hstep : s.boot.step5 = true)
    (hgood : s.verdict host = 1) : ∃ t, exec (.deliverGo host volt) s = .next t ∧ t.post.firmware = true ∧ t.boot.fwResult = 1 ∧
      ∀ i < 16, (t.mportAt i).trained = true := by
  have hsix : s.step6 host = s := if_pos hstep
  obtain ⟨hfirmware, hnotes, hports⟩ := (s.verified host).startFirmware_starts volt
  simp only [State.bootNotes, Prod.mk.injEq] at hnotes
  obtain ⟨-, hresult, -⟩ := hnotes
  refine ⟨_, execDeliverGo_linked hphase hlink, ?_⟩
  rw [hsix, if_neg (not_not.2 hgood)]
  exact ⟨hfirmware, hresult, hports⟩

theorem execDeliverGo_settles (hphase : s.boot.phase = 1) (hlink : s.host.status = 2) (hstep : s.boot.step5 = false) :
    ∃ t, exec (.deliverGo host volt) s = .next t ∧ t.boot.step5 = true ∧ t.shape.built = true ∧ s.sameMem t := by
  have hsix : s.step6 host = ((s.takeIdentity host).takeGrade host).settleShape := if_neg (by rw [hstep]; decide)
  have hsettled := State.settleShape_settled ((s.takeIdentity host).takeGrade host)
  rw [← hsix] at hsettled
  have hmems := s.step6_memsEq host
  refine ⟨_, execDeliverGo_linked hphase hlink, ?_⟩
  generalize s.step6 host = u at hsettled hmems
  obtain ⟨hdone, hbuilt⟩ := hsettled
  split
  · rw [State.rejectDelivery_boot, State.rejectDelivery_shape]
    exact ⟨hdone, hbuilt, (hmems.trans (State.rejectDelivery_memsEq ..)).sameMem⟩
  · obtain ⟨-, hnotes, -⟩ := (u.verified host).startFirmware_starts volt
    simp only [State.bootNotes, Prod.mk.injEq] at hnotes
    obtain ⟨hstep', -, hbuilt'⟩ := hnotes
    exact ⟨hstep'.trans hdone, hbuilt'.trans hbuilt,
      (hmems.trans ((u.onBoot_memsEq _).trans (State.startFirmware_memsEq ..))).sameMem⟩

/-! ### PWR_FAIL_N (R319, R476) -/

theorem execPwrFailNFall_fails {ns : Nat} (hhigh : s.pins.pwrFailN = true) (hlong : 200 ≤ ns) :
    ∃ t, exec (.pwrFailNFall ns) s = .next t ∧ t.pins.pwrFailN = false ∧
      (s.pins.resetN = true → s.depot.state = 1 ∨ s.depot.state = 2 → t.depot.flushing = true) ∧
      (s.depot.state = 0 → t.depot.state = 3) := by
  have hisolate (u : State) : u.isolate.depot = u.depot ∧ u.isolate.pins = u.pins := ⟨rfl, rfl⟩
  refine ⟨_, congrArg Host.Outcome.next ((if_neg (by simp [hhigh])).trans (if_neg (by omega))), ?_⟩
  extract_lets ready pins t u
  have hpins : u.pins.pwrFailN = false := by unfold u; split <;> rfl
  have hflush : s.pins.resetN = true → s.depot.state = 1 ∨ s.depot.state = 2 → u.depot.flushing = true := by
    intro hup hready
    have hflushes : ready = true := by rcases hready with h | h <;> simp [ready, hup, h]
    unfold u
    rw [if_pos hflushes]
    rfl
  have hhalt : s.depot.state = 0 → u.depot.state = 3 := by
    intro hoff
    have hhalts : ready = false := by simp [ready, hoff]
    unfold u
    rw [if_neg (by rw [hhalts]; decide)]
    rfl
  clear_value u
  split
  · rw [(hisolate u).1, (hisolate u).2]
    exact ⟨hpins, hflush, hhalt⟩
  · exact ⟨hpins, hflush, hhalt⟩

theorem execPwrFailNFall_short {ns : Nat} (hshort : ns < 200) :
    ∃ t, exec (.pwrFailNFall ns) s = .next t ∧ t.depot = s.depot ∧ s.sameMem t ∧ s.sameRegs t := by
  have hraise (e : Ev) : (s.raise e).depot = s.depot ∧ s.sameMem (s.raise e) ∧ s.sameRegs (s.raise e) := by
    obtain ⟨hregs, hmem⟩ := State.frame_of_kept (s.raise_kept e)
    exact ⟨s.raise_depot e, hmem, hregs⟩
  have hsame : s.depot = s.depot ∧ s.sameMem s ∧ s.sameRegs s := by
    obtain ⟨hregs, hmem⟩ := State.frame_of_kept (s := s) rfl
    exact ⟨rfl, hmem, hregs⟩
  refine ⟨_, rfl, ?_⟩
  split
  · exact hsame
  · split
    · exact hraise _
    · exact hsame

/-! ### REENTER (R479, R487) -/

/-- Every RUNNING command that firmware ends is answered. -/
theorem State.endCommands_done (a : Answer) {l : List Nat} {n : Nat} (hn : n ∈ l) (s : State) :
    ((l.foldl (fun (s : State) (n : Nat) => (s.leave n).finishCmd n a) s).pghAt n).state ≠ 2 := by
  induction l generalizing s with
  | nil => exact absurd hn List.not_mem_nil
  | cons m r ih =>
    rw [List.foldl_cons]
    by_cases hr : n ∈ r
    · exact ih hr _
    · obtain rfl := (List.mem_cons.1 hn).resolve_right hr
      have hdone : (((s.leave n).finishCmd n a).pghAt n).state ≠ 2 := by
        by_cases hrun : ((s.leave n).pghAt n).state = 2
        · rw [State.finishCmd_pghAt_same _ _ _ hrun, State.answered_state]
          decide
        · rwa [State.finishCmd_idle _ _ _ hrun]
      rwa [(State.endCommands_answers _ a r).pghAt_of_ne hdone]

/-- A POSTED command is dropped (R487). -/
def State.dropPosted (s : State) (n : Nat) : State :=
  if (s.pghAt n).state = 1 then s.setPgh n { s.pghAt n with state := 0, dropped := true } else s

theorem State.dropPosted_memsEq (s : State) (n : Nat) : s.MemsEq (s.dropPosted n) := by
  unfold State.dropPosted
  split <;> exact ⟨rfl, rfl, rfl⟩

theorem State.dropPosted_same (s : State) (n : Nat) (h : (s.pghAt n).state ≠ 2) :
    ((s.dropPosted n).pghAt n).state ≠ 2 ∧ ((s.dropPosted n).pghAt n).state ≠ 1 := by
  unfold State.dropPosted
  split
  · rw [State.setPgh_pghAt_same]
    exact ⟨show (0 : BitVec 2) ≠ 2 by decide, show (0 : BitVec 2) ≠ 1 by decide⟩
  next hposted => exact ⟨h, hposted⟩

theorem State.dropPosted_ne (s : State) {n m : Nat} (h : m ≠ n) : (s.dropPosted n).pghAt m = s.pghAt m := by
  unfold State.dropPosted
  split
  · rw [State.pghAt, State.setPgh, tget_tset_ne _ _ _ h, State.pghAt]
  · rfl

theorem State.dropAll_rests (s : State) (hdone : ∀ m < 64, (s.pghAt m).state ≠ 2) {N : Nat} (hN : N ≤ 64) :
    (∀ m < 64, (((List.range N).foldl State.dropPosted s).pghAt m).state ≠ 2) ∧
      ∀ m < N, (((List.range N).foldl State.dropPosted s).pghAt m).state ≠ 1 := by
  induction N with
  | zero => exact ⟨hdone, fun m hm => absurd hm (Nat.not_lt_zero _)⟩
  | succ N ih =>
    obtain ⟨hrun, hposted⟩ := ih (by omega)
    rw [List.range_succ, List.foldl_append, List.foldl_cons, List.foldl_nil]
    refine ⟨fun m hm => ?_, fun m hm => ?_⟩
    · by_cases h : m = N
      · exact h ▸ (State.dropPosted_same _ N (hrun N (by omega))).1
      · rw [State.dropPosted_ne _ h]
        exact hrun m hm
    · by_cases h : m = N
      · exact h ▸ (State.dropPosted_same _ N (hrun N (by omega))).2
      · rw [State.dropPosted_ne _ h]
        exact hposted m (by omega)

/-- The state in which the ROM has every pigeonhole IDLE or DONE. -/
def State.emptied (s : State) : State := (List.range 64).foldl State.dropPosted
  (s.running.foldl (fun (s : State) (n : Nat) => (s.leave n).finishCmd n { status := 5, detail := 1 }) s)

theorem State.emptied_rests (s : State) {m : Nat} (hm : m < 64) : (s.emptied.pghAt m).state = 0 ∨ (s.emptied.pghAt m).state = 3 := by
  obtain ⟨hrun, hposted⟩ := State.dropAll_rests
    (s.running.foldl (fun (s : State) (n : Nat) => (s.leave n).finishCmd n { status := 5, detail := 1 }) s)
    (fun k hk => by
      by_cases hr : k ∈ s.running
      · exact State.endCommands_done _ hr s
      · have hidle : (s.pghAt k).state ≠ 2 := fun h => hr (by simp [State.running, hk, h])
        rwa [(s.endCommands_answers _ _).pghAt_of_ne hidle]) le_rfl
  have hrun' : (s.emptied.pghAt m).state ≠ 2 := hrun m hm
  have hposted' : (s.emptied.pghAt m).state ≠ 1 := hposted m hm
  generalize (s.emptied.pghAt m).state = b at hrun' hposted'
  revert b
  decide

theorem execReenter_eq (hphase : s.boot.phase = 3) (hprog : s.frm.prog = none) (hgoes : s.frm.halted = false) :
    exec .reenter s = .next (((s.emptied.onPost (fun p => { p with firmware := false })).onBoot (fun b => { b with phase := 1 })).raise
      { code := 0x3207, aux := 4 }) :=
  congrArg Host.Outcome.next (if_neg (by simp [hphase, hprog, hgoes]))

theorem execReenter_waits (hphase : s.boot.phase = 3) (hprog : s.frm.prog = none) (hgoes : s.frm.halted = false) :
    ∃ t, exec .reenter s = .next t ∧ t.boot.phase = 1 ∧ t.post.firmware = false ∧ (s.running = [] → s.sameMem t) ∧
      ∀ n < 64, (t.pghAt n).state = 0 ∨ (t.pghAt n).state = 3 := by
  refine ⟨_, execReenter_eq hphase hprog hgoes, ?_, ?_, fun hnone => ?_, fun n hn => ?_⟩
  · rw [State.raise_boot]
    rfl
  · rw [State.raise_post]
    rfl
  · have hemptied : s.MemsEq s.emptied := by
      rw [State.emptied, hnone]
      exact State.foldl_memsEq _ _ _ State.dropPosted_memsEq
    generalize s.emptied = u at hemptied
    have hrest : u.MemsEq ((u.onPost (fun p => { p with firmware := false })).onBoot (fun b => { b with phase := 1 })) :=
      ⟨rfl, rfl, rfl⟩
    exact (hemptied.trans (hrest.trans (State.raise_memsEq ..))).sameMem
  · have hrests := s.emptied_rests hn
    generalize s.emptied = u at hrests
    rw [State.raise_pghAt]
    exact hrests
end

/-! ### RESET_N, and what its obligation rests on -/

theorem State.sameRegs.trans {s t u : State} (h : s.sameRegs t) (k : t.sameRegs u) : s.sameRegs u := by
  intro p n
  obtain ⟨h1, h2, h3, h4, h5, h6, h7, harr⟩ := h p n
  obtain ⟨k1, k2, k3, k4, k5, k6, k7, karr⟩ := k p n
  refine ⟨k1.trans h1, k2.trans h2, k3.trans h3, k4.trans h4, k5.trans h5, k6.trans h6, k7.trans h7, fun arr => ?_⟩
  obtain ⟨h8, h9, h10, h11⟩ := harr arr
  obtain ⟨k8, k9, k10, k11⟩ := karr arr
  exact ⟨k8.trans h8, k9.trans h9, k10.trans h10, k11.trans h11⟩

/-- Cores with no register written, in a later invocation: each register is a free value of the configuration (R102). -/
def State.unwritten (e : Nat) : State := { State.reset with epoch := e + 1 }

theorem State.afterReset_sameRegs_iff (s : State) :
    State.reset.sameRegs s.afterReset ↔ State.reset.sameRegs (State.unwritten s.epoch) :=
  ⟨fun h => h.trans (State.sameRegs_of_regs (fun _ => rfl) rfl), fun h => h.trans (State.sameRegs_of_regs (fun _ => rfl) rfl)⟩

/-- What O56 comes down to; it does not settle O56. Every clause but one holds. That one says that after RESET_N each register
reads as in the reset state, where all read 0. But RESET_N begins a new invocation, in which an unwritten register is the free
value `Config.undefReg` (R102, log entry 5), an opaque constant: no proof can say that it is 0, and none that it is not. -/
theorem pinsAndBoot_iff : Obligations.PinsAndBoot ↔ ∀ e, State.reset.sameRegs (State.unwritten e) := by
  refine ⟨fun h e => ?_, fun hzero s => ?_⟩
  · obtain ⟨-, hreset, -⟩ := h { State.reset with epoch := e, pins := { State.reset.pins with resetN := true } }
    obtain ⟨t, hexec, -, hregs, -⟩ := hreset 1000 rfl le_rfl
    rw [execResetNAssert_resets rfl le_rfl] at hexec
    obtain rfl := Host.Outcome.next.inj hexec
    exact (State.afterReset_sameRegs_iff _).1 hregs
  · refine ⟨fun ns hhigh hshort => ?short, fun ns hhigh hlong => ⟨_, execResetNAssert_resets hhigh hlong, rfl,
        (s.afterReset_sameRegs_iff).2 (hzero _), rfl, rfl, rfl, rfl⟩, ⟨_, rfl, rfl, rfl, rfl⟩, execResetNRelease_waits s,
      fun ns hhigh hlong => execPwrFailNFall_fails hhigh hlong, fun ns hshort => execPwrFailNFall_short hshort,
      fun host volt hphase hlink => ⟨_, execDeliverGo_unlinked hphase hlink, ?_, ?_⟩,
      fun host volt hphase hlink hstep => ⟨fun hbad => execDeliverGo_fails hphase hlink hstep hbad,
        fun hgood _ => execDeliverGo_starts hphase hlink hstep hgood⟩,
      fun host volt hphase hlink hstep => execDeliverGo_settles hphase hlink hstep,
      fun hphase hprog hgoes => execReenter_waits hphase hprog hgoes⟩
    case short =>
      obtain ⟨hregs, hmem⟩ := State.frame_of_kept (s := s) (t := { s with pins := { s.pins with shortPulse := true } }) rfl
      exact ⟨_, congrArg Host.Outcome.next ((if_neg (by simp [hhigh])).trans (if_pos hshort)), rfl, hregs, hmem⟩
    · rw [State.rejectDelivery_boot]
    · rw [State.rejectDelivery_boot]
      rfl

/-- Were every free value 0, O56 would hold: so its negation is not provable from the other clauses. -/
theorem unwritten_of_zero (h : ∀ k e p n, Config.undefReg k e p n = 0) (e : Nat) : State.reset.sameRegs (State.unwritten e) := by
  have hundef (k p n : Nat) : (State.unwritten e).undef k p n = State.reset.undef k p n := by
    rw [State.undef, State.undef, h, h, ite_self, ite_self]
  have hcore (p : Nat) : (State.unwritten e).coreAt p = State.reset.coreAt p := rfl
  intro p n
  simp only [State.sReg, State.aReg, State.dpReg, State.vReg, State.mReg, State.seedReg, State.idxReg, State.cfgReg, State.entReg,
    State.sclReg, State.psum, hcore, hundef, and_self, implies_true]

/-- O56 says of the free values of vector registers that they are 0. -/
theorem zero_of_unwritten {e p n : Nat} (h : State.reset.sameRegs (State.unwritten e)) (hn : n < 32) :
    Config.undefReg 3 (e + 1) p n = 0 := by
  obtain ⟨-, -, -, hv, -⟩ := h p n
  have hread : (State.unwritten e).vReg p n = Config.undefReg 3 (e + 1) p (n % 32) := rfl
  rw [Nat.mod_eq_of_lt hn] at hread
  exact hread.symm.trans hv


end Sys2Proof.Machine
end
